-- ==== Sys2Proof/Word.lean ====
section
/-! DEFINITION. Words, bytes and sparse tables: the plain types every other file uses. -/

namespace Sys2Proof

/-- A register, a descriptor word, a scalar: 32 bits (R697, R135). -/
abbrev Word := BitVec 32

/-- The smallest addressable unit of every memory. -/
abbrev Byte := BitVec 8

/-- A sparse table: pairs of an index and an entry, indexes strictly rising, no entry equal to what an
unlisted index holds. The operations stand in Machine/Tab.lean. -/
abbrev Tab (α : Type) := List (Nat × α)

/-- A byte memory in the same form: an unlisted address reads as the memory's fill byte. -/
abbrev Mem := List (Nat × BitVec 8)

end Sys2Proof
end

