-- ==== Sys2Proof/Syntax.lean ====
section
/-! DEFINITION. The commands of the AK7840 as a block: one constructor of `Instr` per row of
spec/opcode_table.json, and the operand records they carry. -/

namespace Sys2Proof

/-! ### Clove operand formats (R142, R143) -/

/-- Format R of R142: SAT, the three register fields and their bank bits. -/
structure RFmt where
  sat : Bool
  sd : BitVec 5
  sa : BitVec 5
  sb : BitVec 5
  wd : Bool
  wa : Bool
  wb : Bool
  deriving DecidableEq, Repr

/-- Format I of R142. -/
structure IFmt where
  sat : Bool
  sd : BitVec 5
  sa : BitVec 5
  imm : BitVec 16
  deriving DecidableEq, Repr

/-- XMOVE or YMOVE of R143. -/
structure XYMove where
  en : Bool
  ptr : BitVec 2
  byMod : Bool
  dest : BitVec 2
  deriving DecidableEq, Repr

/-- Format M of R142, less MOP, which the constructor names. -/
structure MFmt where
  sat : Bool
  frac : Bool
  ad : Bool
  sa : BitVec 5
  sb : BitVec 5
  xm : XYMove
  ym : XYMove
  deriving DecidableEq, Repr

/-- Format T of R142: FTAP. -/
structure TFmt where
  sat : Bool
  frac : Bool
  ad : Bool
  px : BitVec 2
  py : BitVec 2
  deriving DecidableEq, Repr

/-- Format LS of R142: LDX, LDY, STX, STY. -/
structure LSFmt where
  w32 : Bool
  reg : BitVec 5
  wbank : Bool
  ptr : BitVec 2
  post : Bool
  deriving DecidableEq, Repr

/-- Format P of R142: SETP. -/
structure PFmt where
  yBank : Bool
  ptr : BitVec 2
  field : BitVec 2
  src : BitVec 5
  deriving DecidableEq, Repr

/-- The two words of REP under R142: COUNT is word 1 [31:16], whose low five bits name the register when
CSRC is 1. -/
structure RepFmt where
  rot : Bool
  csrc : Bool
  lenM1 : BitVec 11
  count : BitVec 16
  span : BitVec 16
  deriving DecidableEq, Repr

/-- ISSUE under R142. -/
structure IssFmt where
  queue : BitVec 2
  eng : Bool
  px : BitVec 2
  patch : BitVec 5
  pword : BitVec 4
  pen : Bool
  deriving DecidableEq, Repr

/-! ### What the outside world shows to a command -/

/-- What an ECC-protected read met (R548, R611). -/
inductive Ecc where
  | clean
  | corrected
  | uncorrectable
  deriving DecidableEq, Repr

/-- Where a physical fault sits in a matrix engine (R90-R94): a cell, or a register of the checksum row or
column. -/
inductive FaultSite where
  | cell (row col : Nat)
  | csumRow (col : Nat)
  | csumCol (row : Nat)
  deriving DecidableEq, Repr

/-- A fault that strikes while a tile is computed: `delta` is added to the sum held there; `imag` names the
imaginary part of a complex tile. -/
structure CellFault where
  site : FaultSite
  imag : Bool
  delta : Int
  deriving DecidableEq, Repr

/-- A register page: block code and instance (R693). -/
structure Page where
  code : Nat
  inst : Nat
  deriving DecidableEq, Repr

/-- A SET or ADD that reaches an object in the same NCLK cycle as a WRITE or CLEAR (R254). -/
inductive SameCycle where
  | nothing
  | set
  | add (v : Word)
  deriving DecidableEq, Repr

/-- Who asks for an operation on a synchronisation object (R242-R245, R259, R260): a Clove core with the
register fields of R245, the host with an OBJ descriptor at the head of its partition's picked-up
descriptors, an engine's hardware update, or a peer chip through an Ilush port. -/
inductive SyncReq where
  | core (c : Nat) (sa sb sd sl : BitVec 5) (cont : Bool)
  | host (part : Nat)
  | engine (unit : Word) (part obj : Nat) (operand : Word)
  | peer (port rpart obj : Nat) (operand limit : Word)
  deriving DecidableEq, Repr

/-! ### FAPI messages, as decoded fields (SCF 222 encodings are not in the manual) -/

/-- What CONFIG.request asks for (R336, R338): the air-interface figures checked under R305-R309 and the
vendor TLVs, each absent or a value. `otherChange` says that anything but the vendor TLVs changes; `tddGap` are the least ns of the
TDD pattern from a downlink burst's end to an uplink symbol, and from an uplink symbol's end to a burst (15 R487). -/
structure CellConfig where
  lte : Bool
  mu : Nat
  fr2 : Bool
  prbs : Nat
  rxAnts : Nat
  txAnts : Nat
  extendedCp : Bool
  unsupported : Bool
  otherChange : Bool
  antEraseMax : Option Nat
  eraseMaxPct : Option Nat
  prachThresh : Option Nat
  slotIndAdv : Option Nat
  learnedRx : Option Nat
  tddGap : Option (Nat × Nat)
  deriving DecidableEq, Repr

/-- The kinds of uplink PDU (R309). -/
inductive UlKind where
  | pusch
  | pucch
  | prach
  | srs
  deriving DecidableEq, Repr

/-- One uplink PDU (R309, R442, R538). `fmt` is the PUCCH or PRACH format (the latter in the order of 10 R326), `ctx` the vendor TLV
0xA010, `syms` and `dmrs` the symbols that carry data (or the preamble) and DMRS, `bits` the rate-matched bits of the transport block,
`report` asks for SRS.indication; `unsupported` says that it asks for something R307 refuses. -/
structure UlPdu where
  kind : UlKind
  fmt : Nat
  ctx : Option Nat
  layers : Nat
  prb0 : Nat
  prbs : Nat
  syms : List Nat
  dmrs : List Nat
  codeBlocks : Nat
  bg2 : Bool
  zc : Nat
  tbs : Nat
  harq : Nat
  newData : Bool
  rv : Nat
  qm : Nat
  bits : Nat
  roots : Nat
  report : Bool
  uci : Bool
  unsupported : Bool
  deriving DecidableEq, Repr

/-- The kinds of downlink PDU (R309). -/
inductive DlKind where
  | pdcch
  | pdsch
  | ssb
  | csirs
  deriving DecidableEq, Repr

/-- One downlink PDU; `bits` are the rate-matched bits of its block. -/
structure DlPdu where
  kind : DlKind
  prbs : Nat
  layers : Nat
  tbs : Nat
  codeBlocks : Nat
  bg2 : Bool
  zc : Nat
  qm : Nat
  rv : Nat
  bits : Nat
  unsupported : Bool
  deriving DecidableEq, Repr

/-- A PDSCH payload named by host address (R537). -/
structure TxPayload where
  pdu : Nat
  addr : Nat
  len : Nat
  deriving DecidableEq, Repr

/-- The reasons that the manual gives for a FAPI error code (R307, R334-R337). -/
inductive FapiErr where
  | invalidConfig
  | invalidState
  | invalidSfn
  | late
  | unsupported
  deriving DecidableEq, Repr

/-- The messages of R335 that a host sends. -/
inductive FapiReq where
  | param
  | config
  | start
  | stop
  | dlTti
  | ulTti
  | ulDci
  | txData
  | other (msgType : Nat)
  deriving DecidableEq, Repr

/-- One entry of CRC.indication (R323, R324): STATUS of R533, whether it carries FALLBACK, and the cause. -/
structure CrcEntry where
  pass : Bool
  status : Nat
  fallback : Bool
  cause : Nat
  deriving DecidableEq, Repr

/-- One entry of RACH.indication (R328, R330): status, antennas used, and the preambles: index, delay, peak over noise as a
numerator and denominator. -/
structure RachEntry where
  status : Nat
  ants : Nat
  preambles : List (Nat × Nat × Nat × Nat)
  deriving DecidableEq, Repr

/-- A message from the device to the host (R335). -/
inductive FapiMsg where
  | paramResponse
  | configResponse (ok : Bool)
  | stopIndication
  | slotIndication (slot : Nat)
  | errorIndication (req : FapiReq) (err : FapiErr) (slot : Nat) (pdu : Option Nat)
  | crcIndication (slot : Nat) (l : List CrcEntry)
  | rxData (slot : Nat) (l : List (List Byte))
  | uci (slot : Nat) (l : List (Nat × List Bool))
  | srs (slot : Nat) (l : List Nat)
  | rach (slot : Nat) (l : List RachEntry)
  deriving DecidableEq, Repr

/-! ### Fronthaul frames, as the port sees them (R458-R469) -/

/-- One U-plane section of a frame (R467). -/
structure Section where
  sectionId : Nat
  startPrb : Nat
  numPrb : Nat
  compMeth : Nat
  iqWidth : Nat
  lenOk : Bool
  payload : List Byte
  deriving DecidableEq, Repr

/-- The eCPRI part of a frame (R460, R467). `len` is the payload size the header gives, `space` what the
frame holds. -/
structure ECpri where
  rev : Nat
  concat : Bool
  msgType : Nat
  len : Nat
  space : Nat
  eaxc : Nat
  seqId : Nat
  uplink : Bool
  slot : Nat
  sym : Nat
  filterIndex : Nat
  sections : List Section
  deriving DecidableEq, Repr

/-- A frame at a port: the header fields R458 judges by, its raw receive time in ns, and its eCPRI part. -/
structure RxFrame where
  dst : Nat
  multicastOn : Bool
  src : Nat
  vlanTags : Nat
  vid : Nat
  fcsOk : Bool
  len : Nat
  etype : Nat
  pause : Bool
  rawNs : Nat
  ecpri : Option ECpri
  bytes : List Byte
  deriving DecidableEq, Repr

/-- A flit on an Ilush link (R567, R576): what its payload asks for. -/
inductive FlitBody where
  | write (rpart cluster off : Nat) (data : List Byte)
  | denial
  | pod (rpart pod : Nat) (handle : BitVec 128)
  | credits (channel n : Nat)
  | management
  deriving DecidableEq, Repr

/-- One record of a replayed trace (R597, R602). -/
inductive TraceRec where
  | recorded (assoc slot sym startPrb numPrb stream : Nat) (accepted : Bool) (payload : List Byte)
  | convGrid (cell slot sym : Nat) (grid : List Byte) (erased : List Nat)
  | desc (words : List Word)
  | hostRead (addr : Nat) (data : List Byte)
  | commit (pg : Page) (off sel : Nat) (value : Word)
  | time (kind : Nat) (value : Int)
  | remote (cluster off : Nat) (data : List Byte)
  | remoteObj (obj : Nat) (value : Word)
  | decision (choice job value : Nat)
  | jobStart (entry slot gen unit deadline : Nat) (args : List Word)
  | priorWrite (addr : Nat) (data : List Byte)
  | gap (n : Nat)
  | stop (reason : Nat)
  deriving DecidableEq, Repr

/-- **The commands.** One constructor per row of spec/opcode_table.json, family by family. `c` is a
physical cluster, `e` a copy engine (0-17 the fetch engines, 18-25 the shared ones), `p` a partition. -/
inductive Instr where
  -- Clove core (05)
  | add (c : Nat) (f : RFmt)
  | sub (c : Nat) (f : RFmt)
  | and (c : Nat) (f : RFmt)
  | or (c : Nat) (f : RFmt)
  | xor (c : Nat) (f : RFmt)
  | shl (c : Nat) (f : RFmt)
  | shra (c : Nat) (f : RFmt)
  | shrl (c : Nat) (f : RFmt)
  | min (c : Nat) (f : RFmt)
  | max (c : Nat) (f : RFmt)
  | sel (c : Nat) (f : RFmt)
  | mov (c : Nat) (f : RFmt)
  | mova (c : Nat) (f : RFmt)
  | clra (c : Nat) (f : RFmt)
  | setrot (c : Nat) (f : RFmt)
  | rdcst (c : Nat) (f : RFmt)
  | wrcst (c : Nat) (f : RFmt)
  | addi (c : Nat) (f : IFmt)
  | movi (c : Nat) (f : IFmt)
  | movhi (c : Nat) (f : IFmt)
  | mac (c : Nat) (f : MFmt)
  | msu (c : Nat) (f : MFmt)
  | mpy (c : Nat) (f : MFmt)
  | ftap (c : Nat) (f : TFmt)
  | ldx (c : Nat) (f : LSFmt)
  | ldy (c : Nat) (f : LSFmt)
  | stx (c : Nat) (f : LSFmt)
  | sty (c : Nat) (f : LSFmt)
  | setp (c : Nat) (f : PFmt)
  | br (c : Nat) (off : BitVec 27)
  | brc (c : Nat) (cond : BitVec 3) (sa : BitVec 5) (off : BitVec 19)
  | call (c : Nat) (off : BitVec 27)
  | ret (c : Nat)
  | rep (c : Nat) (f : RepFmt)
  | issue (c : Nat) (f : IssFmt)
  | rdq (c : Nat) (sd : BitVec 5)
  | yieldPoint (c : Nat) (idx : BitVec 16)
  | rti (c : Nat)
  | endJob (c : Nat)
  | repAbort (c : Nat)
  | yieldLate (c : Nat)
  | interruptEntry (c : Nat)
  | lineFill (c : Nat) (off : Nat) (ecc : Ecc)
  -- matrix engine (03)
  | tileInstruction (c : Nat) (faults : List CellFault)
  | drainRow (c : Nat)
  | checksumVerdict (c : Nat)
  | repairDecay (c : Nat)
  -- vector engine (04)
  | vadd (c : Nat)
  | vsub (c : Nat)
  | vmul (c : Nat)
  | vfma (c : Nat)
  | vmin (c : Nat)
  | vmax (c : Nat)
  | vabs (c : Nat)
  | vneg (c : Nat)
  | vand (c : Nat)
  | vor (c : Nat)
  | vxor (c : Nat)
  | vshl (c : Nat)
  | vshra (c : Nat)
  | vshrl (c : Nat)
  | vcmp (c : Nat)
  | vsel (c : Nat)
  | vexp2 (c : Nat)
  | vrcp (c : Nat)
  | vrsq (c : Nat)
  | vdiv (c : Nat)
  | vcvt (c : Nat)
  | vshuf (c : Nat)
  | vbfly (c : Nat)
  | vred (c : Nat)
  | vld (c : Nat)
  | vst (c : Nat)
  | vpop (c : Nat)
  | vtos (c : Nat)
  | vpadd (c : Nat)
  | vpcvt (c : Nat)
  | vpld (c : Nat)
  | vpst (c : Nat)
  | misfitDecision (c layer ctr item : Nat)
  -- copy engines and pods (07)
  | copy (e : Nat)
  | fill (e : Nat)
  | halo (e : Nat)
  | copyRun (e : Nat) (ecc : Ecc)
  | descComplete (e : Nat)
  | push (e : Nat)
  | pop (e : Nat)
  | move (e : Nat)
  | podWaitExpire (e : Nat)
  | returnOverflowDrain (p : Nat)
  -- synchronisation objects (08)
  | syncRead (q : SyncReq)
  | syncWrite (q : SyncReq) (same : SameCycle)
  | syncSet (q : SyncReq)
  | syncClear (q : SyncReq) (same : SameCycle)
  | syncAdd (q : SyncReq)
  | waitNz (q : SyncReq)
  | waitZ (q : SyncReq)
  | waitGe (q : SyncReq)
  | acquire (q : SyncReq)
  | tryAcquire (q : SyncReq)
  | register (q : SyncReq)
  | wakeCause (q : SyncReq)
  | waitExpire (id : Nat)
  -- dispatcher (09)
  | scanTick
  | job (p : Nat)
  | jobStart (l : Nat)
  | spillComplete
  | restoreComplete
  | floorGuard (l w : Nat)
  | floorWindowStart (l w : Nat)
  | floorWindowEnd (l w : Nat)
  | deadlineExpire (j : Nat)
  | slotBoundary (cell : Nat)
  | slotTimer (p : Nat)
  | frameBoundary
  | deviceGridBoundary
  -- FAPI (10)
  | paramRequest (p cell : Nat)
  | configRequest (p cell : Nat) (cfg : CellConfig)
  | startRequest (p cell : Nat)
  | stopRequest (p cell : Nat)
  | dlTtiRequest (p cell slot : Nat) (pdus : List DlPdu)
  | ulTtiRequest (p cell slot : Nat) (pdus : List UlPdu)
  | ulDciRequest (p cell slot n : Nat)
  | txDataRequest (p cell slot : Nat) (payloads : List TxPayload)
  -- fronthaul and converter lanes (15)
  | frameReceive (port : Nat) (f : RxFrame)
  | frameTransmit (port : Nat) (rawNs : Nat)
  | decompress (assoc slot sym : Nat)
  | cplaneSend (assoc : Nat) (downlink : Bool) (slot sym : Nat) (sections : List (Nat × Nat × Nat))
  | uplaneSend (assoc ant slot sym : Nat)
  | linkDown (port : Nat)
  | laneFault (kind quad lane cause : Nat)
  | multiblock (link lane slot sym : Nat) (bad : Bool)
  | linkLoss (link : Nat)
  | sysrefEdge (link : Nat) (inPlace : Bool) (lat : Nat)
  | fftSymbol (link ant slot sym : Nat) (samples : List (Int × Int))
  | ifftSymbol (link ant slot sym : Nat) (bins : List (Int × Int)) (first last : Bool)
  | prachFrontEnd (ffe cell occ ant : Nat) (samples : List (Int × Int))
  | energyDetect (g cell power slots : Nat)
  | agcEvaluate (g peak meanPower : Nat) (clipped : List (Nat × Nat × Nat)) (slot sym : Nat)
  | agcFreeze (g : Nat) (slotEnd : Bool)
  | paEnAssert (g : Nat)
  | paEnDeassert (g : Nat)
  -- radio pipeline stages (10, 11, 13)
  | prachCorrelate (u cell slot occ : Nat) (missing : List Nat)
  | beqAllocation (cell slot pdu : Nat) (residueFail : Bool)
  | pathSelect (cell slot pdu job item : Nat) (handles : List (BitVec 128))
  | rateRecovery (cell slot pdu cb : Nat)
  | harqCombine (cell slot pdu cb : Nat)
  | ldpcPass (d : Nat) (checkFail : Bool)
  | decLate (d : Nat)
  | crcCheck (cell slot pdu : Nat)
  | batchDeliver (cell slot : Nat)
  | turboDecode (u cell slot pdu cb : Nat)
  | polarDecode (u cell slot pdu : Nat)
  | polarEncode (u cell slot pdu : Nat)
  | segmentation (cell slot pdu : Nat)
  | ldpcEncode (u cell slot pdu cb : Nat)
  | rateMatching (cell slot pdu cb : Nat)
  | modulationMapping (cell slot pdu : Nat)
  | compression (assoc ant slot sym : Nat) (prbs : List (List (Int × Int)))
  -- context store (14)
  | contextUpdate (e : Nat)
  | ageSweep
  | ctxCreate (p : Nat)
  | ctxRelease (p : Nat)
  | ctxRead (p : Nat)
  | harqRel (p : Nat)
  -- host commands (17, 06)
  | tplReg (p : Nat)
  | tplDel (p : Nat)
  | imageReg (p : Nat)
  | imageRel (p : Nat)
  | unitQuery (p : Nat)
  | rxbuf (p : Nat)
  | excTx (p : Nat)
  | cqTimer (p r : Nat)
  | cqHead (p r : Nat) (v : Word)
  | protoOffer (p : Nat) (v : Word)
  | functionLevelReset (fn : Nat)
  | pcieConventionalReset (hot : Bool)
  -- service and security commands (22, 23, 20)
  | partCreate (failedChecker : Option (Nat × Nat))
  | partDestroy
  | partReset (p target : Nat)
  | fwActivate
  | keyLoad
  | keyUnload
  | fuseProg (readBackBad : Bool)
  | takeOutOfService
  | takeOutAndFuse
  | returnToService
  | recStart
  | recStop
  | attest
  | debugPart
  | session
  | authHoldEnd
  | replayRecord (r : TraceRec)
  | replayDiverge (j : Nat)
  -- safety (21)
  | rotorSlice (c : Nat)
  | rotorSliceEnd (c : Nat) (pass : Bool)
  | handover (c : Nat)
  | rotorLate (c : Nat)
  | enter (p target : Nat) (failedChecker : Option (Nat × Nat))
  -- time unit (16)
  | freqAdj (p : Nat) (v : Word)
  | phaseAdj (p : Nat) (v : Word)
  | tmuCtl (p : Nat) (v : Word)
  | timeSet (p : Nat)
  | timeNs (p : Nat)
  | tsqStamp (p : Nat)
  | servoTimeout
  | slewEnd
  -- clocks (24), memory (18)
  | refLoss (r : Nat)
  | refReturn (r : Nat)
  | scrubVisit (line : Nat) (ecc : Ecc)
  | zqCalibration (g : Nat)
  | dqsOscRead (ch : Nat) (inRange : Bool)
  -- Ilush links (19)
  | flitReceive (port ch : Nat) (crcOk : Bool) (lane : Nat) (body : FlitBody)
  | heartbeat (port peer : Nat) (cfg : Word) (skewNs : Nat)
  | linkLost (port : Nat)
  | portTraining (port peerMin peerMax : Nat)
  -- power (24, 26)
  | powerCapInterval (est : Nat) (temps : List Int) (clusterPower : List Nat)
  | avsAcknowledge (mv : Nat)
  | powerOnReset (testMode fselHigh : Bool) (sbAddr density : Nat) (twoRanks : Bool) (flashAnswers : Bool) (xspi : Bool)
      (failStep : Nat) (memStep memGroup : Nat)
  -- error ring, snapshot, pages (23, 25)
  | errHead (p : Nat) (v : Word)
  | take (p : Nat)
  | release (p : Nat)
  | commit (p : Nat) (pg : Page)
  | discard (p : Nat) (pg : Page)
  | evt (p : Nat) (pg : Page) (v setSame : Word)
  | evtForce (p : Nat) (pg : Page) (v : Word)
  | pageCtl (p : Nat) (pg : Page) (v : Word)
  | owner (p : Nat) (pg : Page) (v : Word)
  | objWrite (p : Nat) (v : Word)
  | objAdd (p : Nat) (v : Word)
  | objVal (p : Nat)
  | flData (p : Nat) (v : Word)
  | erase (p : Nat)
  | registerWrite (p offset : Nat) (v : Word) (byteEn : BitVec 4)
  | sidebandAccess (offset : Nat) (write : Option Word) (pecOk : Bool)
  | linkUp (port : Nat)
  | powerUp (d : Nat)
  | refresh (ch : Nat)
  | testAccessPort (tms tdi : Bool)
  | fapi (p cell msgType : Nat)
  | configurationRequest (fn : Nat) (busMaster : Bool)
  | errRingCopy
  | automaticSnapshot
  | wdtRestart
  | testAccessReset
  | supplyMonitor
  | domainSwitch
  | linkRetraining
  | refSwitch
  deriving DecidableEq, Repr

end Sys2Proof
end

