-- ==== Sys2Proof/Config.lean ====
section
/-! DEFINITION. Figures that the manual fixes for every AK7840 (R1, R10, R16, R20 and the rules named below), and
the values it leaves open, as constants without a body: nothing can be proved about what such a constant is. -/

namespace Sys2Proof.Config

/-! ### Fixed figures -/

/-- Physical clusters 0-17 (R31). -/
def clusters : Nat := 18
/-- Logical clusters 0-15 (R31). -/
def logicalClusters : Nat := 16
/-- Partitions 0-31 (R9). -/
def partitions : Nat := 32
/-- Copy engines: the fetch engines 0-17, then the shared ones 18-25 (R207). -/
def copyEngines : Nat := 26
/-- Bytes of one cluster's scratchpad (R36). -/
def spadBytes : Nat := 0x800000
/-- Bytes of one Clove X or Y memory (R133). -/
def xyBytes : Nat := 0x20000
/-- Bytes of the site buffer (R36). -/
def siteBytes : Nat := 0x3000000
/-- First byte of the submission windows in the site buffer (R37). -/
def windowBase : Nat := 0x2F00000
/-- Bytes of decoder working memory (R36). -/
def dwmBytes : Nat := 0x1000000
/-- Bytes of the fronthaul buffers (R36). -/
def fhbBytes : Nat := 0x800000
/-- Synchronisation objects on a chip (R240). -/
def objects : Nat := 16384
/-- Pods (R222). -/
def pods : Nat := 512
/-- REP_MAX in a-cycles (R151). -/
def repMax : Nat := 4096
/-- Entries of the device error ring (R666). -/
def errRing : Nat := 16384
/-- Entries of a partition's completion staging store (R535). -/
def staging : Nat := 1024
/-- Waiter entries that are shared (R258). -/
def sharedWaiters : Nat := 898
/-- Cells (R309). -/
def cells : Nat := 96

/-! ### Values the manual leaves open (assumption log, row 2)

A constant applied to a plain counter of the state gives a fresh value each time; one applied to operands gives the
same value for the same operands. -/

/-- A word the manual calls undefined, unspecified or drawn at random; the argument is `State.freeCtr`. -/
opaque freeWord : Nat → BitVec 32
/-- A byte that the manual calls undefined after a resumption (R190). -/
opaque freeByte : Nat → BitVec 8
/-- The payload and sign of a NaN result (R61 follows IEEE 754, which fixes neither); the argument packs the operation
and its operands. -/
opaque nanBits : Nat → BitVec 23
/-- Which of the results within 2 ulp VEXP2, VRCP and VRSQ give (R115): the same bits for the same operand. -/
opaque ulpChoice : Nat → BitVec 32 → Nat

/-! ### Tables and encodings of the standards that the manual names without giving them (assumption log, row 12) -/

/-- The bytes of a FAPI message in SCF 222 encoding (R537). -/
opaque fapiBytes : FapiMsg → List (BitVec 8)
/-- A base graph of TS 38.212 at a lifting size: its rows, each the columns and shifts of its non-zero entries (R406). -/
opaque baseGraph : Bool → Nat → List (List (Nat × Nat))
/-- A bit of a scrambling sequence: cell, slot, PDU and place (R418, R331). -/
opaque scramble : Nat → Nat → Nat → Nat → Bool
/-- Length of the circular buffer under the cell's limited-buffer configuration: cell and full length (R418). -/
opaque ncb : Nat → Nat → Nat
/-- Encoded bits of a code block: LTE mode, base graph, lifting size, bits in; none is a filler bit (R425, R426). -/
opaque encode : Bool → Bool → Nat → List (Option Bool) → List (Option Bool)
/-- What a turbo decoder gives: largest number of iterations, block size, LLRs; bits, and whether it stopped early (R430). -/
opaque turbo : Nat → Nat → List (BitVec 8) → List Bool × Bool
/-- Rate recovery of TS 36.212: redundancy version and LLRs (R418). -/
opaque lteRecover : Nat → List (BitVec 8) → List (BitVec 8)
/-- What a polar codec decodes: LTE mode, list size, LLRs; bits, and whether a path passed the CRC (R427, R428). -/
opaque polar : Bool → Nat → List (BitVec 8) → List Bool × Bool
/-- What a polar codec encodes for a DCI or PBCH block: cell, slot, PDU (R427). -/
opaque polarBits : Nat → Nat → Nat → List Bool
/-- An LLR that the Baseline Equaliser forms: cell, slot, PDU, place among the PDU's bits, and what it read of the grid: symbol,
antenna, values, erased PRBs. Its datapath's binary points are not in the manual (R349). -/
opaque beqLlr : Nat → Nat → Nat → Nat → List (Nat × Nat × List (Nat × Int × Int) × List Nat) → BitVec 8
/-- Segmentation of TS 36.212: the block with its CRC, cut into code blocks with theirs (R331). -/
opaque lteSegment : List Bool → List (List (Option Bool))
/-- Rate matching of TS 36.212: redundancy version, bits out, encoded bits (R331). -/
opaque lteMatch : Nat → Nat → List (Option Bool) → List Bool
/-- UCI that the clusters detect by correlation, of PUCCH formats 0 and 1: cell, slot, PDU (R316). -/
opaque uciCorr : Nat → Nat → Nat → List Bool
/-- LLRs of a UCI block that the clusters hand to a polar codec: cell, slot, PDU (R316). -/
opaque uciLlr : Nat → Nat → Nat → List (BitVec 8)
/-- The summed power delay profile of an occasion for one root: cell, slot, occasion, root, antennas summed, and what came for
them: fronthaul payloads, and sequence bins of the converter path (R327, whose sequences TS 38.211 gives). -/
opaque prachProfile : Nat → Nat → Nat → Nat → List Nat → List (Nat × List (BitVec 8)) → List (Nat × List (Int × Int)) →
    List Nat
/-- The cyclic-shift windows of an occasion for one root: preamble, first sample and length (R328; from TS 38.211). -/
opaque prachWindows : Nat → Nat → Nat → List (Nat × Nat × Nat)
/-- Samples between 16-bit I/Q and the methods of O-RAN that the manual only names, μ-law and modulation compression (R462):
method, width, values. -/
opaque oranCompress : Nat → Nat → List (Int × Int) → List (BitVec 8)
/-- The other way: method, width, PRBs, bytes. -/
opaque oranExpand : Nat → Nat → Nat → List (BitVec 8) → List (Int × Int)
/-- One bin of the FFT of a symbol: cell, slot and symbol, which give the phase compensation; points; FFT_OFFSET; samples; subcarrier
(R477: the rounding inside the transform is not in the manual). -/
opaque fftBin : Nat × Nat × Nat → Nat → Nat → List (Int × Int) → Nat → Int × Int
/-- The sequence bins of a PRACH occasion: cell, occasion, samples (R479: the mixer's and the decimator's filters are not in the
manual). -/
opaque prachBins : Nat → Nat → List (Int × Int) → List (Int × Int)
/-- One sample of the inverse transform of a symbol: cell, slot and symbol; points; bins; place (R480). -/
opaque ifftSample : Nat × Nat × Nat → Nat → List (Int × Int) → Nat → Int × Int


/-! ### What differs from device to device, or lies in a standard's encoding (22 R635-R642, R651) -/

/-- The fuse field UDS. -/
opaque uds : Nat
/-- The fuse fields PK_HASH0 to PK_HASH3. -/
opaque pkHash : Nat → Nat
/-- The Ubiawick image key, part of the runtime firmware set: x and y. -/
opaque imageKey : Nat × Nat
/-- The nonce of a signature; the argument is `State.freeCtr`. -/
opaque nonce : Nat → Nat
/-- A certificate in DER, at most 1,024 bytes, of a public key signed by a private scalar: the alias certificate, and in RMA the
DeviceID certificate. -/
opaque cert : Nat → Nat × Nat → List (BitVec 8)
/-- The IDCODE of IEEE 1149.1. -/
opaque idcode : BitVec 32
/-- What the instruction register of the test access port captures above its two lowest bits, which sets its length. -/
opaque irCapture : List Bool
/-- The instruction that the bits of the instruction register spell: 0 IDCODE, 1 BYPASS, 2 SAMPLE/PRELOAD, 3 one of those that drive
pins. -/
opaque irDecode : List Bool → Nat
/-- The boundary-scan register as SAMPLE captures it; the argument is `State.freeCtr`. -/
opaque boundaryScan : Nat → List Bool

/-! ### The core rail (24 R679, 26 R723) -/

/-- Millivolts above 650 that a divider of ROOT needs on VDD_CORE; the manual gives the range alone. -/
opaque coreStep : Nat → Nat

end Sys2Proof.Config
end

