-- ==== Sys2Proof/Machine/Tab.lean ====
section
/-! DEFINITION. The operations of sparse tables and byte memories, and the bit-field helpers. Every table and memory
is kept in one canonical form: indexes strictly rising, no entry equal to what an unlisted index holds. -/

namespace Sys2Proof.Machine

open Sys2Proof

/-! ### Tables -/

/-- The entry at `k`; `d k` where none is listed. -/
def tget {α : Type} (d : Nat → α) : Tab α → Nat → α
  | [], k => d k
  | (i, v) :: t, k => if i = k then v else tget d t k

/-- Remove the entry at `k`. -/
def tdel {α : Type} : Tab α → Nat → Tab α
  | [], _ => []
  | (i, v) :: t, k => if i = k then tdel t k else (i, v) :: tdel t k

/-- Put an entry at `k`, whatever it is. -/
def tput {α : Type} : Tab α → Nat → α → Tab α
  | [], k, v => [(k, v)]
  | (i, w) :: t, k, v =>
    if i = k then (k, v) :: t else if k < i then (k, v) :: (i, w) :: t else (i, w) :: tput t k v

/-- Set the entry at `k`: an entry equal to the default is not listed. -/
def tset {α : Type} [DecidableEq α] (d : Nat → α) (t : Tab α) (k : Nat) (v : α) : Tab α :=
  if v = d k then tdel t k else tput t k v

/-- The entry at `k`, `d` where none is listed. -/
def tgetD {α : Type} (d : α) (t : Tab α) (k : Nat) : α := tget (fun _ => d) t k
/-- Set the entry at `k` where every unlisted entry is `d`. -/
def tsetD {α : Type} [DecidableEq α] (d : α) (t : Tab α) (k : Nat) (v : α) : Tab α := tset (fun _ => d) t k v

/-- Every index is at least `lo` and indexes rise. -/
def tasc {α : Type} : Nat → Tab α → Bool
  | _, [] => true
  | lo, (i, _) :: t => decide (lo ≤ i) && tasc (i + 1) t

/-- The canonical form. -/
def twf {α : Type} [DecidableEq α] (d : Nat → α) (t : Tab α) : Bool :=
  tasc 0 t && t.all (fun p => decide (p.2 ≠ d p.1))

/-! ### Byte memories: an unlisted byte reads as `fill` -/

/-- One byte. -/
def mget (fill : Byte) (m : Mem) (a : Nat) : Byte := tget (fun _ => fill) m a
/-- Write one byte. -/
def mset (fill : Byte) (m : Mem) (a : Nat) (b : Byte) : Mem := tset (fun _ => fill) m a b
/-- `n` bytes from `a`. -/
def mread (fill : Byte) (m : Mem) (a : Nat) : Nat → List Byte
  | 0 => []
  | n + 1 => mget fill m a :: mread fill m (a + 1) n
/-- Write a list of bytes from `a`. -/
def mwrite (fill : Byte) (m : Mem) (a : Nat) : List Byte → Mem
  | [] => m
  | b :: bs => mwrite fill (mset fill m a b) (a + 1) bs
/-- The canonical form of a memory. -/
def Memory.wf (fill : Byte) (m : Mem) : Bool := twf (fun _ => fill) m

/-! ### Bytes, words and bit fields (R13, R14) -/

/-- Bytes, least significant first, as a number. -/
def leNat : List Byte → Nat
  | [] => 0
  | b :: bs => b.toNat + 256 * leNat bs
/-- The low `n` bytes of a number, least significant first. -/
def natLe : Nat → Nat → List Byte
  | 0, _ => []
  | n + 1, v => BitVec.ofNat 8 v :: natLe n (v / 256)
/-- A little-endian word. -/
def leWord (bs : List Byte) : Word := BitVec.ofNat 32 (leNat bs)
/-- The four bytes of a word. -/
def wordLe (w : Word) : List Byte := natLe 4 w.toNat
/-- Bytes as words, four at a time. -/
def leWords : Nat → List Byte → List Word
  | 0, _ => []
  | n + 1, bs => leWord (bs.take 4) :: leWords n (bs.drop 4)
/-- Words as bytes. -/
def wordsLe (ws : List Word) : List Byte := ws.flatMap wordLe
/-- A word of memory. -/
def mword (fill : Byte) (m : Mem) (a : Nat) : Word := leWord (mread fill m a 4)

/-- Bits [hi:lo] of a word as a number. -/
def fld (w : Word) (hi lo : Nat) : Nat := (w.toNat / 2 ^ lo) % 2 ^ (hi + 1 - lo)
/-- Bit `i` of a word. -/
def bit (w : Word) (i : Nat) : Bool := w.getLsbD i
/-- The word `w` with bits [hi:lo] replaced by `v`. -/
def setFld (w : Word) (hi lo v : Nat) : Word :=
  BitVec.ofNat 32 (w.toNat - fld w hi lo * 2 ^ lo + (v % 2 ^ (hi + 1 - lo)) * 2 ^ lo)
/-- The word with only bit `i` set. -/
def bitW (i : Nat) : Word := BitVec.ofNat 32 (2 ^ i)
/-- A Bool as a number. -/
def b2n (b : Bool) : Nat := if b then 1 else 0
/-- A number as a word. -/
def w32 (n : Nat) : Word := BitVec.ofNat 32 n
/-- A counter that saturates at 0xFFFF_FFFF. -/
def satAdd (w : Word) (n : Nat) : Word := w32 (Nat.min 0xFFFFFFFF (w.toNat + n))
/-- Division rounded up. -/
def ceilDiv (a b : Nat) : Nat := (a + b - 1) / b
/-- Word `i` of a list of words, zero beyond its end. -/
def wd (ws : List Word) (i : Nat) : Word := ws.getD i 0
/-- Replace element `i` of a list. -/
def lset {α : Type} : List α → Nat → α → List α
  | [], _, _ => []
  | _ :: t, 0, v => v :: t
  | h :: t, n + 1, v => h :: lset t n v
/-- The first element that satisfies `p`, with its place. -/
def findIdx? {α : Type} (p : α → Bool) : List α → Nat → Option (Nat × α)
  | [], _ => none
  | h :: t, n => if p h then some (n, h) else findIdx? p t (n + 1)
/-- Change the first element that satisfies `p`. -/
def updFirst {α : Type} (p : α → Bool) (f : α → α) : List α → List α
  | [] => []
  | h :: t => if p h then f h :: t else h :: updFirst p f t
/-- Remove the first element that satisfies `p`. -/
def delFirst {α : Type} (p : α → Bool) : List α → List α
  | [] => []
  | h :: t => if p h then t else h :: delFirst p t
/-- Do the half-open ranges [a, a + n) and [b, b + m) meet? -/
def overlap (a n b m : Nat) : Bool := decide (a < b + m) && decide (b < a + n) && decide (0 < n) && decide (0 < m)

end Sys2Proof.Machine
end

