-- ==== Sys2Proof/WellFormed.lean ====
section
/-! DEFINITION. Well-formed commands: every operand that names a unit names one that the device has (R20, R31, R207,
R222, R309, R456, R566, R682, R694). An ill-formed command is one that no sender can form. -/

namespace Sys2Proof

/-- The requester of a synchronisation command names units that exist. -/
def SyncReq.wf : SyncReq → Bool
  | .core c _ _ _ _ _ => decide (c < Config.clusters)
  | .host p => decide (p < Config.partitions)
  | .engine _ p o _ => decide (p < Config.partitions) && decide (o < Config.objects)
  | .peer port rp o _ _ => decide (port < 8) && decide (rp < Config.partitions) && decide (o < Config.objects)

/-- A page has a code and an instance of its fields' width (R693). -/
def Page.wf (p : Page) : Bool := decide (p.code < 64) && decide (p.inst < 256)

/-- Is a command well formed? -/
def Instr.wf : Instr → Bool
  | .add c _ => decide (c < Config.clusters)
  | .sub c _ => decide (c < Config.clusters)
  | .and c _ => decide (c < Config.clusters)
  | .or c _ => decide (c < Config.clusters)
  | .xor c _ => decide (c < Config.clusters)
  | .shl c _ => decide (c < Config.clusters)
  | .shra c _ => decide (c < Config.clusters)
  | .shrl c _ => decide (c < Config.clusters)
  | .min c _ => decide (c < Config.clusters)
  | .max c _ => decide (c < Config.clusters)
  | .sel c _ => decide (c < Config.clusters)
  | .mov c _ => decide (c < Config.clusters)
  | .mova c _ => decide (c < Config.clusters)
  | .clra c _ => decide (c < Config.clusters)
  | .setrot c _ => decide (c < Config.clusters)
  | .rdcst c _ => decide (c < Config.clusters)
  | .wrcst c _ => decide (c < Config.clusters)
  | .addi c _ => decide (c < Config.clusters)
  | .movi c _ => decide (c < Config.clusters)
  | .movhi c _ => decide (c < Config.clusters)
  | .mac c _ => decide (c < Config.clusters)
  | .msu c _ => decide (c < Config.clusters)
  | .mpy c _ => decide (c < Config.clusters)
  | .ftap c _ => decide (c < Config.clusters)
  | .ldx c _ => decide (c < Config.clusters)
  | .ldy c _ => decide (c < Config.clusters)
  | .stx c _ => decide (c < Config.clusters)
  | .sty c _ => decide (c < Config.clusters)
  | .setp c _ => decide (c < Config.clusters)
  | .br c _ => decide (c < Config.clusters)
  | .brc c _ _ _ => decide (c < Config.clusters)
  | .call c _ => decide (c < Config.clusters)
  | .ret c => decide (c < Config.clusters)
  | .rep c _ => decide (c < Config.clusters)
  | .issue c _ => decide (c < Config.clusters)
  | .rdq c _ => decide (c < Config.clusters)
  | .yieldPoint c _ => decide (c < Config.clusters)
  | .rti c => decide (c < Config.clusters)
  | .endJob c => decide (c < Config.clusters)
  | .repAbort c => decide (c < Config.clusters)
  | .yieldLate c => decide (c < Config.clusters)
  | .interruptEntry c => decide (c < Config.clusters)
  | .lineFill c _ _ => decide (c < Config.clusters)
  | .tileInstruction c _ => decide (c < Config.clusters)
  | .drainRow c => decide (c < Config.clusters)
  | .checksumVerdict c => decide (c < Config.clusters)
  | .repairDecay c => decide (c < Config.clusters)
  | .vadd c => decide (c < Config.clusters)
  | .vsub c => decide (c < Config.clusters)
  | .vmul c => decide (c < Config.clusters)
  | .vfma c => decide (c < Config.clusters)
  | .vmin c => decide (c < Config.clusters)
  | .vmax c => decide (c < Config.clusters)
  | .vabs c => decide (c < Config.clusters)
  | .vneg c => decide (c < Config.clusters)
  | .vand c => decide (c < Config.clusters)
  | .vor c => decide (c < Config.clusters)
  | .vxor c => decide (c < Config.clusters)
  | .vshl c => decide (c < Config.clusters)
  | .vshra c => decide (c < Config.clusters)
  | .vshrl c => decide (c < Config.clusters)
  | .vcmp c => decide (c < Config.clusters)
  | .vsel c => decide (c < Config.clusters)
  | .vexp2 c => decide (c < Config.clusters)
  | .vrcp c => decide (c < Config.clusters)
  | .vrsq c => decide (c < Config.clusters)
  | .vdiv c => decide (c < Config.clusters)
  | .vcvt c => decide (c < Config.clusters)
  | .vshuf c => decide (c < Config.clusters)
  | .vbfly c => decide (c < Config.clusters)
  | .vred c => decide (c < Config.clusters)
  | .vld c => decide (c < Config.clusters)
  | .vst c => decide (c < Config.clusters)
  | .vpop c => decide (c < Config.clusters)
  | .vtos c => decide (c < Config.clusters)
  | .vpadd c => decide (c < Config.clusters)
  | .vpcvt c => decide (c < Config.clusters)
  | .vpld c => decide (c < Config.clusters)
  | .vpst c => decide (c < Config.clusters)
  | .misfitDecision c _ _ _ => decide (c < Config.clusters)
  | .copy e => decide (e < Config.copyEngines)
  | .fill e => decide (e < Config.copyEngines)
  | .halo e => decide (e < Config.copyEngines)
  | .copyRun e _ => decide (e < Config.copyEngines)
  | .descComplete e => decide (e < Config.copyEngines)
  | .push e => decide (e < Config.copyEngines)
  | .pop e => decide (e < Config.copyEngines)
  | .move e => decide (e < Config.copyEngines)
  | .podWaitExpire e => decide (e < Config.copyEngines)
  | .returnOverflowDrain p => decide (p < Config.partitions)
  | .syncRead q => q.wf
  | .syncWrite q _ => q.wf
  | .syncSet q => q.wf
  | .syncClear q _ => q.wf
  | .syncAdd q => q.wf
  | .waitNz q => q.wf
  | .waitZ q => q.wf
  | .waitGe q => q.wf
  | .acquire q => q.wf
  | .tryAcquire q => q.wf
  | .register q => q.wf
  | .wakeCause q => q.wf
  | .waitExpire _ => true
  | .scanTick => true
  | .job p => decide (p < Config.partitions)
  | .jobStart l => decide (l < Config.logicalClusters)
  | .spillComplete => true
  | .restoreComplete => true
  | .floorGuard l w => decide (l < Config.logicalClusters) && decide (w < 64)
  | .floorWindowStart l w => decide (l < Config.logicalClusters) && decide (w < 64)
  | .floorWindowEnd l w => decide (l < Config.logicalClusters) && decide (w < 64)
  | .deadlineExpire _ => true
  | .slotBoundary cell => decide (cell < Config.cells)
  | .slotTimer p => decide (p < Config.partitions)
  | .frameBoundary => true
  | .deviceGridBoundary => true
  | .paramRequest p cell => decide (p < Config.partitions) && decide (cell < Config.cells)
  | .configRequest p cell _ => decide (p < Config.partitions) && decide (cell < Config.cells)
  | .startRequest p cell => decide (p < Config.partitions) && decide (cell < Config.cells)
  | .stopRequest p cell => decide (p < Config.partitions) && decide (cell < Config.cells)
  | .dlTtiRequest p cell _ _ => decide (p < Config.partitions) && decide (cell < Config.cells)
  | .ulTtiRequest p cell _ _ => decide (p < Config.partitions) && decide (cell < Config.cells)
  | .ulDciRequest p cell _ _ => decide (p < Config.partitions) && decide (cell < Config.cells)
  | .txDataRequest p cell _ _ => decide (p < Config.partitions) && decide (cell < Config.cells)
  | .frameReceive port _ => decide (port < 16)
  | .frameTransmit port _ => decide (port < 16)
  | .decompress assoc _ sym => decide (assoc < 64) && decide (sym < 14)
  | .cplaneSend assoc _ _ sym _ => decide (assoc < 64) && decide (sym < 14)
  | .uplaneSend assoc ant _ sym => decide (assoc < 64) && decide (ant < 128) && decide (sym < 14)
  | .linkDown port => decide (port < 16)
  | .laneFault kind quad lane _ => decide (kind < 4) && decide (quad < if kind = 2 then 8 else 4) && decide (lane < 4)
  | .multiblock link _ _ sym _ => decide (link < 16) && decide (sym < 14)
  | .linkLoss link => decide (link < 16)
  | .sysrefEdge link _ _ => decide (link < 16)
  | .fftSymbol link ant _ sym _ => decide (link < 16) && decide (ant < 128) && decide (sym < 14)
  | .ifftSymbol link ant _ sym _ _ _ => decide (link < 16) && decide (ant < 128) && decide (sym < 14)
  | .prachFrontEnd ffe cell _ ant _ => decide (ffe < 4) && decide (cell < Config.cells) && decide (ant < 128)
  | .energyDetect g _ _ _ => decide (g < 32)
  | .agcEvaluate g _ _ _ _ sym => decide (g < 32) && decide (sym < 14)
  | .agcFreeze g _ => decide (g < 32)
  | .paEnAssert g => decide (g < 32)
  | .paEnDeassert g => decide (g < 32)
  | .prachCorrelate u cell _ _ _ => decide (u < 2) && decide (cell < Config.cells)
  | .beqAllocation cell _ _ _ => decide (cell < Config.cells)
  | .pathSelect cell _ _ _ _ _ => decide (cell < Config.cells)
  | .rateRecovery cell _ _ _ => decide (cell < Config.cells)
  | .harqCombine cell _ _ _ => decide (cell < Config.cells)
  | .ldpcPass d _ => decide (d < 16)
  | .decLate d => decide (d < 16)
  | .crcCheck cell _ _ => decide (cell < Config.cells)
  | .batchDeliver cell _ => decide (cell < Config.cells)
  | .turboDecode u cell _ _ _ => decide (u < 2) && decide (cell < Config.cells)
  | .polarDecode u cell _ _ => decide (u < 2) && decide (cell < Config.cells)
  | .polarEncode u cell _ _ => decide (u < 2) && decide (cell < Config.cells)
  | .segmentation cell _ _ => decide (cell < Config.cells)
  | .ldpcEncode u cell _ _ _ => decide (u < 4) && decide (cell < Config.cells)
  | .rateMatching cell _ _ _ => decide (cell < Config.cells)
  | .modulationMapping cell _ _ => decide (cell < Config.cells)
  | .compression assoc ant _ sym _ => decide (assoc < 64) && decide (ant < 128) && decide (sym < 14)
  | .contextUpdate _ => true
  | .ageSweep => true
  | .ctxCreate p => decide (p < Config.partitions)
  | .ctxRelease p => decide (p < Config.partitions)
  | .ctxRead p => decide (p < Config.partitions)
  | .harqRel p => decide (p < Config.partitions)
  | .tplReg p => decide (p < Config.partitions)
  | .tplDel p => decide (p < Config.partitions)
  | .imageReg p => decide (p < Config.partitions)
  | .imageRel p => decide (p < Config.partitions)
  | .unitQuery p => decide (p < Config.partitions)
  | .rxbuf p => decide (p < Config.partitions)
  | .excTx p => decide (p < Config.partitions)
  | .cqTimer p r => decide (p < Config.partitions) && decide (r < 4)
  | .cqHead p r _ => decide (p < Config.partitions) && decide (r < 4)
  | .protoOffer p _ => decide (p < Config.partitions)
  | .functionLevelReset fn => decide (fn < 32)
  | .pcieConventionalReset _ => true
  | .partCreate _ => true
  | .partDestroy => true
  | .partReset p target => decide (p < Config.partitions) && decide (target < Config.partitions)
  | .fwActivate => true
  | .keyLoad => true
  | .keyUnload => true
  | .fuseProg _ => true
  | .takeOutOfService => true
  | .takeOutAndFuse => true
  | .returnToService => true
  | .recStart => true
  | .recStop => true
  | .attest => true
  | .debugPart => true
  | .session => true
  | .authHoldEnd => true
  | .replayRecord _ => true
  | .replayDiverge _ => true
  | .rotorSlice c => decide (c < Config.clusters)
  | .rotorSliceEnd c _ => decide (c < Config.clusters)
  | .handover c => decide (c < Config.clusters)
  | .rotorLate c => decide (c < Config.clusters)
  | .enter p target _ => decide (p < Config.partitions) && decide (target < Config.partitions)
  | .freqAdj p _ => decide (p < Config.partitions)
  | .phaseAdj p _ => decide (p < Config.partitions)
  | .tmuCtl p _ => decide (p < Config.partitions)
  | .timeSet p => decide (p < Config.partitions)
  | .timeNs p => decide (p < Config.partitions)
  | .tsqStamp p => decide (p < Config.partitions)
  | .servoTimeout => true
  | .slewEnd => true
  | .refLoss r => decide (r < 3)
  | .refReturn r => decide (r < 3)
  | .scrubVisit _ _ => true
  | .zqCalibration g => decide (g < 8)
  | .dqsOscRead ch _ => decide (ch < 32)
  | .flitReceive port _ _ lane _ => decide (port < 8) && decide (lane < 2)
  | .heartbeat port peer _ _ => decide (port < 8) && decide (peer < 8)
  | .linkLost port => decide (port < 8)
  | .portTraining port _ _ => decide (port < 8)
  | .powerCapInterval _ _ _ => true
  | .domainSwitch => true
  | .avsAcknowledge _ => true
  | .powerOnReset _ _ _ _ _ _ _ _ _ _ => true
  | .supplyMonitor => true
  | .testAccessReset => true
  | .wdtRestart => true
  | .errRingCopy => true
  | .errHead p _ => decide (p < Config.partitions)
  | .take p => decide (p < Config.partitions)
  | .release p => decide (p < Config.partitions)
  | .automaticSnapshot => true
  | .commit p pg => decide (p < Config.partitions) && pg.wf
  | .discard p pg => decide (p < Config.partitions) && pg.wf
  | .evt p pg _ _ => decide (p < Config.partitions) && pg.wf
  | .evtForce p pg _ => decide (p < Config.partitions) && pg.wf
  | .pageCtl p pg _ => decide (p < Config.partitions) && pg.wf
  | .owner p pg _ => decide (p < Config.partitions) && pg.wf
  | .objWrite p _ => decide (p < Config.partitions)
  | .objAdd p _ => decide (p < Config.partitions)
  | .objVal p => decide (p < Config.partitions)
  | .flData p _ => decide (p < Config.partitions)
  | .erase p => decide (p < Config.partitions)
  | .registerWrite p offset _ _ => decide (p < Config.partitions) && decide (offset < 2 ^ 28)
  | .sidebandAccess offset _ _ => decide (offset < 2 ^ 28)
  | .linkUp port => decide (port < 16)
  | .linkRetraining => true
  | .refSwitch => true
  | .powerUp d => decide (d < 112)
  | .refresh ch => decide (ch < 32)
  | .testAccessPort _ _ => true
  | .fapi p cell _ => decide (p < Config.partitions) && decide (cell < Config.cells)
  | .configurationRequest fn _ => decide (fn < 32)

end Sys2Proof
end

