-- ==== Sys2Proof/Decode.lean ====
section
/-! DEFINITION. The host's reader of opcode-table words, and the instruction words of the Clove core (05 R142-R145, 08
R245) as commands. No row of the opcode table gives bits, so no word of the table spells a command. -/

namespace Sys2Proof

open Sys2Proof.Machine

/-- The command that a word of the opcode table spells: none, since no row of the table has bits. -/
def decodeTableWord (_nbits _w : Nat) : Option Instr := none

/-! ### Clove instruction words: decoding -/

/-- A field of five bits. -/
def f5 (w : Word) (lo : Nat) : BitVec 5 := BitVec.ofNat 5 (fld w (lo + 4) lo)
/-- A field of two bits. -/
def f2 (w : Word) (lo : Nat) : BitVec 2 := BitVec.ofNat 2 (fld w (lo + 1) lo)
/-- Format R. -/
def rfmt (w : Word) : RFmt := ⟨bit w 26, f5 w 21, f5 w 16, f5 w 11, bit w 10, bit w 9, bit w 8⟩
/-- Format I. -/
def ifmt (w : Word) : IFmt := ⟨bit w 26, f5 w 21, f5 w 16, BitVec.ofNat 16 (fld w 15 0)⟩
/-- XMOVE or YMOVE, at bit `lo`. -/
def xymove (w : Word) (lo : Nat) : XYMove := ⟨bit w (lo + 5), f2 w (lo + 3), bit w (lo + 2), f2 w lo⟩
/-- Format M. -/
def mfmt (w : Word) : MFmt := ⟨bit w 26, bit w 25, bit w 24, f5 w 17, f5 w 12, xymove w 6, xymove w 0⟩
/-- Format T. -/
def tfmt (w : Word) : TFmt := ⟨bit w 26, bit w 25, bit w 24, f2 w 22, f2 w 20⟩
/-- Format LS. -/
def lsfmt (w : Word) : LSFmt := ⟨bit w 26, f5 w 21, bit w 20, f2 w 18, bit w 17⟩
/-- SETP. -/
def pfmt (w : Word) : PFmt := ⟨bit w 26, f2 w 24, f2 w 22, f5 w 17⟩
/-- ISSUE. -/
def issfmt (w : Word) : IssFmt := ⟨f2 w 25, bit w 24, f2 w 22, f5 w 17, BitVec.ofNat 4 (fld w 16 13), bit w 12⟩
/-- REP, of its two words. -/
def repfmt (w v : Word) : RepFmt :=
  ⟨bit w 26, bit w 25, BitVec.ofNat 11 (fld w 24 14), BitVec.ofNat 16 (fld v 31 16), BitVec.ofNat 16 (fld v 15 0)⟩
/-- The requester of a SYNC on cluster `c` (R245). -/
def syncReq (c : Nat) (w : Word) : SyncReq := .core c (f5 w 18) (f5 w 13) (f5 w 8) (f5 w 3) (bit w 2)

/-- The FUNC codes of format R (R144). -/
def decodeR (c : Nat) (w : Word) : Option Instr :=
  match fld w 5 0 with
  | 0x00 => some (.add c (rfmt w))
  | 0x01 => some (.sub c (rfmt w))
  | 0x02 => some (.and c (rfmt w))
  | 0x03 => some (.or c (rfmt w))
  | 0x04 => some (.xor c (rfmt w))
  | 0x05 => some (.shl c (rfmt w))
  | 0x06 => some (.shra c (rfmt w))
  | 0x07 => some (.shrl c (rfmt w))
  | 0x08 => some (.min c (rfmt w))
  | 0x09 => some (.max c (rfmt w))
  | 0x0A => some (.sel c (rfmt w))
  | 0x0B => some (.mov c (rfmt w))
  | 0x10 => some (.mova c (rfmt w))
  | 0x11 => some (.clra c (rfmt w))
  | 0x12 => some (.setrot c (rfmt w))
  | 0x13 => some (if bit w 11 then .wrcst c (rfmt w) else .rdcst c (rfmt w))
  | _ => none
/-- The operation codes of SYNC (R242). -/
def decodeSync (c : Nat) (w : Word) : Option Instr :=
  match fld w 26 23 with
  | 0 => some (.syncRead (syncReq c w))
  | 1 => some (.syncWrite (syncReq c w) .nothing)
  | 2 => some (.syncSet (syncReq c w))
  | 3 => some (.syncClear (syncReq c w) .nothing)
  | 4 => some (.syncAdd (syncReq c w))
  | 5 => some (.waitNz (syncReq c w))
  | 6 => some (.waitZ (syncReq c w))
  | 7 => some (.waitGe (syncReq c w))
  | 8 => some (.acquire (syncReq c w))
  | 9 => some (.tryAcquire (syncReq c w))
  | 10 => some (.register (syncReq c w))
  | 11 => some (.wakeCause (syncReq c w))
  | _ => none
/-- **The instruction whose word is `w`, on cluster `c`** (R142); `v` is the word after it, which REP alone reads. Every
other MAJOR and FUNC code is reserved. -/
def cloveDecode (c : Nat) (w v : Word) : Option Instr :=
  match fld w 31 27 with
  | 0x01 => decodeR c w
  | 0x02 => some (.addi c (ifmt w))
  | 0x03 => some (.movi c (ifmt w))
  | 0x06 => some (.movhi c (ifmt w))
  | 0x04 =>
    match fld w 23 22 with
    | 0 => some (.mac c (mfmt w))
    | 1 => some (.msu c (mfmt w))
    | 2 => some (.mpy c (mfmt w))
    | _ => none
  | 0x05 => some (.ftap c (tfmt w))
  | 0x08 => some (.ldx c (lsfmt w))
  | 0x09 => some (.ldy c (lsfmt w))
  | 0x0A => some (.stx c (lsfmt w))
  | 0x0B => some (.sty c (lsfmt w))
  | 0x0C => some (.setp c (pfmt w))
  | 0x10 => some (.br c (BitVec.ofNat 27 (fld w 26 0)))
  | 0x11 => some (.brc c (BitVec.ofNat 3 (fld w 26 24)) (f5 w 19) (BitVec.ofNat 19 (fld w 18 0)))
  | 0x12 => some (.call c (BitVec.ofNat 27 (fld w 26 0)))
  | 0x13 => some (.ret c)
  | 0x14 => some (.rep c (repfmt w v))
  | 0x18 => some (.issue c (issfmt w))
  | 0x19 => some (.rdq c (f5 w 21))
  | 0x1C => decodeSync c w
  | 0x1D => some (.yieldPoint c (BitVec.ofNat 16 (fld w 15 0)))
  | 0x1E => some (.rti c)
  | 0x1F => some (.endJob c)
  | _ => none

/-! ### Clove instruction words: encoding -/

/-- A word from its MAJOR code and the rest. -/
def cw (major rest : Nat) : Word := w32 (major * 2 ^ 27 + rest)
/-- Format R with its FUNC code. -/
def encR (func : Nat) (f : RFmt) : Word :=
  cw 0x01 (b2n f.sat * 2 ^ 26 + f.sd.toNat * 2 ^ 21 + f.sa.toNat * 2 ^ 16 + f.sb.toNat * 2 ^ 11 + b2n f.wd * 2 ^ 10 +
    b2n f.wa * 2 ^ 9 + b2n f.wb * 2 ^ 8 + func)
/-- Format I. -/
def encI (major : Nat) (f : IFmt) : Word :=
  cw major (b2n f.sat * 2 ^ 26 + f.sd.toNat * 2 ^ 21 + f.sa.toNat * 2 ^ 16 + f.imm.toNat)
/-- XMOVE or YMOVE. -/
def encXY (m : XYMove) : Nat := b2n m.en * 2 ^ 5 + m.ptr.toNat * 2 ^ 3 + b2n m.byMod * 2 ^ 2 + m.dest.toNat
/-- Format M with its MOP. -/
def encM (mop : Nat) (f : MFmt) : Word :=
  cw 0x04 (b2n f.sat * 2 ^ 26 + b2n f.frac * 2 ^ 25 + b2n f.ad * 2 ^ 24 + mop * 2 ^ 22 + f.sa.toNat * 2 ^ 17 +
    f.sb.toNat * 2 ^ 12 + encXY f.xm * 2 ^ 6 + encXY f.ym)
/-- Format T. -/
def encT (f : TFmt) : Word :=
  cw 0x05 (b2n f.sat * 2 ^ 26 + b2n f.frac * 2 ^ 25 + b2n f.ad * 2 ^ 24 + f.px.toNat * 2 ^ 22 + f.py.toNat * 2 ^ 20)
/-- Format LS. -/
def encLS (major : Nat) (f : LSFmt) : Word :=
  cw major (b2n f.w32 * 2 ^ 26 + f.reg.toNat * 2 ^ 21 + b2n f.wbank * 2 ^ 20 + f.ptr.toNat * 2 ^ 18 + b2n f.post * 2 ^ 17)
/-- SETP. -/
def encP (f : PFmt) : Word :=
  cw 0x0C (b2n f.yBank * 2 ^ 26 + f.ptr.toNat * 2 ^ 24 + f.field.toNat * 2 ^ 22 + f.src.toNat * 2 ^ 17)
/-- ISSUE. -/
def encIss (f : IssFmt) : Word :=
  cw 0x18 (f.queue.toNat * 2 ^ 25 + b2n f.eng * 2 ^ 24 + f.px.toNat * 2 ^ 22 + f.patch.toNat * 2 ^ 17 +
    f.pword.toNat * 2 ^ 13 + b2n f.pen * 2 ^ 12)
/-- The first word of REP. -/
def encRep0 (f : RepFmt) : Word := cw 0x14 (b2n f.rot * 2 ^ 26 + b2n f.csrc * 2 ^ 25 + f.lenM1.toNat * 2 ^ 14)
/-- The second word of REP. -/
def encRep1 (f : RepFmt) : Word := w32 (f.count.toNat * 2 ^ 16 + f.span.toNat)
/-- SYNC; an operation that no core asks for has no word. -/
def encSync (op : Nat) : SyncReq → Option (Word × Word)
  | .core _ sa sb sd sl cont =>
    some (cw 0x1C (op * 2 ^ 23 + sa.toNat * 2 ^ 18 + sb.toNat * 2 ^ 13 + sd.toNat * 2 ^ 8 + sl.toNat * 2 ^ 3 +
      b2n cont * 2 ^ 2), 0)
  | _ => none

/-- **The words of a Clove instruction**: the second is 0 but for REP. None for a command that is no Clove instruction. -/
def cloveEncode : Instr → Option (Word × Word)
  | .add _ f => some (encR 0x00 f, 0)
  | .sub _ f => some (encR 0x01 f, 0)
  | .and _ f => some (encR 0x02 f, 0)
  | .or _ f => some (encR 0x03 f, 0)
  | .xor _ f => some (encR 0x04 f, 0)
  | .shl _ f => some (encR 0x05 f, 0)
  | .shra _ f => some (encR 0x06 f, 0)
  | .shrl _ f => some (encR 0x07 f, 0)
  | .min _ f => some (encR 0x08 f, 0)
  | .max _ f => some (encR 0x09 f, 0)
  | .sel _ f => some (encR 0x0A f, 0)
  | .mov _ f => some (encR 0x0B f, 0)
  | .mova _ f => some (encR 0x10 f, 0)
  | .clra _ f => some (encR 0x11 f, 0)
  | .setrot _ f => some (encR 0x12 f, 0)
  | .rdcst _ f => some (encR 0x13 f, 0)
  | .wrcst _ f => some (encR 0x13 f, 0)
  | .addi _ f => some (encI 0x02 f, 0)
  | .movi _ f => some (encI 0x03 f, 0)
  | .movhi _ f => some (encI 0x06 f, 0)
  | .mac _ f => some (encM 0 f, 0)
  | .msu _ f => some (encM 1 f, 0)
  | .mpy _ f => some (encM 2 f, 0)
  | .ftap _ f => some (encT f, 0)
  | .ldx _ f => some (encLS 0x08 f, 0)
  | .ldy _ f => some (encLS 0x09 f, 0)
  | .stx _ f => some (encLS 0x0A f, 0)
  | .sty _ f => some (encLS 0x0B f, 0)
  | .setp _ f => some (encP f, 0)
  | .br _ d => some (cw 0x10 d.toNat, 0)
  | .brc _ k sa d => some (cw 0x11 (k.toNat * 2 ^ 24 + sa.toNat * 2 ^ 19 + d.toNat), 0)
  | .call _ d => some (cw 0x12 d.toNat, 0)
  | .ret _ => some (cw 0x13 0, 0)
  | .rep _ f => some (encRep0 f, encRep1 f)
  | .issue _ f => some (encIss f, 0)
  | .rdq _ sd => some (cw 0x19 (sd.toNat * 2 ^ 21), 0)
  | .yieldPoint _ i => some (cw 0x1D i.toNat, 0)
  | .rti _ => some (cw 0x1E 0, 0)
  | .endJob _ => some (cw 0x1F 0, 0)
  | .syncRead q => encSync 0 q
  | .syncWrite q _ => encSync 1 q
  | .syncSet q => encSync 2 q
  | .syncClear q _ => encSync 3 q
  | .syncAdd q => encSync 4 q
  | .waitNz q => encSync 5 q
  | .waitZ q => encSync 6 q
  | .waitGe q => encSync 7 q
  | .acquire q => encSync 8 q
  | .tryAcquire q => encSync 9 q
  | .register q => encSync 10 q
  | .wakeCause q => encSync 11 q
  | _ => none

/-- The cluster whose core a Clove instruction runs on. -/
def cloveCluster : Instr → Nat
  | .add c _ => c
  | .sub c _ => c
  | .and c _ => c
  | .or c _ => c
  | .xor c _ => c
  | .shl c _ => c
  | .shra c _ => c
  | .shrl c _ => c
  | .min c _ => c
  | .max c _ => c
  | .sel c _ => c
  | .mov c _ => c
  | .mova c _ => c
  | .clra c _ => c
  | .setrot c _ => c
  | .rdcst c _ => c
  | .wrcst c _ => c
  | .addi c _ => c
  | .movi c _ => c
  | .movhi c _ => c
  | .mac c _ => c
  | .msu c _ => c
  | .mpy c _ => c
  | .ftap c _ => c
  | .ldx c _ => c
  | .ldy c _ => c
  | .stx c _ => c
  | .sty c _ => c
  | .setp c _ => c
  | .br c _ => c
  | .brc c _ _ _ => c
  | .call c _ => c
  | .ret c => c
  | .rep c _ => c
  | .issue c _ => c
  | .rdq c _ => c
  | .yieldPoint c _ => c
  | .rti c => c
  | .endJob c => c
  | .syncRead (.core c _ _ _ _ _) => c
  | .syncWrite (.core c _ _ _ _ _) _ => c
  | .syncSet (.core c _ _ _ _ _) => c
  | .syncClear (.core c _ _ _ _ _) _ => c
  | .syncAdd (.core c _ _ _ _ _) => c
  | .waitNz (.core c _ _ _ _ _) => c
  | .waitZ (.core c _ _ _ _ _) => c
  | .waitGe (.core c _ _ _ _ _) => c
  | .acquire (.core c _ _ _ _ _) => c
  | .tryAcquire (.core c _ _ _ _ _) => c
  | .register (.core c _ _ _ _ _) => c
  | .wakeCause (.core c _ _ _ _ _) => c
  | _ => 0

/-- A Clove instruction as its word can say it: RDCST and WRCST are told apart by bit 0 of SB (R144), and what reaches an
object in the same cycle is no part of a word. -/
def cloveWf : Instr → Bool
  | .rdcst _ f => !f.sb.getLsbD 0
  | .wrcst _ f => f.sb.getLsbD 0
  | .syncWrite _ m => decide (m = .nothing)
  | .syncClear _ m => decide (m = .nothing)
  | _ => true

end Sys2Proof
end

