-- ==== Sys2Proof/Machine/Descr.lean ====
section
/-! DEFINITION. Fields of the descriptors that ISSUE sends: tile instructions (03 R74 R75), vector instructions (04 R105
R106), copy and pod descriptors (07 R209 R210 R223). A descriptor is a list of words. -/

namespace Sys2Proof.Machine

open Sys2Proof

/-- OPCODE. -/
def opcodeOf (ws : List Word) : Nat := fld (wd ws 0) 31 24

/-! ### Tile instruction -/

/-- M. -/
def tileM (ws : List Word) : Nat := fld (wd ws 1) 31 16
/-- N. -/
def tileN (ws : List Word) : Nat := fld (wd ws 1) 15 0
/-- K. -/
def tileK (ws : List Word) : Nat := (wd ws 2).toNat
/-- FMT_A and FMT_B. -/
def tileFmtA (ws : List Word) : Nat := fld (wd ws 0) 23 20
/-- FMT_B. -/
def tileFmtB (ws : List Word) : Nat := fld (wd ws 0) 19 16
/-- OUT_FMT. -/
def tileOut (ws : List Word) : Nat := fld (wd ws 0) 15 12
/-- ACT. -/
def tileAct (ws : List Word) : Nat := fld (wd ws 0) 11 8
/-- Complex mode. -/
def tileCplx (ws : List Word) : Bool := decide (tileFmtA ws = 2 ∧ tileFmtB ws = 2)
/-- DEST: the finished-tile queue. -/
def tileDest (ws : List Word) : Bool := bit (wd ws 0) 5
/-- An address field [23:0]. -/
def addr24 (ws : List Word) (i : Nat) : Nat := fld (wd ws i) 23 0
/-- TAG of a tile instruction or a copy descriptor. -/
def tileTag (ws : List Word) : Nat := fld (wd ws 14) 15 0
/-- Items a tile instruction writes (R75). -/
def tileItems (ws : List Word) : List Nat :=
  let b := fld (wd ws 13) 15 0
  match fld (wd ws 0) 7 6 with
  | 1 => (List.range (tileM ws)).map (fun r => b + r)
  | 2 => (List.range (tileN ws)).map (fun c => b + c)
  | _ => [b]

/-! ### Vector instruction -/

/-- Is an opcode one of the wide-sum instructions? -/
def vecWide (ws : List Word) : Bool := decide (0xB8 ≤ opcodeOf ws ∧ opcodeOf ws ≤ 0xBB)
/-- Items a vector instruction names (R105). -/
def vecItems (ws : List Word) : List Nat :=
  let b := fld (wd ws 4) 15 0
  match fld (wd ws 4) 31 30 with
  | 1 => [b]
  | 2 => (List.range (if vecWide ws then 64 else 128)).map (fun c => b + c)
  | _ => []

/-! ### Copy and pod descriptors -/

/-- Is it a pod descriptor? -/
def isPod (ws : List Word) : Bool := decide (0x30 ≤ opcodeOf ws ∧ opcodeOf ws ≤ 0x32)
/-- NPLANES. -/
def copyPlanes (ws : List Word) : Nat := fld (wd ws 6) 31 16
/-- NROWS. -/
def copyRows (ws : List Word) : Nat := fld (wd ws 6) 15 0
/-- Items a copy descriptor names (R210); a pod descriptor names none. -/
def copyItems (ws : List Word) : List Nat :=
  let b := fld (wd ws 13) 15 0
  if isPod ws then [] else
  match fld (wd ws 0) 7 6 with
  | 1 => [b]
  | 2 => (List.range (copyPlanes ws)).map (fun p => b + p)
  | _ => []
/-- TAG of a copy or pod descriptor. -/
def copyTag (ws : List Word) : Nat := if isPod ws then fld (wd ws 6) 15 0 else fld (wd ws 14) 15 0
/-- GATE: matrix stream, vector stream. A pod descriptor has none. -/
def copyGateM (ws : List Word) : Bool := !isPod ws && bit (wd ws 0) 4
/-- GATE of the vector stream. -/
def copyGateV (ws : List Word) : Bool := !isPod ws && bit (wd ws 0) 5
/-- AFTER_M. -/
def copyAfterM (ws : List Word) : Bool := !isPod ws && bit (wd ws 0) 3
/-- AFTER_V. -/
def copyAfterV (ws : List Word) : Bool := !isPod ws && bit (wd ws 0) 2
/-- Items that a descriptor of QUEUE `q` names (R164). -/
def descItems (q : Nat) (ws : List Word) : List Nat :=
  match q with | 0 => tileItems ws | 1 => vecItems ws | _ => copyItems ws

end Sys2Proof.Machine
end

