-- ==== Sys2Proof/Machine/Num.lean ====
section
/-! DEFINITION. Number formats (02 R38-R61): exact values, the one rounding rule (to nearest, ties away from zero),
the element formats, the final conversion, and the vector engine's scalar arithmetic. -/

namespace Sys2Proof.Machine

open Sys2Proof

/-! ### Integers -/

/-- Two's complement value of the low `n` bits. -/
def sgn (n v : Nat) : Int := if v % 2 ^ n < 2 ^ (n - 1) then (v % 2 ^ n : Nat) else (v % 2 ^ n : Nat) - (2 ^ n : Nat)
/-- The low `n` bits of an integer, as a number. -/
def wrapN (n : Nat) (x : Int) : Nat := (x % (2 ^ n : Nat)).toNat
/-- An integer kept modulo 2^n, as a signed value. -/
def wrapS (n : Nat) (x : Int) : Int := sgn n (wrapN n x)
/-- Largest and smallest signed value of `n` bits. -/
def smax (n : Nat) : Int := (2 ^ (n - 1) : Nat) - 1
/-- Smallest signed value of `n` bits. -/
def smin (n : Nat) : Int := -(2 ^ (n - 1) : Nat)
/-- Clamp to the signed range of `n` bits. -/
def clampS (n : Nat) (x : Int) : Int := if x > smax n then smax n else if x < smin n then smin n else x
/-- Outside the signed range of `n` bits? -/
def outS (n : Nat) (x : Int) : Bool := decide (x > smax n) || decide (x < smin n)

/-- `a / b` rounded to nearest, ties away from zero (R61); `b` is positive. -/
def rdiv (a b : Nat) : Nat := (2 * a + b) / (2 * b)
/-- The same for a signed numerator. -/
def rdivS (a : Int) (b : Nat) : Int := if a < 0 then -(rdiv a.natAbs b : Nat) else (rdiv a.natAbs b : Nat)
/-- `x * 2^e` as a fraction: numerator and denominator. -/
def scale2 (x : Nat) (e : Int) : Nat × Nat := if e < 0 then (x, 2 ^ e.natAbs) else (x * 2 ^ e.natAbs, 1)
/-- floor(log2 (n / d)) of a positive fraction. -/
def flog2 (n d : Nat) : Int :=
  let e : Int := (Nat.log2 n : Int) - (Nat.log2 d : Int)
  let (x, y) := if e < 0 then (n * 2 ^ e.natAbs, d) else (n, d * 2 ^ e.natAbs)
  if y ≤ x then e else e - 1

/-! ### Floating formats -/

/-- A floating format: precision with the hidden bit, exponent of the smallest normal, exponent bits. -/
structure FloatFmt where
  p : Nat
  emin : Int
  ebits : Nat
  deriving DecidableEq, Repr

/-- IEEE 754 binary32 (R38). -/
def fp32 : FloatFmt := ⟨24, -126, 8⟩
/-- BF16, as a 16-bit pattern (R38). -/
def bf16 : FloatFmt := ⟨8, -126, 8⟩
/-- FP8 E4M3 (R38, R39). -/
def e4m3 : FloatFmt := ⟨4, -6, 4⟩
/-- FP8 E5M2 (R38, R39). -/
def e5m2 : FloatFmt := ⟨3, -14, 5⟩

/-- A value of a floating format: the finite ones as ±m × 2^e. -/
inductive FV where
  | nan
  | inf (neg : Bool)
  | fin (neg : Bool) (m : Nat) (e : Int)
  deriving DecidableEq, Repr

/-- Read a bit pattern. E4M3 has no infinity, and its only NaN is the all-ones pattern (R39). -/
def fdecode (f : FloatFmt) (b : Nat) : FV :=
  let mb := f.p - 1
  let m := b % 2 ^ mb
  let x := (b / 2 ^ mb) % 2 ^ f.ebits
  let neg := decide ((b / 2 ^ (mb + f.ebits)) % 2 = 1)
  if x = 2 ^ f.ebits - 1 ∧ f = e4m3 ∧ m ≠ 7 then .fin neg (m + 8) (f.emin - 3 + ((x : Int) - 1))
  else if x = 2 ^ f.ebits - 1 then (if f ≠ e4m3 ∧ m = 0 then .inf neg else .nan)
  else if x = 0 then .fin neg m (f.emin - mb)
  else .fin neg (m + 2 ^ mb) (f.emin - mb + ((x : Int) - 1))

/-- Largest finite magnitude as a pattern without the sign (R39, R59). -/
def fmaxBits (f : FloatFmt) : Nat :=
  if f = e4m3 then 0x7E else (2 ^ f.ebits - 2) * 2 ^ (f.p - 1) + (2 ^ (f.p - 1) - 1)
/-- The pattern of an infinity, without the sign. -/
def finfBits (f : FloatFmt) : Nat := (2 ^ f.ebits - 1) * 2 ^ (f.p - 1)

/-- Round the positive fraction n / d to the format: pattern without sign, `none` where it lies beyond the largest
finite value. The pattern grows by one past an all-ones mantissa, which is the next binade. -/
def fround (f : FloatFmt) (n d : Nat) : Option Nat :=
  if n = 0 then some 0 else
  let ex := flog2 n d
  let ex := if ex < f.emin then f.emin else ex
  let q := ex - ((f.p - 1 : Nat) : Int)
  let (a, b) := if q < 0 then (n * 2 ^ q.natAbs, d) else (n, d * 2 ^ q.natAbs)
  let m := rdiv a b
  let bits := ((ex - f.emin).toNat) * 2 ^ (f.p - 1) + m
  if bits ≤ fmaxBits f then some bits else none

/-- The sign bit of a format at its place. -/
def fsign (f : FloatFmt) (neg : Bool) : Nat := if neg then 2 ^ (f.ebits + f.p - 1) else 0

/-- Round ±n/d to the format; beyond the range give the largest finite value and say so (R58 step 6, R59). -/
def froundSat (f : FloatFmt) (neg : Bool) (n d : Nat) : Nat × Bool :=
  match fround f n d with
  | some b => (fsign f neg + b, false)
  | none => (fsign f neg + fmaxBits f, true)
/-- Round ±n/d to the format; beyond the range give an infinity (IEEE 754, R61). -/
def froundInf (f : FloatFmt) (neg : Bool) (n d : Nat) : Nat :=
  match fround f n d with
  | some b => fsign f neg + b
  | none => fsign f neg + finfBits f

/-! ### Output formats (R59, R75) -/

/-- OUT_FMT of R75. -/
inductive OutFmt where
  | int8 | int16 | int32 | e4m3 | e5m2 | bf16 | fp32 | part
  deriving DecidableEq, Repr

/-- The code of R75; codes 8-15 are reserved. -/
def outFmt? : Nat → Option OutFmt
  | 0 => some .int8 | 1 => some .int16 | 2 => some .int32 | 3 => some .e4m3
  | 4 => some .e5m2 | 5 => some .bf16 | 6 => some .fp32 | 7 => some .part | _ => none

/-- Bytes of one element in memory (R38, R53, R102). -/
def OutFmt.bytes : OutFmt → Nat
  | .int8 | .e4m3 | .e5m2 => 1 | .int16 | .bf16 => 2 | .int32 | .fp32 => 4 | .part => 16
/-- Bits of an integer type; 32 for every other. -/
def OutFmt.ibits : OutFmt → Nat
  | .int8 => 8 | .int16 => 16 | _ => 32
/-- An integer type? -/
def OutFmt.isInt : OutFmt → Bool
  | .int8 | .int16 | .int32 => true | _ => false
/-- The floating format of a type. -/
def OutFmt.float : OutFmt → FloatFmt
  | .e4m3 => Machine.e4m3 | .e5m2 => Machine.e5m2 | .bf16 => Machine.bf16 | _ => Machine.fp32

/-- Round and saturate ±n/d to an output format (R58 steps 5-6): the element's bits in memory, and whether it
saturated. -/
def outConv (o : OutFmt) (neg : Bool) (n d : Nat) : Nat × Bool :=
  if o.isInt then
    let x : Int := if neg then -(rdiv n d : Nat) else (rdiv n d : Nat)
    (wrapN o.ibits (clampS o.ibits x), outS o.ibits x)
  else froundSat o.float (neg && decide (n ≠ 0)) n d

/-- An element's memory bits as the lane that holds it (R102). -/
def laneOfMem (o : OutFmt) (v : Nat) : Word :=
  match o with
  | .int8 => w32 (wrapN 32 (sgn 8 v)) | .int16 => w32 (wrapN 32 (sgn 16 v))
  | .e4m3 | .e5m2 => w32 (v % 256) | .bf16 => w32 (v % 65536 * 65536) | _ => w32 v
/-- A lane as an element's memory bits (R102). -/
def memOfLane (o : OutFmt) (w : Word) : Nat :=
  match o with
  | .bf16 => w.toNat / 65536 | .int8 | .e4m3 | .e5m2 => w.toNat % 256 | .int16 => w.toNat % 65536 | _ => w.toNat
/-- A lane of a floating type as a value. BF16 computes in FP32, on the FP32 value that its lane is (R102, R107). -/
def laneVal (o : OutFmt) (w : Word) : FV :=
  match o with
  | .e4m3 | .e5m2 => fdecode o.float (w.toNat % 256)
  | _ => fdecode fp32 w.toNat

/-! ### Operand formats of the matrix engine (R38-R43, R47, R75) -/

/-- FMT_A and FMT_B of R75. -/
inductive OpFmt where
  | int8 | int16 | cint16 | e4m3 | e5m2 | bfp16
  deriving DecidableEq, Repr

/-- The code of R75. -/
def opFmt? : Nat → Option OpFmt
  | 0 => some .int8 | 1 => some .int16 | 2 => some .cint16 | 3 => some .e4m3 | 4 => some .e5m2 | 6 => some .bfp16
  | _ => none
/-- Bytes of one operand element (R38). -/
def OpFmt.bytes : OpFmt → Nat
  | .int8 | .e4m3 | .e5m2 => 1 | .int16 | .bfp16 => 2 | .cint16 => 4
/-- FP8? -/
def OpFmt.fp8 : OpFmt → Bool
  | .e4m3 | .e5m2 => true | _ => false

/-- FMT of a partial (R53). -/
def partFmt (a b : OpFmt) : Nat :=
  match a, b with
  | .int8, _ => 0 | .int16, _ => 1 | .cint16, _ => 2 | .bfp16, _ => 6
  | .e4m3, .e4m3 => 3 | .e5m2, .e5m2 => 4 | _, _ => 5
/-- Fraction bits of the Long Register by the FMT code of a partial (R47); for BFP16 F = 314 − EREF (R58). -/
def fracBits (fmt eref : Nat) : Int :=
  match fmt with
  | 3 => 18 | 4 => 32 | 5 => 32 | 6 => 314 - (eref : Int) | _ => 0

/-- An FP8 operand as an integer in units of 2^-9 (E4M3) or 2^-16 (E5M2); a NaN or an infinity enters as zero and
is reported (R40). -/
def fp8Int (f : OpFmt) (b : Nat) : Int × Bool :=
  match fdecode (if f = .e4m3 then e4m3 else e5m2) b with
  | .fin neg m e =>
    let u : Int := if f = .e4m3 then 9 else 16
    let x : Nat := m * 2 ^ (e + u).toNat
    (if neg then -(x : Int) else x, false)
  | _ => (0, true)
/-- Left shift that brings an FP8 product to the fraction bits of R47. -/
def fp8Shift (a b : OpFmt) : Nat := if a = b then 0 else 7

/-! ### The Long Register (R47-R51) -/

/-- Clamp to the 96-bit range and say whether that changed the sum (R48, R56). -/
def clamp96 (x : Int) : Int × Bool := (clampS 96 x, outS 96 x)

/-- A BFP16 product in the window of EREF (R50): the addend, whether it is exact to the bit, and whether BFP_WINDOW is
set by it. -/
def bfpPlace (eref s : Nat) (prod : Int) : Int × Bool :=
  let d : Int := (eref : Int) - (s : Int)
  if d ≤ 32 then (prod * (2 ^ (32 - d).toNat : Nat), false)
  else (prod / (2 ^ (d - 32).toNat : Nat), decide (prod ≠ 0))

/-! ### The final conversion (R57-R59) -/

/-- A rescale record (R57). -/
structure Rescale where
  mult : Int
  bias : Int
  biasShift : Nat
  shift : Nat
  deriving DecidableEq, Repr
/-- The values of RSCL = 0 (R75). -/
def Rescale.id : Rescale := ⟨1, 0, 0, 0⟩
/-- Read a record of R57 from its four words. -/
def Rescale.ofWords (ws : List Word) : Rescale :=
  ⟨sgn 32 (wd ws 0).toNat, sgn 32 (wd ws 1).toNat, fld (wd ws 2) 13 8, fld (wd ws 2) 7 0⟩

/-- The fused activations of R86 on v = p × 2^e: a numerator and the power of two to add to e. -/
def actApply (act : Nat) (p : Int) : Int × Int :=
  match act with
  | 1 => (if p < 0 then 0 else p, 0)
  | 2 => if p < 0 then (p, -3) else (p, 0)
  | 3 => if p < 0 then (p, -6) else (p, 0)
  | 4 => (p.natAbs, 0)
  | _ => (p, 0)

/-- Round v = p × 2^e once to the output format. -/
def convDyadic (o : OutFmt) (p e : Int) : Nat × Bool :=
  let (n, d) := scale2 p.natAbs e
  outConv o (decide (p < 0)) n d

/-- R58 on an exact sum: the element's bits, whether it counts as a saturation (R64: once), and whether the sum with its
bias left the 96-bit range. `useBias` is false for complex tiles (R87). -/
def finalConv (o : OutFmt) (act : Nat) (r : Rescale) (useBias : Bool) (fmt eref : Nat) (a : Int) : Nat × Bool × Bool :=
  let (t, ls) := clamp96 (if useBias then a + r.bias * (2 ^ r.biasShift : Nat) else a)
  let (p, k) := actApply act (t * r.mult)
  let (b, s) := convDyadic o p (k - (r.shift : Int) - fracBits fmt eref)
  (b, s, ls)

/-! ### BFP16 (R42-R46) -/

/-- The exponent floor(log2 |x|) of a finite non-zero value. -/
def fvLog (v : FV) : Option Int :=
  match v with
  | .fin _ m e => if m = 0 then none else some ((Nat.log2 m : Int) + e)
  | _ => none
/-- The largest of the exponents of a block. -/
def blockExp : List FV → Option Int
  | [] => none
  | v :: t =>
    match fvLog v, blockExp t with
    | some a, some b => some (max a b)
    | some a, none => some a
    | none, r => r
/-- R44 step 1: what a converted source element is read as; a subnormal of FP32 or BF16 reads as zero. -/
def bfpRead (v : FV) : FV :=
  match v with
  | .fin neg m e => if e ≤ -149 ∧ m < 2 ^ 23 ∨ (e = -133 ∧ m < 2 ^ 7) then .fin neg 0 0 else .fin neg m e
  | .nan => .fin false 0 0
  | .inf neg => .inf neg
/-- One mantissa at block exponent E (R44 step 3). -/
def bfpMant (ex : Int) (v : FV) : Int :=
  match v with
  | .fin neg m e =>
    let (n, d) := scale2 m (e + 14 - ex)
    let x : Int := (rdiv n d : Nat)
    if neg then -x else x
  | .inf neg => if neg then -32767 else 32767
  | .nan => 0
/-- R44 on the elements of one block, already read under step 1: the exponent byte and the mantissas. -/
def bfpBlock (vs : List FV) : Nat × List Int :=
  match blockExp vs with
  | none =>
    if vs.any (fun v => match v with | .inf _ => true | _ => false)
    then (254, vs.map (fun v => match v with | .inf neg => if neg then -32767 else 32767 | _ => 0))
    else (0, vs.map (fun _ => 0))
  | some ex =>
    let ms := vs.map (bfpMant ex)
    if ms.any (fun m => decide (m.natAbs ≥ 32768)) then
      if ex + 1 = 128 then (254, ms.map (fun m => if m ≥ 32768 then 32767 else if m ≤ -32768 then -32767 else m))
      else ((ex + 1 + 127).toNat, vs.map (bfpMant (ex + 1)))
    else ((ex + 127).toNat, ms)

/-! ### Vector arithmetic on one lane (R61, R107, R115, R116) -/

/-- A NaN result: quiet, its sign and payload free (log 2); a BF16 lane keeps [15:0] zero (R102). -/
def nanLane (o : OutFmt) (key : Nat) : Word :=
  let x := (Config.nanBits key).toNat
  let w := 0x7FC00000 + (x / 2 ^ 22) * 2 ^ 31 + x % 2 ^ 22
  if o = .bf16 then w32 (w / 65536 * 65536) else w32 w
/-- A rounded finite result in a lane of FP32 or BF16. -/
def fpLane (o : OutFmt) (neg : Bool) (n d : Nat) : Word := laneOfMem o (froundInf o.float neg n d)
/-- An infinity in a lane. -/
def infLane (o : OutFmt) (neg : Bool) : Word := laneOfMem o (fsign o.float neg + finfBits o.float)
/-- A zero in a lane. -/
def zeroLane (o : OutFmt) (neg : Bool) : Word := laneOfMem o (fsign o.float neg)
/-- ±x × 2^e rounded to a lane; an exact zero takes the sign `zneg`. -/
def dyLane (o : OutFmt) (x e : Int) (zneg : Bool) : Word :=
  if x = 0 then zeroLane o zneg else
  let (n, d) := scale2 x.natAbs e
  fpLane o (decide (x < 0)) n d
/-- The signed mantissa of a finite value. -/
def smant (neg : Bool) (m : Nat) : Int := if neg then -(m : Int) else m

/-- a × b + c rounded once (VFMA); addition is b = 1 and multiplication c = −0 or +0 by the product's sign. -/
def ffma (o : OutFmt) (key : Nat) (a b c : FV) : Word :=
  match a, b with
  | .nan, _ => nanLane o key
  | _, .nan => nanLane o key
  | .inf s, y =>
    match y with
    | .fin _ 0 _ => nanLane o key
    | .fin t _ _ | .inf t =>
      (match c with
       | .nan => nanLane o key
       | .inf u => if u = (s != t) then infLane o u else nanLane o key
       | .fin _ _ _ => infLane o (s != t))
    | .nan => nanLane o key
  | .fin s m _, .inf t =>
    if m = 0 then nanLane o key else
      (match c with
       | .nan => nanLane o key
       | .inf u => if u = (s != t) then infLane o u else nanLane o key
       | .fin _ _ _ => infLane o (s != t))
  | .fin s m e, .fin t n f =>
    match c with
    | .nan => nanLane o key
    | .inf u => infLane o u
    | .fin u k g =>
      let pneg := (s != t)
      let pe := e + f
      let x := smant pneg (m * n)
      let z := smant u k
      let lo := min pe g
      let sum := x * (2 ^ (pe - lo).toNat : Nat) + z * (2 ^ (g - lo).toNat : Nat)
      dyLane o sum lo (pneg && u)
/-- A BF16 lane computes in FP32 and rounds the result once (R107, R733). -/
def bf16OfFp32 (key : Nat) (w : Word) : Word :=
  match laneVal .fp32 w with
  | .nan => nanLane .bf16 key
  | .inf s => infLane .bf16 s
  | .fin neg m e => let (n, d) := scale2 m e; fpLane .bf16 neg n d
/-- A result of TYPE from an FP32 lane: as it is, but rounded once for BF16. -/
def roundLane (o : OutFmt) (key : Nat) (w : Word) : Word :=
  if o = .bf16 ∧ w &&& 0xFFFF ≠ 0 then bf16OfFp32 key w else w

/-- The value 1. -/
def fvOne : FV := .fin false 1 0
/-- The value with its sign turned. -/
def fvNeg : FV → FV
  | .nan => .nan | .inf s => .inf (!s) | .fin s m e => .fin (!s) m e
/-- The sign of a product's exact zero, for VMUL. -/
def fvSign : FV → Bool
  | .nan => false | .inf s => s | .fin s _ _ => s
/-- Addition. -/
def fadd (o : OutFmt) (key : Nat) (a b : FV) : Word := ffma o key a fvOne b
/-- Multiplication. -/
def fmul (o : OutFmt) (key : Nat) (a b : FV) : Word := ffma o key a b (.fin (fvSign a != fvSign b) 0 0)
/-- a < b for values that are not NaN, with −0 below +0 when `zeros` is set (minimum and maximum). -/
def fvLt (zeros : Bool) (a b : FV) : Bool :=
  match a, b with
  | .nan, _ | _, .nan => false
  | .inf s, .inf t => s && !t
  | .inf s, .fin _ _ _ => s
  | .fin _ _ _, .inf t => !t
  | .fin s m e, .fin t n f =>
    if m = 0 ∧ n = 0 then zeros && s && !t else
    let lo := min e f
    decide (smant s m * (2 ^ (e - lo).toNat : Nat) < smant t n * (2 ^ (f - lo).toNat : Nat))
/-- a = b as IEEE values: −0 equals +0, NaN equals nothing. -/
def fvEq (a b : FV) : Bool :=
  match a, b with
  | .nan, _ | _, .nan => false
  | a, b => !fvLt false a b && !fvLt false b a
/-- IEEE 754-2019 minimum and maximum: a NaN operand gives NaN, −0 is below +0 (R107). -/
def fminmax (o : OutFmt) (key : Nat) (isMax : Bool) (wa wb : Word) : Word :=
  match laneVal o wa, laneVal o wb with
  | .nan, _ | _, .nan => nanLane o key
  | a, b => roundLane o key (if fvLt true a b = isMax then wb else wa)
/-- IEEE 754 division, correctly rounded (R116). -/
def fdiv (o : OutFmt) (key : Nat) (a b : FV) : Word :=
  match a, b with
  | .nan, _ | _, .nan => nanLane o key
  | .inf _, .inf _ => nanLane o key
  | .inf s, .fin t _ _ => infLane o (s != t)
  | .fin s _ _, .inf t => zeroLane o (s != t)
  | .fin s m e, .fin t n f =>
    if n = 0 then (if m = 0 then nanLane o key else infLane o (s != t))
    else if m = 0 then zeroLane o (s != t)
    else
      let (x, y) := scale2 m (e - f)
      fpLane o (s != t) x (y * n)

/-! ### VEXP2, VRCP, VRSQ: any result within 2 ulp, the same for the same operand (R115, log 2)

`near` takes the correctly rounded result of a close rational approximation and moves it by the free choice, which is
taken only where the moved result is still within 2 ulp. -/

/-- Integer square root by bits. -/
def isqrt : Nat → Nat → Nat → Nat
  | 0, _, r => r
  | k + 1, n, r => let t := r + 2 ^ k; isqrt k n (if t * t ≤ n then t else r)
/-- 2^(i / 2^96) in units of 2^-160, by the series of exp at i × ln 2 / 2^96. -/
def expSeries : Nat → Nat → Nat → Nat → Nat → Nat
  | 0, _, _, _, acc => acc
  | f + 1, x, term, k, acc =>
    let t := term * x / 2 ^ 160 / k
    expSeries f x t (k + 1) (acc + t)
/-- ln 2 in units of 2^-160. -/
def ln2q : Nat := 0xB17217F7D1CF79ABC9E3B39803F2F6AF40F34327
/-- 2^(i / 2^96), 0 ≤ i < 2^96, in units of 2^-160. -/
def exp2Frac (i : Nat) : Nat := expSeries 48 (i * ln2q / 2 ^ 96) (2 ^ 160) 1 (2 ^ 160)

/-- A positive pattern of FP32 moved by `k` ulp, kept finite. -/
def stepBits (b : Nat) (k : Int) : Nat :=
  let x := (b : Int) + k
  if x < 0 then 0 else if x > 0x7F7FFFFF then 0x7F7FFFFF else x.toNat
/-- The free choice around n / d: 0, ±1 ulp always, ±2 ulp on the side on which the exact value lies. -/
def near (op : Nat) (arg : Word) (n d : Nat) : Nat :=
  match fround fp32 n d with
  | none => 0x7F800000
  | some b =>
    let (bm, be) := match fdecode fp32 b with | .fin _ m e => (m, e) | _ => (0, 0)
    let (x, y) := scale2 bm be
    let up := decide (x * d ≤ n * y)
    let dn := decide (n * y ≤ x * d)
    match Config.ulpChoice op arg % 5 with
    | 0 => b
    | 1 => stepBits b 1
    | 2 => stepBits b (-1)
    | 3 => if up then stepBits b 2 else stepBits b 1
    | _ => if dn then stepBits b (-2) else stepBits b (-1)

/-- VEXP2 on an FP32 lane. -/
def vexp2Lane (x : Word) : Word :=
  match laneVal .fp32 x with
  | .nan => nanLane .fp32 (0x98 * 2 ^ 32 + x.toNat)
  | .inf s => if s then 0 else infLane .fp32 false
  | .fin neg m e =>
    if m = 0 then w32 0x3F800000 else
    let (n, d) := scale2 m e
    let q : Int := if neg then -((n + d - 1) / d : Nat) else (n / d : Nat)
    if !neg && decide (q ≥ 128) then infLane .fp32 false
    else if neg && decide (n > 149 * d) then 0
    else
      let frac : Nat := ((smant neg n - q * (d : Int)).toNat) * 2 ^ 96 / d
      if (smant neg n - q * (d : Int)) = 0 then
        (let (a, b) := scale2 1 q; fpLane .fp32 false a b)
      else
        let (a, b) := scale2 (exp2Frac frac) (q - 160)
        w32 (near 0x98 x a b)
/-- VRCP on an FP32 lane. -/
def vrcpLane (x : Word) : Word :=
  match laneVal .fp32 x with
  | .nan => nanLane .fp32 (0x99 * 2 ^ 32 + x.toNat)
  | .inf s => zeroLane .fp32 s
  | .fin neg m e =>
    if m = 0 then infLane .fp32 neg else
    let (n, d) := scale2 m e
    w32 (near 0x99 x d n + fsign fp32 neg)
/-- VRSQ on an FP32 lane. -/
def vrsqLane (x : Word) : Word :=
  match laneVal .fp32 x with
  | .nan => nanLane .fp32 (0x9A * 2 ^ 32 + x.toNat)
  | .inf s => if s then nanLane .fp32 (0x9A * 2 ^ 32 + x.toNat) else 0
  | .fin neg m e =>
    if m = 0 then infLane .fp32 false else
    if neg then nanLane .fp32 (0x9A * 2 ^ 32 + x.toNat) else
    let (m2, e2) := if e % 2 = 0 then (m, e) else (2 * m, e - 1)
    let r := isqrt 80 (m2 * 2 ^ 120) 0
    let (a, b) := scale2 1 (60 - e2 / 2)
    w32 (near 0x9A x a (b * r))
/-! ### Conversions of VCVT (R61, R107) -/

/-- The value of a lane of any type; FP8 negative zero is consumed as zero (R39). -/
def laneAny (o : OutFmt) (w : Word) : FV :=
  if o.isInt then
    let x := sgn 32 w.toNat
    .fin (decide (x < 0)) x.natAbs 0
  else
    match laneVal o w with
    | .fin neg m e => if m = 0 ∧ (o = .e4m3 ∨ o = .e5m2) then .fin false 0 e else .fin neg m e
    | v => v
/-- VCVT of one lane. A conversion to a type of the same name copies; a wider floating target keeps infinities; every
other saturates (R59). -/
def vcvtLane (a b : OutFmt) (w : Word) : Word :=
  if a = b then w else
  match laneAny a w with
  | .nan =>
    if b.isInt then 0 else
    match b with
    | .e4m3 | .e5m2 => w32 0x7F
    | .bf16 => w32 0x7FC00000
    | _ => nanLane .fp32 (0xA0 * 2 ^ 32 + w.toNat)
  | .inf neg =>
    if b.isInt then w32 (wrapN 32 (if neg then smin b.ibits else smax b.ibits))
    else if b = .fp32 ∨ (b = .bf16 ∧ a = .e5m2) then infLane b neg
    else laneOfMem b (fsign b.float neg + fmaxBits b.float)
  | .fin neg m e =>
    let (n, d) := scale2 m e
    if b.isInt then laneOfMem b (outConv b neg n d).1
    else laneOfMem b (froundSat b.float neg n d).1

/-- Integer results: saturate to TYPE or wrap (R106). -/
def intLane (o : OutFmt) (sat : Bool) (x : Int) : Word :=
  let y := if sat then clampS o.ibits x else wrapS o.ibits x
  w32 (wrapN 32 y)

end Sys2Proof.Machine
end

