-- ==== Sys2Proof/Machine/State.lean ====
section
/-! DEFINITION. The state of the block: plain data, every piece of state the manual names. Each field's default value
is its value at reset (INVENTORY.md, State; the assumption log names the values the manual does not give). -/

namespace Sys2Proof.Machine

open Sys2Proof

/-! ### The Clove core (05 R135) -/

/-- An address pointer (R135, R137). -/
structure Ptr where
  adr : BitVec 17 := 0
  mod : BitVec 16 := 0
  len : BitVec 17 := 0
  base : BitVec 17 := 0
  deriving DecidableEq, Repr

/-- One level of the repeat nest (R148, R153): byte offsets of the first body word and past the last, iterations
left with the running one, SPAN and ROT. -/
structure RepLvl where
  start : Nat
  stop : Nat
  left : Nat
  span : Nat
  rot : Bool
  deriving DecidableEq, Repr

/-- Where a load puts its value: an S register, or a W register by physical number (R146, R153). -/
inductive LoadDest where
  | s (n : Nat)
  | w (n : Nat)
  deriving DecidableEq, Repr

/-- The core of one cluster. -/
structure Clv where
  /-- S0-S31 (R135). -/
  s : Tab Word := []
  /-- W0-W31 by physical number (R153). -/
  w : Tab Word := []
  acc0 : BitVec 40 := 0
  acc1 : BitVec 40 := 0
  /-- PX0-PX3 and PY0-PY3. -/
  px : Tab Ptr := []
  py : Tab Ptr := []
  rotBase : BitVec 5 := 0
  /-- CST: IEN [7:4], V40 [2], V32 [1], VS [0]. -/
  cst : Word := 0
  /-- Return addresses of CALL, the youngest first. -/
  calls : List Nat := []
  /-- The return queue, the oldest first. -/
  retq : List Word := []
  /-- CLV_PC (R165). -/
  pc : Nat := 0
  /-- Delay slots left, and where they lead: nowhere else after a branch that is not taken (R145). -/
  delay : Option (Nat × Option Nat) := none
  /-- Loads whose value the next instruction does not see yet (R145, R146). -/
  loads : List (LoadDest × Word) := []
  /-- The repeat nest, innermost first (R148). -/
  reps : List RepLvl := []
  /-- a-cycles since the entry into the outermost block (R152). -/
  repCycles : Nat := 0
  /-- a-cycles since the last yield point (R192), and whether its record is written. -/
  sinceYield : Nat := 0
  lateLogged : Bool := false
  /-- a-cycles for which a pending enabled interrupt has been held off (R165 HOLD_PEAK). -/
  holdoff : Nat := 0
  /-- Saved PC and CST while a handler runs (R156). -/
  shadow : Option (Nat × Word) := none
  /-- Pending FAULT, SLOT, WAKE, RETQ in bits 3 to 0, the order of IEN (R155). -/
  irq : BitVec 4 := 0
  /-- STALL of R166. -/
  stall : Nat := 0
  /-- A yield request is pending (R270). -/
  yieldReq : Bool := false
  /-- This member has stopped at its YIELD of this index (R271). -/
  atYield : Option Nat := none
  /-- The job's code has ended on this member (END). -/
  ended : Bool := true
  /-- Index of the yield point with WAIT set that the core last passed, until its wait completes (R257, R290). -/
  waitYield : Option Nat := none
  /-- The outcome that the outstanding SYNC wait latched (R255). -/
  waitDone : Option Nat := none
  deriving DecidableEq, Repr

/-- A line of the instruction cache: its tag (R185), and whether PRELOAD or a repeat block locks it (R186, R150). -/
structure ICLine where
  part : Nat
  slot : Nat
  gen : Nat
  line : Nat
  preload : Bool
  rep : Bool
  deriving DecidableEq, Repr

/-! ### Execute streams, tiles and the vector engine -/

/-- An instruction or descriptor as ISSUE sent it (R159): its words, the scalar captured for it (R110), the offset of the
ISSUE, the job, and how many instructions each stream had been given before it (R108, R219): the matrix stream, and the
vector streams of the cluster and of the upper half of its pair. -/
structure Issued where
  words : List Word
  scalar : Word := 0
  off : Nat := 0
  job : Nat := 0
  mxAt : Nat := 0
  vxAt : Nat := 0
  vxAt2 : Nat := 0
  deriving DecidableEq, Repr

/-- An entry of an execute stream (R218): an instruction with its place in the stream's count, or a gate marker that
names its copy. -/
inductive StreamEnt where
  | instr (i : Issued) (serial : Nat)
  | gate (copy : Nat)
  deriving DecidableEq, Repr

/-- One sum of the array with the flags it carries (R47-R51, R53). -/
structure LSum where
  v : Int
  lsat : Bool := false
  win : Bool := false
  nf : Bool := false
  fe : Bool := false
  deriving DecidableEq, Repr

/-- What must be failed when a tile's verdict is a mismatch: named items, or every open item of the job (R93, R734). -/
structure Dep where
  items : List Nat
  all : Bool := false
  deriving DecidableEq, Repr

/-- A tile in a Long Register bank or awaiting its verdict (R79-R93): the instruction, its count in the stream, which half
of a Cherry pair, the visible sums by row (complex: real and imaginary parts in turn), the checksum registers by part,
faults outside M x N, rows drained (strips, for partials that go to the queue), saturations counted so far, and who depends on the verdict. -/
structure Tile where
  ins : Issued
  serial : Nat
  half : Nat
  eref : Nat
  rows : List (List LSum)
  csRow : List (List Int)
  csCol : List (List Int)
  outside : List CellFault
  cplx : Bool
  drained : Nat := 0
  sats : Nat := 0
  deps : List Dep := []
  deriving DecidableEq, Repr

/-- The verdict state of a vector or mask register (R734): the tiles it waits for, or a mismatch. -/
inductive VState where
  | pending (tiles : List Nat)
  | mismatch
  deriving DecidableEq, Repr

/-- VERDICT of a queue entry (R117), as the tile it comes from. -/
structure FtqEnt where
  tag : Nat
  row : Nat
  part : Nat
  type : Nat
  colmask : BitVec 128
  last : Bool
  tile : Nat
  verdict : VState
  lanes : List Word
  deriving DecidableEq, Repr

/-- The tag of one wide sum (R103). -/
structure WTag where
  fmt : Nat := 0
  eref : Nat := 0
  fe : Bool := false
  nf : Bool := false
  win : Bool := false
  lsat : Bool := false
  deriving DecidableEq, Repr

/-- A memory of a cluster (R133, R25): its listed bytes, and the ranges (start, length, epoch) whose unlisted bytes became
undefined at a resumption (R190), the latest first. Every other unlisted byte is zero. -/
structure Ram where
  bytes : Mem := []
  undef : List (Nat × Nat × Nat) := []
  deriving DecidableEq, Repr

/-- One physical cluster (01 R28). -/
structure Cluster where
  /-- The job running on it (09 R269). -/
  job : Option Nat := none
  clv : Clv := {}
  /-- X and Y memories and scratchpad (R133, R25). -/
  xm : Ram := {}
  ym : Ram := {}
  sp : Ram := {}
  /-- Instruction cache lines, the most recently used first (R185). -/
  ic : List ICLine := []
  /-- The matrix stream, the oldest first, and the tiles issued so far. -/
  mxq : List StreamEnt := []
  mxIssued : Nat := 0
  tiles : List Tile := []
  /-- Scratchpad ranges that tiles with a mismatch wrote for the running job (R219). -/
  bad : List (Nat × Nat) := []
  /-- The vector stream, instructions issued and retired (R219). -/
  vxq : List StreamEnt := []
  vxIssued : Nat := 0
  vxDone : Nat := 0
  /-- V0-V31 as lists of lanes, VM0-VM7, the wide-sum tags by pair (R101). -/
  v : Tab (List Word) := []
  vm : Tab (BitVec 128) := []
  tags : Tab (List WTag) := []
  /-- Verdict states: V registers 0-31, mask registers 32-39 (R734); unlisted is clear. -/
  vst : Tab (Option VState) := []
  /-- The finished-tile queue, the oldest first (R117). -/
  ftq : List FtqEnt := []
  /-- Partition that last wrote the scratchpad footprint (R284). -/
  lastPart : Nat := 0
  /-- Tick of the last mismatch, or of the last decay of REPAIR_CNT (R95). -/
  decayAt : Nat := 0
  deriving DecidableEq, Repr

/-! ### Copy engines and pods (07) -/

/-- A descriptor in a copy engine's queue: what ISSUE sent, its number, and how far it has come. -/
structure CopyDesc where
  ins : Issued
  serial : Nat
  /-- Partition, physical clusters and generation (partition, slot, number) of its job, as they were when it was taken up: a copy that has
  started a run completes even when its job is aborted (R249). -/
  part : Nat := 0
  units : List Nat := []
  gen : Nat × Nat × Nat := (0, 0, 0)
  /-- Where source and destination begin: the space as the engine resolves it, and the address in it. The destination of a pod descriptor is
  its HBUF. -/
  src : Nat × Nat := (0, 0)
  dst : Nat × Nat := (0, 0)
  /-- Its opcode's row has taken it up. -/
  started : Bool := false
  /-- Skipped under R213 or R223. -/
  skipped : Bool := false
  /-- Completes without moving data and without its signal: a HALO outside the grid (R230). -/
  silent : Bool := false
  /-- The next run: its source range, the bytes of that range already started, and the runs started (R214). -/
  range : Nat := 0
  pos : Nat := 0
  runs : Nat := 0
  /-- The tick at which its last run started, and how many ns that run holds its slot. -/
  lastRun : Nat × Nat := (0, 0)
  /-- Source bytes staged, by place in the packed source, of a copy that is written at its last run. -/
  staged : Mem := []
  /-- A pod operation, or a context update, has been carried out. -/
  acted : Bool := false
  /-- A pod operation waits; the tick at which its limit began (R224). -/
  podWait : Option Nat := none
  /-- A MOVE's handle and the pod it came from, between its halves. -/
  podHandle : Option (BitVec 128 × Nat) := none
  /-- The handle that a PUSH read at HBUF when it was taken up (R223). -/
  handle : BitVec 128 := 0
  /-- Pushes to its pod that the last examination has seen, and handles examined since (R226). -/
  examined : Nat × Nat := (0, 0)
  deriving DecidableEq, Repr

/-- One copy engine (R207): its queue, the oldest first, the descriptors received, and run slots held: the tick and the time
in ns of each run (R214). -/
structure CopyEng where
  q : List CopyDesc := []
  issued : Nat := 0
  dram : List (Nat × Nat) := []
  chip : List (Nat × Nat) := []
  deriving DecidableEq, Repr

/-- One pod (R222): its handles, the oldest first, the high-water mark, and the pushes it has had. -/
structure Pod where
  q : List (BitVec 128) := []
  high : Nat := 0
  pushes : Nat := 0
  deriving DecidableEq, Repr

/-- A handle a job holds, and the pod it came from (R228). -/
structure Held where
  h : BitVec 128
  pod : Nat
  deriving DecidableEq, Repr

/-! ### Synchronisation objects (08) -/

/-- Who waits (R258). -/
inductive Waiter where
  | core (c : Nat)
  | reg (job : Nat)
  | yieldReg (job c : Nat)
  | host (part : Nat) (cookieLo cookieHi seq : Word) (ring : Nat)
  | engine (unit : Word)
  | peer (port rpart : Nat)
  deriving DecidableEq, Repr

/-- An occupied waiter entry (R258, R263): `id` numbers it, `at` is the tick it arrived, `limit` is in ns. -/
structure WaitEnt where
  id : Nat
  who : Waiter
  op : Nat
  obj : Nat
  operand : Word
  arrived : Nat
  limit : Nat
  cont : Bool
  part : Nat
  handle : Word
  /-- Offset of the SYNC, for the record of R249, and the register its outcome goes to. -/
  off : Nat
  sd : Nat := 0
  deriving DecidableEq, Repr

/-- One captured entry of the wait graph (R263, R264). -/
structure WgEnt where
  waiter : Word
  obj : Word
  operand : Word
  value : Word
  left : Word
  lastw : Word
  deriving DecidableEq, Repr

/-! ### Jobs and the dispatcher (09, 17) -/

/-- Where a job stands (R269-R283). -/
inductive Phase where
  | queued
  | running
  | yielding
  | yielded
  | spilling
  | spilled
  | restoring
  deriving DecidableEq, Repr

/-- A region of a save set as R280 handles it: member, space, start, length, and whether it is spilled. -/
structure SaveReg where
  member : Nat
  space : Nat
  start : Nat
  len : Nat
  spilled : Bool
  deriving DecidableEq, Repr

/-- A job that was picked up and admitted, or an instance of a template. -/
structure Job where
  part : Nat
  slot : Nat
  gen : Nat
  entry : Nat
  cookieLo : Word := 0
  cookieHi : Word := 0
  ring : Nat := 0
  seq : Nat := 0
  /-- An instance's slot number (R531). -/
  inst : Option Nat := none
  args : List Word := []
  /-- Absolute deadline in ns (R268) and DL_POLICY (R299). -/
  deadline : Nat := 0
  lateOk : Bool := false
  late : Bool := false
  nitems : Nat := 1
  /-- Marks of the items: 1 suspect, 2 failed (R89). -/
  marks : Tab Nat := []
  /-- The cause of R357 that was first raised for an item, and the tick at which it was. -/
  causes : Tab (Nat × Nat) := []
  /-- Layer instances already re-run, by layer and counter (R68), and items for which the Baseline Equaliser's result is
  taken (R66). -/
  reran : List (Nat × Nat) := []
  misfits : List Nat := []
  scrKib : Nat := 0
  budget : Nat := 0
  ran : Nat := 0
  start : Nat := 0
  level : Nat := 1
  /-- Logical clusters of the unit the job is placed on, in order. -/
  units : List Nat := []
  /-- Physical clusters it runs on or keeps data on, in order; none before it has started. -/
  phys : List Nat := []
  /-- Floor window (logical cluster, index) of a RADIO or SAFETY job (R275). -/
  win : Option (Nat × Nat) := none
  phase : Phase := .queued
  /-- Saved core state and save set by member, while the job is not running (R162, R190). -/
  saved : List (Nat × Clv) := []
  regions : List SaveReg := []
  /-- Pinned regions, kept until the job ends (R290). -/
  pinned : List SaveReg := []
  /-- Contents of the spilled regions, by place in `regions`; empty for a region that is parked. -/
  image : List (List Byte) := []
  /-- Bytes of the partition's spill area that it takes up (R286). -/
  areaUsed : Nat := 0
  /-- Handles the job holds (R228). -/
  held : List Held := []
  /-- The outcome of its last registration, not yet read: 0 SATISFIED, 1 EXPIRED (R246). -/
  regDone : Option Nat := none
  /-- Held on the registration that stands in for a wait (R257). -/
  heldOn : Bool := false
  /-- Order of admission (R269). -/
  order : Nat := 0
  /-- The K extent that its grid deals out, which the manual does not say where to find: a free value (log 2). -/
  gridK : Nat := 0
  deriving DecidableEq, Repr

/-- A request on the spill channel (R281). -/
structure SpillReq where
  job : Nat
  restore : Bool
  deadline : Nat
  bytes : Nat
  started : Bool := false
  /-- 64-byte units still to be moved. -/
  left : Nat := 0
  /-- The job was aborted after the request started; its data is discarded (R300). -/
  dropped : Bool := false
  deriving DecidableEq, Repr

/-- A slot job template (R530), as its descriptor words. -/
structure Tpl where
  words : List Word
  deriving DecidableEq, Repr

/-- A pending template change (R531): partition, index, the new body or none, and the slot number of its timer when it was
asked for. -/
structure TplChange where
  part : Nat
  idx : Nat
  body : Option Tpl
  since : Nat
  deriving DecidableEq, Repr

/-- A completion ring's device side (R532, R534). -/
structure Ring where
  tail : Nat := 0
  phase : Bool := true
  since : Nat := 0
  first : Option Nat := none
  deriving DecidableEq, Repr

/-! ### Images (06) -/

/-- A section of an image (R170). -/
structure Sect where
  type : Nat
  preload : Bool
  off : Nat
  size : Nat
  load : Nat
  deriving DecidableEq, Repr

/-- A registered generation (R181). -/
structure Gen where
  part : Nat
  slot : Nat
  gen : Nat
  base : Nat
  len : Nat
  digest : Nat
  current : Bool
  sects : List Sect
  deriving DecidableEq, Repr

/-! ### Partitions, pages, messages -/

/-- The class of a partition (R9, R664). -/
inductive PClass where
  | mgmt
  | radio
  | safety
  | edge
  deriving DecidableEq, Repr

/-- A created partition (R664, R241). -/
structure Part where
  cls : PClass
  vf : Nat := 0
  requireSig : Bool := false
  /-- SYNC_BASE and SYNC_COUNT by logical cluster (R664). -/
  slices : List (Nat × Nat) := []
  /-- Internal debug is open (R652). -/
  debug : Bool := false
  deriving DecidableEq, Repr

/-- The commit state of a page (R712): requested, judged with entries still to apply, held under R35. -/
structure PageCommit where
  requested : Bool := false
  held : Bool := false
  /-- Entries judged and not yet applied: register key and value. -/
  todo : List (Nat × Word) := []
  deriving DecidableEq, Repr

/-- A record of the error ring: the header, words 0x04-0x14, and the time words (R201, R665, R731). -/
structure ErrRec where
  hdr : Word
  w1 : Word
  w2 : Word
  w3 : Word
  w4 : Word
  w5 : Word
  timeS : Word
  timeNs : Word
  deriving DecidableEq, Repr

/-- What the block sends to the outside (assumption log, row 4). -/
inductive Output where
  /-- An MSI-X message of a function (R534, R708). -/
  | msix (fn vector : Nat)
  /-- SB_ALERT_N changes (R709). -/
  | sbAlert (low : Bool)
  /-- An indication or response of FAPI for a cell (R335). -/
  | fapi (part cell : Nat) (m : FapiMsg)
  /-- An Ethernet frame leaves a fronthaul port. -/
  | frame (port : Nat) (kind : Nat) (bytes : List Byte)
  /-- Samples for a JESD link. -/
  | samples (link ant slot sym : Nat) (vals : List (Int × Int))
  /-- A pin changes: 0 PA_EN, 1 AGC (the level of bit `index` % 4 of group `index` / 4), 2 THERMTRIP_N, 3 PERST_N, 4 WDT_N, 5 an
  AVSBus request (`index` in mV), 6 TDO. -/
  | pin (name : Nat) (index : Nat) (level : Bool)
  /-- A value answered to a read. -/
  | reply (v : Word)
  /-- Something sent to a peer chip over an Ilush port. -/
  | flit (port kind : Nat) (data : List Nat)
  deriving DecidableEq, Repr

/-- A token bucket's books (R560). -/
structure Bucket where
  level : Nat := 0
  added : Word := 0
  spent : Word := 0
  lost : Word := 0
  deriving DecidableEq, Repr

/-! ### Groups of the state -/

/-- The time unit (16). Times are counted in units of 2^-40 ns. -/
structure Tmu where
  /-- The time counter (R494). -/
  time : Nat := 0
  /-- Nominal TCLK ticks since power-on, for durations (R496). -/
  ticks : Nat := 0
  /-- Seconds and fraction latched by a read of TIME_NS (R495). -/
  latchS : Nat := 0
  latchFrac : Nat := 0
  /-- A slew is in progress, and its remainder in units of 2^-40 ns (R505). -/
  slewing : Bool := false
  phaseLeft : Int := 0
  /-- The rate offset in force, in units of 2^-40 (R505). -/
  rate : Int := 0
  /-- Free run (R508) and its cause (R514). -/
  freeRun : Bool := false
  cause : Nat := 0
  /-- Tick of the latest servo write or of the end of the last free run (R508). -/
  servoT0 : Nat := 0
  /-- The transmit time-stamp queue: port, identifier, stamp, the oldest first (R501). -/
  tsq : List (Nat × Nat × Word) := []
  /-- Number of the latest boundary carried out, of each cell, each partition timer, the frame and the 125 µs grid
  (R510-R512). -/
  cellSlot : Tab Nat := []
  partSlot : Tab Nat := []
  frame : Nat := 0
  grid : Nat := 0
  deriving DecidableEq, Repr

/-- The register pages (25) and the error ring (23). -/
structure Pages where
  /-- Values in force, by page code, instance, offset and selector. -/
  regs : Tab Word := []
  /-- RWS shadow values that differ from the value in force, by the same key (R16). -/
  shadow : Tab (Option Word) := []
  /-- The snapshot's copy of the captured registers, while held (R668). -/
  snap : Option (Tab Word) := none
  /-- Tick of the latest snapshot (R668). -/
  snapAt : Nat := 0
  commits : Tab PageCommit := []
  /-- The device error ring, the oldest first, and records dropped since the last type 0x1A record (R666). -/
  ering : List ErrRec := []
  dropped : Nat := 0
  /-- SB_ALERT_N is low (R709). -/
  alert : Bool := false
  deriving DecidableEq, Repr

/-- Memories outside the clusters. -/
structure Mems where
  /-- External memory by device address (18 R549). -/
  ext : Mem := []
  /-- Lines of external memory that read as uncorrectable (R548). -/
  ue : List Nat := []
  /-- Usable bytes (R543); 0 until training has read the density. -/
  usable : Nat := 0
  site : Mem := []
  dwm : Mem := []
  fhb : Mem := []
  /-- Host memory, outside the device (assumption log, row 5). -/
  host : Mem := []
  /-- Boot flash; an unlisted byte reads 0xFF (assumption log, row 5). -/
  flash : Mem := []
  buckets : Tab Bucket := []
  deriving DecidableEq, Repr

/-- Units, spares and pairs (01 R31-R35). -/
structure Units where
  /-- Physical cluster of each logical index; the identity where nothing is listed, none when withdrawn. -/
  map : Tab (Option Nat) := []
  /-- Physical clusters out of service, and lone spares besides 16 and 17. -/
  out : List Nat := []
  spares : List Nat := [16, 17]
  /-- Physical clusters to leave service at the next slot boundary, with the cause of R731. -/
  leaving : List (Nat × Nat) := []
  /-- Physical clusters on which a slice of the rotor runs (21 R614). -/
  testing : List Nat := []
  /-- Physical clusters whose slice waits for the yield of an edge job (21 R615). -/
  wanting : List Nat := []
  /-- Healthy partners that follow at their next job boundary: logical index and new physical cluster (R33). -/
  moving : List (Nat × Nat) := []
  /-- Logical pairs joined, and pairs whose joining or parting is committed and held (R35). -/
  joined : List Nat := []
  pairTodo : List (Nat × Bool) := []
  /-- CAP_GEN of each unit's record (R24, R27), by unit handle. -/
  capGen : Tab Nat := []
  /-- Fixed-function engines out of service, and those to leave at the next slot boundary: page code, instance, and the cause
  of R731 (23 R659). -/
  engOut : List (Nat × Nat) := []
  engLeaving : List (Nat × Nat × Nat) := []
  /-- Engines to return to service at the next slot boundary, once powered: page code, instance, cause (23 R662, 24 R685). -/
  engBack : List (Nat × Nat × Nat) := []
  /-- Engines out of service because their domain is parked (24 R685). -/
  parked : List (Nat × Nat) := []
  deriving DecidableEq, Repr

/-- Pods (07). -/
structure PodUnit where
  pods : Tab Pod := []
  /-- Return overflow of each partition: handle and the pod it is to return to (R736). -/
  overflow : Tab (List (BitVec 128 × Nat)) := []
  /-- A push is in transit (R227). -/
  transit : Bool := false
  deriving DecidableEq, Repr

/-- The sync unit (08). -/
structure Sync where
  objs : Tab Word := []
  /-- Unit handle of the last requester to change each object (R263). -/
  lastw : Tab Word := []
  /-- Occupied waiter entries in order of arrival. -/
  waits : List WaitEnt := []
  nextId : Nat := 0
  high : Nat := 0
  /-- The captured wait graph, HOLD and SOURCE (R263, R265). -/
  wg : List WgEnt := []
  hold : Bool := false
  source : Bool := false
  deriving DecidableEq, Repr

/-- The dispatcher (09) and the job queues. -/
structure Disp where
  jobs : Tab (Option Job) := []
  nextJob : Nat := 0
  spill : List SpillReq := []
  /-- Bytes used in each partition's spill area (R286). -/
  spillUsed : Tab Nat := []
  parts : Tab (Option Part) := [(0, some { cls := .mgmt })]
  tpls : Tab (Option Tpl) := []
  tplTodo : List TplChange := []
  /-- Slot number, plus 1, of the latest instance of each template, by partition * 256 + index. -/
  tplLast : Tab Nat := []
  /-- By logical cluster: the floor window that is open, and whether FLOOR_GUARD before one has been reached (R276). -/
  winOpen : Tab (Option Nat) := []
  guard : Tab Bool := []
  /-- How far a step of the time has moved the floor-window instants from the frame grid, in ns, until the next frame (16 R507). -/
  floorShift : Int := 0
  /-- Partitions being reset (R669 PRST_STAT). -/
  resetting : List Nat := []
  deriving DecidableEq, Repr

/-- The host interface (17). -/
structure HostIf where
  /-- EXPECT of each window (R524). -/
  expect : Tab Nat := []
  /-- Slots whose SEQ_WORD has been written since the window was last reset, by window * 256 + slot. -/
  seqSeen : Tab Bool := []
  /-- Descriptors picked up and not yet carried out, the oldest first, by window. -/
  picked : Tab (List (List Word)) := []
  /-- BAR2 writes that wait for tokens: partition, byte offset in the window, word (R293). -/
  barWait : List (Nat × Nat × Word) := []
  rings : Tab Ring := []
  /-- Records staged, the oldest first: ring and words (R535). -/
  staged : Tab (List (Nat × List Word)) := []
  /-- Last status line written (R536). -/
  status : Tab (List Word) := []
  /-- Receive buffers posted, the oldest first: host address and the descriptor's cookie and ring (R539). -/
  rxbufs : Tab (List (Nat × Word × Word × Nat)) := []
  /-- Messages that wait for receive buffers; an exception frame with its port and stamp. -/
  rxWait : Tab (List (List Byte × Option (Nat × Word))) := []
  /-- The link is up, and bus mastering by function (R516, R687). -/
  linkUp : Bool := false
  busMaster : Tab Bool := []
  deriving DecidableEq, Repr

/-- Images (06). -/
structure Images where
  gens : List Gen := []
  /-- Generation number last given to each slot, by partition * 64 + slot (R181). -/
  genNo : Tab Nat := []
  /-- Generation current in each slot at the start of the latest scan tick (R182). -/
  tick : Tab Nat := []
  deriving DecidableEq, Repr

/-- A cached sector (14 R449): context, sector, the partition it is booked to, and whether it was changed. -/
structure Sector where
  ctx : Nat
  n : Nat
  part : Nat
  dirty : Bool
  deriving DecidableEq, Repr

/-- The context store (14). The contents of a context stand at its place in external memory, cached or not. -/
structure Cxs where
  /-- Sectors, the most recently used first. -/
  sects : List Sector := []
  /-- Pins (R450): cell, slot, context, sector. -/
  pins : List (Nat × Nat × Nat × Nat) := []
  /-- FRAME_CNT at the latest sweep (R441). -/
  swept : Nat := 0
  /-- Contexts ACTIVE or AGED, by partition (R452). -/
  active : Tab Nat := []
  deriving DecidableEq, Repr

/-- Ilush links (19). -/
structure Ilk where
  /-- Flits sent on a channel and not yet acknowledged, by port * 4 + channel, the oldest first: the copy engine and
  descriptor each belongs to (R577, R584). -/
  unacked : Tab (List (Nat × Nat)) := []
  /-- Consecutive replays and faulty lanes, by port * 2 + lane (R570). -/
  replays : Tab Nat := []
  bad : List Nat := []
  /-- Tick of the latest send or receipt, by port (R577). -/
  active : Tab Nat := []
  /-- Chips of the domain that have exchanged matching heartbeats, those that disagreed, and the skew against each (R579, R581). -/
  joined : List Nat := []
  mismatch : List Nat := []
  /-- The range of versions with which each port was last enabled, VER_MIN and VER_MAX (R569). -/
  range : Tab (Nat × Nat) := []
  skew : Tab Nat := []
  deriving DecidableEq, Repr

/-! ### The radio pipeline (10, 11, 13) -/

/-- FAPI state of a cell (R336). -/
inductive CellSt where
  | idle
  | configured
  | running
  deriving DecidableEq, Repr

/-- A cell (R310, R336, R353, R361, R366). -/
structure Cell where
  /-- The partition it belongs to: the one whose CONFIG.request configured it. -/
  part : Option Nat := none
  st : CellSt := .idle
  cfg : Option CellConfig := none
  /-- Vendor TLVs that take effect at the next frame boundary. -/
  todo : Option CellConfig := none
  /-- FRAME_CNT of the frame that starts it, and of the last one it runs. -/
  startAt : Option Nat := none
  stopAt : Option Nat := none
  /-- ns at which the Baseline Equaliser was engaged, and FRAME_CNT of the latest fallback decision (R353). -/
  engaged : Option Nat := none
  fbFrame : Nat := 0
  /-- Tick at which a SAFFRON fallback started; a pass has been seen that ends it; an accepted write in this frame (R627). -/
  saff : Option Nat := none
  saffPass : Bool := false
  saffSeen : Bool := false
  /-- Tick at which a RESET fallback started, and the slot that ends it, once known (R361). -/
  reset : Option (Nat × Option Nat) := none
  /-- Tick at which LEARNED_RX became 0 (R357). -/
  learnedOff : Option Nat := none
  /-- Active weight bank, REJ_SEQ and VALID as the last boundary read found them (R366). -/
  bank : Nat := 0
  /-- Jobs numbered below this were instantiated before the latest swap and may still bind the other bank (R365). -/
  swapJob : Nat := 0
  rejSeq : Nat := 0
  reqSeen : Bool := false
  lastCause : Nat := 0
  deriving DecidableEq, Repr

/-- A code block on its way up (R311): which of stages 4 to 6 it has passed, its recovered and combined LLRs, its hard
decisions, and whether it reached its cap or failed a check. -/
structure CodeBlock where
  stage : Nat := 0
  llr : List Byte := []
  comb : List Byte := []
  hard : List Bool := []
  capped : Bool := false
  failed : Bool := false
  deriving DecidableEq, Repr

/-- An item of a slot's uplink batch (R323, R324): its final STATUS of R533; the fallback cause; the Baseline Equaliser's
result, good or failed; which path was selected (true: the Baseline Equaliser); the weight bank bound; the LLRs of its code
blocks on the selected path; the blocks; its transport block; its UCI, and the STATUS of UCI on PUSCH once decoded; and its preambles. -/
structure UlItem where
  pdu : UlPdu
  status : Option Nat := none
  cause : Nat := 0
  beq : Option Bool := none
  path : Option Bool := none
  bank : Nat := 0
  llrs : List (List Byte) := []
  cbs : Tab CodeBlock := []
  data : List Byte := []
  uci : List Bool := []
  uciSt : Option Nat := none
  prach : RachEntry := ⟨0, 0, []⟩
  deriving DecidableEq, Repr

/-- The uplink of one slot of a cell, from UL_TTI.request to its batch; `rach` says that RACH.indication has been sent. -/
structure UlSlot where
  part : Nat
  cell : Nat
  slot : Nat
  items : List UlItem
  rach : Bool
  deriving DecidableEq, Repr

/-- A PDU of the downlink on its way down (R331): payload, code blocks, encoded and matched bits, symbols as groups of bits; and whether
the host has been told that its payload came late (R334). -/
structure DlItem where
  pdu : DlPdu
  told : Bool := false
  payload : Option (List Byte) := none
  blocks : List (List (Option Bool)) := []
  coded : Tab (List (Option Bool)) := []
  matched : Tab (List Bool) := []
  enc : List Bool := []
  symbols : List (List Bool) := []
  deriving DecidableEq, Repr

/-- The downlink of one slot of a cell: the PDUs of its DL_TTI.request, the DCIs of its UL_DCI.requests, and whether the former has come. -/
structure DlSlot where
  part : Nat
  cell : Nat
  slot : Nat
  items : List DlItem
  dcis : Nat := 0
  tti : Bool := true
  deriving DecidableEq, Repr

/-- A pass of the LDPC pool (R406, R414): its blocks as PDU and code block, the rows processed, and the tick at which its last
block was complete. -/
structure LdpcPass where
  part : Nat
  cell : Nat
  slot : Nat
  bg2 : Bool
  zc : Nat
  rows : List Nat
  blocks : List (Nat × Nat)
  done : Nat
  deriving DecidableEq, Repr

/-- The items of a template's instance that has ended: the job, its partition and slot number, its items' marks and causes, and
the tick at which it ended (R342). Kept for one frame. -/
structure RxItems where
  job : Nat
  part : Nat
  inst : Nat
  marks : Tab Nat
  causes : Tab (Nat × Nat)
  ended : Nat
  deriving DecidableEq, Repr

/-- The radio pipeline. -/
structure Radio where
  cells : Tab Cell := []
  ul : List UlSlot := []
  dl : List DlSlot := []
  rx : List RxItems := []
  /-- The queue of the LDPC pool, and the pass each decoder holds beyond its decode point: the pass and its start tick. -/
  passes : List LdpcPass := []
  runs : Tab (Option (LdpcPass × Nat)) := []
  /-- HARQ entries in use, by partition (R422). -/
  harq : Tab (List Nat) := []
  /-- Slots for which a late request has been answered: cell, slot, and whether it was an uplink one (R334). -/
  lateSeen : List (Nat × Nat × Bool) := []
  /-- The instant in ns by which a PRACH correlator is to have done the work queued on it (10 R329). -/
  pxcDue : Tab Nat := []
  /-- Ticks of the latest results failed under R355, by unit (R629). -/
  beqFaults : Tab (List Nat) := []
  deriving DecidableEq, Repr

/-! ### Fronthaul and converter lanes (15) -/

/-- A U-plane section held in the fronthaul buffers (R465): association, antenna, slot and symbol, section, first PRB and PRBs,
whether it is corrupt, and its payload. -/
structure RxSect where
  assoc : Nat
  ant : Nat
  slot : Nat
  sym : Nat
  id : Nat
  prb0 : Nat
  n : Nat
  bad : Bool
  meth : Nat
  width : Nat
  payload : List Byte
  deriving DecidableEq, Repr

/-- The resource grid of one symbol and antenna: values by subcarrier (an unlisted one is zero) and the PRBs erased (R318). -/
structure Grid where
  cell : Nat
  slot : Nat
  sym : Nat
  ant : Nat
  vals : Tab (Int × Int) := []
  erased : List Nat := []
  deriving DecidableEq, Repr

/-- A section that the device's own C-plane announced (R466, R467). -/
structure Announced where
  assoc : Nat
  slot : Nat
  sym : Nat
  id : Nat
  prb0 : Nat
  n : Nat
  deriving DecidableEq, Repr

/-- Buffers of a port's quota in use (R472): how many, and what they hold; `tx` for transmit. -/
structure FhBuf where
  port : Nat
  n : Nat
  tx : Bool
  key : Nat × Nat × Nat
  deriving DecidableEq, Repr

/-- Compressed output of stage 8 for one association, antenna and symbol. -/
structure TxSym where
  assoc : Nat
  ant : Nat
  slot : Nat
  sym : Nat
  bytes : List Byte
  deriving DecidableEq, Repr

/-- A frame that waits for transmission: port, identifier when its stamp is asked for, bytes, and whom its record is for. -/
structure TxFrame where
  port : Nat
  ts : Option Nat
  bytes : List Byte
  desc : Option (List Word) := none
  deriving DecidableEq, Repr

/-- A gain group (R481-R484). -/
structure Agc where
  gain : Nat := 0
  frozen : Bool := false
  /-- Slot ends until a PRACH freeze is over; 0 for none. -/
  prach : Nat := 0
  pending : Int := 0
  clipped : Nat := 0
  clipLast : Nat := 0
  hits : Nat := 0
  /-- Evaluations since a step was applied; none where none has been. -/
  sinceStep : Option Nat := none
  powers : List Nat := []
  deriving DecidableEq, Repr

/-- A converter link (R475, R476); `since` is the time in ns from which it has been aligned. -/
structure Link where
  aligned : Bool := false
  sysref : Bool := false
  lat : Nat := 0
  since : Nat := 0
  deriving DecidableEq, Repr

/-- Fronthaul ports and converter lanes. -/
structure Fh where
  up : Tab Bool := []
  sects : List RxSect := []
  prach : List RxSect := []
  /-- Sequence bins of the converter path: cell, occasion, antenna, bins (R479). -/
  prachIn : List (Nat × Nat × Nat × List (Int × Int)) := []
  /-- Streams erased whole: cell, slot, symbol, antenna (R476, R484); and clipped samples counted so far for the same. -/
  erase : List (Nat × Nat × Nat × Nat) := []
  clips : List (Nat × Nat × Nat × Nat × Nat) := []
  grids : List Grid := []
  begun : List (Nat × Nat × Nat) := []
  cplane : List Announced := []
  bufs : List FhBuf := []
  rxSeq : Tab (Option Nat) := []
  txSeq : Tab Nat := []
  txSyms : List TxSym := []
  txq : List TxFrame := []
  /-- Second in which exception bytes were last counted, and the bytes, by port (R458). -/
  exc : Tab (Nat × Nat) := []
  agc : Tab Agc := []
  pa : Tab Bool := []
  links : Tab Link := []
  /-- Faulty lanes (23 R661): quad 0-19 in the order fronthaul, Ilush, JESD, PCIe; lane; 0 served by the quad's spare slice, 1 out,
  2 waiting for a PCIe retraining; and the cause of R731. -/
  lanes : List (Nat × Nat × Nat × Nat) := []
  deriving DecidableEq, Repr

/-! ### Record and replay (20) -/

/-- A recording (R594): partition, device address and size of its ring, MODE, cells, checkpoint ranges (context or memory,
first unit, units), the tick at which it took effect, and whether it has ended but for what is still staged. -/
structure Recording where
  part : Nat
  base : Nat
  size : Nat
  wrap : Bool
  cells : List Nat
  ranges : List (Bool × Nat × Nat)
  since : Option Nat := none
  closing : Bool := false
  deriving DecidableEq, Repr

/-- A replay partition (R601, R602): its trace, the instances still to be started from JOBSTART records, and the tick at which a
job began to wait with no record left. -/
structure Replay where
  part : Nat
  base : Nat
  size : Nat
  last : Nat := 0
  ended : Bool := false
  /-- Records take effect: the images match START and the checkpoint is restored. -/
  begun : Bool := false
  /-- The replay's own time base: the latest TIME record, kind and value. -/
  clock : Nat × Int := (0, 0)
  /-- Choices of DECISION records that the row they belong to has not yet met: choice, job, value (R602). -/
  forced : List (Nat × Nat × Nat) := []
  /-- Data that HOSTREAD records return for the partition's host reads, by host address. -/
  reads : Mem := []
  deriving DecidableEq, Repr

/-- The recorder: records wait in staging, then go to the ring (R596-R599). -/
structure Tracer where
  run : Option Recording := none
  seq : Nat := 0
  staged : List (List Byte) := []
  written : Nat := 0
  wrapped : Bool := false
  lost : Nat := 0
  lostAll : Nat := 0
  replay : Option Replay := none
  deriving DecidableEq, Repr

/-- The rotor's books on one physical cluster (21 R614-R619): the end of its latest passing slice as a tick and on the time unit in
ns, the start of the slice that runs, UNTESTED, the logical index handed over and the spare that holds it, jobs (and their
partitions) that have run since that slice, and whether it waits for a passing slice to become a spare (23 R662). -/
structure Rot where
  passAt : Nat := 0
  passNs : Nat := 0
  start : Option Nat := none
  untested : Bool := false
  handed : Option (Nat × Nat) := none
  ran : List (Nat × Nat) := []
  returning : Bool := false
  /-- It has passed since the hand-over, and its index returns at the next grid boundary (R617). -/
  back : Bool := false
  deriving DecidableEq, Repr

/-- A partition reset in progress (21 R630, 23 R663): its depth, the trigger of R629 of a safe state (0 for none), the tick at which
it began, the jobs it aborted, and whether a checker still fails its injection (R622). -/
structure PReset where
  part : Nat
  full : Bool
  trig : Nat
  since : Nat
  jobs : List Nat := []
  inj : Bool := false
  deriving DecidableEq, Repr

/-- Safety (21): triggers noted for a partition and not yet acted on (R629), resets in progress, and the rotor. -/
structure Safe where
  trig : List (Nat × Nat) := []
  resets : List PReset := []
  rot : Tab Rot := []
  deriving DecidableEq, Repr

/-! ### Security, power, service (22, 23, 24) -/

/-- An image key (22 R649): KEY_ID, class (1 operator, 2 tenant), SAFETY, the tenant's partition, and the point. -/
structure ImgKey where
  id : Nat
  cls : Nat
  safety : Bool
  part : Nat
  x : Nat
  y : Nat
  deriving DecidableEq, Repr

/-- The fuses that a command can program (22 R635, 23 R662). They keep their values without power. -/
structure Fuses where
  life : Nat := 0
  svnBoot : Nat := 0
  svnFw : Nat := 0
  epoch : Nat := 0
  revoke : Nat := 0
  cmdRoot : Option Nat := none
  repCl : Nat := 0
  repLdd : Nat := 0
  repBeq : Nat := 0
  repEng : Nat := 0
  repLane : Tab Nat := []
  deriving DecidableEq, Repr

/-- The security engine (22). -/
structure Sec where
  fuses : Fuses := {}
  /-- CMD_SESSION, the accepted counter, the run of AUTH_BAD, and the tick at which AUTH_HOLD came into force (R646, R647). -/
  session : Word := 0
  ctr : Word := 0
  badRun : Nat := 0
  hold : Option Nat := none
  keys : List ImgKey := []
  /-- MR0-MR7 (R641). -/
  mrs : Tab Nat := []
  /-- Boot copy, the codes of R638, SPI_FALLBACK, PK_HASH and SVN of the running stage 1. -/
  copy : Nat := 0
  codeA : Nat := 0
  codeB : Nat := 0
  spi : Bool := false
  keyIdx : Nat := 0
  svnStage : Nat := 0
  /-- The running firmware set: its copy and SVN; and one that is verified and takes over at the next grid boundary: copy, SVN, digest
  (23 R657). -/
  fwCopy : Nat := 0
  fwSvn : Nat := 0
  fwNext : Option (Nat × Nat × Nat) := none
  /-- DeviceID and alias private scalars (R640). -/
  devKey : Nat := 0
  aliasKey : Nat := 0
  /-- The firmware switches or restarts: since this tick, for so many ns (23 R657, 24 R688). -/
  fwBusy : Option (Nat × Nat) := none
  deriving DecidableEq, Repr

/-- The power controller and the test access port (24, 26; 22 R651). -/
structure Pwr where
  /-- Consecutive intervals over and under the cap (R680). -/
  overRun : Nat := 0
  underRun : Nat := 0
  /-- References lost, the one in use, the tick at which holdover began, and the one that ROOT locks to (R673-R675). -/
  refLost : List Nat := []
  refUse : Nat := 0
  holdAt : Option Nat := none
  locking : Option Nat := none
  /-- Divider commanded and not yet in force, by logical cluster (R678). -/
  divNext : Tab (Option Nat) := []
  /-- Millivolts acknowledged, and the request that is outstanding (26 R723). -/
  avsMv : Nat := 750
  avsAsk : Option Nat := none
  /-- Tick at which a domain's power-up began, and the tick of the latest switching action (R684). -/
  powering : Tab (Option Nat) := []
  switched : Option Nat := none
  /-- Straps (26 R720): EXT_REF_FSEL, SB_ADDR, TEST_MODE. -/
  fsel : Bool := false
  sbAddr : Nat := 0
  testMode : Bool := false
  /-- THERMTRIP_N is low (R681). -/
  tripped : Bool := false
  /-- The TAP controller: state of IEEE 1149.1 (0 Test-Logic-Reset), instruction register, and the bits being shifted. -/
  tap : Nat := 0
  tapIr : Nat := 0
  tapSh : List Bool := []
  deriving DecidableEq, Repr

/-- **The state of the block.** -/
structure State where
  /-- Commands that wait, first in, first out. -/
  pending : List Instr := []
  /-- The model's own counter of free values drawn so far (assumption log, row 2). -/
  freeCtr : Nat := 0
  /-- What the block has sent, the latest first (assumption log, row 4). -/
  out : List Output := []
  tmu : Tmu := {}
  pg : Pages := {}
  mem : Mems := {}
  cl : Tab Cluster := []
  units : Units := {}
  eng : Tab CopyEng := []
  pod : PodUnit := {}
  sync : Sync := {}
  disp : Disp := {}
  host : HostIf := {}
  img : Images := {}
  cxs : Cxs := {}
  ilk : Ilk := {}
  radio : Radio := {}
  fh : Fh := {}
  safe : Safe := {}
  sec : Sec := {}
  pwr : Pwr := {}
  trace : Tracer := {}
  deriving DecidableEq, Repr

/-! ### How a step can stop

No command of the manual stops this block: the manual gives every row an effect, and a bad command an outcome. -/

/-- Faults. The one stop that the manual gives, start-up halted at a failed step (24 R689, 18 R545), is a state of the
machine, not a stop of the model. -/
inductive Fault where
  /-- A state that lies outside the model's invariants; no meaning raises it. Safe: it would end a run early. -/
  | corrupt
  deriving DecidableEq, Repr

/-- Refusals. -/
inductive Refusal where
  /-- A command that has no meaning yet; raised only by an arm of `exec`. Safe: it would end a run early. -/
  | notModelled (mnemonic : String)
  deriving DecidableEq, Repr

/-- **The block right after PORST_N is released** (24 R689 starts from here): partition 0 alone, no image, no job, memories
without contents. -/
def State.reset : State := {}

end Sys2Proof.Machine
end

