-- ==== Sys2Proof/Machine/RegTable.lean ====
section
/-! DEFINITION. The registers of the pages, from the register tables of the chapters: offsets under the manual's
names, and one row for each register with its access code, reset value, writable bits, selector and whether a snapshot
captures it (00 R15 R16, 23 R668, 25 R693-R700). -/

namespace Sys2Proof.Machine

open Sys2Proof

/-! ### Names: page code * 4096 + byte offset; HDR_ names are offsets of the header of every page -/

abbrev MXE_CSUM_SKIP : Nat := 0x10040
abbrev MXE_TILE_COUNT : Nat := 0x10044
abbrev MXE_REPAIR_CNT : Nat := 0x10048
abbrev MXE_REPAIR_LIMIT : Nat := 0x1004C
abbrev MXE_REPAIR_DECAY : Nat := 0x10050
abbrev MXE_FAULT_LOC : Nat := 0x10054
abbrev MXE_FAULT_TAG : Nat := 0x10058
abbrev MXE_SKIP_COUNT : Nat := 0x1005C
abbrev VXE_FTQ_STAT : Nat := 0x11040
abbrev VXE_ISSUE_COUNT : Nat := 0x11044
abbrev VXE_FTQ_HOLD : Nat := 0x11048
abbrev VXE_SKIP_COUNT : Nat := 0x1104C
abbrev VXE_FTQ_DISCARD : Nat := 0x11050
abbrev CLV_CLV_STAT : Nat := 0x12040
abbrev CLV_CLV_PC : Nat := 0x12044
abbrev CLV_REP_MAX : Nat := 0x12048
abbrev CLV_HOLD_PEAK : Nat := 0x1204C
abbrev CLV_SKIP_COUNT : Nat := 0x12050
abbrev CLV_STALL_COUNT : Nat := 0x12054
abbrev FTE_FTE_STAT : Nat := 0x13040
abbrev CPE_FTE_STAT : Nat := 0x14040
abbrev FTE_DESC_ISSUED : Nat := 0x13044
abbrev CPE_DESC_ISSUED : Nat := 0x14044
abbrev FTE_DESC_DONE : Nat := 0x13048
abbrev CPE_DESC_DONE : Nat := 0x14048
abbrev FTE_DESC_SKIPPED : Nat := 0x1304C
abbrev CPE_DESC_SKIPPED : Nat := 0x1404C
abbrev FTE_RUNS_DRAM : Nat := 0x13050
abbrev CPE_RUNS_DRAM : Nat := 0x14050
abbrev FTE_RUNS_ONCHIP : Nat := 0x13054
abbrev CPE_RUNS_ONCHIP : Nat := 0x14054
abbrev PODQ_POD_SEL : Nat := 0x5040
abbrev PODQ_POD_CFG : Nat := 0x5044
abbrev PODQ_POD_STAT : Nat := 0x5048
abbrev PODQ_PART_SEL : Nat := 0x504C
abbrev PODQ_PART_TOTAL : Nat := 0x5050
abbrev PODQ_PART_INPODS : Nat := 0x5054
abbrev PODQ_PART_HELD : Nat := 0x5058
abbrev PODQ_PART_EXPIRE : Nat := 0x505C
abbrev PODQ_AUDIT : Nat := 0x5060
abbrev SYU_BLK_SEL : Nat := 0x4040
abbrev SYU_BLK_OWNER : Nat := 0x4044
abbrev SYU_OBJ_SEL : Nat := 0x4048
abbrev SYU_OBJ_VAL : Nat := 0x404C
abbrev SYU_OBJ_WRITE : Nat := 0x4050
abbrev SYU_OBJ_ADD : Nat := 0x4054
abbrev SYU_WAITERS : Nat := 0x4058
abbrev SYU_WG_STAT : Nat := 0x405C
abbrev SYU_WG_SEL : Nat := 0x4060
abbrev SYU_WG_WAITER : Nat := 0x4064
abbrev SYU_WG_OBJ : Nat := 0x4068
abbrev SYU_WG_OPERAND : Nat := 0x406C
abbrev SYU_WG_VALUE : Nat := 0x4070
abbrev SYU_WG_LEFT : Nat := 0x4074
abbrev SYU_WG_LASTW : Nat := 0x4078
abbrev SYU_SAT_IDX : Nat := 0x407C
abbrev SYU_COLLIDE_IDX : Nat := 0x4080
abbrev SYS_FLOOR_SEL : Nat := 0x100
abbrev SYS_FLOOR_CFG : Nat := 0x104
abbrev SYS_FLOOR_GUARD : Nat := 0x108
abbrev SYS_FLOOR_PERIOD : Nat := 0x10C
abbrev SYS_WIN_START : Nat := 0x110
abbrev SYS_WIN_CFG : Nat := 0x114
abbrev SYS_FLOOR_STAT : Nat := 0x118
abbrev SYS_PART_SEL : Nat := 0x11C
abbrev SYS_PART_SCHED : Nat := 0x120
abbrev SYS_ADMIT_REJ : Nat := 0x124
abbrev SYS_LATE_CNT : Nat := 0x128
abbrev SYS_DL_ABORT_CNT : Nat := 0x12C
abbrev SYS_SPILL_STAT : Nat := 0x130
abbrev SYS_PREEMPT_CNT : Nat := 0x134
abbrev PXC_PXC_STAT : Nat := 0x1D040
abbrev PXC_OCC_COUNT : Nat := 0x1D044
abbrev PXC_DET_COUNT : Nat := 0x1D048
abbrev PXC_OCC_CORRUPT : Nat := 0x1D04C
abbrev PXC_QUEUE_PEAK : Nat := 0x1D050
abbrev BEQ_UNIT_STAT : Nat := 0x1E040
abbrev BEQ_ALLOC_COUNT : Nat := 0x1E044
abbrev BEQ_BEQ_FAULTS : Nat := 0x1E048
abbrev BEQ_CELL_SEL : Nat := 0x1E080
abbrev BEQ_CELL_CFG : Nat := 0x1E084
abbrev BEQ_CELL_STAT : Nat := 0x1E088
abbrev BEQ_WBANK0 : Nat := 0x1E08C
abbrev BEQ_WBANK1 : Nat := 0x1E090
abbrev BEQ_WBANK_KIB : Nat := 0x1E094
abbrev BEQ_FB_MISFIT : Nat := 0x1E098
abbrev BEQ_FB_FAULT : Nat := 0x1E09C
abbrev BEQ_FB_DEADLINE : Nat := 0x1E0A0
abbrev BEQ_FB_CELL : Nat := 0x1E0A4
abbrev BEQ_FB_NONE : Nat := 0x1E0A8
abbrev BEQ_SWAP_COUNT : Nat := 0x1E0AC
abbrev BEQ_VAL_REJECT : Nat := 0x1E0B0
abbrev BEQ_ENGAGE_COUNT : Nat := 0x1E0B4
abbrev LDD_LDD_STAT : Nat := 0x18040
abbrev LDD_PASS_COUNT : Nat := 0x18044
abbrev LDD_ITER_COUNT : Nat := 0x18048
abbrev LDD_RESTARTS : Nat := 0x1804C
abbrev LDD_POOL_CFG : Nat := 0x18080
abbrev LDD_POOL_STAT : Nat := 0x18084
abbrev LDD_CELL_SEL : Nat := 0x18088
abbrev LDD_CELL_DEC : Nat := 0x1808C
abbrev LDD_DEC_STOP : Nat := 0x18090
abbrev LDD_CAP_COUNT : Nat := 0x18094
abbrev LDD_HQ_PSEL : Nat := 0x18098
abbrev LDD_HQ_BASE_LO : Nat := 0x1809C
abbrev LDD_HQ_BASE_HI : Nat := 0x180A0
abbrev LDD_HQ_ENTRIES : Nat := 0x180A4
abbrev LDD_HQ_FREE : Nat := 0x180A8
abbrev LDD_HQ_USED : Nat := 0x180AC
abbrev LDD_POOL_EXHAUST : Nat := 0x180B0
abbrev CXS_CTX_BASE_LO : Nat := 0x6040
abbrev CXS_CTX_BASE_HI : Nat := 0x6044
abbrev CXS_BLK_SEL : Nat := 0x6048
abbrev CXS_BLK_OWNER : Nat := 0x604C
abbrev CXS_AGE_NOW : Nat := 0x6050
abbrev CXS_PART_SEL : Nat := 0x6054
abbrev CXS_PART_CTX : Nat := 0x6058
abbrev CXS_CACHE_QUOTA : Nat := 0x605C
abbrev CXS_CTX_ACTIVE : Nat := 0x6060
abbrev CXS_CTX_FREE : Nat := 0x6064
abbrev CXS_SECT_HELD : Nat := 0x6068
abbrev CXS_CELL_SEL : Nat := 0x606C
abbrev CXS_PRED_STALE : Nat := 0x6070
abbrev CXS_SECT_FREE : Nat := 0x6074
abbrev CXS_MISS_COUNT : Nat := 0x6078
abbrev CXS_BYPASS_COUNT : Nat := 0x607C
abbrev CXS_AGED_IDX : Nat := 0x6080
abbrev CXS_AUDIT : Nat := 0x6084
abbrev FHP_PORT_CFG : Nat := 0x9040
abbrev FHP_PORT_MAC_LO : Nat := 0x9044
abbrev FHP_PORT_MAC_HI : Nat := 0x9048
abbrev FHP_PORT_STAT : Nat := 0x904C
abbrev FHP_FB_QUOTA : Nat := 0x9050
abbrev FHP_FB_FREE : Nat := 0x9054
abbrev FHP_FB_HELD : Nat := 0x9058
abbrev FHP_EXC_RATE : Nat := 0x905C
abbrev FHP_RX_DROP : Nat := 0x9060
abbrev FHP_NO_BUF : Nat := 0x9064
abbrev FHP_NO_ASSOC : Nat := 0x9068
abbrev FHP_UNK_MSG : Nat := 0x906C
abbrev FHP_DECOMP_SAT : Nat := 0x9070
abbrev FHP_ASSOC_SEL : Nat := 0x9100
abbrev FHP_ASSOC_CFG : Nat := 0x9104
abbrev FHP_RU_MAC_LO : Nat := 0x9108
abbrev FHP_RU_MAC_HI : Nat := 0x910C
abbrev FHP_ASSOC_EAXC : Nat := 0x9110
abbrev FHP_ASSOC_ANT : Nat := 0x9114
abbrev FHP_ASSOC_COMP : Nat := 0x9118
abbrev FHP_RX_WIN : Nat := 0x911C
abbrev FHP_CP_ADV_DL : Nat := 0x9120
abbrev FHP_CP_ADV_UL : Nat := 0x9124
abbrev FHP_UP_ADV_MAX : Nat := 0x9128
abbrev FHP_UP_ADV_MIN : Nat := 0x912C
abbrev FHP_RX_ON_TIME : Nat := 0x9130
abbrev FHP_RX_EARLY : Nat := 0x9134
abbrev FHP_RX_LATE : Nat := 0x9138
abbrev FHP_RX_CORRUPT : Nat := 0x913C
abbrev FHP_RX_DUP : Nat := 0x9140
abbrev FHP_SEQ_GAP : Nat := 0x9144
abbrev FHP_TX_LATE : Nat := 0x9148
abbrev JCL_LINK_SEL : Nat := 0xA040
abbrev JCL_LINK_CFG : Nat := 0xA044
abbrev JCL_LINK_MAP : Nat := 0xA048
abbrev JCL_LINK_FFT : Nat := 0xA04C
abbrev JCL_ANALOG_NS : Nat := 0xA050
abbrev JCL_LINK_STAT : Nat := 0xA054
abbrev JCL_CRC_ERR : Nat := 0xA058
abbrev JCL_FFT_SAT : Nat := 0xA05C
abbrev JCL_STRM_SEL : Nat := 0xA060
abbrev JCL_STRM_MAP : Nat := 0xA064
abbrev JCL_GRP_SEL : Nat := 0xA068
abbrev JCL_AGC_CFG : Nat := 0xA06C
abbrev JCL_AGC_THR : Nat := 0xA070
abbrev JCL_AGC_TIME : Nat := 0xA074
abbrev JCL_AGC_STAT : Nat := 0xA078
abbrev JCL_PA_TIME : Nat := 0xA07C
abbrev JCL_PDET_THR : Nat := 0xA080
abbrev JCL_GAIN_COMP : Nat := 0xA100
abbrev JCL_PA_ENV : Nat := 0xA180
abbrev TMU_TIME_NS : Nat := 0x3040
abbrev TMU_TIME_FRAC : Nat := 0x3044
abbrev TMU_TIME_S_LO : Nat := 0x3048
abbrev TMU_TIME_S_HI : Nat := 0x304C
abbrev TMU_FREQ_ADJ : Nat := 0x3050
abbrev TMU_PHASE_ADJ : Nat := 0x3054
abbrev TMU_PHASE_LEFT : Nat := 0x3058
abbrev TMU_TMU_CTL : Nat := 0x305C
abbrev TMU_TMU_STAT : Nat := 0x3060
abbrev TMU_SET_S_LO : Nat := 0x3064
abbrev TMU_SET_S_HI : Nat := 0x3068
abbrev TMU_SET_NS : Nat := 0x306C
abbrev TMU_TIME_SET : Nat := 0x3070
abbrev TMU_FRAME_OFFSET : Nat := 0x3074
abbrev TMU_FRAME_CNT : Nat := 0x3078
abbrev TMU_CELL_SEL : Nat := 0x307C
abbrev TMU_CELL_TIME : Nat := 0x3080
abbrev TMU_PART_SEL : Nat := 0x3084
abbrev TMU_PART_SLOT : Nat := 0x3088
abbrev TMU_PORT_SEL : Nat := 0x308C
abbrev TMU_TS_CORR_ING : Nat := 0x3090
abbrev TMU_TS_CORR_EGR : Nat := 0x3094
abbrev TMU_TSQ_STAT : Nat := 0x3098
abbrev TMU_TSQ_TAG : Nat := 0x309C
abbrev TMU_TSQ_STAMP : Nat := 0x30A0
abbrev TMU_TSQ_DISCARD : Nat := 0x30A4
abbrev HIF_PROTO_OFFER : Nat := 0x7040
abbrev HIF_PROTO_AGREED : Nat := 0x7044
abbrev HIF_STAT_ADDR_LO : Nat := 0x7048
abbrev HIF_STAT_ADDR_HI : Nat := 0x704C
abbrev HIF_CQ_SEL : Nat := 0x7050
abbrev HIF_CQ_BASE_LO : Nat := 0x7054
abbrev HIF_CQ_BASE_HI : Nat := 0x7058
abbrev HIF_CQ_CFG : Nat := 0x705C
abbrev HIF_CQ_HEAD : Nat := 0x7060
abbrev HIF_CQ_TAIL : Nat := 0x7064
abbrev HIF_WIN_HEAD : Nat := 0x7068
abbrev HIF_FLOW_SEL : Nat := 0x706C
abbrev HIF_FLOW_WIN : Nat := 0x7070
abbrev HIF_RXBUF_SIZE : Nat := 0x7074
abbrev HIF_STAGE_STAT : Nat := 0x7078
abbrev MEM_MEMC_STAT : Nat := 0x8040
abbrev MEM_CE_COUNT : Nat := 0x8044
abbrev MEM_UE_COUNT : Nat := 0x8048
abbrev MEM_TEMP : Nat := 0x804C
abbrev MEM_MEM_CFG : Nat := 0x8080
abbrev MEM_USABLE_MIB : Nat := 0x8084
abbrev MEM_RGN_SEL : Nat := 0x8088
abbrev MEM_RGN_BASE : Nat := 0x808C
abbrev MEM_RGN_SIZE : Nat := 0x8090
abbrev MEM_RGN_CFG : Nat := 0x8094
abbrev MEM_GRAN_SEL : Nat := 0x8098
abbrev MEM_GRAN_CFG : Nat := 0x809C
abbrev MEM_SCRUB_PERIOD : Nat := 0x80A0
abbrev MEM_UE_ADDR_LO : Nat := 0x80A4
abbrev MEM_UE_ADDR_HI : Nat := 0x80A8
abbrev MEM_PART_SEL : Nat := 0x8100
abbrev MEM_REG_CFG : Nat := 0x8104
abbrev MEM_TOK_ADDED : Nat := 0x8108
abbrev MEM_TOK_SPENT : Nat := 0x810C
abbrev MEM_TOK_LOST : Nat := 0x8110
abbrev MEM_TOK_LEVEL : Nat := 0x8114
abbrev MEM_TOK_AUDIT : Nat := 0x8118
abbrev ILK_ILK_CFG : Nat := 0xB040
abbrev ILK_ILK_STAT : Nat := 0xB044
abbrev ILK_MAP_SEL : Nat := 0xB048
abbrev ILK_PART_MAP : Nat := 0xB04C
abbrev ILK_CR_SEL : Nat := 0xB050
abbrev ILK_CR_LIMIT : Nat := 0xB054
abbrev ILK_CR_AVAIL : Nat := 0xB058
abbrev ILK_CR_OUT : Nat := 0xB05C
abbrev ILK_REPLAYS : Nat := 0xB060
abbrev ILK_FLITS_TX : Nat := 0xB064
abbrev ILK_FLITS_RX : Nat := 0xB068
abbrev ILK_DOM_CFG : Nat := 0xB080
abbrev ILK_DOM_STAT : Nat := 0xB084
abbrev ILK_DOM_SKEW_MAX : Nat := 0xB088
abbrev ILK_DOM_SKEW : Nat := 0xB08C
abbrev SYS_REC_STAT : Nat := 0x180
abbrev SYS_REC_RSEQ : Nat := 0x184
abbrev SYS_REC_BYTES_LO : Nat := 0x188
abbrev SYS_REC_BYTES_HI : Nat := 0x18C
abbrev SYS_REC_GAPS : Nat := 0x190
abbrev SYS_REPLAY_STALL : Nat := 0x194
abbrev SYS_REPLAY_STAT : Nat := 0x198
abbrev SYS_SAF_SEL : Nat := 0x1C0
abbrev SYS_SAF_CFG : Nat := 0x1C4
abbrev SYS_SAF_CTL : Nat := 0x1C8
abbrev SYS_SAF_STAT : Nat := 0x1CC
abbrev SYS_SAFE_TIME : Nat := 0x1D0
abbrev SYS_CL_SEL : Nat := 0x1D4
abbrev SYS_ROT_STAT : Nat := 0x1D8
abbrev SYS_ROT_PASS : Nat := 0x1DC
abbrev SYS_ROT_FAIL_CNT : Nat := 0x1E0
abbrev SYS_ROT_DEFER : Nat := 0x1E4
abbrev SYS_CELL_SEL : Nat := 0x1E8
abbrev SYS_SAFF_CFG : Nat := 0x1EC
abbrev SYS_SAFF_STAT : Nat := 0x1F0
abbrev SYS_SAFF_FAIL : Nat := 0x1F4
abbrev SYS_SAFF_MISS : Nat := 0x1F8
abbrev SYS_INJ_STAT : Nat := 0x1FC
abbrev SEC_SEC_STAT : Nat := 0x2040
abbrev SEC_DEVICE_ID_LO : Nat := 0x2044
abbrev SEC_DEVICE_ID_HI : Nat := 0x2048
abbrev SEC_CMD_SESSION : Nat := 0x204C
abbrev SEC_CMD_CTR : Nat := 0x2050
abbrev SEC_KEY_STAT : Nat := 0x2054
abbrev SEC_AUTH_FAILS : Nat := 0x2058
abbrev SEC_CMD_COUNT : Nat := 0x205C
abbrev SEC_MR_SEL : Nat := 0x2060
abbrev SEC_MR_WORD : Nat := 0x2064
abbrev SEC_DBG_PARTS : Nat := 0x2068
abbrev SYS_SNAPSHOT : Nat := 0x200
abbrev SYS_SNAP_STAT : Nat := 0x204
abbrev SYS_SNAP_PERIOD : Nat := 0x208
abbrev SYS_SNAP_TIME_NS : Nat := 0x20C
abbrev SYS_SNAP_TIME_S : Nat := 0x210
abbrev SYS_ERR_BASE_LO : Nat := 0x214
abbrev SYS_ERR_BASE_HI : Nat := 0x218
abbrev SYS_ERR_CFG : Nat := 0x21C
abbrev SYS_ERR_HEAD : Nat := 0x220
abbrev SYS_ERR_TAIL : Nat := 0x224
abbrev SYS_ERR_HELD : Nat := 0x228
abbrev SYS_ERR_LOST : Nat := 0x22C
abbrev SYS_PART_RESET : Nat := 0x230
abbrev SYS_PRST_STAT : Nat := 0x234
abbrev SYS_FW_STAT : Nat := 0x238
abbrev SYS_REP_STAT : Nat := 0x23C
abbrev SYS_FL_ADDR : Nat := 0x240
abbrev SYS_FL_DATA : Nat := 0x244
abbrev SYS_FL_CMD : Nat := 0x248
abbrev SYS_FL_STAT : Nat := 0x24C
abbrev PWC_REF_CFG : Nat := 0x1040
abbrev PWC_REF_STAT : Nat := 0x1044
abbrev PWC_PWR_CAP : Nat := 0x1048
abbrev PWC_PWR_EST : Nat := 0x104C
abbrev PWC_TJ_STAT : Nat := 0x1050
abbrev PWC_CL_SEL : Nat := 0x1054
abbrev PWC_CLK_CFG : Nat := 0x1058
abbrev PWC_CLK_STAT : Nat := 0x105C
abbrev PWC_DOM_SEL : Nat := 0x1060
abbrev PWC_DOM_CTL : Nat := 0x1064
abbrev PWC_DOM_STAT : Nat := 0x1068
abbrev PWC_PWC_STAT : Nat := 0x106C
abbrev PWC_RST_CAUSE : Nat := 0x1070
abbrev PWC_STEP_CNT : Nat := 0x1074
abbrev LDE_ENG_STAT : Nat := 0x19040
abbrev PLC_ENG_STAT : Nat := 0x1A040
abbrev TBO_ENG_STAT : Nat := 0x1B040
abbrev FFE_ENG_STAT : Nat := 0x1C040
abbrev LDE_WORK_COUNT : Nat := 0x19044
abbrev PLC_WORK_COUNT : Nat := 0x1A044
abbrev TBO_WORK_COUNT : Nat := 0x1B044
abbrev FFE_WORK_COUNT : Nat := 0x1C044
abbrev HDR_PAGE_ID : Nat := 0x0
abbrev HDR_PAGE_VER : Nat := 0x4
abbrev HDR_PAGE_CAP : Nat := 0x8
abbrev HDR_PAGE_CTL : Nat := 0xC
abbrev HDR_PAGE_STAT : Nat := 0x10
abbrev HDR_EVT : Nat := 0x14
abbrev HDR_EVT_EN : Nat := 0x18
abbrev HDR_EVT_FORCE : Nat := 0x1C
abbrev HDR_EVT_COUNT : Nat := 0x20
abbrev HDR_COMMIT : Nat := 0x24
abbrev HDR_COMMIT_STAT : Nat := 0x28
abbrev HDR_OWNER : Nat := 0x2C

/-! ### Rows -/

/-- Access codes of R16. -/
inductive Acc where
  | ro | rw | rws | w1c | w1s | wo
  deriving DecidableEq, Repr

/-- A register: page code (255 the header of every page), whether only instance 0 has it, byte offset, access, reset
value, bits that are not reserved, offset of its selector (0 for none) with the selector's highest bit, and whether a
snapshot captures it. -/
structure RegRow where
  code : Nat
  inst0 : Bool
  off : Nat
  acc : Acc
  reset : Nat
  mask : Nat
  selOff : Nat
  selHi : Nat
  snap : Bool
  deriving DecidableEq, Repr

/-- Rows of MXE. -/
def regRowsMXE : List RegRow := [
  ⟨16, false, 0x40, .ro, 0x0, 0xFFFFFFFF, 0x0, 0, true⟩,
  ⟨16, false, 0x44, .ro, 0x0, 0xFFFFFFFF, 0x0, 0, true⟩,
  ⟨16, false, 0x48, .ro, 0x0, 0xFF, 0x0, 0, false⟩,
  ⟨16, false, 0x4C, .rws, 0x3, 0xFF, 0x0, 0, false⟩,
  ⟨16, false, 0x50, .rws, 0x2710, 0xFFFFFFFF, 0x0, 0, false⟩,
  ⟨16, false, 0x54, .ro, 0x0, 0xFFFFFFFF, 0x0, 0, false⟩,
  ⟨16, false, 0x58, .ro, 0x0, 0xFFFF, 0x0, 0, false⟩,
  ⟨16, false, 0x5C, .ro, 0x0, 0xFFFFFFFF, 0x0, 0, false⟩]

/-- Rows of VXE. -/
def regRowsVXE : List RegRow := [
  ⟨17, false, 0x40, .ro, 0x0, 0xF, 0x0, 0, false⟩,
  ⟨17, false, 0x44, .ro, 0x0, 0xFFFFFFFF, 0x0, 0, true⟩,
  ⟨17, false, 0x48, .ro, 0x0, 0xFFFFFFFF, 0x0, 0, true⟩,
  ⟨17, false, 0x4C, .ro, 0x0, 0xFFFFFFFF, 0x0, 0, false⟩,
  ⟨17, false, 0x50, .ro, 0x0, 0xFFFFFFFF, 0x0, 0, false⟩]

/-- Rows of CLV. -/
def regRowsCLV : List RegRow := [
  ⟨18, false, 0x40, .ro, 0x80000000, 0xFFFFFFFF, 0x0, 0, false⟩,
  ⟨18, false, 0x44, .ro, 0x0, 0xFFFFFFFF, 0x0, 0, false⟩,
  ⟨18, false, 0x48, .ro, 0x1000, 0xFFFFFFFF, 0x0, 0, false⟩,
  ⟨18, false, 0x4C, .ro, 0x0, 0xFFFFFFFF, 0x0, 0, true⟩,
  ⟨18, false, 0x50, .ro, 0x0, 0xFFFFFFFF, 0x0, 0, false⟩,
  ⟨18, false, 0x54, .ro, 0x0, 0xFFFFFFFF, 0x0, 0, true⟩]

/-- Rows of FTE. -/
def regRowsFTE : List RegRow := [
  ⟨19, false, 0x40, .ro, 0x0, 0x7FFFFF0, 0x0, 0, false⟩,
  ⟨19, false, 0x44, .ro, 0x0, 0xFFFFFFFF, 0x0, 0, true⟩,
  ⟨19, false, 0x48, .ro, 0x0, 0xFFFFFFFF, 0x0, 0, true⟩,
  ⟨19, false, 0x4C, .ro, 0x0, 0xFFFFFFFF, 0x0, 0, true⟩,
  ⟨19, false, 0x50, .ro, 0x0, 0xFFFFFFFF, 0x0, 0, true⟩,
  ⟨19, false, 0x54, .ro, 0x0, 0xFFFFFFFF, 0x0, 0, true⟩]

/-- Rows of CPE. -/
def regRowsCPE : List RegRow := [
  ⟨20, false, 0x40, .ro, 0x0, 0x7FFFFF0, 0x0, 0, false⟩,
  ⟨20, false, 0x44, .ro, 0x0, 0xFFFFFFFF, 0x0, 0, true⟩,
  ⟨20, false, 0x48, .ro, 0x0, 0xFFFFFFFF, 0x0, 0, true⟩,
  ⟨20, false, 0x4C, .ro, 0x0, 0xFFFFFFFF, 0x0, 0, true⟩,
  ⟨20, false, 0x50, .ro, 0x0, 0xFFFFFFFF, 0x0, 0, true⟩,
  ⟨20, false, 0x54, .ro, 0x0, 0xFFFFFFFF, 0x0, 0, true⟩]

/-- Rows of PODQ. -/
def regRowsPODQ : List RegRow := [
  ⟨5, false, 0x40, .rw, 0x0, 0x1FF, 0x0, 0, false⟩,
  ⟨5, false, 0x44, .rws, 0x0, 0xFF1F01FF, 0x40, 8, false⟩,
  ⟨5, false, 0x48, .ro, 0x0, 0x7F007F, 0x40, 8, false⟩,
  ⟨5, false, 0x4C, .rw, 0x0, 0x1F, 0x0, 0, false⟩,
  ⟨5, false, 0x50, .ro, 0x0, 0xFFFFFFFF, 0x4C, 4, false⟩,
  ⟨5, false, 0x54, .ro, 0x0, 0xFFFFFFFF, 0x4C, 4, false⟩,
  ⟨5, false, 0x58, .ro, 0x0, 0xFFFFFFFF, 0x4C, 4, false⟩,
  ⟨5, false, 0x5C, .ro, 0x0, 0xFFFFFFFF, 0x4C, 4, true⟩,
  ⟨5, false, 0x60, .ro, 0x0, 0xC000001F, 0x0, 0, false⟩]

/-- Rows of SYU. -/
def regRowsSYU : List RegRow := [
  ⟨4, false, 0x40, .rw, 0x0, 0xFF, 0x0, 0, false⟩,
  ⟨4, false, 0x44, .rws, 0x0, 0x8000001F, 0x40, 7, false⟩,
  ⟨4, false, 0x48, .rw, 0x0, 0x3FFF, 0x0, 0, false⟩,
  ⟨4, false, 0x4C, .ro, 0x0, 0xFFFFFFFF, 0x48, 13, false⟩,
  ⟨4, false, 0x50, .wo, 0x0, 0xFFFFFFFF, 0x0, 0, false⟩,
  ⟨4, false, 0x54, .wo, 0x0, 0xFFFFFFFF, 0x0, 0, false⟩,
  ⟨4, false, 0x58, .ro, 0x0, 0x7FF07FF, 0x0, 0, false⟩,
  ⟨4, false, 0x5C, .ro, 0x0, 0xFFFFFFFF, 0x0, 0, false⟩,
  ⟨4, false, 0x60, .rw, 0x0, 0x3FF, 0x0, 0, false⟩,
  ⟨4, false, 0x64, .ro, 0x0, 0xFFFFFFFF, 0x60, 9, false⟩,
  ⟨4, false, 0x68, .ro, 0x0, 0xFFC03FFF, 0x60, 9, false⟩,
  ⟨4, false, 0x6C, .ro, 0x0, 0xFFFFFFFF, 0x60, 9, false⟩,
  ⟨4, false, 0x70, .ro, 0x0, 0xFFFFFFFF, 0x60, 9, false⟩,
  ⟨4, false, 0x74, .ro, 0x0, 0xFFFFFFFF, 0x60, 9, false⟩,
  ⟨4, false, 0x78, .ro, 0x0, 0xFFFFFFFF, 0x60, 9, false⟩,
  ⟨4, false, 0x7C, .ro, 0x0, 0x80003FFF, 0x0, 0, false⟩,
  ⟨4, false, 0x80, .ro, 0x0, 0x80003FFF, 0x0, 0, false⟩]

/-- Rows of SYS. -/
def regRowsSYS : List RegRow := [
  ⟨0, false, 0x100, .rw, 0x0, 0x3FF, 0x0, 0, false⟩,
  ⟨0, false, 0x104, .rws, 0x0, 0xC0003FFF, 0x100, 3, false⟩,
  ⟨0, false, 0x108, .rws, 0x4722, 0xFFFFFFFF, 0x100, 3, false⟩,
  ⟨0, false, 0x10C, .rws, 0x7A120, 0xFFFFFFFF, 0x100, 3, false⟩,
  ⟨0, false, 0x110, .rws, 0x0, 0xFFFFFFFF, 0x100, 9, false⟩,
  ⟨0, false, 0x114, .rws, 0x0, 0xFFFFFFFF, 0x100, 9, false⟩,
  ⟨0, false, 0x118, .ro, 0x0, 0xFFFFFFFF, 0x100, 3, true⟩,
  ⟨0, false, 0x11C, .rw, 0x0, 0x1F, 0x0, 0, false⟩,
  ⟨0, false, 0x120, .rws, 0x80000000, 0x80000000, 0x11C, 4, false⟩,
  ⟨0, false, 0x124, .ro, 0x0, 0xFFFFFFFF, 0x11C, 4, true⟩,
  ⟨0, false, 0x128, .ro, 0x0, 0xFFFFFFFF, 0x11C, 4, true⟩,
  ⟨0, false, 0x12C, .ro, 0x0, 0xFFFFFFFF, 0x11C, 4, true⟩,
  ⟨0, false, 0x130, .ro, 0x0, 0xFFFFFFF, 0x0, 0, false⟩,
  ⟨0, false, 0x134, .ro, 0x0, 0xFFFFFFFF, 0x0, 0, true⟩,
  ⟨0, false, 0x180, .ro, 0x0, 0xE000001F, 0x0, 0, false⟩,
  ⟨0, false, 0x184, .ro, 0x0, 0xFFFFFFFF, 0x0, 0, false⟩,
  ⟨0, false, 0x188, .ro, 0x0, 0xFFFFFFFF, 0x0, 0, true⟩,
  ⟨0, false, 0x18C, .ro, 0x0, 0xFF, 0x0, 0, false⟩,
  ⟨0, false, 0x190, .ro, 0x0, 0xFFFFFFFF, 0x0, 0, false⟩,
  ⟨0, false, 0x194, .rw, 0x3E8, 0xFFFFFFFF, 0x0, 0, false⟩,
  ⟨0, false, 0x198, .ro, 0x0, 0xFFFFFFFF, 0x0, 0, false⟩,
  ⟨0, false, 0x1C0, .rw, 0x0, 0x1F, 0x0, 0, false⟩,
  ⟨0, false, 0x1C4, .rws, 0x1600000A, 0xFF00FFFF, 0x1C0, 4, false⟩,
  ⟨0, false, 0x1C8, .w1s, 0x0, 0x1, 0x1C0, 4, false⟩,
  ⟨0, false, 0x1CC, .ro, 0x0, 0x8FFFFFFF, 0x1C0, 4, false⟩,
  ⟨0, false, 0x1D0, .ro, 0x0, 0xFFFFFFFF, 0x1C0, 4, true⟩,
  ⟨0, false, 0x1D4, .rw, 0x0, 0x1F, 0x0, 0, false⟩,
  ⟨0, false, 0x1D8, .ro, 0x0, 0xC0FFFFFF, 0x1D4, 4, false⟩,
  ⟨0, false, 0x1DC, .ro, 0x0, 0xFFFFFFFF, 0x1D4, 4, true⟩,
  ⟨0, false, 0x1E0, .ro, 0x0, 0xFFFFFFFF, 0x1D4, 4, true⟩,
  ⟨0, false, 0x1E4, .ro, 0x0, 0xFFFFFFFF, 0x1D4, 4, true⟩,
  ⟨0, false, 0x1E8, .rw, 0x0, 0x7F, 0x0, 0, false⟩,
  ⟨0, false, 0x1EC, .rws, 0x20000, 0x80FF3FFF, 0x1E8, 6, false⟩,
  ⟨0, false, 0x1F0, .ro, 0x0, 0xC00000FF, 0x1E8, 6, false⟩,
  ⟨0, false, 0x1F4, .ro, 0x0, 0xFFFFFFFF, 0x1E8, 6, true⟩,
  ⟨0, false, 0x1F8, .ro, 0x0, 0xFFFFFFFF, 0x1E8, 6, true⟩,
  ⟨0, false, 0x1FC, .ro, 0x0, 0x8000FFFF, 0x0, 0, false⟩,
  ⟨0, false, 0x200, .w1s, 0x0, 0x3, 0x0, 0, false⟩,
  ⟨0, false, 0x204, .ro, 0x0, 0x8000FFFF, 0x0, 0, false⟩,
  ⟨0, false, 0x208, .rw, 0x3E8, 0xFFFFFFFF, 0x0, 0, false⟩]

/-- Rows of SYS. -/
def regRowsSYSB : List RegRow := [
  ⟨0, false, 0x20C, .ro, 0x0, 0xFFFFFFFF, 0x0, 0, false⟩,
  ⟨0, false, 0x210, .ro, 0x0, 0xFFFFFFFF, 0x0, 0, false⟩,
  ⟨0, false, 0x214, .rw, 0x0, 0xFFFFFFFF, 0x0, 0, false⟩,
  ⟨0, false, 0x218, .rw, 0x0, 0xFFFFFFFF, 0x0, 0, false⟩,
  ⟨0, false, 0x21C, .rw, 0x0, 0x9F000000, 0x0, 0, false⟩,
  ⟨0, false, 0x220, .rw, 0x0, 0xFFFFFFFF, 0x0, 0, false⟩,
  ⟨0, false, 0x224, .ro, 0x0, 0xFFFFFFFF, 0x0, 0, false⟩,
  ⟨0, false, 0x228, .ro, 0x0, 0x7FFF, 0x0, 0, false⟩,
  ⟨0, false, 0x22C, .ro, 0x0, 0xFFFFFFFF, 0x0, 0, true⟩,
  ⟨0, false, 0x230, .w1s, 0x0, 0x8000001F, 0x0, 0, false⟩,
  ⟨0, false, 0x234, .ro, 0x0, 0xFFFFFFFF, 0x0, 0, false⟩,
  ⟨0, false, 0x238, .ro, 0x0, 0xC00000FF, 0x0, 0, false⟩,
  ⟨0, false, 0x23C, .ro, 0x0, 0x3FFFF, 0x0, 0, false⟩,
  ⟨0, false, 0x240, .rw, 0x0, 0xFFFFFFFF, 0x0, 0, false⟩,
  ⟨0, false, 0x244, .wo, 0x0, 0xFFFFFFFF, 0x0, 0, false⟩,
  ⟨0, false, 0x248, .w1s, 0x0, 0x1, 0x0, 0, false⟩,
  ⟨0, false, 0x24C, .ro, 0x0, 0xC0000000, 0x0, 0, false⟩]

/-- Rows of PXC. -/
def regRowsPXC : List RegRow := [
  ⟨29, false, 0x40, .ro, 0x0, 0xFFFFFF, 0x0, 0, false⟩,
  ⟨29, false, 0x44, .ro, 0x0, 0xFFFFFFFF, 0x0, 0, true⟩,
  ⟨29, false, 0x48, .ro, 0x0, 0xFFFFFFFF, 0x0, 0, true⟩,
  ⟨29, false, 0x4C, .ro, 0x0, 0xFFFFFFFF, 0x0, 0, false⟩,
  ⟨29, false, 0x50, .ro, 0x0, 0xFFFFFFFF, 0x0, 0, false⟩]

/-- Rows of BEQ. -/
def regRowsBEQ : List RegRow := [
  ⟨30, false, 0x40, .ro, 0x0, 0xFF03FF, 0x0, 0, false⟩,
  ⟨30, false, 0x44, .ro, 0x0, 0xFFFFFFFF, 0x0, 0, true⟩,
  ⟨30, false, 0x48, .ro, 0x0, 0xFFFFFFFF, 0x0, 0, true⟩,
  ⟨30, true, 0x80, .rw, 0x0, 0x7F, 0x0, 0, false⟩,
  ⟨30, true, 0x84, .rws, 0x0, 0xFC003FFF, 0x80, 6, false⟩,
  ⟨30, true, 0x88, .ro, 0x0, 0xFFFFFFFF, 0x80, 6, false⟩,
  ⟨30, true, 0x8C, .rws, 0x0, 0xFFFFFFFF, 0x80, 6, false⟩,
  ⟨30, true, 0x90, .rws, 0x0, 0xFFFFFFFF, 0x80, 6, false⟩,
  ⟨30, true, 0x94, .rws, 0x0, 0xFFFFFFFF, 0x80, 6, false⟩,
  ⟨30, true, 0x98, .ro, 0x0, 0xFFFFFFFF, 0x80, 6, true⟩,
  ⟨30, true, 0x9C, .ro, 0x0, 0xFFFFFFFF, 0x80, 6, true⟩,
  ⟨30, true, 0xA0, .ro, 0x0, 0xFFFFFFFF, 0x80, 6, true⟩,
  ⟨30, true, 0xA4, .ro, 0x0, 0xFFFFFFFF, 0x80, 6, true⟩,
  ⟨30, true, 0xA8, .ro, 0x0, 0xFFFFFFFF, 0x80, 6, true⟩,
  ⟨30, true, 0xAC, .ro, 0x0, 0xFFFFFFFF, 0x80, 6, true⟩,
  ⟨30, true, 0xB0, .ro, 0x0, 0xFFFFFFFF, 0x80, 6, true⟩,
  ⟨30, true, 0xB4, .ro, 0x0, 0xFFFFFFFF, 0x80, 6, true⟩]

/-- Rows of LDD. -/
def regRowsLDD : List RegRow := [
  ⟨24, false, 0x40, .ro, 0x0, 0xC000001F, 0x0, 0, false⟩,
  ⟨24, false, 0x44, .ro, 0x0, 0xFFFFFFFF, 0x0, 0, true⟩,
  ⟨24, false, 0x48, .ro, 0x0, 0xFFFFFFFF, 0x0, 0, true⟩,
  ⟨24, false, 0x4C, .ro, 0x0, 0xFFFFFFFF, 0x0, 0, false⟩,
  ⟨24, true, 0x80, .rws, 0x0, 0xF, 0x0, 0, false⟩,
  ⟨24, true, 0x84, .ro, 0x100000, 0x1FFFFF, 0x0, 0, false⟩,
  ⟨24, true, 0x88, .rw, 0x0, 0x7F, 0x0, 0, false⟩,
  ⟨24, true, 0x8C, .rws, 0x657, 0x67F, 0x88, 6, false⟩,
  ⟨24, true, 0x90, .ro, 0x0, 0xFFFFFFFF, 0x0, 0, true⟩,
  ⟨24, true, 0x94, .ro, 0x0, 0xFFFFFFFF, 0x0, 0, true⟩,
  ⟨24, true, 0x98, .rw, 0x0, 0x1F, 0x0, 0, false⟩,
  ⟨24, true, 0x9C, .rws, 0x0, 0xFFFFFFFF, 0x98, 4, false⟩,
  ⟨24, true, 0xA0, .rws, 0x0, 0xFF, 0x98, 4, false⟩,
  ⟨24, true, 0xA4, .rws, 0x0, 0xFFFFF, 0x98, 4, false⟩,
  ⟨24, true, 0xA8, .ro, 0x0, 0xFFFFFFFF, 0x98, 4, false⟩,
  ⟨24, true, 0xAC, .ro, 0x0, 0xFFFFFFFF, 0x98, 4, false⟩,
  ⟨24, true, 0xB0, .ro, 0x0, 0xFFFFFFFF, 0x98, 4, true⟩]

/-- Rows of CXS. -/
def regRowsCXS : List RegRow := [
  ⟨6, false, 0x40, .rws, 0x0, 0xFFFFFFFF, 0x0, 0, false⟩,
  ⟨6, false, 0x44, .rws, 0x0, 0xFF, 0x0, 0, false⟩,
  ⟨6, false, 0x48, .rw, 0x0, 0xFF, 0x0, 0, false⟩,
  ⟨6, false, 0x4C, .rws, 0x0, 0x8000001F, 0x48, 7, false⟩,
  ⟨6, false, 0x50, .ro, 0x0, 0xFFFFFFFF, 0x0, 0, false⟩,
  ⟨6, false, 0x54, .rw, 0x0, 0x1F, 0x0, 0, false⟩,
  ⟨6, false, 0x58, .rws, 0x0, 0x80FFFFFF, 0x54, 4, false⟩,
  ⟨6, false, 0x5C, .rws, 0x0, 0x3FFF, 0x54, 4, false⟩,
  ⟨6, false, 0x60, .ro, 0x0, 0xFFFFFFFF, 0x54, 4, false⟩,
  ⟨6, false, 0x64, .ro, 0x0, 0xFFFFFFFF, 0x54, 4, false⟩,
  ⟨6, false, 0x68, .ro, 0x0, 0x3FFF3FFF, 0x54, 4, false⟩,
  ⟨6, false, 0x6C, .rw, 0x0, 0x7F, 0x0, 0, false⟩,
  ⟨6, false, 0x70, .ro, 0x0, 0xFFFFFFFF, 0x6C, 6, true⟩,
  ⟨6, false, 0x74, .ro, 0x2000, 0x3FFF, 0x0, 0, false⟩,
  ⟨6, false, 0x78, .ro, 0x0, 0xFFFFFFFF, 0x0, 0, true⟩,
  ⟨6, false, 0x7C, .ro, 0x0, 0xFFFFFFFF, 0x0, 0, false⟩,
  ⟨6, false, 0x80, .ro, 0x0, 0x8003FFFF, 0x0, 0, false⟩,
  ⟨6, false, 0x84, .ro, 0x0, 0xC000001F, 0x0, 0, false⟩]

/-- Rows of FHP. -/
def regRowsFHP : List RegRow := [
  ⟨9, false, 0x40, .rws, 0x0, 0xFC000000, 0x0, 0, false⟩,
  ⟨9, false, 0x44, .rws, 0x0, 0xFFFFFFFF, 0x0, 0, false⟩,
  ⟨9, false, 0x48, .rws, 0x0, 0xFFFF, 0x0, 0, false⟩,
  ⟨9, false, 0x4C, .ro, 0x0, 0xC0000000, 0x0, 0, false⟩,
  ⟨9, false, 0x50, .rws, 0x0, 0x1FFF, 0x0, 0, false⟩,
  ⟨9, false, 0x54, .ro, 0x0, 0x1FFF, 0x0, 0, false⟩,
  ⟨9, false, 0x58, .ro, 0x0, 0x1FFF1FFF, 0x0, 0, false⟩,
  ⟨9, false, 0x5C, .rws, 0x64, 0xFFFFFFFF, 0x0, 0, false⟩,
  ⟨9, false, 0x60, .ro, 0x0, 0xFFFFFFFF, 0x0, 0, true⟩,
  ⟨9, false, 0x64, .ro, 0x0, 0xFFFFFFFF, 0x0, 0, true⟩,
  ⟨9, false, 0x68, .ro, 0x0, 0xFFFFFFFF, 0x0, 0, true⟩,
  ⟨9, false, 0x6C, .ro, 0x0, 0xFFFFFFFF, 0x0, 0, true⟩,
  ⟨9, false, 0x70, .ro, 0x0, 0xFFFFFFFF, 0x0, 0, true⟩,
  ⟨9, true, 0x100, .rw, 0x0, 0x3F, 0x0, 0, false⟩,
  ⟨9, true, 0x104, .rws, 0x0, 0xFFFF8000, 0x100, 5, false⟩,
  ⟨9, true, 0x108, .rws, 0x0, 0xFFFFFFFF, 0x100, 5, false⟩,
  ⟨9, true, 0x10C, .rws, 0x0, 0xFFFFFFFF, 0x100, 5, false⟩,
  ⟨9, true, 0x110, .rws, 0x0, 0xFFFFF000, 0x100, 5, false⟩,
  ⟨9, true, 0x114, .rws, 0x0, 0x7F7F003F, 0x100, 5, false⟩,
  ⟨9, true, 0x118, .rws, 0x0, 0xFFFFC000, 0x100, 5, false⟩,
  ⟨9, true, 0x11C, .rws, 0x0, 0xFFFFFFFF, 0x100, 5, false⟩,
  ⟨9, true, 0x120, .rws, 0x0, 0xFFFFFFFF, 0x100, 5, false⟩,
  ⟨9, true, 0x124, .rws, 0x0, 0xFFFFFFFF, 0x100, 5, false⟩,
  ⟨9, true, 0x128, .rws, 0x0, 0xFFFFFFFF, 0x100, 5, false⟩,
  ⟨9, true, 0x12C, .rws, 0x0, 0xFFFFFFFF, 0x100, 5, false⟩,
  ⟨9, true, 0x130, .ro, 0x0, 0xFFFFFFFF, 0x100, 5, true⟩,
  ⟨9, true, 0x134, .ro, 0x0, 0xFFFFFFFF, 0x100, 5, true⟩,
  ⟨9, true, 0x138, .ro, 0x0, 0xFFFFFFFF, 0x100, 5, true⟩,
  ⟨9, true, 0x13C, .ro, 0x0, 0xFFFFFFFF, 0x100, 5, true⟩,
  ⟨9, true, 0x140, .ro, 0x0, 0xFFFFFFFF, 0x100, 5, true⟩,
  ⟨9, true, 0x144, .ro, 0x0, 0xFFFFFFFF, 0x100, 5, true⟩,
  ⟨9, true, 0x148, .ro, 0x0, 0xFFFFFFFF, 0x100, 5, true⟩]

/-- Rows of JCL. -/
def regRowsJCL : List RegRow := [
  ⟨10, true, 0x40, .rw, 0x0, 0xF, 0x0, 0, false⟩,
  ⟨10, true, 0x44, .rws, 0x0, 0x83FFFFFF, 0x40, 3, false⟩,
  ⟨10, true, 0x48, .rws, 0x0, 0xFFFC0000, 0x40, 3, false⟩,
  ⟨10, true, 0x4C, .rws, 0x0, 0xFFF00000, 0x40, 3, false⟩,
  ⟨10, true, 0x50, .rws, 0x0, 0xFFFFFFFF, 0x40, 3, false⟩,
  ⟨10, true, 0x54, .ro, 0x0, 0xFFFFFFFF, 0x40, 3, false⟩,
  ⟨10, true, 0x58, .ro, 0x0, 0xFFFFFFFF, 0x40, 3, true⟩,
  ⟨10, true, 0x5C, .ro, 0x0, 0xFFFFFFFF, 0x40, 3, false⟩,
  ⟨10, true, 0x60, .rw, 0x0, 0xFF, 0x0, 0, false⟩,
  ⟨10, true, 0x64, .rws, 0x0, 0x1F, 0x60, 7, false⟩,
  ⟨10, true, 0x68, .rw, 0x0, 0x1F, 0x0, 0, false⟩,
  ⟨10, true, 0x6C, .rws, 0x91040, 0xFFFFFFFF, 0x68, 4, false⟩,
  ⟨10, true, 0x70, .rws, 0x0, 0xFFFFFFFF, 0x68, 4, false⟩,
  ⟨10, true, 0x74, .rws, 0x0, 0xFFFFFFFF, 0x68, 4, false⟩,
  ⟨10, true, 0x78, .ro, 0x0, 0xC0FFFFFF, 0x68, 4, false⟩,
  ⟨10, true, 0x7C, .rws, 0x0, 0xFFFFFFFF, 0x68, 4, false⟩,
  ⟨10, true, 0x80, .rws, 0x0, 0xFFFFFFFF, 0x68, 4, false⟩,
  ⟨10, true, 0x100, .rws, 0x0, 0xFFFF001F, 0x0, 0, false⟩,
  ⟨10, true, 0x104, .rws, 0x0, 0xFFFF001F, 0x0, 0, false⟩,
  ⟨10, true, 0x108, .rws, 0x0, 0xFFFF001F, 0x0, 0, false⟩,
  ⟨10, true, 0x10C, .rws, 0x0, 0xFFFF001F, 0x0, 0, false⟩,
  ⟨10, true, 0x110, .rws, 0x0, 0xFFFF001F, 0x0, 0, false⟩,
  ⟨10, true, 0x114, .rws, 0x0, 0xFFFF001F, 0x0, 0, false⟩,
  ⟨10, true, 0x118, .rws, 0x0, 0xFFFF001F, 0x0, 0, false⟩,
  ⟨10, true, 0x11C, .rws, 0x0, 0xFFFF001F, 0x0, 0, false⟩,
  ⟨10, true, 0x120, .rws, 0x0, 0xFFFF001F, 0x0, 0, false⟩,
  ⟨10, true, 0x124, .rws, 0x0, 0xFFFF001F, 0x0, 0, false⟩,
  ⟨10, true, 0x128, .rws, 0x0, 0xFFFF001F, 0x0, 0, false⟩,
  ⟨10, true, 0x12C, .rws, 0x0, 0xFFFF001F, 0x0, 0, false⟩,
  ⟨10, true, 0x130, .rws, 0x0, 0xFFFF001F, 0x0, 0, false⟩,
  ⟨10, true, 0x134, .rws, 0x0, 0xFFFF001F, 0x0, 0, false⟩,
  ⟨10, true, 0x138, .rws, 0x0, 0xFFFF001F, 0x0, 0, false⟩,
  ⟨10, true, 0x13C, .rws, 0x0, 0xFFFF001F, 0x0, 0, false⟩,
  ⟨10, true, 0x180, .rws, 0x0, 0xFFFF, 0x0, 0, false⟩,
  ⟨10, true, 0x184, .rws, 0x0, 0xFFFF, 0x0, 0, false⟩,
  ⟨10, true, 0x188, .rws, 0x0, 0xFFFF, 0x0, 0, false⟩,
  ⟨10, true, 0x18C, .rws, 0x0, 0xFFFF, 0x0, 0, false⟩,
  ⟨10, true, 0x190, .rws, 0x0, 0xFFFF, 0x0, 0, false⟩,
  ⟨10, true, 0x194, .rws, 0x0, 0xFFFF, 0x0, 0, false⟩,
  ⟨10, true, 0x198, .rws, 0x0, 0xFFFF, 0x0, 0, false⟩]

/-- Rows of JCL. -/
def regRowsJCLB : List RegRow := [
  ⟨10, true, 0x19C, .rws, 0x0, 0xFFFF, 0x0, 0, false⟩,
  ⟨10, true, 0x1A0, .rws, 0x0, 0xFFFF, 0x0, 0, false⟩,
  ⟨10, true, 0x1A4, .rws, 0x0, 0xFFFF, 0x0, 0, false⟩,
  ⟨10, true, 0x1A8, .rws, 0x0, 0xFFFF, 0x0, 0, false⟩,
  ⟨10, true, 0x1AC, .rws, 0x0, 0xFFFF, 0x0, 0, false⟩,
  ⟨10, true, 0x1B0, .rws, 0x0, 0xFFFF, 0x0, 0, false⟩,
  ⟨10, true, 0x1B4, .rws, 0x0, 0xFFFF, 0x0, 0, false⟩,
  ⟨10, true, 0x1B8, .rws, 0x0, 0xFFFF, 0x0, 0, false⟩,
  ⟨10, true, 0x1BC, .rws, 0x0, 0xFFFF, 0x0, 0, false⟩,
  ⟨10, true, 0x1C0, .rws, 0x0, 0xFFFF, 0x0, 0, false⟩,
  ⟨10, true, 0x1C4, .rws, 0x0, 0xFFFF, 0x0, 0, false⟩,
  ⟨10, true, 0x1C8, .rws, 0x0, 0xFFFF, 0x0, 0, false⟩,
  ⟨10, true, 0x1CC, .rws, 0x0, 0xFFFF, 0x0, 0, false⟩,
  ⟨10, true, 0x1D0, .rws, 0x0, 0xFFFF, 0x0, 0, false⟩,
  ⟨10, true, 0x1D4, .rws, 0x0, 0xFFFF, 0x0, 0, false⟩,
  ⟨10, true, 0x1D8, .rws, 0x0, 0xFFFF, 0x0, 0, false⟩,
  ⟨10, true, 0x1DC, .rws, 0x0, 0xFFFF, 0x0, 0, false⟩,
  ⟨10, true, 0x1E0, .rws, 0x0, 0xFFFF, 0x0, 0, false⟩,
  ⟨10, true, 0x1E4, .rws, 0x0, 0xFFFF, 0x0, 0, false⟩,
  ⟨10, true, 0x1E8, .rws, 0x0, 0xFFFF, 0x0, 0, false⟩,
  ⟨10, true, 0x1EC, .rws, 0x0, 0xFFFF, 0x0, 0, false⟩,
  ⟨10, true, 0x1F0, .rws, 0x0, 0xFFFF, 0x0, 0, false⟩,
  ⟨10, true, 0x1F4, .rws, 0x0, 0xFFFF, 0x0, 0, false⟩,
  ⟨10, true, 0x1F8, .rws, 0x0, 0xFFFF, 0x0, 0, false⟩,
  ⟨10, true, 0x1FC, .rws, 0x0, 0xFFFF, 0x0, 0, false⟩,
  ⟨10, true, 0x200, .rws, 0x0, 0xFFFF, 0x0, 0, false⟩]

/-- Rows of TMU. -/
def regRowsTMU : List RegRow := [
  ⟨3, false, 0x40, .ro, 0x0, 0xFFFFFFFF, 0x0, 0, false⟩,
  ⟨3, false, 0x44, .ro, 0x0, 0xFFFF, 0x0, 0, false⟩,
  ⟨3, false, 0x48, .ro, 0x0, 0xFFFFFFFF, 0x0, 0, false⟩,
  ⟨3, false, 0x4C, .ro, 0x0, 0xFFFF, 0x0, 0, false⟩,
  ⟨3, false, 0x50, .rw, 0x0, 0xFFFFFFFF, 0x0, 0, false⟩,
  ⟨3, false, 0x54, .wo, 0x0, 0xFFFFFFFF, 0x0, 0, false⟩,
  ⟨3, false, 0x58, .ro, 0x0, 0xFFFFFFFF, 0x0, 0, false⟩,
  ⟨3, false, 0x5C, .rw, 0x0, 0x8000FFFF, 0x0, 0, false⟩,
  ⟨3, false, 0x60, .ro, 0x20000000, 0xFFFFFFFF, 0x0, 0, false⟩,
  ⟨3, false, 0x64, .rw, 0x0, 0xFFFFFFFF, 0x0, 0, false⟩,
  ⟨3, false, 0x68, .rw, 0x0, 0xFFFF, 0x0, 0, false⟩,
  ⟨3, false, 0x6C, .rw, 0x0, 0xFFFFFFFF, 0x0, 0, false⟩,
  ⟨3, false, 0x70, .w1s, 0x0, 0x1, 0x0, 0, false⟩,
  ⟨3, false, 0x74, .rws, 0x0, 0xFFFFFFFF, 0x0, 0, false⟩,
  ⟨3, false, 0x78, .ro, 0x0, 0xFFFFFFFF, 0x0, 0, false⟩,
  ⟨3, false, 0x7C, .rw, 0x0, 0x7F, 0x0, 0, false⟩,
  ⟨3, false, 0x80, .rws, 0x0, 0xFFFFFFFF, 0x7C, 6, false⟩,
  ⟨3, false, 0x84, .rw, 0x0, 0x1F, 0x0, 0, false⟩,
  ⟨3, false, 0x88, .rws, 0x2, 0x3, 0x84, 4, false⟩,
  ⟨3, false, 0x8C, .rw, 0x0, 0xF, 0x0, 0, false⟩,
  ⟨3, false, 0x90, .rws, 0x0, 0xFFFFFFFF, 0x8C, 3, false⟩,
  ⟨3, false, 0x94, .rws, 0x0, 0xFFFFFFFF, 0x8C, 3, false⟩,
  ⟨3, false, 0x98, .ro, 0x0, 0x7F, 0x0, 0, false⟩,
  ⟨3, false, 0x9C, .ro, 0x0, 0x800FFFFF, 0x0, 0, false⟩,
  ⟨3, false, 0xA0, .ro, 0x0, 0xFFFFFFFF, 0x0, 0, false⟩,
  ⟨3, false, 0xA4, .ro, 0x0, 0xFFFFFFFF, 0x0, 0, true⟩]

/-- Rows of HIF. -/
def regRowsHIF : List RegRow := [
  ⟨7, false, 0x40, .rw, 0x0, 0xFFFF, 0x0, 0, false⟩,
  ⟨7, false, 0x44, .ro, 0x0, 0x800000FF, 0x0, 0, false⟩,
  ⟨7, false, 0x48, .rw, 0x0, 0xFFFFFFFF, 0x0, 0, false⟩,
  ⟨7, false, 0x4C, .rw, 0x0, 0xFFFFFFFF, 0x0, 0, false⟩,
  ⟨7, false, 0x50, .rw, 0x0, 0x3, 0x0, 0, false⟩,
  ⟨7, false, 0x54, .rw, 0x0, 0xFFFFFFFF, 0x50, 1, false⟩,
  ⟨7, false, 0x58, .rw, 0x0, 0xFFFFFFFF, 0x50, 1, false⟩,
  ⟨7, false, 0x5C, .rw, 0x0, 0x9FFFFFFF, 0x50, 1, false⟩,
  ⟨7, false, 0x60, .rw, 0x0, 0xFFFFFFFF, 0x50, 1, false⟩,
  ⟨7, false, 0x64, .ro, 0x0, 0xFFFFFFFF, 0x50, 1, false⟩,
  ⟨7, false, 0x68, .ro, 0x0, 0xFFFF, 0x0, 0, false⟩,
  ⟨7, false, 0x6C, .rw, 0x0, 0xFF, 0x0, 0, false⟩,
  ⟨7, false, 0x70, .rw, 0x0, 0xFFFFFFFF, 0x6C, 7, false⟩,
  ⟨7, false, 0x74, .rw, 0x4, 0x7FF, 0x0, 0, false⟩,
  ⟨7, false, 0x78, .ro, 0x0, 0x7FF, 0x0, 0, false⟩]

/-- Rows of MEM. -/
def regRowsMEM : List RegRow := [
  ⟨8, false, 0x40, .ro, 0x0, 0xFFC00000, 0x0, 0, false⟩,
  ⟨8, false, 0x44, .ro, 0x0, 0xFFFFFFFF, 0x0, 0, true⟩,
  ⟨8, false, 0x48, .ro, 0x0, 0xFFFFFFFF, 0x0, 0, true⟩,
  ⟨8, false, 0x4C, .ro, 0x0, 0xF00, 0x0, 0, false⟩,
  ⟨8, true, 0x80, .ro, 0x0, 0xF8000000, 0x0, 0, false⟩,
  ⟨8, true, 0x84, .ro, 0x0, 0xFFFFFFFF, 0x0, 0, false⟩,
  ⟨8, true, 0x88, .rw, 0x0, 0x3F, 0x0, 0, false⟩,
  ⟨8, true, 0x8C, .rws, 0x0, 0xFFFF, 0x88, 5, false⟩,
  ⟨8, true, 0x90, .rws, 0x0, 0xFFFF, 0x88, 5, false⟩,
  ⟨8, true, 0x94, .rws, 0x0, 0xFC00001F, 0x88, 5, false⟩,
  ⟨8, true, 0x98, .rw, 0x0, 0xC00003FF, 0x0, 0, false⟩,
  ⟨8, true, 0x9C, .rws, 0x0, 0x8000001F, 0x98, 31, false⟩,
  ⟨8, true, 0xA0, .rws, 0x18, 0x800000FF, 0x0, 0, false⟩,
  ⟨8, true, 0xA4, .ro, 0x0, 0xFFFFFFFF, 0x0, 0, false⟩,
  ⟨8, true, 0xA8, .ro, 0x0, 0x800000FF, 0x0, 0, false⟩,
  ⟨8, true, 0x100, .rw, 0x0, 0x1FF, 0x0, 0, false⟩,
  ⟨8, true, 0x104, .rws, 0x0, 0xFFFFFFFF, 0x100, 8, false⟩,
  ⟨8, true, 0x108, .ro, 0x0, 0xFFFFFFFF, 0x100, 8, true⟩,
  ⟨8, true, 0x10C, .ro, 0x0, 0xFFFFFFFF, 0x100, 8, true⟩,
  ⟨8, true, 0x110, .ro, 0x0, 0xFFFFFFFF, 0x100, 8, true⟩,
  ⟨8, true, 0x114, .ro, 0x0, 0xFFFF, 0x100, 8, false⟩,
  ⟨8, true, 0x118, .ro, 0x0, 0x8000003F, 0x0, 0, false⟩]

/-- Rows of ILK. -/
def regRowsILK : List RegRow := [
  ⟨11, false, 0x40, .rws, 0x20001000, 0xFF80FF00, 0x0, 0, false⟩,
  ⟨11, false, 0x44, .ro, 0x0, 0xE0FF07FF, 0x0, 0, false⟩,
  ⟨11, false, 0x48, .rw, 0x0, 0x1F, 0x0, 0, false⟩,
  ⟨11, false, 0x4C, .rws, 0x0, 0x8000001F, 0x48, 4, false⟩,
  ⟨11, false, 0x50, .rw, 0x0, 0x3, 0x0, 0, false⟩,
  ⟨11, false, 0x54, .ro, 0x180, 0x3FF, 0x50, 1, false⟩,
  ⟨11, false, 0x58, .ro, 0x180, 0x3FF, 0x50, 1, false⟩,
  ⟨11, false, 0x5C, .ro, 0x0, 0x3FF, 0x50, 1, true⟩,
  ⟨11, false, 0x60, .ro, 0x0, 0xFFFFFFFF, 0x0, 0, true⟩,
  ⟨11, false, 0x64, .ro, 0x0, 0xFFFFFFFF, 0x0, 0, true⟩,
  ⟨11, false, 0x68, .ro, 0x0, 0xFFFFFFFF, 0x0, 0, true⟩,
  ⟨11, true, 0x80, .rws, 0x0, 0x80FFFF07, 0x0, 0, false⟩,
  ⟨11, true, 0x84, .ro, 0x0, 0x8000FFFF, 0x0, 0, false⟩,
  ⟨11, true, 0x88, .rws, 0x7D0, 0xFFFFFFFF, 0x0, 0, false⟩,
  ⟨11, true, 0x8C, .ro, 0x0, 0xFFFFFFFF, 0x0, 0, false⟩]

/-- Rows of SEC. -/
def regRowsSEC : List RegRow := [
  ⟨2, false, 0x40, .ro, 0x0, 0xFCFFFFFF, 0x0, 0, false⟩,
  ⟨2, false, 0x44, .ro, 0x0, 0xFFFFFFFF, 0x0, 0, false⟩,
  ⟨2, false, 0x48, .ro, 0x0, 0xFFFFFFFF, 0x0, 0, false⟩,
  ⟨2, false, 0x4C, .ro, 0x0, 0xFFFFFFFF, 0x0, 0, false⟩,
  ⟨2, false, 0x50, .ro, 0x0, 0xFFFFFFFF, 0x0, 0, false⟩,
  ⟨2, false, 0x54, .ro, 0x0, 0xFF000F7F, 0x0, 0, false⟩,
  ⟨2, false, 0x58, .ro, 0x0, 0xFFFFFFFF, 0x0, 0, true⟩,
  ⟨2, false, 0x5C, .ro, 0x0, 0xFFFFFFFF, 0x0, 0, true⟩,
  ⟨2, false, 0x60, .rw, 0x0, 0x7F, 0x0, 0, false⟩,
  ⟨2, false, 0x64, .ro, 0x0, 0xFFFFFFFF, 0x60, 6, false⟩,
  ⟨2, false, 0x68, .ro, 0x0, 0xFFFFFFFF, 0x0, 0, false⟩]

/-- Rows of PWC. -/
def regRowsPWC : List RegRow := [
  ⟨1, false, 0x40, .rws, 0x0, 0xCF000000, 0x0, 0, false⟩,
  ⟨1, false, 0x44, .ro, 0x0, 0xFF00FFFF, 0x0, 0, false⟩,
  ⟨1, false, 0x48, .rws, 0x6400FA, 0x80FFFFFF, 0x0, 0, false⟩,
  ⟨1, false, 0x4C, .ro, 0x0, 0xFFFF, 0x0, 0, false⟩,
  ⟨1, false, 0x50, .ro, 0x0, 0xF000FFFF, 0x0, 0, false⟩,
  ⟨1, false, 0x54, .rw, 0x0, 0xF, 0x0, 0, false⟩,
  ⟨1, false, 0x58, .rws, 0x44, 0x800000FF, 0x54, 3, false⟩,
  ⟨1, false, 0x5C, .ro, 0x4, 0xF, 0x54, 3, false⟩,
  ⟨1, false, 0x60, .rw, 0x0, 0x7F, 0x0, 0, false⟩,
  ⟨1, false, 0x64, .rws, 0x0, 0x80000000, 0x60, 6, false⟩,
  ⟨1, false, 0x68, .ro, 0x0, 0xE000FFFF, 0x60, 6, false⟩,
  ⟨1, false, 0x6C, .ro, 0x0, 0xC000000F, 0x0, 0, false⟩,
  ⟨1, false, 0x70, .ro, 0x0, 0x8000FFFF, 0x0, 0, false⟩,
  ⟨1, false, 0x74, .ro, 0x0, 0xFFFFFFFF, 0x0, 0, true⟩]

/-- Rows of LDE. -/
def regRowsLDE : List RegRow := [
  ⟨25, false, 0x40, .ro, 0x80000000, 0xC000FFFF, 0x0, 0, false⟩,
  ⟨25, false, 0x44, .ro, 0x0, 0xFFFFFFFF, 0x0, 0, true⟩]

/-- Rows of PLC. -/
def regRowsPLC : List RegRow := [
  ⟨26, false, 0x40, .ro, 0x80000000, 0xC000FFFF, 0x0, 0, false⟩,
  ⟨26, false, 0x44, .ro, 0x0, 0xFFFFFFFF, 0x0, 0, true⟩]

/-- Rows of TBO. -/
def regRowsTBO : List RegRow := [
  ⟨27, false, 0x40, .ro, 0x80000000, 0xC000FFFF, 0x0, 0, false⟩,
  ⟨27, false, 0x44, .ro, 0x0, 0xFFFFFFFF, 0x0, 0, true⟩]

/-- Rows of FFE. -/
def regRowsFFE : List RegRow := [
  ⟨28, false, 0x40, .ro, 0x80000000, 0xC000FFFF, 0x0, 0, false⟩,
  ⟨28, false, 0x44, .ro, 0x0, 0xFFFFFFFF, 0x0, 0, true⟩]

/-- Rows of HDR. -/
def regRowsHDR : List RegRow := [
  ⟨255, false, 0x0, .ro, 0x0, 0xFFFFFFFF, 0x0, 0, false⟩,
  ⟨255, false, 0x4, .ro, 0x0, 0xFFFFFFFF, 0x0, 0, false⟩,
  ⟨255, false, 0x8, .ro, 0x0, 0xFFFFFFFF, 0x0, 0, false⟩,
  ⟨255, false, 0xC, .rw, 0x0, 0x3, 0x0, 0, false⟩,
  ⟨255, false, 0x10, .ro, 0x0, 0xFFFFFFFF, 0x0, 0, false⟩,
  ⟨255, false, 0x14, .w1c, 0x0, 0xFFFFFFFF, 0x0, 0, false⟩,
  ⟨255, false, 0x18, .rw, 0x0, 0xFFFFFFFF, 0x0, 0, false⟩,
  ⟨255, false, 0x1C, .w1s, 0x0, 0xFFFFFFFF, 0x0, 0, false⟩,
  ⟨255, false, 0x20, .ro, 0x0, 0xFFFFFFFF, 0x0, 0, true⟩,
  ⟨255, false, 0x24, .w1s, 0x0, 0xFFFFFFFF, 0x0, 0, false⟩,
  ⟨255, false, 0x28, .ro, 0x0, 0xFFFFFFFF, 0x0, 0, false⟩,
  ⟨255, false, 0x2C, .rw, 0x0, 0x1F, 0x0, 0, false⟩]

/-- The rows of a page code. -/
def regRowsOf (c : Nat) : List RegRow :=
  match c with
  | 16 => regRowsMXE
  | 17 => regRowsVXE
  | 18 => regRowsCLV
  | 19 => regRowsFTE
  | 20 => regRowsCPE
  | 5 => regRowsPODQ
  | 4 => regRowsSYU
  | 0 => regRowsSYS ++ regRowsSYSB
  | 29 => regRowsPXC
  | 30 => regRowsBEQ
  | 24 => regRowsLDD
  | 6 => regRowsCXS
  | 9 => regRowsFHP
  | 10 => regRowsJCL ++ regRowsJCLB
  | 3 => regRowsTMU
  | 7 => regRowsHIF
  | 8 => regRowsMEM
  | 11 => regRowsILK
  | 2 => regRowsSEC
  | 1 => regRowsPWC
  | 25 => regRowsLDE
  | 26 => regRowsPLC
  | 27 => regRowsTBO
  | 28 => regRowsFFE
  | _ => []

/-- The row of a register of page code `c`, instance `i`, byte offset `off`. -/
def regRow? (c i off : Nat) : Option RegRow :=
  ((if off < 0x40 then regRowsHDR else regRowsOf c).find? (fun r => decide (r.off = off))).filter
    (fun r => !r.inst0 || decide (i = 0))

/-- Instances of each page code (R694); 0 where the code names no block. -/
def pageInsts (c : Nat) : Nat :=
  match c with
  | 0 | 1 | 2 | 3 | 4 | 5 | 6 => 1
  | 7 => 32 | 8 => 8 | 9 => 16 | 10 => 8 | 11 => 8
  | 16 | 17 | 18 | 19 => 18
  | 20 => 8 | 24 => 16 | 25 => 4 | 26 => 2 | 27 => 2 | 28 => 4 | 29 => 2 | 30 => 4
  | _ => 0

/-- The key of a register value: register, instance, selector. -/
def rkey (r i sel : Nat) : Nat := (r * 256 + i) * 65536 + sel

/-- Bits of EVT that are not reserved (the field maps of each chapter). -/
def evtMask (c i : Nat) : Nat :=
  match c with
  | 0 => 0x1FFF1F | 1 | 2 | 4 | 8 => 0x1F | 3 | 6 | 7 | 9 | 19 | 20 | 24 | 30 => 0xF | 5 | 17 => 0x7
  | 10 => if i = 0 then 0xF else 0
  | 11 => 0x7F | 16 => 0xFF | 18 | 29 => 0x3 | 25 | 26 | 27 | 28 => 1
  | _ => 0

/-- The raised cosine of R486: E[k] = 65535 (1 - cos(pi k / 32)) / 2, rounded to nearest (assumption log, row 6). -/
def PAENV (k : Nat) : Nat :=
  [0, 158, 630, 1411, 2494, 3869, 5522, 7438, 9597, 11980, 14563, 17321, 20228, 23256, 26375, 29556, 32767, 35979, 39160, 42279, 45307, 48214, 50972, 53555, 55938, 58097, 60013, 61666, 63041, 64124, 64905, 65377, 65535].getD k 0

/-- Reset values that depend on the selector: REG_CFG of partition 0 and of the spill bucket (R563), the identity of
GAIN_COMP and the raised cosine of PA_ENV (15 R481, R486, R492), TS_CORR of the 400GBASE-R row (16 R498). -/
def regResetX (r sel : Nat) : Option Nat :=
  if r = MEM_REG_CFG then
    (if sel = 0 then some 0x04000080 else if sel = 256 then some 0x10000400
     else if sel = 32 then some 0x02090209 else none)
  else if r = TMU_TS_CORR_ING then some 0x008E0000
  else if r = TMU_TS_CORR_EGR then some 0x00620000
  else if 0xA100 ≤ r ∧ r ≤ 0xA13C then some 0x80000000
  else if 0xA180 ≤ r ∧ r ≤ 0xA200 then some (PAENV ((r - 0xA180) / 4))
  else none

/-- The reset value of the register behind a key. -/
def regReset (k : Nat) : Word :=
  let r := k / 65536 / 256
  let i := k / 65536 % 256
  match regResetX r (k % 65536) with
  | some v => w32 v
  | none => match regRow? (r / 4096) i (r % 4096) with | some x => w32 x.reset | none => 0

end Sys2Proof.Machine
end

