-- ==== Sys2Proof/Machine/Ops.lean ====
section
/-! DEFINITION. The named operations over the state that every family uses: registers and events (25), the error ring
(23), time (16), unit handles and units (01), partitions, items (02 R89) and outputs. -/

namespace Sys2Proof.Machine

open Sys2Proof

/-! ### Registers: the value in force, the shadow (R16) -/

/-- The value in force of register `r` of instance `i` under selector `sel`. -/
def rg (s : State) (r i sel : Nat) : Word := tget regReset s.pg.regs (rkey r i sel)
/-- Set the value in force. -/
def setRg (s : State) (r i sel : Nat) (v : Word) : State :=
  { s with pg := { s.pg with regs := tset regReset s.pg.regs (rkey r i sel) v } }
/-- The shadow value of an RWS register: the value last written. -/
def shadow (s : State) (r i sel : Nat) : Word :=
  match tgetD none s.pg.shadow (rkey r i sel) with
  | some v => v
  | none => rg s r i sel
/-- Write the shadow; a shadow equal to the value in force is not listed. -/
def setShadow (s : State) (r i sel : Nat) (v : Word) : State :=
  { s with pg := { s.pg with
      shadow := tsetD none s.pg.shadow (rkey r i sel) (if v = rg s r i sel then none else some v) } }
/-- Add to a counter that wraps. -/
def wrapRg (s : State) (r i sel n : Nat) : State := setRg s r i sel (rg s r i sel + w32 n)
/-- Add to a counter that saturates at 0xFFFF_FFFF. -/
def satRg (s : State) (r i sel n : Nat) : State := setRg s r i sel (satAdd (rg s r i sel) n)
/-- Add 1 to a field of a counter register, saturating at the field's largest value. -/
def satFld (s : State) (r i sel hi lo : Nat) : State :=
  let w := rg s r i sel
  setRg s r i sel (setFld w hi lo (Nat.min (2 ^ (hi + 1 - lo) - 1) (fld w hi lo + 1)))

/-- The OWNER of a page (R713). -/
def ownerOf (s : State) (c i : Nat) : Nat := fld (rg s (c * 4096 + HDR_OWNER) i 0) 4 0

/-! ### Outputs -/

/-- Send something to the outside (log 4). -/
def emit (s : State) (o : Output) : State := { s with out := o :: s.out }

/-! ### Partitions -/

/-- A partition that exists. -/
def part? (s : State) (p : Nat) : Option Part := tgetD none s.disp.parts p
/-- Its class; a partition that does not exist counts as EDGE. -/
def pclass (s : State) (p : Nat) : PClass := match part? s p with | some x => x.cls | none => .edge
/-- RADIO or SAFETY? -/
def isRS (s : State) (p : Nat) : Bool := match pclass s p with | .radio | .safety => true | _ => false
/-- The PCI Express function of a partition (R517): the PF for partition 0. -/
def fnOf (s : State) (p : Nat) : Nat := match part? s p with | some x => x.vf | none => 0

/-! ### Events and interrupts (R706-R709) -/

/-- IRQ_SEL as it acts: 2 and 3 are honoured on pages of partition 0 alone (R709). -/
def irqSel (s : State) (c i : Nat) : Nat :=
  let q := fld (rg s (c * 4096 + HDR_PAGE_CTL) i 0) 1 0
  if ownerOf s c i = 0 then q else if q = 2 then 1 else if q = 3 then 0 else q
/-- EVT AND EVT_EN is non-zero. -/
def evtOn (s : State) (c i : Nat) : Bool :=
  decide (rg s (c * 4096 + HDR_EVT) i 0 &&& rg s (c * 4096 + HDR_EVT_EN) i 0 ≠ 0)
/-- A page is pending (R708). -/
def pagePending (s : State) (c i : Nat) : Bool := evtOn s c i && decide (irqSel s c i ≠ 0)
/-- The vector of a page's interrupt (R708). -/
def pageVector (c : Nat) : Nat := if c = 7 then 4 else 5
/-- Send the page's MSI-X message, where its IRQ_SEL asks for one. -/
def sendIrq (s : State) (c i : Nat) : State :=
  let q := irqSel s c i
  if q = 1 ∨ q = 2 then emit s (.msix (fnOf s (ownerOf s c i)) (pageVector c)) else s
/-- SB_ALERT_N goes low with the first pending page whose IRQ_SEL asks for it (R709). -/
def alertLow (s : State) (c i : Nat) : State :=
  if irqSel s c i ≥ 2 ∧ !s.pg.alert then
    emit { s with pg := { s.pg with alert := true } } (.sbAlert true)
  else s
/-- Set EVT bits; the page turns pending. -/
def setEvt (s : State) (c i : Nat) (bits : Word) : State :=
  let was := pagePending s c i
  let r := c * 4096 + HDR_EVT
  let s := setRg s r i 0 (rg s r i 0 ||| bits)
  if !was && pagePending s c i then alertLow (sendIrq s c i) c i else s
/-- Add to EVT_COUNT (R706). -/
def countEvt (s : State) (c i n : Nat) : State := wrapRg s (c * 4096 + HDR_EVT_COUNT) i 0 n
/-- The hardware raises event bit `b` of page (c, i) (R706). -/
def raise (s : State) (c i b : Nat) : State := setEvt (countEvt s c i 1) c i (bitW b)

/-- Every page of the device. -/
def allPages : List (Nat × Nat) :=
  (List.range 31).flatMap (fun c => (List.range (pageInsts c)).map (fun i => (c, i)))
/-- SB_ALERT_N as the pages that ask for it leave it (R709). -/
def alertRecheck (s : State) : State :=
  let low := allPages.any (fun p => decide (irqSel s p.1 p.2 ≥ 2) && pagePending s p.1 p.2)
  if low = s.pg.alert then s else emit { s with pg := { s.pg with alert := low } } (.sbAlert low)

/-! ### Time (16) -/

/-- The time unit's time in whole ns. -/
def nowNs (s : State) : Nat := s.tmu.time / 2 ^ 40
/-- Nanoseconds and seconds of the time unit. -/
def timeNsW (s : State) : Word := w32 (nowNs s % 1000000000)
/-- Seconds [31:0]. -/
def timeSW (s : State) : Word := w32 (nowNs s / 1000000000)
/-- Have `ns` nanoseconds passed since tick `t0`? One tick lasts 3125/1536 ns (R496). -/
def passed (s : State) (t0 ns : Nat) : Bool := decide (ns * 1536 ≤ (s.tmu.ticks - t0) * 3125)
/-- Whole nanoseconds since tick `t0`. -/
def sinceNs (s : State) (t0 : Nat) : Nat := (s.tmu.ticks - t0) * 3125 / 1536
/-- A stamp of R497: whole nanoseconds modulo 2^32. -/
def stamp (s : State) : Word := w32 (nowNs s)

/-! ### Units (01) -/

/-- Physical cluster of a logical index. -/
def physOf (s : State) (l : Nat) : Option Nat :=
  tget (fun k => if k < 16 then some k else none) s.units.map l
/-- Logical index of a physical cluster; one whose work is handed over (21 R617) keeps its index for what still runs there. -/
def logOf (s : State) (c : Nat) : Option Nat :=
  match (List.range 16).find? (fun l => decide (physOf s l = some c)) with
  | some l => some l
  | none => (tgetD {} s.safe.rot c).handed.map (fun h => h.1)
/-- This chip's index in its domain; 0 without one (R23, R587). -/
def chipIdx (s : State) : Nat :=
  let d := rg s ILK_DOM_CFG 0 0
  if bit d 31 then fld d 2 0 else 0
/-- A unit handle (R23). -/
def handle (s : State) (level idx : Nat) : Word := w32 (level * 2 ^ 29 + chipIdx s * 2 ^ 26 + idx)
/-- The host as a requester (R264, R731). -/
def hostHandle (s : State) : Word := handle s 3 0xFFFF
/-- An engine's handle: page code and instance. -/
def engHandle (s : State) (c i : Nat) : Word := handle s 0 (c * 256 + i)
/-- Is a logical pair joined (R35)? -/
def pairJoined (s : State) (q : Nat) : Bool := decide (q ∈ s.units.joined)
/-- Does the pair of physical cluster `c` act as one (R35, R96)? Then `c` is its lower or upper half. -/
def cherry (s : State) (c : Nat) : Bool :=
  match logOf s c with | some l => pairJoined s (l / 2) | none => false
/-- The lower cluster of a joined pair, otherwise the cluster itself. -/
def leadOf (s : State) (c : Nat) : Nat := if cherry s c then c / 2 * 2 else c
/-- Handle of the unit that cluster `c` computes in: the Cherry pair, or the cluster (0xFFFF for one without a
logical index). -/
def clHandle (s : State) (c : Nat) : Word :=
  match logOf s c with
  | some l => if pairJoined s (l / 2) then handle s 2 (l / 2) else handle s 1 l
  | none => handle s 1 0xFFFF
/-- One physical cluster. -/
def clu (s : State) (c : Nat) : Cluster := tgetD {} s.cl c
/-- Replace a physical cluster. -/
def setClu (s : State) (c : Nat) (x : Cluster) : State := { s with cl := tsetD {} s.cl c x }
/-- Change the core of a cluster. -/
def setClv (s : State) (c : Nat) (v : Clv) : State := setClu s c { clu s c with clv := v }

/-! ### Memories of a cluster -/

/-- What an unlisted byte reads as: undefined in the latest range that covers it, otherwise zero (R190, log 3). -/
def Ram.fill (u : List (Nat × Nat × Nat)) (a : Nat) : Byte :=
  match u.find? (fun r => decide (r.1 ≤ a ∧ a < r.1 + r.2.1)) with
  | some r => if r.2.2 = 0 then 0 else Config.freeByte (r.2.2 * 2 ^ 26 + a)
  | none => 0
/-- One byte. -/
def Ram.get (r : Ram) (a : Nat) : Byte := tget (Ram.fill r.undef) r.bytes a
/-- Write one byte. -/
def Ram.set (r : Ram) (a : Nat) (b : Byte) : Ram := { r with bytes := tset (Ram.fill r.undef) r.bytes a b }
/-- Write bytes from `a`. -/
def Ram.write (r : Ram) (a : Nat) : List Byte → Ram
  | [] => r
  | b :: bs => Ram.write (r.set a b) (a + 1) bs
/-- `n` bytes from `a`. -/
def Ram.read (r : Ram) (a : Nat) : Nat → List Byte
  | 0 => []
  | n + 1 => r.get a :: Ram.read r (a + 1) n
/-- Make the bytes of a range undefined, or zero with epoch 0. -/
def Ram.wipe (r : Ram) (a n ep : Nat) : Ram :=
  if n = 0 then r
  else if ep = 0 ∧ r.undef = [] then { r with bytes := r.bytes.filter (fun p => !decide (a ≤ p.1 ∧ p.1 < a + n)) }
  else { bytes := r.bytes.filter (fun p => !decide (a ≤ p.1 ∧ p.1 < a + n)), undef := (a, n, ep) :: r.undef }
/-- The canonical form of a cluster's memory. -/
def Ram.wf (r : Ram) : Bool := twf (Ram.fill r.undef) r.bytes

/-! ### The error ring (23 R665-R666, R731) -/

/-- Append a record, or drop it when the device ring is full. -/
def logRec (s : State) (r : ErrRec) : State :=
  if s.pg.ering.length < Config.errRing then { s with pg := { s.pg with ering := s.pg.ering ++ [r] } }
  else raise (satRg { s with pg := { s.pg with dropped := s.pg.dropped + 1 } } SYS_ERR_LOST 0 0 1) 0 0 4
/-- REC_HDR: type, REASON, SOURCE, partition (R201, R731). -/
def recHdr (type reason source p : Nat) : Word := w32 (type * 2 ^ 24 + reason * 2 ^ 16 + source * 2 ^ 13 + p * 2 ^ 8)
/-- Form a record at the present time and append it. -/
def logErr (s : State) (type reason source p : Nat) (w1 w2 w3 w4 w5 : Word) : State :=
  logRec s ⟨recHdr type reason source p, w1, w2, w3, w4, w5, timeSW s, timeNsW s⟩
/-- Note a trigger of R629 for a SAFETY partition; triggers 1 and 6 are always enabled, the others by TRIG_EN. It is acted on
at the next scan tick (assumption log, row 13). -/
def trigger (s : State) (p t : Nat) : State :=
  if pclass s p = .safety ∧ (part? s p).isSome ∧ (t = 1 ∨ t = 6 ∨ bit (rg s SYS_SAF_CFG 0 p) (23 + t) = true) then
    { s with safe := { s.safe with trig := s.safe.trig ++ [(p, t)] } }
  else s
/-- A firewall denial (R30, R731): logged, counted in MEM_00, and a trigger of R629. -/
def deny (s : State) (reason p : Nat) (unit : Word) (addr : Nat) (write : Bool) : State :=
  raise (logErr (trigger s p 5) 0x15 reason 0 p unit (w32 addr) (w32 (b2n write * 2 ^ 31 + addr / 2 ^ 32 % 256)) 0 0)
    8 0 3

/-! ### Free values (log 2) -/

/-- Draw a fresh free word. -/
def freeW (s : State) : Word × State := (Config.freeWord s.freeCtr, { s with freeCtr := s.freeCtr + 1 })

/-! ### Jobs and items (R89, R176, R202) -/

/-- A job. -/
def job? (s : State) (j : Nat) : Option Job := tgetD none s.disp.jobs j
/-- Replace or remove a job. -/
def setJob (s : State) (j : Nat) (x : Option Job) : State :=
  { s with disp := { s.disp with jobs := tsetD none s.disp.jobs j x } }
/-- Change a job. -/
def modJob (s : State) (j : Nat) (f : Job → Job) : State :=
  match job? s j with
  | some x => setJob s j (some (f x))
  | none => s
/-- Mark one item: suspect 1, failed 2; failed prevails, and an index beyond the table marks nothing. -/
def Job.mark (x : Job) (lvl idx : Nat) : Job :=
  if idx < x.nitems then { x with marks := tsetD 0 x.marks idx (Nat.max lvl (tgetD 0 x.marks idx)) } else x
/-- Mark several items. -/
def Job.markAll (x : Job) (lvl : Nat) (idxs : List Nat) : Job := idxs.foldl (fun x i => x.mark lvl i) x
/-- Items of a list not yet failed. -/
def Job.fresh (x : Job) (idxs : List Nat) : Nat :=
  (idxs.eraseDups.filter (fun i => decide (i < x.nitems ∧ tgetD 0 x.marks i ≠ 2))).length
/-- Every item of a job: none is final before the job ends (log 7). -/
def Job.open (x : Job) : List Nat := List.range x.nitems

/-- Raise interrupt source `b` of the order of IEN on a core that runs a job (R155). -/
def raiseIrq (s : State) (c b : Nat) : State :=
  let k := clu s c
  if k.clv.ended then s else setClv s c { k.clv with irq := k.clv.irq ||| BitVec.ofNat 4 (2 ^ b) }
/-- Note the cause of R357, raised at tick `t`, for items that have none yet; of two raised at one tick the lower code
stands (R362). -/
def Job.blame (x : Job) (cause t : Nat) (idxs : List Nat) : Job :=
  { x with causes := idxs.foldl (fun tb i =>
      let (c, t0) := tgetD (0, 0) tb i
      if c = 0 ∨ (t0 = t ∧ cause < c) then tsetD (0, 0) tb i (cause, t) else tb) x.causes }
/-- Note a cause for items of job `j`. -/
def blame (s : State) (j cause : Nat) (idxs : List Nat) : State := modJob s j (fun x => x.blame cause s.tmu.ticks idxs)
/-- Mark items of job `j` and, when an engine of cluster `c` marks one failed, raise FAULT there (R155). -/
def markItems (s : State) (j lvl : Nat) (idxs : List Nat) (c : Option Nat) : State :=
  match job? s j with
  | none => s
  | some x =>
    let n := x.fresh idxs
    let s := setJob s j (some ((if lvl = 2 then x.blame 5 s.tmu.ticks idxs else x).markAll lvl idxs))
    match c with
    | some c => if lvl = 2 ∧ n > 0 then raiseIrq s (leadOf s c) 3 else s
    | none => s
/-- How many items of a list would be newly failed. -/
def newlyFailed (s : State) (j : Nat) (idxs : List Nat) : Nat :=
  match job? s j with | some x => x.fresh idxs | none => 0

/-- A skip of an instruction or descriptor of job `j` (R201, R203): one record of type 0x11 and the marks. -/
def skipRec (s : State) (j reason source : Nat) (unit : Word) (off tag : Nat) (idxs : List Nat) (c : Option Nat) :
    State :=
  let (slot, gen, p) := match job? s j with | some x => (x.slot, x.gen, x.part) | none => (0, 0, 0)
  let n := newlyFailed s j idxs
  markItems (logErr s 0x11 reason source p unit (w32 slot) (w32 gen) (w32 off) (w32 (n * 2 ^ 16 + tag)))
    j 2 idxs c

end Sys2Proof.Machine
end

