-- ==== Sys2Proof/Machine/Space.lean ====
section
/-! DEFINITION. Address spaces: unit namespaces (01 R25 R26), the firewalls (01 R29 R30, 18 R551-R554), external memory
with its inline ECC (18 R548 R549) and the token buckets (18 R558 R560). -/

namespace Sys2Proof.Machine

open Sys2Proof

/-! ### Scratchpad namespaces -/

/-- Physical cluster and offset of byte `a` of the namespace of cluster `c` or its Cherry pair (R25, R26). -/
def nsLoc (s : State) (c a : Nat) : Option (Nat × Nat) :=
  if a < Config.spadBytes then some (leadOf s c, a)
  else if cherry s c ∧ a < 2 * Config.spadBytes then some (leadOf s c + 1, a - Config.spadBytes)
  else none
/-- Bytes of that namespace. -/
def nsSize (s : State) (c : Nat) : Nat := if cherry s c then 2 * Config.spadBytes else Config.spadBytes
/-- One byte of the namespace. -/
def nsByte (s : State) (c a : Nat) : Byte :=
  match nsLoc s c a with | some (k, o) => (clu s k).sp.get o | none => 0
/-- `n` bytes of the namespace. -/
def nsRead (s : State) (c a n : Nat) : List Byte := (List.range n).map (fun i => nsByte s c (a + i))
/-- Write a byte into a cluster's scratchpad. -/
def spSet (s : State) (k o : Nat) (b : Byte) : State :=
  let x := clu s k
  setClu s k { x with sp := x.sp.set o b }
/-- Write bytes into a cluster's scratchpad. -/
def spWrite (s : State) (k o : Nat) (bs : List Byte) : State :=
  let x := clu s k
  setClu s k { x with sp := x.sp.write o bs }
/-- Write bytes into the namespace, in the pieces of its clusters. -/
def nsWrite (s : State) (c a : Nat) (bs : List Byte) : State :=
  match nsLoc s c a with
  | none => s
  | some (k, o) =>
    let n := Config.spadBytes - o
    let s := spWrite s k o (bs.take n)
    match nsLoc s c (a + n) with
    | some (k2, o2) => spWrite s k2 o2 (bs.drop n)
    | none => s
/-- Physical cluster and offset of byte `a` of the namespace of a job's unit: the concatenation of its physical clusters (R25). -/
def unitLoc (_s : State) (units : List Nat) (a : Nat) : Option (Nat × Nat) :=
  units[a / Config.spadBytes]?.map (fun c => (c, a % Config.spadBytes))
/-- Physical cluster of member `m` of a job's unit: where the job runs or keeps data, otherwise where it would run. -/
def placeOf (s : State) (x : Job) (m : Nat) : Option Nat :=
  if x.phys = [] then (x.units[m]?).bind (physOf s) else x.phys[m]?
/-- Bytes of the namespace of a job's unit. -/
def unitSize (units : List Nat) : Nat := units.length * Config.spadBytes

/-! ### Firewalls -/

/-- Floor mode of a physical cluster's logical index, and first byte of its floor range (R273, R274, R303). -/
def floorMode (s : State) (l : Nat) : Nat := fld (rg s SYS_FLOOR_CFG 0 l) 31 30
/-- First byte of the floor scratchpad. -/
def floorBase (s : State) (l : Nat) : Nat := (8192 - Nat.min 8192 (fld (rg s SYS_FLOOR_CFG 0 l) 13 0)) * 1024
/-- A window of the floor table: enabled, partition, start, length (R302). -/
def floorWin (s : State) (l w : Nat) : Option (Nat × Nat × Nat) :=
  let g := rg s SYS_WIN_CFG 0 (w * 16 + l)
  if bit g 31 then some (fld g 30 26, (rg s SYS_WIN_START 0 (w * 16 + l)).toNat, fld g 25 0) else none
/-- Partitions that the floor of a cluster serves. -/
def floorParts (s : State) (l : Nat) : List Nat :=
  ((List.range 64).filterMap (floorWin s l)).map (fun x => x.1)
/-- Regions of held jobs on a physical cluster: parked and pinned, with their partition (R280, R290). -/
def keptRegions (s : State) (c : Nat) : List (Nat × Nat × Nat) :=
  s.disp.jobs.flatMap (fun e =>
    match e.2 with
    | none => []
    | some j =>
      let mine := (j.regions.filter (fun r => !r.spilled && decide (r.space = 0))) ++ j.pinned
      (mine.filter (fun r => decide (placeOf s j r.member = some c))).map
        (fun r => (j.part, r.start, r.len)))
/-- Does the firewall let partition `p` to bytes [o, o + n) of the scratchpad of physical cluster `c`? The owner of a
kept region alone reaches it, the floor's partitions alone reach a windowed cluster's floor, and OWNER reaches the rest. -/
def spAdmit (s : State) (p c o n : Nat) : Bool :=
  let kept := (keptRegions s c).filter (fun r => overlap r.2.1 r.2.2 o n)
  if kept ≠ [] then kept.all (fun r => decide (r.1 = p))
  else
    match logOf s c with
    | none => false
    | some l =>
      if floorMode s l = 2 ∧ o + n > floorBase s l then decide (p ∈ floorParts s l)
      else decide (ownerOf s 18 c = p)

/-- A region record that is enabled: base, size in bytes, TYPE, RIGHTS, OWNER (R552, R564). -/
def region? (s : State) (k : Nat) : Option (Nat × Nat × Nat × Nat × Nat) :=
  let g := rg s MEM_RGN_CFG 0 k
  if bit g 31 then
    some (fld (rg s MEM_RGN_BASE 0 k) 15 0 * 0x200000, fld (rg s MEM_RGN_SIZE 0 k) 15 0 * 0x200000, fld g 30 28,
      fld g 27 26, fld g 4 0)
  else none
/-- Enabled regions. -/
def regions (s : State) : List (Nat × Nat × Nat × Nat × Nat) := (List.range 64).filterMap (region? s)
/-- Base, size and RIGHTS of the PART region of a partition. -/
def partRegion (s : State) (p : Nat) : Option (Nat × Nat × Nat) :=
  ((regions s).find? (fun r => decide (r.2.2.1 = 0 ∧ r.2.2.2.2 = p))).map (fun r => (r.1, r.2.1, r.2.2.2.1))
/-- Base and size of the SPILL region of a partition. -/
def spillRegion (s : State) (p : Nat) : Option (Nat × Nat) :=
  ((regions s).find? (fun r => decide (r.2.2.1 = 1 ∧ r.2.2.2.2 = p))).map (fun r => (r.1, r.2.1))
/-- Is a generation referenced by a job (R183)? -/
def genUsed (s : State) (g : Gen) : Bool :=
  s.disp.jobs.any (fun e => match e.2 with
    | some j => decide (j.part = g.part ∧ j.slot = g.slot ∧ j.gen = g.gen) | none => false)
/-- Device address and size of weight bank `b` of a cell, in its partition's region (11 R363, R376). -/
def weightBank (s : State) (c b : Nat) : Option (Nat × Nat) :=
  match (tgetD {} s.radio.cells c).part with
  | none => none
  | some p => (partRegion s p).map (fun r =>
      (r.1 + (rg s (if b = 0 then BEQ_WBANK0 else BEQ_WBANK1) 0 c).toNat, (rg s BEQ_WBANK_KIB 0 c).toNat * 1024))
/-- A slot job of a cell's partition that was instantiated before the cell's latest swap has not ended. -/
def oldBound (s : State) (x : Cell) : Bool :=
  s.disp.jobs.any (fun e => match e.2 with
    | some j => decide (e.1 < x.swapJob ∧ x.part = some j.part) && j.inst.isSome
    | none => false)
/-- Weight banks that are active, or bound by a job that has not ended (11 R365). -/
def lockedBanks (s : State) : List (Nat × Nat) :=
  s.radio.cells.flatMap (fun e =>
    (weightBank s e.1 e.2.bank).toList ++ if oldBound s e.2 then (weightBank s e.1 (1 - e.2.bank)).toList else [])
/-- Ranges that are read-only for all: generations not yet released, and weight banks (R180, R553). -/
def overrides (s : State) : List (Nat × Nat) := s.img.gens.map (fun g => (g.base, g.len)) ++ lockedBanks s
/-- Does the firewall let partition `p` to device bytes [a, a + n)? -/
def extAdmit (s : State) (p a n : Nat) (write : Bool) : Bool :=
  let ov := (overrides s).any (fun r => overlap r.1 r.2 a n)
  if ov ∧ write then false
  else if (overrides s).any (fun r => decide (r.1 ≤ a ∧ a + n ≤ r.1 + r.2)) then true
  else
    match partRegion s p with
    | some (b, z, r) => decide (b ≤ a ∧ a + n ≤ b + z) && decide ((r / (if write then 2 else 1)) % 2 = 1)
    | none => false
/-- Owner of an enabled granule: memory code of GRAN_SEL and granule (R554, R563). -/
def granule (s : State) (m g : Nat) : Option Nat :=
  let w := rg s MEM_GRAN_CFG 0 (m * 1024 + g)
  if bit w 31 then some (fld w 4 0) else none
/-- Every granule that [a, a + n) touches belongs to `p`. -/
def granAdmit (s : State) (m p g0 g1 : Nat) : Bool :=
  (List.range (g1 + 1 - g0)).all (fun k => decide (granule s m (g0 + k) = some p))
/-- Decoder-buffer granule of an offset of space 0x6 (R730, R554). -/
def dwmGran (a : Nat) : Nat := 8 * (a / 0x100000) + a % 0x100000 / 0x10000

/-! ### External memory (R548, R549) -/

/-- Channel of a device address (R549). -/
def channel (a : Nat) : Nat := let b := a / 64 / 7; (b + b / 32) % 32
/-- Raw address within the channel. -/
def rawAddr (a : Nat) : Nat := let l := a / 64; l / 7 / 32 * 512 + l % 7 * 64 + a % 64
/-- Address of the line's check code within the channel. -/
def checkAddr (a : Nat) : Nat := let l := a / 64; l / 7 / 32 * 512 + 448 + 8 * (l % 7)
/-- A corrected read (R548). -/
def memCE (s : State) (a : Nat) : State :=
  raise (satRg s MEM_CE_COUNT (channel a / 4) 0 1) 8 (channel a / 4) 0
/-- An uncorrectable read of the line at device address `a`: counted, captured, recorded (R548, R731). -/
def memUE (s : State) (reason a : Nat) (unit : Word) : State :=
  let ch := channel a
  let s := satRg s MEM_UE_COUNT (ch / 4) 0 1
  let s := setRg (setRg s MEM_UE_ADDR_LO 0 0 (w32 a)) MEM_UE_ADDR_HI 0 0 (w32 (2 ^ 31 + a / 2 ^ 32 % 256))
  let s := raise s 8 (ch / 4) 1
  logErr s 0x16 reason 0 0 (w32 a) (w32 (a / 2 ^ 32 % 256)) (w32 ch) unit 0
/-- Lines that [a, a + n) touches. -/
def linesOf (a n : Nat) : List Nat := if n = 0 then [] else (List.range ((a + n - 1) / 64 + 1 - a / 64)).map (fun i => a / 64 + i)
/-- Is any line of the range uncorrectable? -/
def anyUE (s : State) (a n : Nat) : Option Nat := (linesOf a n).find? (fun l => decide (l ∈ s.mem.ue))
/-- Write bytes to external memory line by line: a whole line clears its error, a part of a bad line is not written and is
reported (R548). The flag says that some part was not carried out. -/
def extWriteLines (s : State) (unit : Word) : Nat → Nat → List Byte → State × Bool
  | 0, _, _ => (s, false)
  | f + 1, a, bs =>
    if bs = [] then (s, false) else
    let n := Nat.min (64 - a % 64) bs.length
    let l := a / 64
    let (s, bad) :=
      if l ∈ s.mem.ue ∧ n < 64 then (memUE s 1 (l * 64) unit, true)
      else ({ s with mem := { s.mem with ext := mwrite 0 s.mem.ext a (bs.take n),
                                         ue := s.mem.ue.filter (fun x => decide (x ≠ l)) } }, false)
    let (s, b2) := extWriteLines s unit f (a + n) (bs.drop n)
    (s, bad || b2)
/-- Write bytes to external memory at device address `a`. -/
def extWrite (s : State) (unit : Word) (a : Nat) (bs : List Byte) : State × Bool :=
  extWriteLines s unit (bs.length / 64 + 2) a bs
/-- Bytes of external memory. -/
def extRead (s : State) (a n : Nat) : List Byte := mread 0 s.mem.ext a n
/-- A word of external memory. -/
def extWord (s : State) (a : Nat) : Word := mword 0 s.mem.ext a
/-- `n` words of external memory. -/
def extWords (s : State) (a n : Nat) : List Word := leWords n (extRead s a (4 * n))

/-! ### Token buckets (R293, R558, R560): 0-31 external memory, 32 the spill channel, 256 + p the fabric -/

/-- RATE and BURST of a bucket. -/
def bucketCfg (s : State) (b : Nat) : Nat × Nat :=
  let w := rg s MEM_REG_CFG 0 b
  (fld w 15 0, fld w 31 16)
/-- A bucket. -/
def bucket (s : State) (b : Nat) : Bucket := tgetD {} s.mem.buckets b
/-- Replace a bucket. -/
def setBucket (s : State) (b : Nat) (x : Bucket) : State :=
  { s with mem := { s.mem with buckets := tsetD {} s.mem.buckets b x } }
/-- The refill of one scan tick: RATE arrives, what exceeds BURST is lost (R293, R295). -/
def refill (s : State) (b : Nat) : State :=
  let (r, m) := bucketCfg s b
  let x := bucket s b
  let l := x.level + r
  let lost := l - Nat.min l m
  setBucket s b { x with level := l - lost, added := x.added + w32 r, lost := x.lost + w32 lost }
/-- Charge `n` units when the bucket holds them; otherwise the run waits. -/
def charge (s : State) (b n : Nat) : Option State :=
  let x := bucket s b
  if n ≤ x.level then some (setBucket s b { x with level := x.level - n, spent := x.spent + w32 n }) else none
/-- The books of one bucket balance (R560). -/
def bucketOk (x : Bucket) : Bool := decide (x.added = x.spent + x.lost + w32 x.level)

end Sys2Proof.Machine
end

