-- ==== Sys2Proof/Machine/PageOps.lean ====
section
/-! DEFINITION. Access to register pages (00 R15-R18, 24 R682 R686 R689, 25 R693-R699 R707-R709): which pages exist and
respond, who may write, and what a write does by access code. -/

namespace Sys2Proof.Machine

open Sys2Proof

/-- BAR0 offset of a register (R693). -/
def barOff (c i o : Nat) : Nat := c * 0x100000 + i * 0x1000 + o
/-- PWC_STAT.READY. -/
def ready (s : State) : Bool := bit (rg s PWC_PWC_STAT 0 0) 31
/-- Mode of a fronthaul quad (R456). -/
def qmode (s : State) (q : Nat) : Nat := fld (rg s FHP_PORT_CFG (4 * q) 0) 31 29
/-- Does a fronthaul lane carry a port (R457)? -/
def portExists (s : State) (i : Nat) : Bool :=
  match qmode s (i / 4) with
  | 0 => decide (i % 4 = 0)
  | 1 => decide (i % 2 = 0)
  | 2 | 3 | 4 => true
  | _ => false
/-- Does a page exist (R694, R696)? The page that holds a quad's QMODE always does (log 10). -/
def pageExists (s : State) (c i : Nat) : Bool :=
  decide (i < pageInsts c) && (decide (c ≠ 9) || decide (i % 4 = 0) || portExists s i)
/-- Power domain that a page serves (R682); none for the control domain (log 10). -/
def domainOf (c i : Nat) : Option Nat :=
  match c with
  | 16 => some i | 17 | 18 => some (18 + i) | 19 => some (36 + i)
  | 24 => some (54 + i) | 25 => some (70 + i) | 26 => some (74 + i) | 27 => some (76 + i)
  | 28 => some (78 + i) | 29 => some 82 | 30 => some (83 + i) | 8 => some (87 + i)
  | 9 => some (95 + i / 4) | 11 => some (99 + i / 2) | 10 => some (103 + i)
  | _ => none
/-- DOM_STAT.ON of a domain. -/
def domOn (s : State) (d : Nat) : Bool := bit (rg s PWC_DOM_STAT 0 d) 31
/-- The domain of a page is on. -/
def pageOn (s : State) (c i : Nat) : Bool := match domainOf c i with | some d => domOn s d | none => true
/-- Does BAR0 respond on a page (R689)? -/
def responds (s : State) (c : Nat) : Bool := ready s || decide (c ≤ 2)
/-- Index that a register's selector holds (R712). -/
def selIdx (s : State) (x : RegRow) (c i : Nat) : Nat :=
  if x.selOff = 0 then 0
  else
    let w := rg s (c * 4096 + x.selOff) i 0
    if c = 8 ∧ x.selOff = 0x98 then fld w 31 30 * 1024 + fld w 9 0 else fld w x.selHi 0
/-- Is a page's OWNER fixed (R713)? Cluster pages alone are not. -/
def fixedOwner (c : Nat) : Bool := !decide (16 ≤ c ∧ c ≤ 19)
/-- May partition `p` write page (c, i) (R18)? -/
def mayWrite (s : State) (p c i : Nat) : Bool := decide (p = 0) || decide (p = ownerOf s c i)
/-- A write to a page that does not respond is lost; one that may not be made is logged (R18, R696). The result says whether
the write goes on. -/
def pageGate (s : State) (unit : Word) (p c i o : Nat) : Bool × State :=
  if !responds s c then (false, s)
  else if !pageExists s c i || !mayWrite s p c i then (false, deny s 3 p unit (barOff c i o) true)
  else (true, s)
/-- A message of an interrupt after a write that leaves the page pending (R708), and SB_ALERT_N (R709). -/
def afterWrite (s : State) (c i : Nat) : State :=
  let s := if pagePending s c i then sendIrq s c i else s
  alertRecheck s
/-- FAULT_LOC.VALID is cleared with ARRAY_FAULT (03 R99); a mismatch in the same cycle takes its place (R94), and where it
lies the command does not say: a free value (log 2). -/
def clearFaultLoc (s : State) (i : Nat) (again : Bool) : State :=
  if again then
    let (w, s) := freeW s
    setRg s MXE_FAULT_LOC i 0 (w ||| bitW 31)
  else setRg s MXE_FAULT_LOC i 0 (rg s MXE_FAULT_LOC i 0 &&& 0x7FFFFFFF)
/-- A write to EVT: each 1 clears its bit; `set` are bits that the hardware raises in the same cycle, which win (R17). -/
def writeEvt (s : State) (c i : Nat) (v set : Word) : State :=
  let r := c * 4096 + HDR_EVT
  let n := ((List.range 32).filter (fun b => bit set b)).length
  let s := countEvt s c i n
  let s := if c = 16 ∧ bit v 0 = true then clearFaultLoc s i (bit set 0) else s
  afterWrite (setRg s r i 0 ((rg s r i 0 &&& ~~~v) ||| set)) c i
/-- The requester's handle of a write by partition `p` from the host. -/
def hostUnit (s : State) (_p : Nat) : Word := hostHandle s
/-- A register without a row of its own takes a write, by its access code. Reserved bits are ignored (R15). -/
def plainWrite (s : State) (c i o : Nat) (v : Word) : State :=
  match regRow? c i o with
  | none => s
  | some x =>
    let r := c * 4096 + o
    let k := selIdx s x c i
    let w := v &&& w32 x.mask
    match x.acc with
    | .ro => s
    | .rw => if pageOn s c i ∨ o < 0x40 then setRg s r i k w else s
    | .rws => setShadow s r i k w
    | .w1c => if pageOn s c i ∨ o < 0x40 then setRg s r i k (rg s r i k &&& ~~~w) else s
    | .w1s | .wo => s

end Sys2Proof.Machine
end

