-- ==== Sys2Proof/Machine/TimeOps.lean ====
section
/-! DEFINITION. The time counter (16 R494 R505 R508-R511 R737) and the tick of TCLK, which is what a step does when no
command waits (log 1). -/

namespace Sys2Proof.Machine

open Sys2Proof

/-- The largest rate offset, 12 ppm in units of 2^-40 (R505). -/
def rateMax : Int := 13194139
/-- One tick in units of 2^-40 ns at a total offset of `adj` units of 2^-40: 3125/1536 × (2^40 + adj), rounded (R494). -/
def tickInc (adj : Int) : Nat := rdiv ((2 ^ 40 + adj).toNat * 3125) 1536
/-- The further offset of a slew: the largest in its direction that keeps the total within the bound (R505). -/
def slewRate (rate left : Int) : Int := if left > 0 then rateMax - rate else if left < 0 then -rateMax - rate else 0
/-- How much of a slew one tick carries out: the tick's difference, never more than what is left. -/
def slewStep (rate left : Int) : Int :=
  let d : Int := (tickInc (rate + slewRate rate left) : Int) - (tickInc rate : Int)
  if left > 0 then min d left else max d left
/-- The FREQ_ADJ register as a number. -/
def freqReg (s : State) : Int := (rg s TMU_FREQ_ADJ 0 0).toInt
/-- One TCLK tick (R494, R505). -/
def tick (s : State) : State :=
  let t := s.tmu
  if t.slewing then
    let d := slewStep t.rate t.phaseLeft
    { s with tmu := { t with ticks := t.ticks + 1, time := t.time + ((tickInc t.rate : Int) + d).toNat,
                             phaseLeft := t.phaseLeft - d } }
  else { s with tmu := { t with ticks := t.ticks + 1, time := t.time + tickInc t.rate } }

/-! ### Boundaries (R510, R511) -/

/-- How many boundaries of period `period` with offset `off`, in ns, lie after the epoch and at or before `now`. -/
def boundaryCount (now : Nat) (off : Int) (period : Nat) : Nat :=
  let n : Int := ((now : Int) - off) / (period : Int)
  let z : Int := (-off) / (period : Int)
  (n - z).toNat
/-- FRAME_OFFSET in force. -/
def frameOffset (s : State) : Nat := (rg s TMU_FRAME_OFFSET 0 0).toNat
/-- FRAME_CNT (R510). -/
def frameCnt (s : State) : Nat := boundaryCount (nowNs s) (frameOffset s) 10000000 % 2 ^ 32
/-- μ and CELL_TOFF of a cell in force (R513). -/
def cellMu (s : State) (c : Nat) : Nat := fld (rg s TMU_CELL_TIME 0 c) 31 30
/-- CELL_TOFF, signed. -/
def cellToff (s : State) (c : Nat) : Int := sgn 30 (fld (rg s TMU_CELL_TIME 0 c) 29 0)
/-- Length of a slot in ns. -/
def slotNs (s : State) (c : Nat) : Nat := 1000000 / 2 ^ cellMu s c
/-- The slot number of a cell at the present instant (R511). -/
def cellSlotNow (s : State) (c : Nat) : Nat :=
  boundaryCount (nowNs s) ((frameOffset s : Int) + cellToff s c) (slotNs s c) % 2 ^ 32
/-- PART_SLOT period in ns (R512). -/
def partSlotNs (s : State) (p : Nat) : Nat := 125000 * 2 ^ fld (rg s TMU_PART_SLOT 0 p) 1 0
/-- Slot number of a partition's timer. -/
def partSlotNow (s : State) (p : Nat) : Nat := boundaryCount (nowNs s) (frameOffset s) (partSlotNs s p) % 2 ^ 32
/-- The count of boundaries of the 125 µs device grid (R512). -/
def gridNow (s : State) : Nat := boundaryCount (nowNs s) (frameOffset s) 125000 % 2 ^ 32
/-- The books of boundaries carried out, brought to the present instant: a change of the time or of a grid is no boundary by itself
(assumption log). -/
def syncBooks (s : State) : State :=
  { s with tmu := { s.tmu with
      frame := frameCnt s
      grid := gridNow s
      cellSlot := (List.range Config.cells).foldl (fun t c => tsetD 0 t c (cellSlotNow s c)) s.tmu.cellSlot
      partSlot := (List.range Config.partitions).foldl (fun t p => tsetD 0 t p (partSlotNow s p)) s.tmu.partSlot } }

end Sys2Proof.Machine
end

