-- ==== Sys2Proof/Machine/CellOps.lean ====
section
/-! DEFINITION. What every family needs of a cell: its fallback and engagement (11 R353 R361), and the Saffron object
(21 R626 R627). -/

namespace Sys2Proof.Machine

open Sys2Proof

/-- A cell. -/
def cellOf (s : State) (c : Nat) : Cell := tgetD {} s.radio.cells c
/-- Replace a cell. -/
def setCell (s : State) (c : Nat) (x : Cell) : State :=
  { s with radio := { s.radio with cells := tsetD {} s.radio.cells c x } }
/-- CELL_CFG.EN. -/
def beqEn (s : State) (c : Nat) : Bool := bit (rg s BEQ_CELL_CFG 0 c) 31
/-- CELL_CFG.HOT. -/
def beqHot (s : State) (c : Nat) : Bool := bit (rg s BEQ_CELL_CFG 0 c) 30
/-- CELL_CFG.UNIT. -/
def beqUnit (s : State) (c : Nat) : Nat := fld (rg s BEQ_CELL_CFG 0 c) 29 28
/-- A fallback decision for a cell: its frame is noted, and a cold cell is engaged (R353). -/
def engage (s : State) (c : Nat) : State :=
  let x := cellOf s c
  let s := setCell s c { x with fbFrame := frameCnt s }
  if beqEn s c && !beqHot s c && x.engaged.isNone then
    let s := setCell s c { cellOf s c with engaged := some (nowNs s) }
    raise (satRg s BEQ_ENGAGE_COUNT 0 c 1) 30 0 2
  else s
/-- A cell-scope fallback starts (R361, R380). -/
def cellFallback (s : State) (c : Nat) : State := raise (engage s c) 30 0 3
/-- SAFF_STAT: the last verdict and the consecutive misses (R633). -/
def setSaffStat (s : State) (c verdict misses : Nat) : State :=
  setRg s SYS_SAFF_STAT 0 c (w32 (verdict * 2 ^ 30 + Nat.min 255 misses))
/-- A SAFFRON fallback starts where none is in force. -/
def startSaff (s : State) (c : Nat) : State :=
  let x := cellOf s c
  match x.saff with
  | some _ => setCell s c { x with saffPass := false }
  | none => cellFallback (setCell s c { x with saff := some s.tmu.ticks, saffPass := false }) c
/-- The verdict `v` written to the Saffron object of cell `c`. -/
def saffVerdict (s : State) (v : Word) (c : Nat) : State :=
  if !bit v 31 || decide (fld v 15 0 ≠ frameCnt s % 65536) then s
  else
    let s := setCell s c { cellOf s c with saffSeen := true }
    if bit v 30 then setSaffStat (setCell s c { cellOf s c with saffPass := true }) c 1 0
    else startSaff (raise (setSaffStat (satRg s SYS_SAFF_FAIL 0 c 1) c 2 0) 0 0 17) c
/-- A WRITE of `v` to object `o`: every cell whose Saffron object it is acts on it (R627). -/
def saffWrite (s : State) (o : Nat) (v : Word) : State :=
  ((List.range Config.cells).filter (fun c =>
    let w := rg s SYS_SAFF_CFG 0 c
    bit w 31 && decide (fld w 13 0 = o))).foldl (fun s c => saffVerdict s v c) s

end Sys2Proof.Machine
end

