-- ==== Sys2Proof/Machine/Flags.lean ====
section
/-! DEFINITION. The flag computations of the Clove core (05 R138-R140, R144): what a result becomes with and without SAT,
and which sticky flag it sets. -/

namespace Sys2Proof.Machine

open Sys2Proof

/-- VS, V32 and V40 of CST (R166). -/
def flagVS : Word := 1
/-- V32. -/
def flagV32 : Word := 2
/-- V40. -/
def flagV40 : Word := 4

/-- A scalar ALU result (R139): the word, and the flags it sets. -/
def aluResult (sat : Bool) (x : Int) : Word × Word :=
  if outS 32 x then (if sat then w32 (wrapN 32 (clampS 32 x)) else w32 (wrapN 32 x), flagVS)
  else (w32 (wrapN 32 x), 0)

/-- An accumulator result (R139): the accumulator, and the flags it sets. -/
def accResult (sat : Bool) (x : Int) : BitVec 40 × Word :=
  if !outS 32 x then (BitVec.ofNat 40 (wrapN 40 x), 0)
  else if sat then (BitVec.ofNat 40 (wrapN 40 (clampS 32 x)), flagV32)
  else if outS 40 x then (BitVec.ofNat 40 (wrapN 40 x), flagV32 ||| flagV40)
  else (BitVec.ofNat 40 (wrapN 40 x), flagV32)

/-- MOVA (R140): bits [31:16] rounded to nearest, ties away from zero; saturated to 16 bits, or the low 16 bits. -/
def movaResult (sat : Bool) (a : BitVec 40) : Word :=
  let r := rdivS a.toInt 65536
  w32 (wrapN 32 (if sat then clampS 16 r else sgn 16 (wrapN 16 r)))

/-- The product of R138: exact, shifted left by one with FRAC. -/
def mulProduct (frac : Bool) (a b : Word) : Int :=
  sgn 16 a.toNat * sgn 16 b.toNat * (if frac then 2 else 1)

/-- The condition codes of BRC and VCMP (R142, R107) on the sign of a comparison; 6 and 7 are reserved. -/
def condHolds (cond : Nat) (a b : Int) : Option Bool :=
  match cond with
  | 0 => some (decide (a = b)) | 1 => some (decide (a ≠ b)) | 2 => some (decide (a < b))
  | 3 => some (decide (a ≥ b)) | 4 => some (decide (a > b)) | 5 => some (decide (a ≤ b))
  | _ => none

end Sys2Proof.Machine
end

