-- ==== Sys2Proof/Machine/RecOps.lean ====
section
/-! DEFINITION. The trace of a recording (20 R594-R600): forming records, their staging, and the ring. -/

namespace Sys2Proof.Machine

open Sys2Proof

/-- Words of one record: a header of four, then the body, whose first word's bit 0 says that it continues an earlier one. The
manual names the parts of a body and not their places; here each part takes whole words in the order named (log 15). -/
def recBytes (s : State) (type seq : Nat) (cont : Bool) (body : List Byte) : List Byte :=
  let n := ceilDiv (20 + body.length) 16
  wordsLe [w32 (type * 2 ^ 24 + n), w32 seq, timeNsW s, timeSW s, w32 (b2n cont)] ++ body ++
    List.replicate (n * 16 - 20 - body.length) 0
/-- Cut a body into parts that LEN16 can hold. -/
def recParts : Nat → List Byte → List (List Byte)
  | 0, _ => []
  | f + 1, b => if b.length ≤ 1048540 then [b] else b.take 1048540 :: recParts f (b.drop 1048540)
/-- Replace the recorder. -/
def setRec (s : State) (x : Tracer) : State := { s with trace := x }
/-- Bytes that wait in the 1 MiB staging buffer. -/
def recWaiting (x : Tracer) : Nat := (x.staged.map List.length).sum
/-- Stage one record, or count it as lost (R599). -/
def recStage (s : State) (type : Nat) (cont : Bool) (body : List Byte) : State :=
  let x := s.trace
  let b := recBytes s type x.seq cont body
  if 0x100000 < recWaiting x + b.length then
    raise (satRg (setRec s { x with lost := x.lost + 1, lostAll := x.lostAll + 1 }) SYS_REC_GAPS 0 0 1) 0 0 12
  else setRec s { x with seq := (x.seq + 1) % 2 ^ 32, staged := x.staged ++ [b] }
/-- Is partition `p` being recorded? -/
def recording (s : State) (p : Nat) : Bool :=
  match s.trace.run with | some r => decide (r.part = p) && r.since.isSome && !r.closing | none => false
/-- Form a record of an input that reaches partition `p` (R597). -/
def record (s : State) (p type : Nat) (body : List Byte) : State :=
  if recording s p then
    ((recParts (body.length / 1048540 + 1) body).foldl (fun (q : State × Bool) b => (recStage q.1 type q.2 b, true)) (s, false)).1
  else s
/-- A record whose body is words. -/
def recordW (s : State) (p type : Nat) (ws : List Word) : State := record s p type (wordsLe ws)
/-- A choice of R592: its code (0 misfit, 1 abort, 2 expiry, 3 stale drop, 4 admission, 5 DEADLINE cause, 6 late request), the job or
item, the value taken, and the a-cycles the job has run. -/
def decision (s : State) (p choice who value cyc : Nat) : State := recordW s p 0x0A [w32 choice, w32 who, w32 value, w32 cyc]
/-- A write of job `j` to a listed range, when the job was dispatched before the recording took effect: a PRIOR_WRITE record for each
64-byte line, as the write leaves it (R595). `unit` is the first 4 KiB unit of the partition's region, or the context, that byte `a`
lies in, counted from `base`. -/
def priorWrite (s : State) (j : Nat) (ctx : Bool) (base a n : Nat) : State :=
  match s.trace.run, job? s j with
  | some r, some x =>
    let size := if ctx then 65536 else 4096
    let listed (l : Nat) : Bool := r.ranges.any (fun q => q.1 == ctx && decide (base ≤ l * 64) &&
      decide (q.2.1 ≤ (l * 64 - base) / size ∧ (l * 64 - base) / size < q.2.1 + q.2.2))
    match r.since with
    | some t0 =>
      if x.part = r.part ∧ x.start < t0 then
        ((linesOf a n).filter listed).foldl (fun s l =>
          record s x.part 0x0C (wordsLe [w32 (l * 64), w32 (l * 64 / 2 ^ 32)] ++ extRead s (l * 64) 64)) s
      else s
    | none => s
  | _, _ => s
/-- Is partition `p` a replay partition, whose choices only DECISION records make (R602)? -/
def replaying (s : State) (p : Nat) : Bool :=
  match s.trace.replay with | some r => decide (r.part = p) && !r.ended | none => false
/-- The value that a DECISION record has forced for a choice on a job of a replay partition. -/
def forced (s : State) (choice job : Nat) : Option Nat :=
  (s.trace.replay.bind (fun r => r.forced.find? (fun q => decide (q.1 = choice ∧ q.2.1 = job)))).map (fun q => q.2.2)
/-- It has been met. -/
def forcedMet (s : State) (choice job : Nat) : State :=
  match s.trace.replay with
  | some r => setRec s { s.trace with replay := some { r with forced := delFirst (fun q => decide (q.1 = choice ∧ q.2.1 = job)) r.forced } }
  | none => s
/-- End the recording: END is its last record (R600). -/
def recEnd (s : State) (reason : Nat) : State :=
  match s.trace.run with
  | none => s
  | some r =>
    if r.closing then s
    else if r.since.isNone then setRec s { s.trace with run := none }
    else
      let s := if reason = 1 then setRec s { s.trace with staged := [] } else s
      let s := recordW s r.part 0x0E [w32 reason]
      setRec s { s.trace with run := some { r with closing := true } }
/-- Bytes that the ring can still take; room for END is kept in MODE 0. -/
def recRoom (s : State) (r : Recording) : Nat :=
  if r.wrap then r.size else (if r.closing then r.size else r.size - 32) - s.trace.written
/-- Put one staged record into the ring, when partition 0's bucket holds its 64-byte units. MODE 1 writes the ring over from its
start. -/
def recOut (s : State) (r : Recording) (b : List Byte) : Option State :=
  if recRoom s r < b.length then none
  else match charge s 0 (ceilDiv b.length 64) with
    | none => none
    | some s =>
      let x := s.trace
      let o := x.written % r.size
      let m := mwrite 0 (mwrite 0 s.mem.ext (r.base + o) (b.take (r.size - o))) r.base (b.drop (r.size - o))
      let s := { s with mem := { s.mem with ext := m } }
      some (setRec s { x with staged := x.staged.tail, written := x.written + b.length
                              wrapped := x.wrapped || decide (r.size < x.written + b.length) })
/-- Move staged records to the ring while tokens last. -/
def recDrain (s : State) (r : Recording) : Nat → State
  | 0 => s
  | n + 1 =>
    match s.trace.staged with
    | [] => s
    | b :: _ => match recOut s r b with
      | some s => recDrain s r n
      | none => s
/-- A GAP record once space frees. -/
def recGap (s : State) (r : Recording) : State :=
  if s.trace.lost = 0 ∨ 0x100000 < recWaiting s.trace + 32 then s
  else
    let n := s.trace.lost
    recordW (setRec s { s.trace with lost := 0 }) r.part 0x0D [w32 n]
/-- The recorder at a scan tick. -/
def recTick (s : State) : State :=
  match s.trace.run with
  | none => s
  | some r =>
    let s := recDrain s r s.trace.staged.length
    let s := if r.closing then s else recGap s r
    match s.trace.staged with
    | b :: _ => if !r.closing ∧ recRoom s r < b.length then recEnd s 1 else s
    | [] => if r.closing then setRec s { s.trace with run := none } else s

end Sys2Proof.Machine
end

