-- ==== Sys2Proof/Machine/Records.lean ====
section
/-! DEFINITION. Completion records, rings, staging and the status line (17 R529-R536), and receive buffers (R539). -/

namespace Sys2Proof.Machine

open Sys2Proof

/-- Write host memory (17 R540; host memory is outside the device, log 5). -/
def hostWrite (s : State) (a : Nat) (bs : List Byte) : State :=
  { s with mem := { s.mem with host := mwrite 0 s.mem.host a bs } }
/-- Read host memory. -/
def hostRead (s : State) (a n : Nat) : List Byte := mread 0 s.mem.host a n
/-- What a host read of partition `p` returns: in a replay, what HOSTREAD records gave (20 R602). -/
def hostReadFor (s : State) (p a n : Nat) : List Byte :=
  if replaying s p then mread 0 (match s.trace.replay with | some r => r.reads | none => []) a n else hostRead s a n
/-- A 64-bit host address from two words. -/
def addr64 (lo hi : Word) : Nat := lo.toNat + hi.toNat * 2 ^ 32

/-! ### Rings -/

/-- A ring of a partition. -/
def ring (s : State) (p r : Nat) : Ring := tgetD {} s.host.rings (p * 4 + r)
/-- Replace a ring. -/
def setRing (s : State) (p r : Nat) (x : Ring) : State :=
  { s with host := { s.host with rings := tsetD {} s.host.rings (p * 4 + r) x } }
/-- EN, number of records and CQ_COAL of a ring (R541). -/
def ringCfg (s : State) (p r : Nat) : Bool × Nat × Nat :=
  let w := rg s HIF_CQ_CFG p r
  (bit w 31, 2 ^ fld w 28 24, fld w 23 16)
/-- Records staged for a partition. -/
def staged (s : State) (p : Nat) : List (Nat × List Word) := tgetD [] s.host.staged p
/-- Replace them. -/
def setStaged (s : State) (p : Nat) (x : List (Nat × List Word)) : State :=
  { s with host := { s.host with staged := tsetD [] s.host.staged p x } }
/-- May the device write host memory for the function of partition `p`? Not while its bus mastering is off (24 R687). -/
def mayWriteHost (s : State) (p : Nat) : Bool := s.host.linkUp && tgetD false s.host.busMaster (fnOf s p)
/-- Has ring r of partition p room (R535)? A ring that is not enabled holds its records like a full one. -/
def ringRoom (s : State) (p r : Nat) : Bool :=
  let (en, n, _) := ringCfg s p r
  en && mayWriteHost s p && decide (((ring s p r).tail + 1) % n ≠ (rg s HIF_CQ_HEAD p r).toNat % n)

/-! ### The status line (R536) -/

/-- Jobs of the partition admitted and not yet started. -/
def qdepth (s : State) (p : Nat) : Nat :=
  (s.disp.jobs.filter (fun e => match e.2 with | some j => decide (j.part = p ∧ j.phase = .queued) | none => false)).length
/-- Divider of ROOT of a logical cluster's clock (R10, PWC CLK_STAT). -/
def divOf (s : State) (l : Nat) : Nat := let d := fld (rg s PWC_CLK_STAT 0 l) 3 0; if d = 0 then 4 else d
/-- `n` a-cycles at divider `d` of ROOT (3,932.16 MHz) in ns, rounded up: one ROOT period is 3125/12288 ns. -/
def acycNs (n d : Nat) : Nat := ceilDiv (n * d * 3125) 12288
/-- The clock divider of a job's unit: the largest among its members (R24). -/
def jobDiv (s : State) (j : Job) : Nat := j.units.foldl (fun m l => Nat.max m (divOf s l)) 4
/-- Remaining budgets of the partition's jobs in whole µs (R536). -/
def qbudget (s : State) (p : Nat) : Nat :=
  (s.disp.jobs.map (fun e => match e.2 with
    | some j => if j.part = p then acycNs (j.budget - j.ran) (jobDiv s j) else 0
    | none => 0)).sum / 1000
/-- The first seven words of the status line. -/
def statusLine (s : State) (p : Nat) : List Word :=
  [w32 (tgetD 0 s.host.expect p)] ++ (List.range 4).map (fun r => w32 (ring s p r).tail) ++
    [w32 (qdepth s p), w32 (qbudget s p)]
/-- Write the status line when a value changed and its address is set. -/
def writeStatus (s : State) (p : Nat) : State :=
  let l := statusLine s p
  let a := addr64 (rg s HIF_STAT_ADDR_LO p 0) (rg s HIF_STAT_ADDR_HI p 0)
  if l = tgetD [] s.host.status p then s
  else if a = 0 ∨ !mayWriteHost s p then s
  else
    let s := hostWrite s a (wordsLe (l ++ [timeNsW s] ++ List.replicate 8 0))
    { s with host := { s.host with status := tsetD [] s.host.status p l } }

/-! ### Records -/

/-- Send the ring's message and start its count again (R534). -/
def sendRing (s : State) (p r : Nat) : State :=
  emit (setRing s p r { ring s p r with since := 0, first := none }) (.msix (fnOf s p) r)
/-- Put a record into a ring that has room: the record, the status line, then the message (R532, R534). -/
def ringPut (s : State) (p r : Nat) (ws : List Word) : State :=
  let x := ring s p r
  let (_, n, coal) := ringCfg s p r
  let a := addr64 (rg s HIF_CQ_BASE_LO p r) (rg s HIF_CQ_BASE_HI p r) + x.tail * 32
  let s := hostWrite s a (wordsLe (lset ws 0 (setFld (wd ws 0) 0 0 (b2n x.phase))))
  let t := (x.tail + 1) % n
  let s := setRing s p r
    { tail := t, phase := if t = 0 then !x.phase else x.phase, since := x.since + 1,
      first := some (x.first.getD s.tmu.ticks) }
  let s := writeStatus s p
  if x.since + 1 ≥ coal then sendRing s p r else s
/-- Deliver a record: to its ring, or behind the records already staged (R535). -/
def postRec (s : State) (p r : Nat) (ws : List Word) : State :=
  if (staged s p).any (fun e => decide (e.1 = r)) || !ringRoom s p r then setStaged s p (staged s p ++ [(r, ws)])
  else ringPut s p r ws
/-- Move staged records to their rings, in order, while they have room. -/
def drainStaged (s : State) (p : Nat) : Nat → State
  | 0 => s
  | n + 1 =>
    match (staged s p).find? (fun e => ringRoom s p e.1) with
    | none => s
    | some e =>
      let s := setStaged s p (delFirst (fun x => decide (x.1 = e.1)) (staged s p))
      drainStaged (ringPut s p e.1 e.2) p n
/-- Drain all that can be. -/
def pumpStaged (s : State) (p : Nat) : State := drainStaged s p (staged s p).length

/-- The words of a record (R532); PHASE is set when it enters its ring. -/
def mkRec (s : State) (type status : Nat) (flags : Nat) (lo hi : Word) (item : Nat) (d1 d2 : Word) (seq : Nat) :
    List Word :=
  [w32 (type * 2 ^ 24 + status * 2 ^ 16 + flags), lo, hi, w32 item, d1, d2, timeNsW s, w32 (seq * 2 ^ 16)]

/-! ### Descriptors (R522, R526) -/

/-- The descriptor at the head of a partition's picked-up descriptors. -/
def headDesc (s : State) (p : Nat) : Option (List Word) := (tgetD [] s.host.picked p).head?
/-- Type of a descriptor. -/
def dtype (d : List Word) : Nat := fld (wd d 0) 31 24
/-- Its ring. -/
def dring (d : List Word) : Nat := fld (wd d 0) 23 22
/-- Its SEQ. -/
def dseq (d : List Word) : Nat := fld (wd d 31) 31 16
/-- The command record of a descriptor (R532, type 0x03). -/
def cmdRec (s : State) (p : Nat) (d : List Word) (status : Nat) (d1 d2 : Word) : State :=
  postRec s p (dring d) (mkRec s 3 status 0 (wd d 1) (wd d 2) 0 d1 d2 (dseq d))
/-- A bad descriptor: MALFORMED 0x20 or NO_PERM 0x22 with the event of R542, or VERSION 0x21. -/
def badDesc (s : State) (p : Nat) (d : List Word) (status : Nat) : State :=
  let s := if status = 0x21 then s else raise s 7 p 0
  cmdRec s p d status 0 0
/-- Is a descriptor type one of R526 (critical commands: 22 R643)? -/
def knownType (t : Nat) : Bool :=
  decide (t ∈ [1, 2, 3, 0x10, 0x11, 0x12, 0x18, 0x20, 0x21, 0x22, 0x23, 0x30, 0x31, 0x38]) || decide (0x50 ≤ t ∧ t ≤ 0x5B)
/-- Version that a partition has agreed (R521); none while VALID is 0. -/
def protoVer (s : State) (p : Nat) : Option Nat :=
  let w := rg s HIF_PROTO_AGREED p 0
  if bit w 31 then some (fld w 7 0) else none
/-- Why a descriptor is turned away for its type alone (R520, R525, R526). -/
def typeBad (s : State) (p : Nat) (d : List Word) : Option Nat :=
  let t := dtype d
  if !knownType t then some 0x20
  else if protoVer s p = some 1 ∧ t ∉ [1, 0x10, 0x11, 0x12, 0x18] ∧ t < 0x50 then some 0x21
  else if (t = 0x38 ∨ t ≥ 0x50) ∧ p ≠ 0 then some 0x22
  else if t ∈ [2, 3, 0x20, 0x21, 0x22, 0x23, 0x30] ∧ !isRS s p then some 0x22
  else none
/-- Complete the descriptors at the head that no row takes, for their type. -/
def screen (p : Nat) : Nat → State → State
  | 0, s => s
  | n + 1, s =>
    match tgetD [] s.host.picked p with
    | [] => s
    | d :: t =>
      match typeBad s p d with
      | none => s
      | some st => screen p n { badDesc s p d st with host := { (badDesc s p d st).host with picked := tsetD [] s.host.picked p t } }
/-- Screen a partition's picked-up descriptors. -/
def screenAll (s : State) (p : Nat) : State := screen p (tgetD [] s.host.picked p).length s
/-- Take the head away; those behind it that no row takes complete (R525). -/
def dropDesc (s : State) (p : Nat) : State :=
  screenAll { s with host := { s.host with picked := tsetD [] s.host.picked p (tgetD [] s.host.picked p).tail } } p
/-- Words i..j of a descriptor are zero. -/
def zeroWords (d : List Word) (i j : Nat) : Bool := (List.range (j + 1 - i)).all (fun k => decide (wd d (i + k) = 0))
/-- Words from `i` on are zero; version 1 ignores bytes 0x40-0x7B (R520). -/
def tailZero (s : State) (p : Nat) (d : List Word) (i : Nat) : Bool := zeroWords d i (if protoVer s p = some 1 then 15 else 30)
/-- DTYPE and SEQ_WORD keep their reserved bits zero (R522, R525). -/
def dtypeOk (d : List Word) : Bool := decide (fld (wd d 0) 21 0 = 0 ∧ fld (wd d 31) 15 0 = 0)

/-! ### Receive buffers (R539) -/

/-- Split bytes into pieces of `n`. -/
def chunks (n : Nat) : Nat → List Byte → List (List Byte)
  | 0, _ => []
  | f + 1, bs => if bs = [] ∨ n = 0 then [] else bs.take n :: chunks n f (bs.drop n)
/-- Write one message into the buffers posted: consecutive buffers, a type 0x04 record each, CHDR[1] on the last; after an
exception frame a type 0x05 record with its port and stamp. -/
def fillBufs (s : State) (p : Nat) (exc : Option (Nat × Word)) : List (List Byte) → State
  | [] => s
  | c :: cs =>
    match tgetD [] s.host.rxbufs p with
    | [] => s
    | (a, lo, hi, r) :: t =>
      let s := { s with host := { s.host with rxbufs := tsetD [] s.host.rxbufs p t } }
      let s := hostWrite s a c
      let s := postRec s p r (mkRec s 4 0 (if cs = [] then 2 else 0) lo hi 0 (w32 a) (w32 (a / 2 ^ 32)) 0)
      let s := match cs, exc with
        | [], some (port, st) => postRec s p r (mkRec s 5 0 0 lo hi 0 (w32 port) st 0)
        | _, _ => s
      fillBufs s p exc cs
/-- Size of one receive buffer of a partition. -/
def rxSize (s : State) (p : Nat) : Nat := fld (rg s HIF_RXBUF_SIZE p 0) 10 0 * 1024
/-- Deliver a message of bytes: into buffers when enough are posted, otherwise it waits (R539). -/
def deliverTo (s : State) (p : Nat) (bs : List Byte) (exc : Option (Nat × Word)) : State :=
  let cs := chunks (rxSize s p) (bs.length + 1) bs
  if tgetD [] s.host.rxWait p = [] ∧ rxSize s p ≠ 0 ∧ mayWriteHost s p = true ∧ cs.length ≤ (tgetD [] s.host.rxbufs p).length
  then fillBufs s p exc cs
  else { s with host := { s.host with rxWait := tsetD [] s.host.rxWait p (tgetD [] s.host.rxWait p ++ [(bs, exc)]) } }
/-- Deliver an indication or a response. -/
def deliverMsg (s : State) (p : Nat) (bs : List Byte) : State := deliverTo s p bs none
/-- Deliver the messages that wait while buffers suffice. -/
def pumpMsgs (s : State) (p : Nat) : Nat → State
  | 0 => s
  | n + 1 =>
    match tgetD [] s.host.rxWait p with
    | [] => s
    | (m, e) :: ms =>
      let cs := chunks (rxSize s p) (m.length + 1) m
      if rxSize s p ≠ 0 ∧ mayWriteHost s p = true ∧ cs.length ≤ (tgetD [] s.host.rxbufs p).length then
        pumpMsgs (fillBufs { s with host := { s.host with rxWait := tsetD [] s.host.rxWait p ms } } p e cs) p n
      else s

end Sys2Proof.Machine
end

