-- ==== Sys2Proof/Machine/Jobs.lean ====
section
/-! DEFINITION. The end and the abort of a job (09 R300, 08 R249, 17 R529), return of handles (07 R228, R736), release
of generations (06 R183), and the job boundary of a cluster (01 R33). -/

namespace Sys2Proof.Machine

open Sys2Proof

/-! ### Handles and pods (R222, R227, R736) -/

/-- Handle fields of R222. -/
def hFld (h : BitVec 128) (hi lo : Nat) : Nat := (h.toNat / 2 ^ lo) % 2 ^ (hi + 1 - lo)
/-- HOLE. -/
def hHole (h : BitVec 128) : Bool := h.getLsbD 31
/-- The handle with flag bit `b` set. -/
def hSet (h : BitVec 128) (b : Nat) : BitVec 128 := h ||| BitVec.ofNat 128 (2 ^ b)
/-- Configuration of a pod: enabled, capacity, owner, RETURN_POD (R237). -/
def podCfg (s : State) (n : Nat) : Bool × Nat × Nat × Nat :=
  let w := rg s PODQ_POD_CFG 0 n
  (bit w 31, fld w 30 24, fld w 20 16, fld w 8 0)
/-- A pod. -/
def podOf (s : State) (n : Nat) : Pod := tgetD {} s.pod.pods n
/-- Replace a pod. -/
def setPod (s : State) (n : Nat) (x : Pod) : State :=
  { s with pod := { s.pod with pods := tsetD {} s.pod.pods n x } }
/-- Append a handle. -/
def podPut (s : State) (n : Nat) (h : BitVec 128) : State :=
  let x := podOf s n
  setPod s n { q := x.q ++ [h], high := Nat.max x.high (x.q.length + 1), pushes := x.pushes + 1 }
/-- Can a pod take a handle of partition `p`? -/
def podTakes (s : State) (n p : Nat) : Bool :=
  let (en, cap, ow, _) := podCfg s n
  en && decide (ow = p) && decide ((podOf s n).q.length < cap)
/-- Change a counter of the books of a partition (R227): register and amount, modulo 2^32. -/
def book (s : State) (r p : Nat) (d : Int) : State := setRg s r 0 p (rg s r 0 p + w32 (wrapN 32 d))
/-- A handle in the return overflow waits for its RETURN pod. -/
def overflow (s : State) (p : Nat) : List (BitVec 128 × Nat) := tgetD [] s.pod.overflow p
/-- Replace a partition's return overflow. -/
def setOverflow (s : State) (p : Nat) (x : List (BitVec 128 × Nat)) : State :=
  { s with pod := { s.pod with overflow := tsetD [] s.pod.overflow p x } }
/-- Deliver a handle of partition `p` that came from pod `src` to that pod's RETURN pod (R736). `held` says that
PART_HELD counted it; a hole is outside the books. -/
def deliver (s : State) (p : Nat) (h : BitVec 128) (src : Nat) (held : Bool) : State :=
  let ret := (podCfg s src).2.2.2
  let moved := if hHole h ∨ !held then s else book (book s PODQ_PART_HELD p (-1)) PODQ_PART_INPODS p 1
  if podTakes s ret p then podPut moved ret h
  else if (overflow s p).length < 64 then setOverflow moved p (overflow s p ++ [(h, ret)])
  else
    let s := if hHole h then s
      else book (book s PODQ_PART_TOTAL p (-1)) (if held then PODQ_PART_HELD else PODQ_PART_INPODS) p (-1)
    raise (logErr s 0x1A 0x10 0 p 0 (w32 (hFld h 23 0)) (w32 src) (w32 (hFld h 47 32)) 0) 5 0 2
/-- Return every handle a job holds, with FAILED set (R228). -/
def returnHeld (s : State) (p : Nat) : List Held → State
  | [] => s
  | x :: t => returnHeld (deliver s p (hSet x.h 30) x.pod true) p t

/-! ### Generations (R183) -/

/-- Release the retired generations that no job references. -/
def releaseGens (s : State) : State :=
  { s with img := { s.img with gens := s.img.gens.filter (fun g => g.current || genUsed s g) } }
/-- The generation a job is bound to. -/
def genOf (s : State) (x : Job) : Option Gen :=
  s.img.gens.find? (fun g => decide (g.part = x.part ∧ g.slot = x.slot ∧ g.gen = x.gen))

/-! ### What a job leaves behind -/

/-- Physical clusters of a job's unit. -/
def physUnits (s : State) (x : Job) : List Nat := if x.phys = [] then x.units.filterMap (physOf s) else x.phys
/-- Physical clusters that the job would take now. -/
def mapUnits (s : State) (x : Job) : List Nat := x.units.filterMap (physOf s)
/-- Copy descriptors of job `j` on engine `e`: one that has started a run completes; one that has not is dropped without its
signal and counted as skipped (R249). A handle between the halves of a MOVE goes back (R228). -/
def dropDescs (s : State) (j e : Nat) : State :=
  let x := tgetD {} s.eng e
  let stays (d : CopyDesc) : Bool := decide (d.ins.job ≠ j) || decide (0 < d.runs) || (isPod d.ins.words && d.acted)
  let gone := x.q.filter (fun d => !stays d)
  let s := { s with eng := tsetD {} s.eng e { x with q := x.q.filter stays } }
  let s := gone.foldl (fun s d => match d.podHandle with
    | some (h, src) => deliver s d.part (hSet h 30) src true
    | none => s) s
  if e < 18 then wrapRg s FTE_DESC_SKIPPED e 0 gone.length else wrapRg s CPE_DESC_SKIPPED (e - 18) 0 gone.length
/-- Empty the streams of a cluster; `stop` discards the tiles in flight as well (R277). -/
def clearStreams (s : State) (stop : Bool) (c : Nat) : State :=
  let x := clu s c
  setClu s c { x with mxq := [], vxq := [], ftq := [], tiles := if stop then [] else x.tiles, vxDone := x.vxIssued }
/-- The core of a cluster halts (CLV_STAT.HALTED, R166) and its cache unlocks (R186, R150). -/
def haltCore (s : State) (c : Nat) : State :=
  let x := clu s c
  setClu s c { x with
    job := none
    bad := []
    ic := x.ic.map (fun l => { l with preload := false, rep := false })
    clv := { x.clv with ended := true, stall := 0, delay := none, loads := [], reps := [], shadow := none, irq := 0,
                        yieldReq := false, atYield := none, waitDone := none } }
/-- A record changed: CAP_GEN of the unit advances (R24, R27). -/
def bumpCap (s : State) (h : Word) : State :=
  { s with units := { s.units with capGen := tsetD 0 s.units.capGen h.toNat (tgetD 0 s.units.capGen h.toNat + 1) } }
/-- Millivolts that divider `d` needs: within the range of R679. -/
def avsNeed (d : Nat) : Nat := 650 + Config.coreStep d % 201
/-- Divider commanded for a logical cluster, or else the one in force. -/
def divAsked (s : State) (l : Nat) : Nat := (tgetD none s.pwr.divNext l).getD (divOf s l)
/-- The PWC asks the regulator for the voltage of the fastest step in use or commanded, when it is not in force (26 R723). -/
def askVolts (s : State) : State :=
  let fast := ((List.range 16).filter (fun l => (physOf s l).isSome)).foldl (fun m l => Nat.min m (Nat.min (divOf s l) (divAsked s l))) 8
  let mv := avsNeed fast
  if mv = s.pwr.avsMv then { s with pwr := { s.pwr with avsAsk := none } }
  else if s.pwr.avsAsk = some mv then s
  else emit { s with pwr := { s.pwr with avsAsk := some mv } } (.pin 5 mv true)
/-- A commanded divider comes into force at a job boundary or taken yield of cluster `c` (24 R678); a faster one waits for its
voltage (26 R723). -/
def stepBoundary (s : State) (c : Nat) : State :=
  match logOf s c with
  | none => s
  | some l =>
    match tgetD none s.pwr.divNext l with
    | none => s
    | some d =>
      if d < divOf s l ∧ s.pwr.avsMv < avsNeed d then s
      else
        let s := setRg s PWC_CLK_STAT 0 l (w32 d)
        let s := { s with pwr := { s.pwr with divNext := tsetD none s.pwr.divNext l none } }
        let s := bumpCap (bumpCap (bumpCap s (handle s 1 l)) (handle s 2 (l / 2))) (handle s 3 0)
        askVolts (if bit (rg s ILK_DOM_STAT 0 0) 31 then bumpCap s (handle s 4 0) else s)
/-- A job boundary of cluster `c`: a commanded divider, and a healthy partner's move (R33). -/
def jobBoundary (s : State) (c : Nat) : State :=
  let s := stepBoundary s c
  match s.units.moving.find? (fun m => decide (physOf s m.1 = some c)) with
  | none => s
  | some m =>
    { s with units := { s.units with
        map := tset (fun k => if k < 16 then some k else none) s.units.map m.1 (some m.2)
        moving := s.units.moving.filter (fun x => decide (x.1 ≠ m.1))
        spares := s.units.spares ++ [c]
        capGen := tsetD 0 s.units.capGen (3 * 2 ^ 29) (tgetD 0 s.units.capGen (3 * 2 ^ 29) + 1) } }
/-- Waits and registrations of a job and of the cores that run it are removed (R249). -/
def dropWaits (s : State) (j : Nat) (cs : List Nat) : State :=
  { s with sync := { s.sync with waits := s.sync.waits.filter (fun w =>
      match w.who with
      | .core c => !decide (c ∈ cs)
      | .reg k => decide (k ≠ j)
      | .yieldReg k _ => decide (k ≠ j)
      | _ => true) } }
/-- Spill and restore requests of an aborted job: not started, cancelled; started, its data is discarded (R300). -/
def dropSpill (s : State) (j : Nat) : State :=
  let kept := s.disp.spill.filter (fun r => decide (r.job ≠ j) || r.started)
  let kept := kept.map (fun r => if r.job = j then { r with dropped := true } else r)
  { s with disp := { s.disp with spill := kept } }

/-! ### Records of a job (R529, R532, R533) -/

/-- Item records in ascending index (log 7), then the job-end record. A receiver item that calls for a fallback carries
FALLBACK and its cause (11 R357). -/
def itemRecs (s : State) (x : Job) (aborted : Bool) : List Nat → State
  | [] => s
  | i :: t =>
    let m := tgetD 0 x.marks i
    let k := if !isRS s x.part then 0 else if (tgetD (0, 0) x.causes i).1 ≠ 0 then (tgetD (0, 0) x.causes i).1
      else if m = 2 then 5 else 0
    let flags := b2n (decide (m = 1)) * 2 ^ 15 + b2n x.late * 2 ^ 14 + b2n (aborted && decide (m = 2)) * 2 ^ 13 +
      (if k = 0 then 0 else 2 ^ 12 + k * 2 ^ 8)
    itemRecs (postRec s x.part x.ring (mkRec s 1 (if m = 2 then 1 else 0) flags x.cookieLo x.cookieHi i 0 0 x.seq))
      x aborted t
/-- The job-end record. -/
def endRec (s : State) (x : Job) (status : Nat) (detail : Word) : State :=
  postRec s x.part x.ring (mkRec s 2 status 0 x.cookieLo x.cookieHi 0 detail 0 x.seq)
/-- Remove a job that has become final: its memory of regions, pins, handles and references ends, its items are recorded
and its clusters reach a job boundary. `mark` sets the ABORTED mark (R299). -/
def closeJob (s : State) (j : Nat) (x : Job) (status : Nat) (mark : Bool) : State :=
  let cs := (physUnits s x ++ mapUnits s x).eraseDups
  let run := cs.filter (fun c => decide ((clu s c).job = some j))
  let s := returnHeld s x.part x.held
  let s := dropWaits s j run
  let s := dropSpill s j
  let s := run.foldl haltCore s
  let s := setJob s j none
  let left := tgetD 0 s.disp.spillUsed x.part - x.areaUsed
  let s := { s with disp := { s.disp with spillUsed := tsetD 0 s.disp.spillUsed x.part left } }
  let s := if x.late then satRg s SYS_LATE_CNT 0 x.part 1 else s
  let s := match x.inst with
    | some n => { s with radio := { s.radio with rx := s.radio.rx ++ [⟨j, x.part, n, x.marks, x.causes, s.tmu.ticks⟩] } }
    | none => s
  let s := itemRecs s x mark x.open
  let s := endRec s x status (match x.inst with | some n => w32 n | none => 0)
  let s := releaseGens s
  run.foldl jobBoundary s
/-- The abort of a job (R249, R277, R298-R300, R656): queued work is discarded, open items are failed, the job ends with
status 0x01. -/
def abortJob (s : State) (j : Nat) (stop mark : Bool) : State :=
  match job? s j with
  | none => s
  | some x =>
    let cs := (physUnits s x ++ mapUnits s x).eraseDups
    let run := cs.filter (fun c => decide ((clu s c).job = some j))
    let s := run.foldl (fun s c => dropDescs (clearStreams s stop c) j c) s
    let x := x.markAll 2 x.open
    closeJob (setJob s j (some x)) j x 1 mark
/-- The record of type 0x17 (R731): the handle of the job's unit, its deadline, and its window. -/
def schedRec (s : State) (reason : Nat) (x : Job) : State :=
  let unit := match x.units with
    | [] => handle s 3 0
    | l :: _ => if x.level = 2 then handle s 2 (l / 2) else handle s x.level (if x.level = 1 then l else 0)
  let (w, l) := match x.win with | some (l, w) => (w, l) | none => (0, 0)
  logErr s 0x17 reason 0 x.part unit (w32 (x.deadline % 1000000000)) (w32 (x.deadline / 1000000000))
    (w32 (x.deadline / 1000000000 / 2 ^ 32)) (w32 (if reason ≤ 2 then w * 16 + l else 0))
/-- A job's end by END once nothing of it is outstanding (log 8): status 0x00. -/
def finishJob (s : State) (j : Nat) : State :=
  match job? s j with
  | none => s
  | some x => closeJob s j x 0 false

end Sys2Proof.Machine
end

