-- ==== Sys2Proof/Machine/Units.lean ====
section
/-! DEFINITION. Capability records (01 R24, R27), synchronisation slices (08 R241) and image tables (06 R170-R199). -/

namespace Sys2Proof.Machine

open Sys2Proof

/-! ### Slices (R241, R22) -/

/-- Slices of the clusters of a unit, in order: base and count. -/
def slices (s : State) (p : Nat) (units : List Nat) : List (Nat × Nat) :=
  match part? s p with
  | some x => units.map (fun l => x.slices.getD l (0, 0))
  | none => []
/-- Object on this chip that index `i` of a joined slice names. -/
def sliceObj : List (Nat × Nat) → Nat → Option Nat
  | [], _ => none
  | (b, n) :: t, i => if i < n then some (b + i) else sliceObj t (i - n)
/-- Object that a job names by `i`. -/
def jobObj (s : State) (x : Job) (i : Nat) : Option Nat := sliceObj (slices s x.part x.units) i
/-- Owner of an object's block, when enabled (R240). -/
def objOwner (s : State) (o : Nat) : Option Nat :=
  let w := rg s SYU_BLK_OWNER 0 (o / 64)
  if bit w 31 then some (fld w 4 0) else none

/-! ### Cherry pairs and counts (R32, R33) -/

/-- Logical indices in service. -/
def inService (s : State) : List Nat := (List.range 16).filter (fun l => (physOf s l).isSome)
/-- A logical pair is Cherry-capable while its clusters sit on one physical pair (R32), and none of its indices is handed over
(21 R617). -/
def cherryCapable (s : State) (q : Nat) : Bool :=
  !s.safe.rot.any (fun e => match e.2.handed with | some h => decide (h.1 / 2 = q) | none => false) &&
  match physOf s (2 * q), physOf s (2 * q + 1) with
  | some a, some b => decide (a % 2 = 0 ∧ b = a + 1)
  | _, _ => false
/-- Capable pairs of the chip. -/
def capablePairs (s : State) : Nat := ((List.range 8).filter (cherryCapable s)).length

/-! ### The capability record -/

/-- Clusters of a unit named by level and index (levels 1 to 4). -/
def unitClusters (s : State) (level idx : Nat) : List Nat :=
  match level with
  | 1 => [idx]
  | 2 => [2 * idx, 2 * idx + 1]
  | _ => inService s
/-- Does a unit exist (R20, R23)? -/
def unitExists (s : State) (level idx : Nat) : Bool :=
  match level with
  | 0 => decide (idx % 256 < pageInsts (idx / 256)) && decide (idx / 256 ≥ 19)
  | 1 => decide (idx < 16) && (physOf s idx).isSome
  | 2 => decide (idx < 8) && pairJoined s idx
  | 3 => decide (idx = 0)
  | 4 => decide (idx = 0) && bit (rg s ILK_DOM_STAT 0 0) 31
  | _ => false
/-- Private working memory of an engine in KiB: an LDPC decoder's (R25, R36). -/
def engineKib (code : Nat) : Nat := if code = 24 then 1024 else 0
/-- The record of R24 for the unit, as partition `p` sees its slice. -/
def capRecord (s : State) (p level idx : Nat) : List Word :=
  let us := unitClusters s level idx
  let sl := if level = 0 then [] else slices s p us
  let pairs := if level = 0 ∨ level = 1 then 0 else if level = 2 then b2n (cherryCapable s idx) else capablePairs s
  let shape := if level = 0 then 0 else if pairs > 0 then 128 * 65536 + 256 else 128 * 65536 + 128
  let div := if level = 0 then 4 else us.foldl (fun m l => Nat.max m (divOf s l)) 4
  let depth := match level with | 0 => 16 | 1 => 32 | 2 => 32 | _ => 256
  let h := handle s level idx
  [h, w32 shape, w32 (pairs * 65536 + (if level = 0 then 0 else us.length)), w32 (if level = 0 then 0 else 0x1FF),
   w32 (if level = 0 then engineKib (idx / 256) else us.length * 8192), w32 ((sl.headD (0, 0)).1),
   w32 ((sl.map (fun x => x.2)).sum), w32 depth, w32 div, w32 0x01030100, w32 (tgetD 0 s.units.capGen h.toNat),
   0, 0, 0, 0, 0]
/-- Level and index of the unit that cluster `c` leads. -/
def ledUnit (s : State) (c : Nat) : Nat × Nat :=
  match logOf s c with
  | some l => if pairJoined s (l / 2) then (2, l / 2) else (1, l)
  | none => (1, 0xFFFF)

/-- No instance `i` of a kind of engine is in service: it does not exist, or it has left (23 R659). -/
def engAway (s : State) (c i : Nat) : Bool := !decide (i < pageInsts c) || decide ((c, i) ∈ s.units.engOut)

/-! ### Image tables: everything is read from the bound generation (R173, R182) -/

/-- A word at an offset of a generation. -/
def gword (s : State) (g : Gen) (off : Nat) : Word := extWord s (g.base + off)
/-- First section of a type. -/
def sect? (g : Gen) (type : Nat) : Option Sect := g.sects.find? (fun x => decide (x.type = type))
/-- Does [off, off + n) lie within one CODE section (R163)? -/
def inCode (g : Gen) (off n : Nat) : Bool :=
  g.sects.any (fun x => decide (x.type = 1 ∧ x.off ≤ off ∧ off + n ≤ x.off + x.size))
/-- Word `i` of entry record `e` (R174). -/
def entryWord (s : State) (g : Gen) (e i : Nat) : Word :=
  match sect? g 4 with | some x => gword s g (x.off + 64 * e + 4 * i) | none => 0
/-- Entries of the entry table. -/
def entryCount (g : Gen) : Nat := match sect? g 4 with | some x => x.size / 64 | none => 0
/-- Offset of a handler of an entry by source: FAULT, SLOT, WAKE, RETQ as 0 to 3; none where the table says so. -/
def handler? (s : State) (g : Gen) (e src : Nat) : Option Nat :=
  let w := entryWord s g e (4 + src)
  if w = 0xFFFFFFFF then none else some w.toNat
/-- Walk the yield table to entry `i`: its offset in the image (R188). -/
def yieldAt (s : State) (g : Gen) : Nat → Nat → Nat
  | 0, off => off
  | i + 1, off => yieldAt s g i (off + 16 + 8 * fld (gword s g (off + 4)) 15 0)
/-- Offset in the image of yield-table entry `i`. -/
def yieldEntry? (s : State) (g : Gen) (i : Nat) : Option Nat :=
  match sect? g 5 with
  | some x => if i < (gword s g x.off).toNat then some (yieldAt s g i (x.off + 16)) else none
  | none => none
/-- The region records of a yield entry: space, start in bytes, length (R189). -/
def yieldRegs (s : State) (g : Gen) (off : Nat) : List (Nat × Nat × Nat) :=
  (List.range (fld (gword s g (off + 4)) 15 0)).map (fun k =>
    let lo := gword s g (off + 16 + 8 * k)
    let hi := gword s g (off + 20 + 8 * k)
    (fld hi 31 24, fld hi 23 0 * 64, lo.toNat))
/-- SAVE_BYTES of a yield entry. -/
def yieldBytes (s : State) (g : Gen) (off : Nat) : Nat := (gword s g (off + 8)).toNat
/-- WAIT of a yield entry. -/
def yieldWait (s : State) (g : Gen) (off : Nat) : Bool := bit (gword s g (off + 12)) 0
/-- YIELD_GAP of an image (R169). -/
def yieldGap (s : State) (g : Gen) : Nat := (gword s g 0x1C).toNat


/-! ### Grids (R196-R198) -/

/-- Share `i` of `n` of `total` things dealt in order: first and count (R197). -/
def deal (total n i : Nat) : Nat × Nat :=
  let b := total / n
  let m := total % n
  (i * b + Nat.min i m, b + (if i < m then 1 else 0))
/-- The grid record of an entry: GRID_M, GRID_N, GRID_K, TILE_M, TILE_N, M_SRC and N_SRC (R196). -/
def gridRec (s : State) (g : Gen) (e : Nat) : Option (Nat × Nat × Nat × Nat × Nat × Word × Word) :=
  let k := fld (entryWord s g e 9) 15 0
  match sect? g 8 with
  | none => none
  | some x =>
    if k = 0xFFFF then none
    else
      let a := x.off + 16 * k
      let w := gword s g a
      let t := gword s g (a + 4)
      some (fld w 31 24, fld w 23 16, fld w 15 8, fld t 31 16, fld t 15 0, gword s g (a + 8), gword s g (a + 12))
/-- An extent that a grid record names: an argument word 1-4, or the figure itself. -/
def gridExtent (args : List Word) (w : Word) : Nat :=
  if fld w 31 28 = 0 then fld w 27 0 else (wd args (fld w 31 28 - 1)).toNat
/-- Position (gm, gn, gk) of logical unit `u` of a grid; none past the grid (R197). -/
def gridPos (gm gn gk u : Nat) : Option (Nat × Nat × Nat) :=
  if u < gm * gn * gk then some (u / gn % gm, u % gn, u / (gm * gn)) else none
/-- Halo neighbour `dir` (0 gm - 1, 1 gm + 1, 2 gn - 1, 3 gn + 1) of logical unit `u`, within the grid (R198, R211). -/
def gridNeighbour (gm gn gk u dir : Nat) : Option Nat :=
  match gridPos gm gn gk u with
  | none => none
  | some (m, n, k) =>
    let at_ (m n : Nat) : Nat := (k * gm + m) * gn + n
    match dir with
    | 0 => if m = 0 then none else some (at_ (m - 1) n)
    | 1 => if m + 1 < gm then some (at_ (m + 1) n) else none
    | 2 => if n = 0 then none else some (at_ m (n - 1))
    | _ => if n + 1 < gn then some (at_ m (n + 1)) else none
/-- The eight words of the grid record of logical unit `u`, `kx` being the K extent (R197, R198); zero where the entry has
no grid. A unit past the grid has an empty share. -/
def gridWords (s : State) (g : Gen) (e : Nat) (args : List Word) (kx u : Nat) : List Word :=
  match gridRec s g e with
  | none => List.replicate 8 0
  | some (gm, gn, gk, tm, tn, ms, ns) =>
    match gridPos gm gn gk u with
    | none => List.replicate 8 0
    | some (m, n, k) =>
      let (r0, rn) := deal (ceilDiv (gridExtent args ms) tm) gm m
      let (c0, cn) := deal (ceilDiv (gridExtent args ns) tn) gn n
      let (k0, kn) := deal (ceilDiv kx 32) gk k
      let k1 := Nat.min kx ((k0 + kn) * 32)
      [w32 (k * 65536 + n * 256 + m), w32 r0, w32 rn, w32 c0, w32 cn, w32 (k0 * 32), w32 (k1 - k0 * 32), 0]
/-- The first logical unit number of this chip's share of a domain job (R25); 0 below level 4. -/
def unitBase (s : State) (level : Nat) : Nat := if level = 4 then 16 * chipIdx s else 0

end Sys2Proof.Machine
end

