-- ==== Sys2Proof/Machine/Operands.lean ====
section
/-! DEFINITION. Every operand form of the Clove core: registers by bank (05 R135, R153), accumulators, address pointers
(R137) and the X and Y data ports (R133, R163). -/

namespace Sys2Proof.Machine

open Sys2Proof

/-! ### Registers -/

/-- Sn. -/
def Clv.sreg (k : Clv) (n : Nat) : Word := tgetD 0 k.s n
/-- Physical number of Wn (R153). -/
def Clv.wphys (k : Clv) (n : Nat) : Nat := (n + k.rotBase.toNat) % 32
/-- Wn. -/
def Clv.wreg (k : Clv) (n : Nat) : Word := tgetD 0 k.w (k.wphys n)
/-- A register operand: its bank bit chooses W (R142). -/
def Clv.reg (k : Clv) (wbank : Bool) (n : BitVec 5) : Word := if wbank then k.wreg n.toNat else k.sreg n.toNat
/-- Where a register operand lies. -/
def Clv.dest (k : Clv) (wbank : Bool) (n : BitVec 5) : LoadDest := if wbank then .w (k.wphys n.toNat) else .s n.toNat
/-- Write a register at its place. -/
def Clv.put (k : Clv) (d : LoadDest) (v : Word) : Clv :=
  match d with
  | .s n => { k with s := tsetD 0 k.s n v }
  | .w n => { k with w := tsetD 0 k.w n v }
/-- Write a register operand. -/
def Clv.setReg (k : Clv) (wbank : Bool) (n : BitVec 5) (v : Word) : Clv := k.put (k.dest wbank n) v
/-- Write Sn. -/
def Clv.setS (k : Clv) (n : Nat) (v : Word) : Clv := k.put (.s n) v
/-- Commit loads whose slot has passed (R145). -/
def Clv.commit (k : Clv) : List (LoadDest × Word) → Clv
  | [] => k
  | (d, v) :: t => Clv.commit (k.put d v) t
/-- ACC0 or ACC1. -/
def Clv.acc (k : Clv) (ad : Bool) : BitVec 40 := if ad then k.acc1 else k.acc0
/-- Write an accumulator. -/
def Clv.setAcc (k : Clv) (ad : Bool) (v : BitVec 40) : Clv := if ad then { k with acc1 := v } else { k with acc0 := v }
/-- Set sticky flags (R139). -/
def Clv.flags (k : Clv) (f : Word) : Clv := { k with cst := k.cst ||| f }

/-! ### Pointers (R137) -/

/-- A pointer: bank (Y when set) and index. -/
def Clv.ptr (k : Clv) (y : Bool) (i : Nat) : Ptr := tgetD {} (if y then k.py else k.px) i
/-- Replace a pointer. -/
def Clv.setPtr (k : Clv) (y : Bool) (i : Nat) (p : Ptr) : Clv :=
  if y then { k with py := tsetD {} k.py i p } else { k with px := tsetD {} k.px i p }
/-- May a pointer be used for an access of `width` bytes? A circular one must have a modifier no larger in magnitude than
its length, and a length that is a multiple of the width. -/
def Ptr.usable (p : Ptr) (width : Nat) : Bool :=
  decide (p.len = 0) || (decide (p.mod.toInt.natAbs ≤ p.len.toNat) && decide (p.len.toNat % width = 0))
/-- The address moved by `d`: a circular pointer is brought back once. -/
def Ptr.moved (p : Ptr) (d : Int) : BitVec 17 :=
  let a : Int := p.adr.toNat + d
  if p.len = 0 then BitVec.ofInt 17 a
  else if a < p.base.toNat then BitVec.ofInt 17 (a + p.len.toNat)
  else if a ≥ (p.base.toNat : Int) + p.len.toNat then BitVec.ofInt 17 (a - p.len.toNat)
  else BitVec.ofInt 17 a
/-- Post-modify. -/
def Ptr.step (p : Ptr) (d : Int) : Ptr := { p with adr := p.moved d }

/-! ### X and Y data ports (R133, R163) -/

/-- First byte of the read-only capability window in X (R24). -/
def capWindow : Nat := 0x1FFC0
/-- Byte `a` of X as the core of cluster `c` reads it: the window shows the record of the unit it leads. -/
def xByte (s : State) (c a : Nat) : Byte :=
  if a ≥ capWindow then
    let (lv, ix) := ledUnit s c
    (wordsLe (capRecord s (ownerOf s 18 c) lv ix)).getD (a - capWindow) 0
  else (clu s c).xm.get a
/-- `width` bytes of X or Y as a number. -/
def xyRead (s : State) (c : Nat) (y : Bool) (a width : Nat) : Nat :=
  leNat ((List.range width).map (fun i => if y then (clu s c).ym.get (a + i) else xByte s c (a + i)))
/-- A loaded value: a halfword is sign-extended (R142). -/
def xyLoad (s : State) (c : Nat) (y : Bool) (a : Nat) (w32bit : Bool) : Word :=
  if w32bit then w32 (xyRead s c y a 4) else w32 (wrapN 32 (sgn 16 (xyRead s c y a 2)))
/-- Store bytes into X or Y. -/
def xyWrite (s : State) (c : Nat) (y : Bool) (a : Nat) (bs : List Byte) : State :=
  let x := clu s c
  setClu s c (if y then { x with ym := x.ym.write a bs } else { x with xm := x.xm.write a bs })
/-- Why an access of `width` bytes at `a` is refused: misaligned 0x04, a store into the window 0x02 (R163). -/
def xyBad (y store : Bool) (a width : Nat) : Option Nat :=
  if a % width ≠ 0 then some 4
  else if store ∧ !y ∧ a + width > capWindow then some 2
  else none

end Sys2Proof.Machine
end

