-- ==== Sys2Proof/Machine/CloveCore.lean ====
section
/-! DEFINITION. How one Clove instruction is carried out (05 R133-R167): the fetch check, the load-use slot, delay slots,
repeat blocks, a-cycle counts, skips and stalls. Each instruction's meaning is a body given to `cloveRun`. -/

namespace Sys2Proof.Machine

open Sys2Proof

/-! ### The end of a job on a member (04 R122) -/

/-- Clusters that lead the members of a job: the lower one of a joined pair, otherwise each (R161). -/
def members (s : State) (x : Job) : List Nat := (physUnits s x).filter (fun c => decide (leadOf s c = c))
/-- The cluster and, in a joined pair, its upper half. -/
def halves (s : State) (c : Nat) : List Nat := if cherry s c then [leadOf s c, leadOf s c + 1] else [c]
/-- Work of a member that is still to be done: streams, tiles that can still drain, copies of the job (log 8). -/
def outstanding (s : State) (c j : Nat) : Bool :=
  (halves s c).any (fun h =>
    let x := clu s h
    decide (x.mxq ≠ [] ∨ x.vxq ≠ []) || (decide (x.tiles ≠ []) && !decide (x.ftq.length = 8)) ||
      (tgetD {} s.eng h).q.any (fun d => decide (d.ins.job = j)))
/-- Entries left in the finished-tile queue at the end of a job are discarded (R122). -/
def discardFtq (s : State) (j : Nat) (c : Nat) : State :=
  let x := clu s c
  if x.ftq = [] then s
  else
    let s := satRg s VXE_FTQ_DISCARD c 0 x.ftq.length
    let s := raise (setClu s c { x with ftq := [], tiles := [] }) 17 c 1
    modJob s j (fun y => y.markAll 2 y.open)
/-- The code of job `j` has ended on member `c`; the job ends with its last member (R122, R529). -/
def memberEnd (s : State) (c j : Nat) : State :=
  let s := (halves s c).foldl (fun s h => discardFtq s j h) s
  let s := setClv s c { (clu s c).clv with ended := true, stall := 0 }
  match job? s j with
  | none => s
  | some x => if (members s x).all (fun m => (clu s m).clv.ended) then finishJob s j else s

/-- What the body of an instruction does, in the state in which the loads of the instruction before have landed. -/
inductive CRes where
  /-- It completes: the state, its own loads, and for a branch its target, none where it is not taken. -/
  | done (s : State) (loads : List (LoadDest × Word)) (branch : Option (Option Nat))
  /-- It is inconsistent with this REASON; `items` are those it names, or every open item of the job. -/
  | skip (reason source tag : Nat) (items : Option (List Nat))
  /-- It stalls with this code of CLV_STAT.STALL. -/
  | stall (code : Nat)
  /-- It has handed itself to the sync unit, which completes it. -/
  | wait (s : State)
  /-- It is inconsistent with this REASON and passes over `pass` bytes (REP, R164). -/
  | skipOver (pass reason : Nat)
  /-- It completes in this state, the program counter included. -/
  | final (s : State)

/-! ### The instruction cache (06 R185) -/

/-- Is the line that holds byte `off` of the job's generation in the cache of cluster `c`? -/
def cached (s : State) (c : Nat) (x : Job) (off : Nat) : Bool :=
  (clu s c).ic.any (fun l => decide (l.part = x.part ∧ l.slot = x.slot ∧ l.gen = x.gen ∧ l.line = off / 256))

/-! ### Moving on -/

/-- The end of repeat blocks at offset `pc`, innermost first: start again, or leave the block (R148, R153). The flag says
that the outermost block was left. -/
def repEnd (k : Clv) : List RepLvl → Nat → Clv × Nat × Bool
  | [], pc => ({ k with reps := [] }, pc, true)
  | l :: t, pc =>
    if pc = l.stop then
      let k := if l.rot then { k with rotBase := k.rotBase - 1 } else k
      if l.left > 1 then ({ k with reps := { l with left := l.left - 1 } :: t }, l.start, false)
      else repEnd k t pc
    else ({ k with reps := l :: t }, pc, false)
/-- Leave an outermost block: its lines unlock and its count ends (R150, R152). -/
def leaveBlock (x : Cluster) : Cluster :=
  { x with ic := x.ic.map (fun l => { l with rep := false }), clv := { x.clv with reps := [], repCycles := 0 } }

/-- The program counter and the repeat nest after an instruction of `len` bytes (R145, R148). -/
def advancePc (x : Cluster) (len : Nat) (branch : Option (Option Nat)) : Cluster :=
  let k := x.clv
  match branch, k.delay with
  | some t, _ => { x with clv := { k with delay := some (2, t), pc := k.pc + len } }
  | none, some (n, t) =>
    if n ≤ 1 then { x with clv := { k with delay := none, pc := t.getD (k.pc + len) } }
    else { x with clv := { k with delay := some (n - 1, t), pc := k.pc + len } }
  | none, none =>
    if k.reps = [] then { x with clv := { k with pc := k.pc + len } }
    else
      let (k2, pc, out) := repEnd k k.reps (k.pc + len)
      let x := { x with clv := { k2 with pc := pc } }
      if out then leaveBlock x else x

/-- a-cycles for which a pending enabled interrupt has been held off, `n` more having passed (R165). -/
def heldOff (k : Clv) (n : Nat) : Nat :=
  if decide (k.irq &&& BitVec.ofNat 4 (fld k.cst 7 4) ≠ 0) && k.shadow.isNone then k.holdoff + n else 0
/-- The counts of a core after `n` a-cycles (R152, R165, R192). -/
def Clv.spent (k : Clv) (n : Nat) : Clv :=
  { k with sinceYield := k.sinceYield + n, holdoff := heldOff k n, repCycles := if k.reps = [] then 0 else k.repCycles + n }
/-- a-cycles pass on a core: its counts, HOLD_PEAK, and the job's run time. -/
def spend (s : State) (c n : Nat) : State :=
  let h := heldOff (clu s c).clv n
  let s' := setClv s c ((clu s c).clv.spent n)
  let s' := if h > (rg s CLV_HOLD_PEAK c 0).toNat then setRg s' CLV_HOLD_PEAK c 0 (w32 h) else s'
  match (clu s c).job with
  | some j => modJob s' j (fun y => { y with ran := y.ran + n })
  | none => s'

/-- The generation an executing core fetches from: the core leads its unit, runs a job, and is not stopped. -/
def running (s : State) (c : Nat) : Option (Nat × Job × Gen) :=
  let x := clu s c
  match x.job with
  | none => none
  | some j =>
    match job? s j with
    | none => none
    | some y =>
      if decide (c < 18) && decide (leadOf s c = c) && !x.clv.ended && x.clv.atYield.isNone then
        (genOf s y).map (fun g => (j, y, g))
      else none

/-- Finish an instruction: count its a-cycles, move on, leave its loads in the load-use slot. -/
def retire (s : State) (c len cycles : Nat) (loads : List (LoadDest × Word)) (branch : Option (Option Nat)) :
    State :=
  let s := spend s c cycles
  let x := advancePc (clu s c) len branch
  setClu s c { x with clv := { x.clv with loads := loads, stall := 0 } }

/-- A skipped Clove instruction (R164, R200-R203): counted, logged, items marked; `len` bytes are passed over. -/
def skipClove (s : State) (c j len reason source tag : Nat) (items : Option (List Nat)) : State :=
  let open_ := match job? s j with | some x => x.open | none => []
  let off := (clu s c).clv.pc
  let s := raise (satRg s CLV_SKIP_COUNT c 0 1) 18 c 0
  let s := skipRec s j reason source (clHandle s c) off tag (items.getD open_) none
  retire s c len 1 [] none

/-- An instruction that stalls for an a-cycle (R165, R166). -/
def stallClove (s : State) (c code : Nat) : State :=
  let s := if code = 0 then spend s c 1 else wrapRg (spend s c 1) CLV_STALL_COUNT c 0 1
  setClv s c { (clu s c).clv with stall := code }

/-- The loads of the instruction before land after this one's operands were read (R145, R146). -/
def landLoads (s : State) (c : Nat) : State :=
  let k := (clu s c).clv
  setClv s c { Clv.commit k k.loads with loads := [] }

/-- The line that holds byte `off` becomes the most recently used (R185). -/
def touchLine (s : State) (c : Nat) (y : Job) (off : Nat) : State :=
  let x := clu s c
  let hit (l : ICLine) : Bool := decide (l.part = y.part ∧ l.slot = y.slot ∧ l.gen = y.gen ∧ l.line = off / 256)
  setClu s c { x with ic := x.ic.filter hit ++ x.ic.filter (fun l => !hit l) }
/-- Does the core wait in the sync unit for the SYNC at its program counter? -/
def syncWaiting (s : State) (c : Nat) : Bool :=
  s.sync.waits.any (fun w => decide (w.who = .core c ∧ w.off = (clu s c).clv.pc))

/-- **One Clove instruction** of `len` bytes on cluster `c`; `k` is the core as the instruction reads its registers. A core
that runs nothing, waits in a SYNC, or whose repeat block must be abandoned first (R152), does not execute it: nothing
changes (log 9). -/
def cloveRun (s : State) (c len cycles : Nat) (body : Job → Gen → Clv → State → CRes) : State :=
  match running s c with
  | none => s
  | some (j, y, g) =>
    let k := (clu s c).clv
    if (k.reps ≠ [] ∧ k.repCycles ≥ Config.repMax) ∨ syncWaiting s c = true then s
    else if !inCode g k.pc len then
      memberEnd (skipClove (landLoads s c) c j 4 2 0 0 none) c j
    else if !cached s c y k.pc || !cached s c y (k.pc + len - 4) then stallClove s c 5
    else
      let s := touchLine s c y k.pc
      match body y g k (landLoads s c) with
      | .done s loads branch => retire s c len cycles loads branch
      | .skip reason source tag items => skipClove (landLoads s c) c j len reason source tag items
      | .stall code => stallClove s c code
      | .wait s => setClv s c { (clu s c).clv with stall := 6 }
      | .skipOver pass reason => skipClove (landLoads s c) c j pass reason 0 0 none
      | .final s => s

/-- The state after a body that only changes the core. -/
def coreDone (s : State) (c : Nat) (f : Clv → Clv) : CRes := .done (setClv s c (f (clu s c).clv)) [] none

end Sys2Proof.Machine
end

