-- ==== Sys2Proof/Machine/SyncOps.lean ====
section
/-! DEFINITION. The sync unit (08): operations on objects, the waiter table, release and expiry of waits, the wait graph. -/

namespace Sys2Proof.Machine

open Sys2Proof

/-! ### Values -/

/-- The value of an object. -/
def objVal (s : State) (o : Nat) : Word := tgetD 0 s.sync.objs o
/-- Change a value and note who did it (R263). -/
def objPut (s : State) (o : Nat) (v unit : Word) : State :=
  { s with sync := { s.sync with objs := tsetD 0 s.sync.objs o v, lastw := tsetD 0 s.sync.lastw o unit } }
/-- ADD, saturating; a saturation is reported (R243). -/
def objAddTo (s : State) (o : Nat) (v unit : Word) : State :=
  let n := (objVal s o).toNat + v.toNat
  if n > 0xFFFFFFFF then
    raise (setRg (objPut s o 0xFFFFFFFF unit) SYU_SAT_IDX 0 0 (w32 (2 ^ 31 + o))) 4 0 3
  else objPut s o (w32 n) unit
/-- The rule of R254 was applied to object `o`. -/
def setWins (s : State) (o : Nat) : State :=
  raise (setRg s SYU_COLLIDE_IDX 0 0 (w32 (2 ^ 31 + o))) 4 0 0

/-! ### Waiters (R251-R258) -/

/-- Does a waiting condition hold for value `v` (R242)? -/
def waitHolds (op : Nat) (operand v : Word) : Bool :=
  match op with
  | 5 => decide (v ≠ 0)
  | 6 => decide (v = 0)
  | _ => decide (operand.toNat ≤ v.toNat)
/-- Entries that count against the shared ones: the host's, the peers', and registrations of held jobs (R258). -/
def WaitEnt.shared (w : WaitEnt) : Bool :=
  match w.who with
  | .host .. | .peer .. | .yieldReg .. => true
  | _ => false
/-- Is a shared entry free? -/
def sharedFree (s : State) : Bool := decide ((s.sync.waits.filter WaitEnt.shared).length < Config.sharedWaiters)
/-- Add an entry. -/
def addWait (s : State) (w : WaitEnt) : State :=
  let l := s.sync.waits ++ [{ w with id := s.sync.nextId, arrived := s.tmu.ticks }]
  { s with sync := { s.sync with waits := l, nextId := s.sync.nextId + 1, high := Nat.max s.sync.high l.length } }
/-- Remove an entry. -/
def delWait (s : State) (id : Nat) : State :=
  { s with sync := { s.sync with waits := delFirst (fun w => decide (w.id = id)) s.sync.waits } }
/-- Capture the wait graph (R263). -/
def captureWg (s : State) (source : Bool) : State :=
  let ent (w : WaitEnt) : WgEnt :=
    { waiter := w.handle
      obj := w32 (w.op * 2 ^ 28 + b2n w.cont * 2 ^ 27 + w.part * 2 ^ 22 + w.obj)
      operand := w.operand, value := objVal s w.obj
      left := w32 (w.limit - sinceNs s w.arrived), lastw := tgetD 0 s.sync.lastw w.obj }
  { s with sync := { s.sync with wg := s.sync.waits.map ent, source := source } }

/-- a-cycles of cluster `c` since tick `t0`, at its present step (R10). -/
def cyclesSince (s : State) (c t0 : Nat) : Nat :=
  match logOf s c with
  | some l => (s.tmu.ticks - t0) * 8 / divOf s l
  | none => 0
/-- Finish the SYNC of wait `w`, which cluster `c` waits in: its outcome to SD, or latched while a handler runs (R246,
R255). The a-cycles it stalled count (R165). -/
def finishSync (s : State) (c : Nat) (w : WaitEnt) (outcome : Nat) : State :=
  let k := (clu s c).clv
  if k.pc ≠ w.off then setClv s c { k with waitDone := some outcome }
  else
    let n := cyclesSince s c w.arrived
    let s := wrapRg s CLV_STALL_COUNT c 0 n
    let s := setClv s c { k.setS w.sd (w32 outcome) with waitYield := none, waitDone := none }
    retire s c 4 n [] none
/-- The abort of R249: event, record of type 0x12 at the SYNC's offset, then the job's abort. -/
def waitAbort (s : State) (j : Nat) (w : WaitEnt) : State :=
  match job? s j with
  | none => s
  | some x =>
    let s := raise s 4 0 2
    let n := x.fresh x.open
    let s := logErr s 0x12 0x1A 5 x.part w.handle (w32 x.slot) (w32 x.gen) (w32 w.off) (w32 (n * 2 ^ 16))
    abortJob s j false false
/-- The unit whose core is cluster `c` runs this job. -/
def jobOn (s : State) (c : Nat) : Nat := ((clu s c).job).getD 0
/-- Cores on which job `j` runs. -/
def coresOf (s : State) (j : Nat) : List Nat := (List.range 18).filter (fun c => decide ((clu s c).job = some j))

/-- An entry completes with `outcome`: 0 SATISFIED, 1 EXPIRED, 2 REFUSED. The entry is already removed. -/
def completeWait (s : State) (w : WaitEnt) (outcome : Nat) : State :=
  match w.who with
  | .core c =>
    if outcome = 0 ∨ w.cont then
      finishSync (if outcome = 1 then raise s 4 0 1 else s) c w outcome
    else waitAbort s (jobOn s c) w
  | .reg j =>
    let s := if outcome = 1 then raise s 4 0 1 else s
    let s := modJob s j (fun x => { x with regDone := some outcome })
    (coresOf s j).foldl (fun s c => if leadOf s c = c then raiseIrq s c 1 else s) s
  | .yieldReg j c =>
    if outcome = 0 ∨ w.cont then
      modJob (if outcome = 1 then raise s 4 0 1 else s) j (fun x =>
        { x with heldOn := false
                 saved := x.saved.map (fun e => if e.1 = c then (e.1, { e.2 with waitDone := some outcome }) else e) })
    else waitAbort s j w
  | .host p lo hi seq r =>
    postRec s p r (mkRec s 3 (match outcome with | 0 => 0 | 1 => 2 | _ => 3) 0 lo hi 0 (objVal s w.obj) 0 seq.toNat)
  | .engine _ => s
  | .peer port _ => emit s (.flit port 1 [w.obj, outcome])

/-- Rank of a waiter among those released in one cycle: units by handle, then the host, then ports (R253). -/
def WaitEnt.rank (w : WaitEnt) : Nat :=
  match w.who with
  | .host .. => 2 ^ 32
  | .peer port _ => 2 ^ 33 + port
  | _ => w.handle.toNat
/-- The entry of lowest rank; the older one of two equals. -/
def lowest : List WaitEnt → Option WaitEnt
  | [] => none
  | w :: t => match lowest t with
    | none => some w
    | some v => if v.rank < w.rank then some v else some w
/-- Serve ACQUIREs on object `o` in arrival order (R252). -/
def serveAcquires (s : State) (o : Nat) : Nat → State
  | 0 => s
  | n + 1 =>
    match s.sync.waits.find? (fun w => decide (w.obj = o ∧ w.op = 8)) with
    | none => s
    | some w =>
      if w.operand.toNat ≤ (objVal s o).toNat then
        let s := objPut (delWait s w.id) o (objVal s o - w.operand) w.handle
        serveAcquires (completeWait s w 0) o n
      else s
/-- Release the other waiters whose condition holds (R251). -/
def serveOthers (s : State) (o : Nat) : Nat → State
  | 0 => s
  | n + 1 =>
    match lowest (s.sync.waits.filter (fun w => decide (w.obj = o ∧ w.op ≠ 8) && waitHolds w.op w.operand (objVal s o))) with
    | none => s
    | some w => serveOthers (completeWait (delWait s w.id) w 0) o n
/-- The end of the cycle for object `o` (R251-R253). -/
def evalObj (s : State) (o : Nat) : State :=
  let n := s.sync.waits.length
  serveOthers (serveAcquires s o n) o n

/-- Every object that somebody waits on is looked at again: a wait that left the table without its object changing may let the next
ACQUIRE in order through (R251, R252). -/
def settle (s : State) : State := ((s.sync.waits.map (fun w => w.obj)).eraseDups).foldl evalObj s

/-- A SIGNAL or SATCTR update by hardware on behalf of partition `p` (R244, R240): SET or ADD, then its waiters. -/
def hwUpdate (s : State) (p o : Nat) (unit : Word) (set : Bool) (v : Word) : State :=
  if objOwner s o = some p then
    evalObj (if set then objPut s o 1 unit else objAddTo s o v unit) o
  else deny s 4 p unit o true

/-! ### Operations by requester (R242-R247, R259, R260) -/

/-- An operation that does not wait (OP 0x0-0x4, 0x9): the value it returns and the state. `same` is what reaches the object
in the same cycle (R254). -/
def objOp (s : State) (op o : Nat) (v unit : Word) (same : SameCycle) : Word × State :=
  match op with
  | 1 | 2 | 3 =>
    let w := if op = 1 then v else if op = 2 then 1 else 0
    let s := objPut s o w unit
    let s := match op, same with
      | 2, _ | _, .nothing => s
      | _, .set => setWins (objPut s o 1 unit) o
      | _, .add a => setWins (objAddTo s o a unit) o
    let s := evalObj s o
    (0, if op = 1 then saffWrite s o v else s)
  | 4 => (0, evalObj (objAddTo s o v unit) o)
  | 9 => if v.toNat ≤ (objVal s o).toNat then (1, evalObj (objPut s o (objVal s o - v) unit) o) else (0, s)
  | _ => (objVal s o, s)
/-- Does an operation wait or register (R242)? -/
def opWaits (op : Nat) : Bool := decide (5 ≤ op ∧ op ≤ 8) || decide (op = 0xA)
/-- A wait arrives: satisfied at once where nothing older stands before it, otherwise it takes an entry. -/
def arriveWait (s : State) (w : WaitEnt) : State :=
  evalObj (addWait s w) w.obj

/-- SYNC on a Clove core (R245-R249). -/
def syncCore (s : State) (op c : Nat) (sa sb sd sl : BitVec 5) (cont : Bool) (same : SameCycle) : State :=
  cloveRun s c 4 1 (fun y _ k s =>
    let idx := (k.sreg sa.toNat).toNat
    let v := k.sreg sb.toNat
    let lim := (k.sreg sl.toNat).toNat
    let h := clHandle s c
    let j := jobOn s c
    match (if k.shadow.isNone then k.waitDone else none) with
    | some o => coreDone s c (fun q => { q.setS sd.toNat (w32 o) with waitDone := none, waitYield := none })
    | none =>
      match if idx < 2 ^ 17 then jobObj s y idx else none with
      | none => .skip 7 5 0 none
      | some o =>
        if op = 0xB then
          match y.regDone with
          | some r => coreDone (modJob s j (fun x => { x with regDone := none })) c (fun q => q.setS sd.toNat (w32 r))
          | none =>
            let pending := s.sync.waits.any (fun w => decide (w.who = .reg j))
            coreDone s c (fun q => q.setS sd.toNat (if pending then 4 else 3))
        else
        if opWaits op && decide (lim = 0) then .skip 0x18 5 0 none
        else if op = 0xA ∧ (y.regDone.isSome ∨ s.sync.waits.any (fun w => decide (w.who = .reg j))) then .skip 0x19 5 0 none
        else
          let w : WaitEnt := { id := 0, who := if op = 0xA then .reg j else .core c, op := op, obj := o, operand := v,
                               arrived := 0, limit := lim, cont := cont, part := y.part, handle := h,
                               off := k.pc, sd := sd.toNat }
          if objOwner s o ≠ some y.part then
            let s := deny s 4 y.part h o (decide (op ≠ 0 ∧ ¬ opWaits op))
            if op = 0xA then
              .done (modJob (raise s 4 0 4) j (fun x => { x with regDone := some 2 })) [] none
            else if opWaits op then
              let s := raise s 4 0 4
              if cont then coreDone s c (fun q => { q.setS sd.toNat 2 with waitYield := none })
              else .final (waitAbort s j w)
            else if op = 0 ∨ op = 9 then
              coreDone (markItems s j 2 y.open none) c (fun q => q.setS sd.toNat 0)
            else .done s [] none
          else if op = 0xA then .done (evalObj (addWait s w) o) [] none
          else if opWaits op then
            if (op ≠ 8 ∨ !s.sync.waits.any (fun x => decide (x.obj = o ∧ x.op = 8))) ∧ waitHolds op v (objVal s o) then
              let s := if op = 8 then evalObj (objPut s o (objVal s o - v) h) o else s
              coreDone s c (fun q => { q.setS sd.toNat 0 with waitYield := none })
            else .wait (addWait s w)
          else
            let (r, s) := objOp s op o v h same
            if op = 0 ∨ op = 9 then coreDone s c (fun q => q.setS sd.toNat r) else .done s [] none)

/-- OBJ of the host: the head of the partition's picked-up descriptors (17 R526, R260). -/
def syncHost (s : State) (op p : Nat) (same : SameCycle) : State :=
  match headDesc s p with
  | none => s
  | some d =>
    if dtype d ≠ 0x18 ∨ fld (wd d 3) 31 28 ≠ op then s
    else
      let s := dropDesc s p
      let o := fld (wd d 3) 13 0
      if !dtypeOk d ∨ fld (wd d 3) 27 14 ≠ 0 ∨ !tailZero s p d 6 ∨ op ≥ 0xA ∨ (opWaits op ∧ wd d 5 = 0) then
        badDesc s p d 0x20
      else if objOwner s o ≠ some p then
        let s := deny s 4 p (hostHandle s) o (decide (op ≠ 0 ∧ ¬ opWaits op))
        cmdRec (if opWaits op then raise s 4 0 4 else s) p d 3 0 0
      else if opWaits op then
        if sharedFree s then
          arriveWait s { id := 0, who := .host p (wd d 1) (wd d 2) (w32 (dseq d)) (dring d), op := op, obj := o,
                         operand := wd d 4, arrived := 0, limit := (wd d 5).toNat, cont := true, part := p,
                         handle := hostHandle s, off := 0 }
        else cmdRec (raise s 4 0 4) p d 3 0 0
      else
        let (r, s) := objOp s op o (wd d 4) (hostHandle s) same
        cmdRec s p d 0 r 0

/-- A fixed-function engine's operation (R244, R258). -/
def syncEngine (s : State) (op : Nat) (unit : Word) (p o : Nat) (v : Word) (same : SameCycle) : State :=
  if objOwner s o ≠ some p then
    let s := deny s 4 p unit o (decide (op ≠ 0 ∧ ¬ opWaits op))
    if opWaits op then raise s 4 0 4 else s
  else if opWaits op then
    arriveWait s { id := 0, who := .engine unit, op := op, obj := o, operand := v, arrived := 0, limit := 2 ^ 32 - 1,
                   cont := true, part := p, handle := unit, off := 0 }
  else (objOp s op o v unit same).2

/-- A peer chip's operation through port `port` (R259): its partition is translated by the port's map (19 R571). -/
def syncPeer (s : State) (op port rp o : Nat) (v lim : Word) (same : SameCycle) : State :=
  let m := rg s ILK_PART_MAP port rp
  let unit := engHandle s 11 port
  if !bit m 31 then raise (deny s 6 0 unit rp (decide (op ≠ 0))) 11 port 2
  else
    let p := fld m 4 0
    let s := recordW s p 9 [w32 port, w32 (1 + op), w32 o, v]
    if objOwner s o ≠ some p then
      let s := deny s 4 p unit o (decide (op ≠ 0 ∧ ¬ opWaits op))
      if opWaits op then emit (raise s 4 0 4) (.flit port 1 [o, 2]) else s
    else if opWaits op then
      if sharedFree s then
        arriveWait s { id := 0, who := .peer port rp, op := op, obj := o, operand := v, arrived := 0, limit := lim.toNat,
                       cont := true, part := p, handle := unit, off := 0 }
      else emit (raise s 4 0 4) (.flit port 1 [o, 2])
    else
      let (r, s) := objOp s op o v unit same
      if op = 0 ∨ op = 9 then emit s (.flit port 1 [o, r.toNat]) else s

/-- One operation code for every requester. -/
def syncDo (s : State) (op : Nat) (q : SyncReq) (same : SameCycle) : State :=
  match q with
  | .core c sa sb sd sl cont => syncCore s op c sa sb sd sl cont same
  | .host p => syncHost s op p same
  | .engine unit p o v => syncEngine s op unit p o v same
  | .peer port rp o v lim => syncPeer s op port rp o v lim same

/-- An entry expires (R248, R249, R256, R257): the wait graph is captured when a wait with CONT = 0 expires while HOLD is 0
(R263). -/
def expireEntry (s : State) (w : WaitEnt) : State :=
  let aborts := !w.cont && (match w.who with | .core _ | .yieldReg .. => true | _ => false)
  let s := if aborts && !s.sync.hold then
      let s := captureWg s true
      { s with sync := { s.sync with hold := true } }
    else s
  completeWait (delWait s w.id) w 1
/-- Its limit has passed; a replay partition's limits do not count (20 R602). -/
def expireWait (s : State) (id : Nat) : State :=
  match s.sync.waits.find? (fun w => decide (w.id = id)) with
  | none => s
  | some w =>
    if !passed s w.arrived w.limit || replaying s w.part then s
    else expireEntry (decision s w.part 2 w.obj id 0) w

end Sys2Proof.Machine
end

