-- ==== Sys2Proof/Machine/Yield.lean ====
section
/-! DEFINITION. Which job a unit should run, yield requests, and taking a yield (09 R269-R290, 06 R188-R190, 08 R257, 04
R122). -/

namespace Sys2Proof.Machine

open Sys2Proof

/-! ### Footprints and save sets -/

/-- Footprint of a job in the scratchpad of logical cluster `l` of its unit: start and length (R280). -/
def footprint (s : State) (x : Job) (l : Nat) : Nat × Nat :=
  if isRS s x.part then
    (if floorMode s l = 2 then (floorBase s l, Config.spadBytes - floorBase s l) else (0, Config.spadBytes))
  else (0, Nat.min Config.spadBytes (x.scrKib * 1024 - x.units.idxOf l * Config.spadBytes))
/-- A region of the unit's namespace, cut at the clusters' ends. -/
def cutRegion (n space st len : Nat) : List SaveReg :=
  (List.range n).filterMap (fun k =>
    let lo := Nat.max st (k * Config.spadBytes)
    let hi := Nat.min (st + len) ((k + 1) * Config.spadBytes)
    if lo < hi then some ⟨k, space, lo - k * Config.spadBytes, hi - lo, false⟩ else none)
/-- Regions of yield-table entry `i` as member `m` of the unit lists them. -/
def saveRegs (s : State) (x : Job) (g : Gen) (m i : Nat) : List SaveReg :=
  match yieldEntry? s g i with
  | none => []
  | some off => (yieldRegs s g off).flatMap (fun r =>
      if r.1 = 0 ∨ r.1 = 3 then cutRegion x.units.length r.1 r.2.1 r.2.2 else [⟨m, r.1, r.2.1, r.2.2, true⟩])

/-! ### Choosing -/

/-- Earlier deadline, then earlier admission, then lower partition (R269). -/
def jobBefore (a b : Job) : Bool :=
  decide (a.deadline < b.deadline ∨ a.deadline = b.deadline ∧
    (a.order < b.order ∨ a.order = b.order ∧ a.part < b.part))
/-- The window open on a logical cluster. -/
def openWin (s : State) (l : Nat) : Option Nat := tgetD none s.disp.winOpen l
/-- May a job run on its unit now, as the floor stands (R273, R275, R276)? -/
def floorAllows (s : State) (x : Job) : Bool :=
  if isRS s x.part then
    match x.win with
    | some (l, w) => decide (openWin s l = some w)
    | none => false
  else x.units.all (fun l => match floorMode s l with
    | 0 => true
    | 2 => (openWin s l).isNone && !tgetD false s.disp.guard l
    | _ => false)
/-- Data that the job keeps lies on a cluster whose work is handed over: it stays there until the index returns (21 R617). -/
def keptAway (s : State) (x : Job) : Bool :=
  ((x.regions.filter (fun r => !r.spilled)) ++ x.pinned).any (fun r => match placeOf s x r.member with
    | some c => (tgetD {} s.safe.rot c).handed.isSome
    | none => false)
/-- Ready: admitted, not held, and the floor allows it (R269). -/
def isReady (s : State) (x : Job) : Bool :=
  (decide (x.phase = .queued) || decide (x.phase = .spilled) && !x.heldOn && !keptAway s x) && floorAllows s x
/-- The job first in order among those that satisfy `p`, with its number. -/
def firstJob (p : Job → Bool) : List (Nat × Option Job) → Option (Nat × Job)
  | [] => none
  | (j, some x) :: t =>
    match firstJob p t with
    | none => if p x then some (j, x) else none
    | some (k, y) => if p x && !jobBefore y x then some (j, x) else some (k, y)
  | (_, none) :: t => firstJob p t
/-- The ready job of earliest deadline that shares a cluster with `units`. -/
def nextReady (s : State) (units : List Nat) : Option (Nat × Job) :=
  firstJob (fun x => isReady s x && x.units.any (fun l => decide (l ∈ units))) s.disp.jobs
/-- Must this running job yield: an earlier ready job wants its unit, or a guard has been reached (R269, R276); or, an edge job,
for a slice of the rotor or a hand-over (21 R615, R617)? -/
def yieldWanted (s : State) (x : Job) : Bool :=
  (!isRS s x.part && (x.units.any (fun l => tgetD false s.disp.guard l) || decide (physUnits s x ≠ mapUnits s x) ||
    (physUnits s x).any (fun c => decide (c ∈ s.units.wanting) || decide (c ∈ s.units.testing)))) ||
    (match nextReady s x.units with | some (_, y) => jobBefore y x | none => false)

/-! ### The spill channel (R281) -/

/-- Start the request of earliest deadline when none has started. -/
def startSpill (s : State) : State :=
  if s.disp.spill.any (fun r => r.started) then s
  else
    let best := s.disp.spill.foldl (fun (b : Option SpillReq) r => match b with
      | none => some r
      | some q => if r.deadline < q.deadline then some r else some q) none
    match best with
    | none => s
    | some b => { s with disp := { s.disp with
        spill := updFirst (fun r => decide (r = b)) (fun r => { r with started := true }) s.disp.spill } }
/-- Queue a request. -/
def askSpill (s : State) (r : SpillReq) : State :=
  startSpill { s with disp := { s.disp with spill := s.disp.spill ++ [{ r with left := ceilDiv r.bytes 64 }] } }

/-! ### Taking a yield -/

/-- A tile instruction with DEST = 1 is outstanding on a cluster. -/
def ftqBound (x : Cluster) : Bool :=
  x.tiles.any (fun t => tileDest t.ins.words) ||
    x.mxq.any (fun e => match e with | .instr i _ => tileDest i.words | .gate _ => false)
/-- May a yield be taken on a member (R122, R162)? -/
def yieldClear (s : State) (c : Nat) : Bool :=
  (halves s c).all (fun h => decide ((clu s h).ftq = []) && !ftqBound (clu s h)) && decide ((clu s c).clv.retq = [])
/-- Does a member wait at a yield point with WAIT set (R290)? -/
def atWait (s : State) (c : Nat) : Bool :=
  let k := (clu s c).clv
  k.waitYield.isSome && k.shadow.isNone && s.sync.waits.any (fun w => decide (w.who = .core c))
/-- Has a member stopped: at its YIELD, at a wait of a yield point, or at its END? -/
def memberStopped (s : State) (c : Nat) : Bool :=
  let k := (clu s c).clv
  k.ended || k.atYield.isSome || (atWait s c && yieldClear s c)
/-- Place in the unit of the cluster that leads a member. -/
def memberIdx (s : State) (x : Job) (c : Nat) : Nat := (physUnits s x).idxOf c
/-- Overlap of a saved region with the footprint of the job about to run. -/
def regionHit (s : State) (x y : Job) (r : SaveReg) : Bool :=
  match x.units[r.member]? with
  | none => false
  | some l => decide (l ∈ y.units) && overlap (footprint s y l).1 (footprint s y l).2 r.start r.len
/-- The entry of the yield table at which a member has stopped. -/
def stopEntry (s : State) (c : Nat) : Option Nat :=
  let k := (clu s c).clv
  match k.atYield with | some i => some i | none => if k.ended then none else k.waitYield
/-- The wait of a member becomes a registration of the held job (R257). -/
def holdWait (s : State) (j : Nat) (x : Job) (c : Nat) : State :=
  { s with sync := { s.sync with waits := s.sync.waits.map (fun w =>
      if w.who = .core c then { w with who := .yieldReg j (memberIdx s x c) } else w) } }
/-- The core as it is saved: stopped nowhere, no request. -/
def savedCore (s : State) (c : Nat) : Clv := { (clu s c).clv with atYield := none, yieldReq := false, stall := 0 }
/-- Take the yield of job `j`, whose members have all stopped (R190, R280, R281, R290). -/
def takeYield (s : State) (j : Nat) (x : Job) (g : Gen) : State :=
  let ms := members s x
  let waits := ms.filter (fun c => atWait s c && decide ((clu s c).clv.atYield = none))
  let regs := (ms.flatMap (fun c => match stopEntry s c with
    | some i => saveRegs s x g (memberIdx s x c) i
    | none => [])).eraseDups
  let nxt := nextReady s x.units
  let due := match nxt with | some (_, y) => y.deadline | none => nowNs s
  let mark (r : SaveReg) : SaveReg :=
    { r with spilled := decide (r.space ≠ 0) || (match nxt with | some (_, y) => regionHit s x y r | none => false) }
  let regions := (regs.filter (fun r => decide (r.space ≠ 3))).map mark
  let bytes := 512 * ms.length + ((regions.filter (fun r => r.spilled)).map (fun r => r.len)).sum
  let s' := waits.foldl (fun s c => holdWait s j x c) s
  let y := { x with phase := .spilling, saved := ms.map (fun c => (memberIdx s x c, savedCore s c)),
                    regions := regions, pinned := x.pinned ++ (regs.filter (fun r => decide (r.space = 3))).filter (fun r => !decide (r ∈ x.pinned)),
                    image := [], areaUsed := bytes, heldOn := decide (waits ≠ []) }
  let s' := (physUnits s x).foldl stepBoundary ((physUnits s x).foldl haltCore s')
  let s' := wrapRg (setJob s' j (some y)) SYS_PREEMPT_CNT 0 0 1
  let s' := { s' with disp := { s'.disp with
    spillUsed := tsetD 0 s'.disp.spillUsed x.part (tgetD 0 s'.disp.spillUsed x.part + bytes) } }
  askSpill s' { job := j, restore := false, deadline := due, bytes := bytes }
/-- A slice of the rotor starts on clusters (21 R614). -/
def startSlice (s : State) (cs : List Nat) : State :=
  let rot := cs.foldl (fun t c => tsetD {} t c { tgetD {} t c with start := some s.tmu.ticks }) s.safe.rot
  { s with units := { s.units with wanting := s.units.wanting.filter (fun c => !decide (c ∈ cs)), testing := s.units.testing ++ cs },
           safe := { s.safe with rot := rot } }
/-- A held job's registration needs a shared entry; without one its wait is refused (R258). -/
def refuseWaits (s : State) (cs : List Nat) : State :=
  cs.foldl (fun s c =>
    match s.sync.waits.find? (fun w => decide (w.who = .core c)) with
    | some w => completeWait (delWait (raise s 4 0 4) w.id) w 2
    | none => s) s
/-- Take the yield once every member has stopped and nothing of the job is outstanding (R271, R231, log 8). -/
def tryYield (s : State) (j : Nat) : State :=
  match job? s j with
  | none => s
  | some x =>
    let ms := members s x
    if x.phase ≠ .yielding ∨ !ms.all (memberStopped s) ∨ ms.all (fun c => (clu s c).clv.ended) ∨
        ms.any (fun c => outstanding s c j) then s
    else
      let slice := (physUnits s x).filter (fun c => decide (c ∈ s.units.wanting))
      let waits := ms.filter (fun c => atWait s c && decide ((clu s c).clv.atYield = none))
      let shared := (s.sync.waits.filter WaitEnt.shared).length
      if slice ≠ [] then startSlice s slice
      else if (physUnits s x).any (fun c => decide (c ∈ s.units.testing)) then s
      else if shared + waits.length > Config.sharedWaiters then settle (refuseWaits s (waits.drop (Config.sharedWaiters - shared)))
      else match genOf s x with
        | none => s
        | some g => takeYield s j x g
/-- Set or withdraw the yield request of a running job (R269-R271). -/
def reviewJob (s : State) (j : Nat) : State :=
  match job? s j with
  | none => s
  | some x =>
    if x.phase ≠ .running ∧ x.phase ≠ .yielding then s
    else if yieldWanted s x then
      let s := if x.phase = .running then setJob s j (some { x with phase := .yielding }) else s
      let s := (members s x).foldl (fun s c => setClv s c { (clu s c).clv with yieldReq := true }) s
      tryYield s j
    else if x.phase = .yielding then
      let s := setJob s j (some { x with phase := .running })
      (members s x).foldl (fun s c => setClv s c { (clu s c).clv with yieldReq := false, atYield := none }) s
    else s
/-- Jobs that run now, by number. -/
def runningJobs (s : State) : List Nat :=
  s.disp.jobs.filterMap (fun e => match e.2 with
    | some x => if x.phase = .running ∨ x.phase = .yielding then some e.1 else none
    | none => none)
/-- Reconsider the waits (R251) and every unit (R269). -/
def reconsider (s : State) : State := let s := settle s; (runningJobs s).foldl reviewJob s

/-- Work of cluster `c` has moved on: a yield that waited for it may be taken. -/
def afterEngine (s : State) (c : Nat) : State :=
  match (clu s (leadOf s c)).job with | some j => tryYield s j | none => s

end Sys2Proof.Machine
end

