-- ==== Sys2Proof/Machine/Clove.lean ====
section
/-! DEFINITION. The meanings of the Clove core's commands (05 R133-R164, 06 R185-R192, 09 R270, 04 R122). -/

namespace Sys2Proof.Machine

open Sys2Proof

/-! ### Format R (R139, R140, R144) -/

/-- A format R instruction that writes SD from the values of SD, SA and SB, with the flags it sets. -/
def aluR (s : State) (c : Nat) (f : RFmt) (op : Word → Word → Word → Word × Word) : State :=
  cloveRun s c 4 1 (fun _ _ k s =>
    let r := op (k.reg f.wd f.sd) (k.reg f.wa f.sa) (k.reg f.wb f.sb)
    coreDone s c (fun q => (q.put (k.dest f.wd f.sd) r.1).flags r.2))
/-- The shift count: bits [4:0] of the value. -/
def shCount (b : Word) : Nat := b.toNat % 32

/-- ADD. -/
def execAdd (c : Nat) (f : RFmt) (s : State) : Host.Outcome State Fault Refusal :=
  .next (aluR s c f (fun _ a b => aluResult f.sat (a.toInt + b.toInt)))
/-- SUB. -/
def execSub (c : Nat) (f : RFmt) (s : State) : Host.Outcome State Fault Refusal :=
  .next (aluR s c f (fun _ a b => aluResult f.sat (a.toInt - b.toInt)))
/-- AND. -/
def execAnd (c : Nat) (f : RFmt) (s : State) : Host.Outcome State Fault Refusal :=
  .next (aluR s c f (fun _ a b => (a &&& b, 0)))
/-- OR. -/
def execOr (c : Nat) (f : RFmt) (s : State) : Host.Outcome State Fault Refusal :=
  .next (aluR s c f (fun _ a b => (a ||| b, 0)))
/-- XOR. -/
def execXor (c : Nat) (f : RFmt) (s : State) : Host.Outcome State Fault Refusal :=
  .next (aluR s c f (fun _ a b => (a ^^^ b, 0)))
/-- SHL: the true value is SA × 2^count (R144). -/
def execShl (c : Nat) (f : RFmt) (s : State) : Host.Outcome State Fault Refusal :=
  .next (aluR s c f (fun _ a b => aluResult f.sat (a.toInt * 2 ^ shCount b)))
/-- SHRA. -/
def execShra (c : Nat) (f : RFmt) (s : State) : Host.Outcome State Fault Refusal :=
  .next (aluR s c f (fun _ a b => (a.sshiftRight (shCount b), 0)))
/-- SHRL. -/
def execShrl (c : Nat) (f : RFmt) (s : State) : Host.Outcome State Fault Refusal :=
  .next (aluR s c f (fun _ a b => (a >>> shCount b, 0)))
/-- MIN, signed. -/
def execMin (c : Nat) (f : RFmt) (s : State) : Host.Outcome State Fault Refusal :=
  .next (aluR s c f (fun _ a b => (if a.toInt ≤ b.toInt then a else b, 0)))
/-- MAX, signed. -/
def execMax (c : Nat) (f : RFmt) (s : State) : Host.Outcome State Fault Refusal :=
  .next (aluR s c f (fun _ a b => (if a.toInt ≥ b.toInt then a else b, 0)))
/-- SEL: SD = SA when SD is not 0, otherwise SB. -/
def execSel (c : Nat) (f : RFmt) (s : State) : Host.Outcome State Fault Refusal :=
  .next (aluR s c f (fun d a b => (if d ≠ 0 then a else b, 0)))
/-- MOV. -/
def execMov (c : Nat) (f : RFmt) (s : State) : Host.Outcome State Fault Refusal :=
  .next (aluR s c f (fun _ a _ => (a, 0)))
/-- MOVA: bit 0 of the SA field names the accumulator. -/
def execMova (c : Nat) (f : RFmt) (s : State) : Host.Outcome State Fault Refusal :=
  .next (cloveRun s c 4 1 (fun _ _ k s =>
    coreDone s c (fun q => q.put (k.dest f.wd f.sd) (movaResult f.sat (k.acc (f.sa.getLsbD 0))))))
/-- CLRA: bit 0 of the SA field names the accumulator. -/
def execClra (c : Nat) (f : RFmt) (s : State) : Host.Outcome State Fault Refusal :=
  .next (cloveRun s c 4 1 (fun _ _ _ s => coreDone s c (fun q => q.setAcc (f.sa.getLsbD 0) 0)))
/-- SETROT. -/
def execSetrot (c : Nat) (f : RFmt) (s : State) : Host.Outcome State Fault Refusal :=
  .next (cloveRun s c 4 1 (fun _ _ k s =>
    coreDone s c (fun q => { q with rotBase := BitVec.ofNat 5 (k.reg f.wa f.sa).toNat })))
/-- RDCST. -/
def execRdcst (c : Nat) (f : RFmt) (s : State) : Host.Outcome State Fault Refusal :=
  .next (cloveRun s c 4 1 (fun _ _ k s => coreDone s c (fun q => q.put (k.dest f.wd f.sd) k.cst)))
/-- IEN_ALLOWED of a job's entry (06 R174). -/
def ienAllowed (s : State) (y : Job) (g : Gen) : Nat := fld (entryWord s g y.entry 3) 11 8
/-- WRCST: reserved bits of CST stay zero; an enable outside IEN_ALLOWED is refused (06 R175). -/
def execWrcst (c : Nat) (f : RFmt) (s : State) : Host.Outcome State Fault Refusal :=
  .next (cloveRun s c 4 1 (fun y g k s =>
    let v := k.reg f.wa f.sa
    if BitVec.ofNat 4 (fld v 7 4) &&& ~~~(BitVec.ofNat 4 (ienAllowed s y g)) ≠ 0 then .skip 0x0E 0 0 none
    else coreDone s c (fun q => { q with cst := v &&& 0xF7 })))

/-! ### Format I -/

/-- ADDI. -/
def execAddi (c : Nat) (f : IFmt) (s : State) : Host.Outcome State Fault Refusal :=
  .next (cloveRun s c 4 1 (fun _ _ k s =>
    let r := aluResult f.sat ((k.reg false f.sa).toInt + f.imm.toInt)
    coreDone s c (fun q => (q.setReg false f.sd r.1).flags r.2)))
/-- MOVI. -/
def execMovi (c : Nat) (f : IFmt) (s : State) : Host.Outcome State Fault Refusal :=
  .next (cloveRun s c 4 1 (fun _ _ _ s => coreDone s c (fun q => q.setReg false f.sd (f.imm.signExtend 32))))
/-- MOVHI keeps SD[15:0]. -/
def execMovhi (c : Nat) (f : IFmt) (s : State) : Host.Outcome State Fault Refusal :=
  .next (cloveRun s c 4 1 (fun _ _ k s =>
    coreDone s c (fun q => q.setReg false f.sd (w32 (f.imm.toNat * 65536 + fld (k.reg false f.sd) 15 0)))))

/-! ### Multiply with parallel loads (R138, R143, R146) and FTAP (R154) -/

/-- How far a parallel load moves its pointer. -/
def moveStep (p : Ptr) (x : XYMove) : Int := if x.byMod then p.mod.toInt else 2
/-- Why a parallel load cannot be made. -/
def moveBad (k : Clv) (y : Bool) (x : XYMove) : Option Nat :=
  if !x.en then none
  else
    let p := k.ptr y x.ptr.toNat
    if !p.usable 2 then some 4 else xyBad y false p.adr.toNat 2
/-- The load of XMOVE or YMOVE: the pointer moves now, the value lands after the load-use slot. -/
def moveLoad (s : State) (c : Nat) (k : Clv) (y : Bool) (x : XYMove) : State × List (LoadDest × Word) :=
  if !x.en then (s, [])
  else
    let p := k.ptr y x.ptr.toNat
    (setClv s c ((clu s c).clv.setPtr y x.ptr.toNat (p.step (moveStep p x))),
      [(.s (x.dest.toNat + if y then 4 else 0), xyLoad s c y p.adr.toNat false)])
/-- MAC, MSU and MPY: `op` forms the accumulator's exact value from its old value and the product. -/
def mulM (s : State) (c : Nat) (f : MFmt) (op : Int → Int → Int) : State :=
  cloveRun s c 4 1 (fun _ _ k s =>
    match moveBad k false f.xm, moveBad k true f.ym with
    | some r, _ => .skip r 0 0 none
    | none, some r => .skip r 0 0 none
    | none, none =>
      let r := accResult f.sat (op (k.acc f.ad).toInt (mulProduct f.frac (k.reg false f.sa) (k.reg false f.sb)))
      let (s, lx) := moveLoad s c k false f.xm
      let (s, ly) := moveLoad s c k true f.ym
      .done (setClv s c (((clu s c).clv.setAcc f.ad r.1).flags r.2)) (lx ++ ly) none)
/-- MAC. -/
def execMac (c : Nat) (f : MFmt) (s : State) : Host.Outcome State Fault Refusal :=
  .next (mulM s c f (fun a p => a + p))
/-- MSU. -/
def execMsu (c : Nat) (f : MFmt) (s : State) : Host.Outcome State Fault Refusal :=
  .next (mulM s c f (fun a p => a - p))
/-- MPY. -/
def execMpy (c : Nat) (f : MFmt) (s : State) : Host.Outcome State Fault Refusal :=
  .next (mulM s c f (fun _ p => p))
/-- FTAP. -/
def execFtap (c : Nat) (f : TFmt) (s : State) : Host.Outcome State Fault Refusal :=
  .next (cloveRun s c 4 1 (fun _ _ k s =>
    let px := k.ptr false f.px.toNat
    let py := k.ptr true f.py.toNat
    let w := (px.moved 2).toNat
    if !px.usable 2 ∨ !py.usable 2 ∨ px.adr.toNat % 2 ≠ 0 ∨ py.adr.toNat % 2 ≠ 0 ∨ w % 2 ≠ 0 then .skip 4 0 0 none
    else if w + 2 > capWindow then .skip 2 0 0 none
    else
      let x := xyLoad s c false px.adr.toNat false
      let r := accResult f.sat ((k.acc f.ad).toInt + mulProduct f.frac x (xyLoad s c true py.adr.toNat false))
      let s := xyWrite s c false w (natLe 2 x.toNat)
      coreDone s c (fun q =>
        (((q.setAcc f.ad r.1).flags r.2).setPtr false f.px.toNat (px.step (-2))).setPtr true f.py.toNat
          (py.step py.mod.toInt))))

/-! ### Loads, stores, pointers -/

/-- The pointer after an access of format LS. -/
def lsStep (p : Ptr) (f : LSFmt) : Ptr := if f.post then p.step p.mod.toInt else p
/-- LDX and LDY. -/
def loadLS (s : State) (c : Nat) (f : LSFmt) (y : Bool) : State :=
  cloveRun s c 4 1 (fun _ _ k s =>
    let p := k.ptr y f.ptr.toNat
    let n := if f.w32 then 4 else 2
    match if p.usable n then xyBad y false p.adr.toNat n else some 4 with
    | some r => .skip r 0 0 none
    | none => .done (setClv s c ((clu s c).clv.setPtr y f.ptr.toNat (lsStep p f)))
        [(k.dest f.wbank f.reg, xyLoad s c y p.adr.toNat f.w32)] none)
/-- STX and STY. -/
def storeLS (s : State) (c : Nat) (f : LSFmt) (y : Bool) : State :=
  cloveRun s c 4 1 (fun _ _ k s =>
    let p := k.ptr y f.ptr.toNat
    let n := if f.w32 then 4 else 2
    match if p.usable n then xyBad y true p.adr.toNat n else some 4 with
    | some r => .skip r 0 0 none
    | none =>
      let s := xyWrite s c y p.adr.toNat (natLe n (k.reg f.wbank f.reg).toNat)
      coreDone s c (fun q => q.setPtr y f.ptr.toNat (lsStep p f)))
/-- LDX. -/
def execLdx (c : Nat) (f : LSFmt) (s : State) : Host.Outcome State Fault Refusal := .next (loadLS s c f false)
/-- LDY. -/
def execLdy (c : Nat) (f : LSFmt) (s : State) : Host.Outcome State Fault Refusal := .next (loadLS s c f true)
/-- STX. -/
def execStx (c : Nat) (f : LSFmt) (s : State) : Host.Outcome State Fault Refusal := .next (storeLS s c f false)
/-- STY. -/
def execSty (c : Nat) (f : LSFmt) (s : State) : Host.Outcome State Fault Refusal := .next (storeLS s c f true)
/-- A pointer with one field of SETP set: address and base, modifier, length. -/
def setpField (p : Ptr) (field : Nat) (v : Word) : Option Ptr :=
  match field with
  | 0 => some { p with adr := BitVec.ofNat 17 v.toNat, base := BitVec.ofNat 17 v.toNat }
  | 1 => some { p with mod := BitVec.ofNat 16 v.toNat }
  | 2 => some { p with len := BitVec.ofNat 17 v.toNat }
  | _ => none
/-- SETP; the field code 3 is reserved. -/
def execSetp (c : Nat) (f : PFmt) (s : State) : Host.Outcome State Fault Refusal :=
  .next (cloveRun s c 4 1 (fun _ _ k s =>
    match setpField (k.ptr f.yBank f.ptr.toNat) f.field.toNat (k.reg false f.src) with
    | none => .skip 1 0 0 none
    | some p => coreDone s c (fun q => q.setPtr f.yBank f.ptr.toNat p)))

/-! ### Branches (R142, R145) -/

/-- Where a word offset from the branch at `pc` leads. -/
def branchTo (pc : Nat) (off : Int) : Nat := ((pc : Int) + 4 * off).toNat
/-- BR. -/
def execBr (c : Nat) (off : BitVec 27) (s : State) : Host.Outcome State Fault Refusal :=
  .next (cloveRun s c 4 1 (fun _ _ k s =>
    if k.delay.isSome then .skip 3 0 0 none else .done s [] (some (some (branchTo k.pc off.toInt)))))
/-- BRC compares SA with zero; COND 6 and 7 are reserved. -/
def execBrc (c : Nat) (cond : BitVec 3) (sa : BitVec 5) (off : BitVec 19) (s : State) :
    Host.Outcome State Fault Refusal :=
  .next (cloveRun s c 4 1 (fun _ _ k s =>
    match condHolds cond.toNat (k.reg false sa).toInt 0 with
    | none => .skip 1 0 0 none
    | some t =>
      if k.delay.isSome then .skip 3 0 0 none
      else .done s [] (some (if t then some (branchTo k.pc off.toInt) else none))))
/-- CALL: the return address is the word after its delay slots. -/
def execCall (c : Nat) (off : BitVec 27) (s : State) : Host.Outcome State Fault Refusal :=
  .next (cloveRun s c 4 1 (fun _ _ k s =>
    if k.delay.isSome then .skip 3 0 0 none
    else if k.calls.length ≥ 8 then .skip 0x0A 0 0 none
    else .done (setClv s c { (clu s c).clv with calls := (k.pc + 12) :: k.calls }) []
      (some (some (branchTo k.pc off.toInt)))))
/-- RET. -/
def execRet (c : Nat) (s : State) : Host.Outcome State Fault Refusal :=
  .next (cloveRun s c 4 1 (fun _ _ k s =>
    if k.delay.isSome then .skip 3 0 0 none
    else match k.calls with
      | [] => .skip 0x0A 0 0 none
      | t :: r => .done (setClv s c { (clu s c).clv with calls := r }) [] (some (some t))))

/-! ### Repeat blocks (R148-R153) -/

/-- MAJOR codes that a body may not hold (R149). -/
def repForbids (m : Nat) : Bool :=
  decide (0x10 ≤ m ∧ m ≤ 0x13) || decide (m = 0x18 ∨ m = 0x19) || decide (0x1C ≤ m ∧ m ≤ 0x1F)
/-- Does a body of `n` words at `off` hold a forbidden instruction? The second word of a REP is none. -/
def bodyBad (s : State) (g : Gen) : Nat → Nat → Bool
  | 0, _ => false
  | 1, off => repForbids (fld (gword s g off) 31 27)
  | n + 2, off =>
    let m := fld (gword s g off) 31 27
    repForbids m || (if m = 0x14 then bodyBad s g n (off + 8) else bodyBad s g (n + 1) (off + 4))
/-- Lines that hold bytes [a, b) of a generation. -/
def linesIn (g : Gen) (a b : Nat) : List Nat :=
  let b := Nat.min b g.len
  if b ≤ a then [] else (List.range ((b - 1) / 256 + 1 - a / 256)).map (fun i => a / 256 + i)
/-- Lock the body's lines of a job's generation for its outermost block (R150). -/
def lockLines (s : State) (c : Nat) (y : Job) (ls : List Nat) : State :=
  let x := clu s c
  setClu s c { x with ic := x.ic.map (fun l =>
    if l.part = y.part ∧ l.slot = y.slot ∧ l.gen = y.gen ∧ l.line ∈ ls then { l with rep := true } else l) }
/-- Is the block inconsistent (R149, R163)? SPAN 0 lies outside the range of R142. -/
def repBad (s : State) (g : Gen) (k : Clv) (f : RepFmt) (n count : Nat) : Bool :=
  k.delay.isSome || decide (k.reps.length ≥ 3) || decide (f.span = 0) ||
    (match k.reps with
      | [] => decide (count * f.span.toNat > Config.repMax)
      | l :: _ => decide (count * f.span.toNat > l.span)) ||
    (f.rot && k.reps.any (fun l => l.rot)) || bodyBad s g n (k.pc + 8)
/-- REP. -/
def execRep (c : Nat) (f : RepFmt) (s : State) : Host.Outcome State Fault Refusal :=
  .next (cloveRun s c 8 2 (fun y g k s =>
    let n := f.lenM1.toNat + 1
    let stop := k.pc + 8 + 4 * n
    let count := if f.csrc then (k.sreg (f.count.toNat % 32)).toNat else f.count.toNat
    let lines := linesIn g (k.pc + 8) stop
    if k.reps = [] ∧ k.delay = none ∧ !lines.all (fun l => cached s c y (l * 256)) then .stall 5
    else if repBad s g k f n count then .skipOver (8 + 4 * n) 5
    else if count = 0 then .final (retire s c (8 + 4 * n) 2 [] none)
    else
      let s := if k.reps = [] then lockLines s c y lines else s
      let s := retire s c 8 2 [] none
      let q := (clu s c).clv
      .final (setClv s c { q with reps := ⟨k.pc + 8, stop, count, f.span.toNat, f.rot⟩ :: q.reps })))
/-- REP_ABORT: an outermost block has run REP_MAX a-cycles (R152). -/
def execRepAbort (c : Nat) (s : State) : Host.Outcome State Fault Refusal :=
  .next (match running s c with
    | none => s
    | some (j, y, _) =>
      let s' := landLoads s c
      let x := clu s' c
      match x.clv.reps.getLast? with
      | none => s
      | some l =>
        if x.clv.repCycles < Config.repMax then s
        else
          let s := setClu s' c (leaveBlock { x with clv := { x.clv with pc := l.stop } })
          let s := raise (raise (satRg s CLV_SKIP_COUNT c 0 1) 18 c 0) 18 c 1
          skipRec s j 6 0 (clHandle s c) (l.start - 8) 0 y.open none)

/-! ### ISSUE and the return queue (R159-R161, 07 R218) -/

/-- Instructions in a stream (R160). -/
def streamDepth (q : List StreamEnt) : Nat :=
  (q.filter (fun e => match e with | .instr .. => true | .gate _ => false)).length
/-- Gate markers in a stream (07 R218). -/
def gateDepth (q : List StreamEnt) : Nat :=
  (q.filter (fun e => match e with | .instr .. => false | .gate _ => true)).length
/-- Append a gate marker for copy `n` to the streams a copy names; a vector gate goes to both halves. -/
def putGates (s : State) (c n : Nat) (gm gv : Bool) : State :=
  let s := if gm then let x := clu s c; setClu s c { x with mxq := x.mxq ++ [.gate n] } else s
  if gv then (halves s c).foldl (fun s h => let x := clu s h; setClu s h { x with vxq := x.vxq ++ [.gate n] }) s else s
/-- Push a descriptor into the queue named. -/
def pushIssue (s : State) (c q : Nat) (eng : Bool) (i : Issued) : CRes :=
  match q with
  | 0 =>
    let x := clu s c
    if streamDepth x.mxq ≥ 16 then .stall 1
    else .done (setClu s c { x with mxq := x.mxq ++ [.instr i x.mxIssued], mxIssued := x.mxIssued + 1 }) [] none
  | 1 =>
    let h := if eng then c + 1 else c
    let x := clu s h
    if streamDepth x.vxq ≥ 32 then .stall 2
    else
      let s := wrapRg s VXE_ISSUE_COUNT h 0 1
      .done (setClu s h { x with vxq := x.vxq ++ [.instr i x.vxIssued], vxIssued := x.vxIssued + 1 }) [] none
  | _ =>
    let e := tgetD {} s.eng c
    let gated := decide (0x20 ≤ opcodeOf i.words ∧ opcodeOf i.words ≤ 0x22)
    let gm := gated && copyGateM i.words
    let gv := gated && copyGateV i.words
    if e.q.length ≥ 16 then .stall 3
    else if (gm && decide (gateDepth (clu s c).mxq ≥ 16)) ||
        (gv && (halves s c).any (fun h => decide (gateDepth (clu s h).vxq ≥ 16))) then .stall 3
    else
      let s := { s with eng := tsetD {} s.eng c { e with q := e.q ++ [{ ins := i, serial := e.issued }],
                                                         issued := e.issued + 1 } }
      .done (putGates (wrapRg s FTE_DESC_ISSUED c 0 1) c e.issued gm gv) [] none
/-- ISSUE. -/
def execIssue (c : Nat) (f : IssFmt) (s : State) : Host.Outcome State Fault Refusal :=
  .next (cloveRun s c 4 1 (fun _ _ k s =>
    let q := f.queue.toNat
    let a := (k.ptr false f.px.toNat).adr.toNat
    let size := if q = 1 then 32 else 64
    let raw := leWords (size / 4) ((List.range size).map (fun i => xByte s c ((a + i) % Config.xyBytes)))
    let ws := if f.pen then lset raw f.pword.toNat (k.sreg f.patch.toNat) else raw
    if q = 3 then .skip 1 0 0 none
    else if a % size ≠ 0 then .skip 4 0 0 (some (descItems q ws))
    else if f.eng ∧ (q ≠ 1 ∨ !cherry s c) then .skip 9 0 0 (some (descItems q ws))
    else
      let up := if cherry s c then (clu s (c + 1)).vxIssued else 0
      let i : Issued := { words := ws, scalar := k.sreg (fld (wd ws 1) 20 16), off := k.pc, job := jobOn s c,
                          mxAt := (clu s c).mxIssued, vxAt := (clu s c).vxIssued, vxAt2 := up }
      pushIssue s c q f.eng i))
/-- RDQ. -/
def execRdq (c : Nat) (sd : BitVec 5) (s : State) : Host.Outcome State Fault Refusal :=
  .next (cloveRun s c 4 1 (fun _ _ k s =>
    match k.retq with
    | [] => .stall 4
    | v :: r => coreDone s c (fun q => { q.setS sd.toNat v with retq := r })))

/-! ### Yield points, handlers, the end (R162, 06 R191 R192, 09 R270, R156, 04 R122) -/

/-- YIELD. -/
def yieldBody (s : State) (c idx : Nat) : State :=
  cloveRun s c 4 1 (fun _ g k s =>
    match yieldEntry? s g idx with
    | none => .skip 0x0C 0 0 none
    | some off =>
      if (gword s g off).toNat ≠ k.pc then .skip 0x0C 0 0 none
      else
        let defer := k.yieldReq && !yieldClear s c
        let late := (halves s c).filter (fun h => decide ((clu s h).ftq ≠ []) || ftqBound (clu s h))
        let s := if defer then late.foldl (fun s h => raise s 17 h 2) s else s
        coreDone s c (fun q => { q with
          sinceYield := 0, lateLogged := false
          waitYield := if yieldWait s g off then some idx else none
          atYield := if k.yieldReq && !defer then some idx else none }))
/-- YIELD, and the yield of the job when its last member has stopped. -/
def execYieldPoint (c : Nat) (idx : BitVec 16) (s : State) : Host.Outcome State Fault Refusal :=
  .next (match (clu s c).job with
    | some j => tryYield (yieldBody s c idx.toNat) j
    | none => yieldBody s c idx.toNat)
/-- YIELD_LATE: one record, and the job goes on (06 R192). -/
def execYieldLate (c : Nat) (s : State) : Host.Outcome State Fault Refusal :=
  .next (match running s c with
    | none => s
    | some (_, y, g) =>
      let k := (clu s c).clv
      if k.sinceYield ≤ yieldGap s g ∨ k.lateLogged = true then s
      else
        logErr (setClv s c { k with lateLogged := true }) 0x11 0x0F 0 y.part (clHandle s c) (w32 y.slot) (w32 y.gen)
          (w32 k.pc) 0)
/-- RTI. -/
def execRti (c : Nat) (s : State) : Host.Outcome State Fault Refusal :=
  .next (cloveRun s c 4 1 (fun _ _ k s =>
    match k.shadow with
    | none => .skip 0x0A 0 0 none
    | some (pc, cst) =>
      let s := spend s c 1
      .final (setClv s c { (clu s c).clv with pc := pc, cst := cst, shadow := none, delay := none, stall := 0 })))
/-- END: the member's code has ended once nothing of it is outstanding (log 8). -/
def execEndJob (c : Nat) (s : State) : Host.Outcome State Fault Refusal :=
  .next (cloveRun s c 4 1 (fun _ _ _ s =>
    let j := jobOn s c
    if outstanding s c j then .stall 0 else .final (reconsider (memberEnd (spend s c 1) c j))))
/-- The pending and enabled interrupt of highest priority, as a place in the handler table (R155). -/
def takeable (k : Clv) : Option Nat :=
  (List.range 4).find? (fun i => k.irq.getLsbD (3 - i) && bit k.cst (7 - i))
/-- INTERRUPT_ENTRY (R156, R157). -/
def execInterruptEntry (c : Nat) (s : State) : Host.Outcome State Fault Refusal :=
  .next (match running s c with
    | none => s
    | some (_, y, g) =>
      let k := (clu s c).clv
      if k.shadow.isSome ∨ k.delay.isSome ∨ k.loads ≠ [] ∨ k.reps ≠ [] ∨ (k.stall = 5 ∧ !cached s c y k.pc) then s
      else match takeable k with
        | none => s
        | some i =>
          match handler? s g y.entry i with
          | none => s
          | some h => setClv s c { k with
              shadow := some (k.pc, k.cst), cst := k.cst &&& 0xFFFFFF0F, pc := h, stall := 0, holdoff := 0
              irq := k.irq &&& ~~~(BitVec.ofNat 4 (2 ^ (3 - i))) })

/-! ### The instruction cache (06 R185, R187) -/

/-- Put a line into its set as the most recently used; a full set loses its least recently used line that is not
locked. -/
def addLine (ic : List ICLine) (l : ICLine) : List ICLine :=
  let same (x : ICLine) : Bool := decide (x.line % 128 = l.line % 128)
  let rest := ic.filter (fun x => !decide (x.part = l.part ∧ x.slot = l.slot ∧ x.gen = l.gen ∧ x.line = l.line))
  if (rest.filter same).length < 8 then l :: rest
  else l :: (delFirst (fun x => same x && !x.preload && !x.rep) rest.reverse).reverse
/-- Charge the 256 bytes of each of `n` lines to a partition's external-memory bucket (09 R293, 18 R558). -/
def chargeLines (s : State) (p n : Nat) : Option State := charge s p (4 * n)
/-- Bring line `l` of a generation in, when memory gives it without error. -/
def takeLine (s : State) (c : Nat) (y : Job) (g : Gen) (l : Nat) : State :=
  if l * 256 < g.len ∧ (anyUE s (g.base + l * 256) 256).isNone ∧ !cached s c y (l * 256) then
    let x := clu s c
    setClu s c { x with ic := addLine x.ic ⟨y.part, y.slot, y.gen, l, false, false⟩ }
  else s
/-- What a failed fetch skips: a REP whose first word was decoded with its body, otherwise one word (R187). -/
def fetchLost (s : State) (c : Nat) (y : Job) (g : Gen) (pc : Nat) : Nat :=
  let w := gword s g pc
  if cached s c y pc ∧ fld w 31 27 = 0x14 then 8 + 4 * (fld w 24 14 + 1) else 4
/-- LINE_FILL: the line of byte `off` arrives at a core that stalls for it, with the line after it. -/
def execLineFill (c off : Nat) (ecc : Ecc) (s : State) : Host.Outcome State Fault Refusal :=
  .next (match running s c with
    | none => s
    | some (j, y, g) =>
      let k := (clu s c).clv
      let l := off / 256
      if k.stall ≠ 5 ∨ g.len ≤ l * 256 then s
      else match chargeLines s y.part (if (l + 1) * 256 < g.len then 2 else 1) with
        | none => s
        | some s =>
          let a := g.base + l * 256
          let bad := if ecc = .uncorrectable then some (a / 64) else anyUE s a 256
          match bad with
          | some u =>
            let n := fetchLost s c y g k.pc
            skipClove (landLoads (memUE s 1 (u * 64) (clHandle s c)) c) c j n 0x0D 0 0 none
          | none =>
            let s := if ecc = .corrected then memCE s a else s
            let s := takeLine (takeLine s c y g (l + 1)) c y g l
            setClv s c { (clu s c).clv with stall := 0 })

end Sys2Proof.Machine
end

