-- ==== Sys2Proof/Machine/CtxOps.lean ====
section
/-! DEFINITION. Access to UE contexts and the context cache (14 R434-R451). -/

namespace Sys2Proof.Machine

open Sys2Proof

/-- CTX_BASE. -/
def ctxBase (s : State) : Nat := (rg s CXS_CTX_BASE_LO 0 0).toNat + fld (rg s CXS_CTX_BASE_HI 0 0) 7 0 * 2 ^ 32
/-- Device address of byte `off` of context `i` (R434). -/
def ctxAddr (s : State) (i off : Nat) : Nat := ctxBase s + i * 65536 + off
/-- A word of a context. -/
def ctxWord (s : State) (i off : Nat) : Word := extWord s (ctxAddr s i off)
/-- Bytes of a context. -/
def ctxBytes (s : State) (i off n : Nat) : List Byte := extRead s (ctxAddr s i off) n
/-- Put bytes into a context. -/
def ctxPut (s : State) (i off : Nat) (bs : List Byte) : State :=
  { s with mem := { s.mem with ext := mwrite 0 s.mem.ext (ctxAddr s i off) bs } }
/-- Put a word into a context. -/
def ctxPutW (s : State) (i off : Nat) (w : Word) : State := ctxPut s i off (wordLe w)
/-- The partition that owns the block of a context (R435). -/
def ctxOwner (s : State) (i : Nat) : Option Nat :=
  let w := rg s CXS_BLK_OWNER 0 (i / 1024)
  if bit w 31 then some (fld w 4 0) else none
/-- STATE of a context: 0 FREE, 1 ACTIVE, 2 AGED. -/
def ctxState (s : State) (i : Nat) : Nat := fld (ctxWord s i 4) 31 30
/-- AGE_NOW: the time unit's 10 ms frame count (R441). -/
def ageNow (s : State) : Word := w32 (frameCnt s)
/-- A context was used for a PDU or job: LAST_USE, and an AGED one is ACTIVE again (R441). -/
def ctxUse (s : State) (i : Nat) : State :=
  let s := ctxPutW s i 0x10 (ageNow s)
  if ctxState s i = 2 then ctxPutW s i 4 (setFld (ctxWord s i 4) 31 30 1) else s

/-! ### The cache (R449-R451) -/

/-- Replace the cached sectors. -/
def setSects (s : State) (l : List Sector) : State := { s with cxs := { s.cxs with sects := l } }
/-- Is a sector pinned? -/
def sectPinned (s : State) (i n : Nat) : Bool := s.cxs.pins.any (fun q => decide (q.2.2.1 = i ∧ q.2.2.2 = n))
/-- Sectors booked to a partition. -/
def sectHeld (s : State) (p : Nat) : Nat := (s.cxs.sects.filter (fun x => decide (x.part = p))).length
/-- Make a way for context `i` in its set; none where every way holds a pinned sector. -/
def takeWay (s : State) (i : Nat) : Option (List Sector) :=
  let l := s.cxs.sects
  let ws := ((l.filter (fun x => decide (x.ctx % 64 = i % 64))).map (fun x => x.ctx)).eraseDups
  if i ∈ ws ∨ ws.length < 16 then some l
  else match ws.reverse.find? (fun w => !l.any (fun x => decide (x.ctx = w) && sectPinned s w x.n)) with
    | none => none
    | some w => some (l.filter (fun x => decide (x.ctx ≠ w)))
/-- Make room for a sector of partition `p`: a free one, or the least recently used unpinned one. -/
def takeSector (s : State) (p : Nat) (l : List Sector) : Option (List Sector) :=
  if l.length < 8192 then some l
  else
    let own := decide ((rg s CXS_CACHE_QUOTA 0 p).toNat ≤ sectHeld s p)
    let ok (x : Sector) : Bool := !sectPinned s x.ctx x.n && (!own || decide (x.part = p))
    if l.any ok then some (delFirst ok l.reverse).reverse else none
/-- Touch sector `n` of context `i` for partition `p`; `zero` makes a zero sector, which is not filled. The flag says that
the fill was uncorrectable (R449). -/
def touchSect (s : State) (p i n : Nat) (dirty zero : Bool) : State × Bool :=
  let l := s.cxs.sects
  let hit (x : Sector) : Bool := decide (x.ctx = i ∧ x.n = n)
  match l.find? hit with
  | some x => (setSects s ({ x with dirty := x.dirty || dirty } :: l.filter (fun y => !hit y)), false)
  | none =>
    match (takeWay s i).bind (takeSector s p) with
    | none => (satRg s CXS_BYPASS_COUNT 0 0 1, false)
    | some l =>
      let s := setSects s (⟨i, n, p, dirty⟩ :: l)
      if zero then (s, false)
      else
        let s := wrapRg s CXS_MISS_COUNT 0 0 1
        match anyUE s (ctxAddr s i (n * 1024)) 1024 with
        | none => (s, false)
        | some u => (raise (memUE s 1 (u * 64) (engHandle s 6 0)) 6 0 0, true)
/-- Touch the sectors of bytes [off, off + n). -/
def touchCtx (s : State) (p i off n : Nat) (dirty : Bool) : State × Bool :=
  if n = 0 then (s, false)
  else (List.range ((off + n - 1) / 1024 + 1 - off / 1024)).foldl (fun r k =>
    let (s, b) := touchSect r.1 p i (off / 1024 + k) dirty false
    (s, r.2 || b)) (s, false)
/-- Pin a sector for a slot batch, within its partition's quota (R450). -/
def pinSect (s : State) (p cell slot i n : Nat) : State :=
  let mine := (s.cxs.pins.filter (fun q => decide (ctxOwner s q.2.2.1 = some p))).length
  if mine < (rg s CXS_CACHE_QUOTA 0 p).toNat ∧ !sectPinned s i n then
    let (s, _) := touchSect s p i n false false
    if s.cxs.sects.any (fun x => decide (x.ctx = i ∧ x.n = n)) then
      { s with cxs := { s.cxs with pins := s.cxs.pins ++ [(cell, slot, i, n)] } }
    else s
  else s

end Sys2Proof.Machine
end

