-- ==== Sys2Proof/Machine/LinkOps.lean ====
section
/-! DEFINITION. Sending over an Ilush link: the port to a peer chip, and credits (19 R574 R576 R577). -/

namespace Sys2Proof.Machine

open Sys2Proof

/-- Is the link of a port up, and to which chip? -/
def linkPeer (s : State) (port : Nat) : Option Nat :=
  let w := rg s ILK_ILK_STAT port 0
  if bit w 31 then some (fld w 10 8) else none
/-- Version of a port's link. -/
def linkVer (s : State) (port : Nat) : Nat := fld (rg s ILK_ILK_STAT port 0) 23 16
/-- Ports to a peer chip, in ascending index. -/
def portsTo (s : State) (chip : Nat) : List Nat := (List.range 8).filter (fun p => decide (linkPeer s p = some chip))
/-- The one port that traffic of a unit to a peer chip uses (R574). -/
def portFor (s : State) (chip : Nat) (unit : Word) : Option Nat :=
  let l := portsTo s chip
  if l = [] then none else l[unit.toNat % l.length]?
/-- Credits of a channel under R576; without channel 2 its credits go to channel 0. -/
def credits (ver ch : Nat) : Nat :=
  match ch with
  | 0 => if ver = 0x10 then 448 else 384
  | 1 => 32
  | 2 => if ver = 0x10 then 0 else 64
  | _ => 32
/-- Flits sent on a channel of a port and not acknowledged. -/
def unacked (s : State) (port ch : Nat) : List (Nat × Nat) := tgetD [] s.ilk.unacked (port * 4 + ch)
/-- Replace them. -/
def setUnacked (s : State) (port ch : Nat) (l : List (Nat × Nat)) : State :=
  { s with ilk := { s.ilk with unacked := tsetD [] s.ilk.unacked (port * 4 + ch) l } }
/-- Send one flit: it takes a credit of its channel (R576, R577). `own` is the engine and descriptor it belongs to. -/
def sendFlit (s : State) (port ch kind : Nat) (data : List Nat) (own : Nat × Nat) : Option State :=
  let a := (rg s ILK_CR_AVAIL port ch).toNat
  if a = 0 then none
  else
    let s := setRg s ILK_CR_AVAIL port ch (w32 (a - 1))
    let s := wrapRg s ILK_CR_OUT port ch 1
    let s := wrapRg s ILK_FLITS_TX port 0 1
    let s := { s with ilk := { s.ilk with active := tsetD 0 s.ilk.active port s.tmu.ticks } }
    some (emit (setUnacked s port ch (unacked s port ch ++ [own])) (.flit port kind data))
/-- Send several flits, all or none. -/
def sendFlits (s : State) (port ch kind : Nat) (own : Nat × Nat) : List (List Nat) → Option State
  | [] => some s
  | d :: t => match sendFlit s port ch kind d own with
    | none => none
    | some s => sendFlits s port ch kind own t

end Sys2Proof.Machine
end

