-- ==== Sys2Proof/Machine/TileCore.lean ====
section
/-! DEFINITION. The tile instruction before the drain (03 R70-R84, R90, R96-R97; 02 R40-R51): operands, exact sums, the
checksum registers, where the outputs go, and the checks of R76. -/

namespace Sys2Proof.Machine

open Sys2Proof

/-! ### Reads and writes of the unit's namespace through the firewall (01 R29 R30) -/

/-- First bytes of the 64-byte lines of [a, a + n) of the namespace of cluster `c` that partition `p` may not reach. -/
def deniedLines (s : State) (p c a n : Nat) : List Nat :=
  ((linesOf a n).map (fun l => l * 64)).filter (fun l =>
    match nsLoc s c l with | some (k, o) => !spAdmit s p k o 64 | none => true)
/-- `n` bytes of the namespace: a line that is denied reads as zero. -/
def unitRead (s : State) (p c a n : Nat) : List Byte :=
  let bad := deniedLines s p c a n
  (List.range n).map (fun i => if (a + i) / 64 * 64 ∈ bad then 0 else nsByte s c (a + i))
/-- Write bytes into the namespace; the bytes of a line that is denied are discarded. -/
def unitWrite (s : State) (p c a : Nat) (bs : List Byte) : State :=
  let bad := deniedLines s p c a bs.length
  if bad = [] then nsWrite s c a bs
  else (List.range bs.length).foldl (fun s i =>
    if (a + i) / 64 * 64 ∈ bad then s else nsWrite s c (a + i) [bs.getD i 0]) s
/-- The record of a denial in the namespace, at the first line that was denied, and the marks of R30. -/
def unitDeny (s : State) (j p c : Nat) (bad : List Nat) (write : Bool) (items : List Nat) : State :=
  match bad with
  | [] => s
  | a :: _ => markItems (deny s 2 p (clHandle s c) a write) j 2 items (some c)

/-! ### Elements -/

/-- An operand element as the array consumes it: value, imaginary part, block exponent, and whether it was an FP8 value
that is not finite or an invalid BFP16 encoding (R40, R43). -/
structure El where
  re : Int := 0
  im : Int := 0
  ex : Nat := 0
  nf : Bool := false
  fe : Bool := false
  deriving DecidableEq, Repr

/-- A little-endian halfword, signed. -/
def half16 (bs : List Byte) (i : Nat) : Int := sgn 16 ((bs.getD i 0).toNat + 256 * (bs.getD (i + 1) 0).toNat)
/-- Element `k` of a row of operand bytes; `exps` is its part of the exponent plane (R42, R43, R72). -/
def elAt (f : OpFmt) (conj : Bool) (bs exps : List Byte) (k : Nat) : El :=
  match f with
  | .int8 => { re := sgn 8 (bs.getD k 0).toNat }
  | .int16 => { re := half16 bs (2 * k) }
  | .cint16 => { re := half16 bs (4 * k), im := if conj then -half16 bs (4 * k + 2) else half16 bs (4 * k + 2) }
  | .e4m3 | .e5m2 => let (x, nf) := fp8Int f (bs.getD k 0).toNat; { re := x, nf := nf }
  | .bfp16 =>
    let e := (exps.getD (k / 32) 0).toNat
    let m := half16 bs (2 * k)
    if e = 0 then {}
    else if e = 255 then { ex := e, fe := true }
    else if m = -32768 then { ex := e, fe := true }
    else { re := m, ex := e }
/-- Bytes of one row of an exponent plane (R73). -/
def expPad (k : Nat) : Nat := ceilDiv (ceilDiv k 32) 64 * 64
/-- A row of `k` elements at `a`, its exponents at `ea`. -/
def elsAt (s : State) (p c : Nat) (f : OpFmt) (conj : Bool) (k a ea : Nat) : List El :=
  let bs := unitRead s p c a (k * f.bytes)
  let es := if f = .bfp16 then unitRead s p c ea (ceilDiv k 32) else []
  (List.range k).map (elAt f conj bs es)

/-! ### Sums (R47-R51, R70-R72) -/

/-- One K step: what it adds to the real sum and the imaginary sum, and whether BFP_WINDOW is set by it. -/
def term (fa fb : OpFmt) (eref : Nat) (a b : El) : Int × Int × Bool :=
  match fa with
  | .cint16 => (a.re * b.re - a.im * b.im, a.re * b.im + a.im * b.re, false)
  | .bfp16 => let (x, w) := bfpPlace eref (a.ex + b.ex) (a.re * b.re); (x, 0, w)
  | _ => (a.re * b.re * (2 ^ (if fa.fp8 then fp8Shift fa fb else 0) : Nat), 0, false)
/-- Add to a Long Register, which holds once it has saturated (R48). -/
def LSum.add (l : LSum) (x : Int) (win nf fe : Bool) : LSum :=
  let (v, o) := if l.lsat then (l.v, true) else clamp96 (l.v + x)
  { v := v, lsat := o, win := l.win || win, nf := l.nf || nf, fe := l.fe || fe }
/-- The sums of one output: real and imaginary. -/
def dot (fa fb : OpFmt) (eref : Nat) : List El → List El → LSum × LSum → LSum × LSum
  | a :: as, b :: bs, (re, im) =>
    let (x, y, w) := term fa fb eref a b
    let nf := a.nf || b.nf
    let fe := a.fe || b.fe
    dot fa fb eref as bs (re.add x w nf fe, im.add y w nf fe)
  | _, _, r => r
/-- The sums without the 96-bit range, for the checksum registers (R90). -/
def exactDot (fa fb : OpFmt) (eref : Nat) : List El → List El → Int × Int
  | a :: as, b :: bs =>
    let (x, y, _) := term fa fb eref a b
    let (u, v) := exactDot fa fb eref as bs
    (x + u, y + v)
  | _, _ => (0, 0)
/-- The largest usable block exponent at K step `k` (R49). -/
def expMax (rows : List (List El)) (k : Nat) : Option Nat :=
  rows.foldl (fun m r =>
    let e := (r.getD k {}).ex
    if e = 0 ∨ e = 255 then m else some (Nat.max e (m.getD 0))) none
/-- The reference exponent of automatic mode (R49). -/
def autoEref (k : Nat) (as bs : List (List El)) : Nat :=
  (((List.range k).filterMap (fun i =>
    match expMax as i, expMax bs i with | some x, some y => some (x + y) | _, _ => none)).foldl Nat.max 0).max 2

/-! ### Geometry (R73, R84, R96) -/

/-- FMT_A as a format; the checks come before any use. -/
def fmtA (ws : List Word) : OpFmt := (opFmt? (tileFmtA ws)).getD .int8
/-- FMT_B. -/
def fmtB (ws : List Word) : OpFmt := (opFmt? (tileFmtB ws)).getD .int8
/-- OUT_FMT. -/
def fmtOut (ws : List Word) : OutFmt := (outFmt? (tileOut ws)).getD .int8
/-- Columns, or group columns, of one half of the array. -/
def halfCols (ws : List Word) : Nat := if tileCplx ws then 64 else 128
/-- Columns inside N that a half holds. -/
def colsIn (ws : List Word) (pair : Bool) (h : Nat) : Nat :=
  let n := tileN ws
  if !pair then n else if h = 0 then Nat.min n (halfCols ws) else n - Nat.min n (halfCols ws)
/-- Halves of the unit. -/
def halfList (pair : Bool) : List Nat := if pair then [0, 1] else [0]
/-- First byte of a half's namespace. -/
def halfBase (h : Nat) : Nat := h * Config.spadBytes
/-- Bytes of one output element, complex parts included. -/
def outSize (ws : List Word) : Nat := (fmtOut ws).bytes * (if tileCplx ws then 2 else 1)
/-- Output row `r` of half `h`: start and length. -/
def outRow (ws : List Word) (pair : Bool) (h r : Nat) : Nat × Nat :=
  (halfBase h + addr24 ws 5 + r * (wd ws 8).toNat, colsIn ws pair h * outSize ws)
/-- Row `r` of A. -/
def aRow (ws : List Word) (r : Nat) : Nat × Nat := (addr24 ws 3 + r * (wd ws 6).toNat, tileK ws * (fmtA ws).bytes)
/-- Column `j` of half `h` of B. -/
def bCol (ws : List Word) (h j : Nat) : Nat × Nat :=
  (halfBase h + addr24 ws 4 + j * (wd ws 7).toNat, tileK ws * (fmtB ws).bytes)
/-- Exponents of row `r` of A and of column `j` of half `h` of B. -/
def aExp (ws : List Word) (r : Nat) : Nat × Nat := (addr24 ws 9 + r * expPad (tileK ws), ceilDiv (tileK ws) 32)
/-- Exponents of a column of B. -/
def bExp (ws : List Word) (h j : Nat) : Nat × Nat :=
  (halfBase h + addr24 ws 10 + j * expPad (tileK ws), ceilDiv (tileK ws) 32)
/-- The rescale records that half `h` uses (R57, R75, R87, R96). -/
def rsclRange (ws : List Word) (pair : Bool) (h : Nat) : Nat × Nat := (halfBase h + addr24 ws 11, 16 * colsIn ws pair h)
/-- RSCL. -/
def tileRscl (ws : List Word) : Bool := bit (wd ws 0) 4
/-- Every range that the tile reads in half `h`, but for A. -/
def bRanges (ws : List Word) (pair : Bool) (h : Nat) : List (Nat × Nat) :=
  let js := List.range (colsIn ws pair h)
  js.map (bCol ws h) ++ (if fmtB ws = .bfp16 then js.map (bExp ws h) else []) ++
    (if tileRscl ws then [rsclRange ws pair h] else [])
/-- Every range of the A side. -/
def aRanges (ws : List Word) : List (Nat × Nat) :=
  let rs := List.range (tileM ws)
  rs.map (aRow ws) ++ (if fmtA ws = .bfp16 then rs.map (aExp ws) else [])
/-- Every range that the tile reads. -/
def tileReads (ws : List Word) (pair : Bool) : List (Nat × Nat) :=
  aRanges ws ++ (halfList pair).flatMap (bRanges ws pair)
/-- Output ranges of half `h` from row `r` on; none where the tile goes to the queue. -/
def outRanges (ws : List Word) (pair : Bool) (h r : Nat) : List (Nat × Nat) :=
  if tileDest ws then [] else (List.range (tileM ws - r)).map (fun i => outRow ws pair h (r + i))
/-- Do two lists of ranges meet? -/
def rangesMeet (a b : List (Nat × Nat)) : Bool := a.any (fun x => b.any (fun y => overlap x.1 x.2 y.1 y.2))

/-! ### The checks (R76, R97, R176) -/

/-- The lowest REASON among those that apply (log 11). -/
def firstCode : List (Nat × Bool) → Option Nat
  | [] => none
  | (c, b) :: t => if b then some c else firstCode t
/-- Is an item list beyond the job's table (R176)? -/
def itemsOut (x : Job) (items : List Nat) : Bool := items.any (fun i => decide (x.nitems ≤ i))
/-- Every address and leading dimension that the tile uses (R73). -/
def tileAddrs (ws : List Word) : List Nat :=
  [addr24 ws 3, addr24 ws 4, (wd ws 6).toNat, (wd ws 7).toNat] ++
    (if tileDest ws then [] else [addr24 ws 5, (wd ws 8).toNat]) ++
    (if fmtA ws = .bfp16 then [addr24 ws 9, addr24 ws 10] else []) ++ (if tileRscl ws then [addr24 ws 11] else [])
/-- Why a tile instruction is inconsistent. -/
def tileBad (s : State) (x : Job) (c : Nat) (ws : List Word) : Option Nat :=
  let pair := cherry s c
  let cx := tileCplx ws
  let top := if cx then 64 else 128
  let fa := fmtA ws
  let fb := fmtB ws
  let eref := fld (wd ws 13) 31 23
  let conj := bit (wd ws 0) 3 || bit (wd ws 0) 2
  let out := tileOut ws
  let k := tileK ws
  let writes := (halfList pair).flatMap (fun h => outRanges ws pair h 0)
  let low := bRanges ws pair 0 ++ outRanges ws pair 0 0
  firstCode [
    (1, decide (opcodeOf ws ≠ 0x40) || (opFmt? (tileFmtA ws)).isNone || (opFmt? (tileFmtB ws)).isNone ||
      (outFmt? out).isNone || decide (tileAct ws ≥ 5) || decide (fld (wd ws 0) 7 6 = 3)),
    (2, (tileReads ws pair ++ writes).any (fun r => decide (r.1 + r.2 > nsSize s c))),
    (3, decide (k = 0 ∨ tileM ws = 0 ∨ tileN ws = 0 ∨ tileM ws > top ∨ tileN ws > top * (halfList pair).length) ||
      (decide (fa ≠ fb) && !(fa.fp8 && fb.fp8)) ||
      (decide (fa = .bfp16) && decide (eref = 1 ∨ 509 ≤ eref)) ||
      (decide (out = 7) && (tileRscl ws || decide (tileAct ws ≠ 0))) ||
      (cx && (decide (tileAct ws ≠ 0) || !decide (out = 1 ∨ out = 2 ∨ out = 6 ∨ out = 7))) ||
      (!cx && conj) ||
      decide ((wd ws 6).toNat < k * fa.bytes ∨ (wd ws 7).toNat < k * fb.bytes) ||
      (!tileDest ws && decide ((wd ws 8).toNat < tileN ws * outSize ws))),
    (4, (tileAddrs ws).any (fun a => decide (a % 64 ≠ 0))),
    (7, decide (out ≠ 7) && (jobObj s x (fld (wd ws 12) 15 0)).isNone),
    (8, itemsOut x (tileItems ws)),
    (9, pair && low.any (fun r => decide (r.1 + r.2 > Config.spadBytes)))]

/-! ### Starting a tile -/

/-- Faults that strike half `h`, with columns counted from the half's first. -/
def halfFaults (cx : Bool) (h : Nat) (fs : List CellFault) : List CellFault :=
  let w := if cx then 64 else 128
  fs.filterMap (fun f => match f.site with
    | .cell i j => if j / 128 = h ∧ i < 128 then some { f with site := .cell i (j % 128) } else none
    | .csumRow j => if j / w = h then some { f with site := .csumRow (j % w) } else none
    | .csumCol i => if i / 128 = h then some { f with site := .csumCol (i % 128) } else none)
/-- Row, column and part of the sum that a cell's fault reaches (R72, R94). -/
def faultSum (cx : Bool) (i j : Nat) : Nat × Nat × Bool := if cx then (i / 2, j / 2, decide (j % 2 = 1)) else (i, j, false)
/-- What faults add to the sum of row `i`, column `j` and a part. -/
def faultAt (cx : Bool) (fs : List CellFault) (i j : Nat) (imag : Bool) : Int :=
  (fs.map (fun f => match f.site with
    | .cell a b => if faultSum cx a b = (i, j, imag) then f.delta else 0 | _ => 0)).sum
/-- What faults add to a register of the checksum row or column. -/
def faultCs (fs : List CellFault) (row : Bool) (n : Nat) (imag : Bool) : Int :=
  (fs.map (fun f => match f.site with
    | .csumRow j => if row ∧ j = n ∧ f.imag = imag then f.delta else 0
    | .csumCol i => if !row ∧ i = n ∧ f.imag = imag then f.delta else 0
    | _ => 0)).sum
/-- The tile of half `h`. -/
def mkTile (i : Issued) (serial h eref : Nat) (as bs : List (List El)) (faults : List CellFault) : Tile :=
  let ws := i.words
  let fa := fmtA ws
  let fb := fmtB ws
  let cx := tileCplx ws
  let fs := halfFaults cx h faults
  let row (r : Nat) (a : List El) : List LSum :=
    ((List.range bs.length).map (fun j =>
      let (re, im) := dot fa fb eref a (bs.getD j []) ({ v := 0 }, { v := 0 })
      let re := { re with v := wrapS 96 (re.v + faultAt cx fs r j false) }
      let im := { im with v := wrapS 96 (im.v + faultAt cx fs r j true) }
      if cx then [re, im] else [re])).flatten
  let ex (a b : List El) (imag : Bool) : Int :=
    let (u, v) := exactDot fa fb eref a b
    if imag then v else u
  let parts := if cx then [false, true] else [false]
  { ins := i, serial := serial, half := h, eref := eref, cplx := cx
    rows := (List.range as.length).map (fun r => row r (as.getD r []))
    csRow := parts.map (fun q => (List.range (halfCols ws)).map (fun j =>
      (as.map (fun a => ex a (bs.getD j []) q)).sum + faultCs fs true j q))
    csCol := parts.map (fun q => (List.range (halfCols ws)).map (fun r =>
      (bs.map (fun b => ex (as.getD r []) b q)).sum + faultCs fs false r q))
    outside := fs.filter (fun f => match f.site with
      | .cell a b => let (r, j, _) := faultSum cx a b; decide (as.length ≤ r ∨ bs.length ≤ j) | _ => false) }
/-- Drain steps of a tile: rows, or strips of a row of partials that goes to the queue (R117). -/
def Tile.steps (t : Tile) : Nat :=
  if tileDest t.ins.words ∧ tileOut t.ins.words = 7 then 4 * tileM t.ins.words else tileM t.ins.words
/-- Has the tile drained? -/
def Tile.done (t : Tile) : Bool := decide (t.steps ≤ t.drained)
/-- Rows that the drain has finished. -/
def Tile.rowsDone (t : Tile) : Nat := if t.steps = tileM t.ins.words then t.drained else t.drained / 4
/-- The number by which verdict states name a tile. -/
def Tile.id (t : Tile) : Nat := 2 * t.serial + t.half
/-- Tiles in flight in the unit of cluster `c`. -/
def unitTiles (s : State) (c : Nat) : List Tile := (halves s c).flatMap (fun h => (clu s h).tiles)
/-- Must a reader of these ranges wait for an earlier tile's drain (R80, R108)? -/
def waitsDrain (s : State) (c : Nat) (reads : List (Nat × Nat)) (before : Nat) : Bool :=
  let pair := cherry s c
  (unitTiles s c).any (fun t => decide (t.serial < before) && rangesMeet reads (outRanges t.ins.words pair t.half t.rowsDone))
/-- Tiles whose verdict a reader of these ranges depends on (R93, R734). -/
def readsTiles (s : State) (c : Nat) (reads : List (Nat × Nat)) : List Nat :=
  let pair := cherry s c
  ((unitTiles s c).filter (fun t => rangesMeet reads (outRanges t.ins.words pair t.half 0))).map Tile.id
/-- Make items depend on tiles' verdicts. -/
def addDep (s : State) (c : Nat) (ids : List Nat) (d : Dep) : State :=
  (halves s c).foldl (fun s h =>
    let x := clu s h
    setClu s h { x with tiles := x.tiles.map (fun t => if t.id ∈ ids then { t with deps := t.deps ++ [d] } else t) }) s
/-- The events of a computed tile (R62), in the page of its half. -/
def tileEvents (s : State) (c : Nat) (t : Tile) : State :=
  let f (p : LSum → Bool) : Bool := t.rows.any (fun r => r.any p)
  let s := if f LSum.lsat then raise s 16 c 1 else s
  let s := if f LSum.win then raise s 16 c 2 else s
  let s := if f LSum.nf then raise s 16 c 3 else s
  if f LSum.fe then raise s 16 c 4 else s
/-- Compute a consistent tile instruction on the unit that cluster `c` leads. -/
def startTile (s : State) (c j : Nat) (i : Issued) (serial : Nat) (faults : List CellFault) : State :=
  let ws := i.words
  let pair := cherry s c
  let p := ownerOf s 16 c
  let as := (List.range (tileM ws)).map (fun r =>
    elsAt s p c (fmtA ws) (bit (wd ws 0) 3) (tileK ws) (aRow ws r).1 (aExp ws r).1)
  let bs (h : Nat) := (List.range (colsIn ws pair h)).map (fun q =>
    elsAt s p c (fmtB ws) (bit (wd ws 0) 2) (tileK ws) (bCol ws h q).1 (bExp ws h q).1)
  let eref := if fmtA ws ≠ .bfp16 then 0
    else if fld (wd ws 13) 31 23 = 0 then autoEref (tileK ws) as ((halfList pair).flatMap bs)
    else fld (wd ws 13) 31 23
  let reads := tileReads ws pair
  let bad := reads.flatMap (fun r => deniedLines s p c r.1 r.2)
  let s := addDep s c (readsTiles s c reads) { items := tileItems ws }
  let s := unitDeny s j p c bad false (tileItems ws)
  (halfList pair).foldl (fun s h =>
    let t := mkTile i serial h eref as (bs h) faults
    let x := clu s (c + h)
    tileEvents (setClu s (c + h) { x with tiles := x.tiles ++ [t] }) (c + h) t) s

end Sys2Proof.Machine
end

