-- ==== Sys2Proof/Machine/CopyCore.lean ====
section
/-! DEFINITION. The copy engines (07 R207-R221, R229, R230, R735): spaces, the checks of R213, hazards, runs, conversion and
transposition. Spaces as an engine resolves them: 0 the unit's namespace, 1 X, 2 Y, 4 device address of external memory,
5 site buffer, 6 decoder memory, 7 fronthaul buffers, 8 host, 10 peer chip, 11 UE context (index × 64 KiB + offset). -/

namespace Sys2Proof.Machine

open Sys2Proof

/-! ### Fields (R209, R210) -/

/-- SRC_SPACE. -/
def copySrcSp (ws : List Word) : Nat := fld (wd ws 0) 23 20
/-- DST_SPACE. -/
def copyDstSp (ws : List Word) : Nat := fld (wd ws 0) 19 16
/-- CONV. -/
def copyConv (ws : List Word) : Nat := fld (wd ws 0) 15 12
/-- ESIZE in bytes. -/
def copyEsize (ws : List Word) : Nat := 2 ^ fld (wd ws 0) 11 10
/-- TRANSPOSE. -/
def copyTrans (ws : List Word) : Bool := bit (wd ws 0) 9
/-- ROW_BYTES. -/
def copyRow (ws : List Word) : Nat := (wd ws 5).toNat
/-- Is it a FILL? -/
def isFill (ws : List Word) : Bool := decide (opcodeOf ws = 0x21)
/-- A conversion to BFP16? -/
def toBfp (ws : List Word) : Bool := decide (1 ≤ copyConv ws ∧ copyConv ws ≤ 4)
/-- Source element size of a conversion (R213). -/
def convSize (conv : Nat) : Nat := match conv with | 1 | 5 => 4 | 2 | 4 => 2 | _ => 1
/-- Source element size: of the conversion, of the transposition, or a byte. -/
def srcEl (ws : List Word) : Nat :=
  if copyConv ws ≠ 0 then convSize (copyConv ws) else if copyTrans ws then copyEsize ws else 1
/-- Destination rows of a plane. -/
def dstRows (ws : List Word) : Nat := if copyTrans ws then copyRow ws / copyEsize ws else copyRows ws
/-- Elements of a destination row. -/
def dstElems (ws : List Word) : Nat := if copyTrans ws then copyRows ws else copyRow ws / srcEl ws
/-- Bytes of a destination row; a BFP16 row ends with its last block of 32 (R45). -/
def dstRowBytes (ws : List Word) : Nat :=
  if toBfp ws then ceilDiv (dstElems ws) 32 * 64
  else if copyConv ws = 5 then dstElems ws * 2 else dstElems ws * srcEl ws
/-- Bytes from the base to the end of the last row. -/
def extentOf (planes pstride rows stride len : Nat) : Nat := (planes - 1) * pstride + (rows - 1) * stride + len
/-- SIG_OP and object index of a SIGNAL word. -/
def sigOp (w : Word) : Nat := fld w 31 28

/-! ### Spaces (R211, R229) -/

/-- Partition that an engine stamps (R29, R208). -/
def engPart (s : State) (e : Nat) (x : Job) : Nat := if e < 18 then ownerOf s 19 e else x.part
/-- Handle of an engine. -/
def engUnit (s : State) (e : Nat) : Word := if e < 18 then engHandle s 19 e else engHandle s 20 (e - 18)
/-- Bytes of a space, as the descriptor of job `x` may address it. -/
def spaceSize (s : State) (e : Nat) (x : Job) (sp : Nat) : Nat :=
  match sp with
  | 0 => unitSize x.units
  | 1 | 2 => Config.xyBytes
  | 3 => match genOf s x with | some g => g.len | none => 0
  | 4 => match partRegion s (engPart s e x) with | some (_, z, _) => z | none => 0
  | 5 => Config.siteBytes
  | 6 => Config.dwmBytes
  | 7 => Config.fhbBytes
  | 8 => 2 ^ 64
  | 9 => nsSize s e
  | 0xA => 2 * Config.spadBytes
  | 0xB => 65536
  | _ => 0
/-- The address that a descriptor gives in a space: the bits that R211 names, the others are ignored (R15). -/
def spaceAddr (sp : Nat) (lo hi : Word) : Nat :=
  match sp with
  | 0 => fld lo 29 0
  | 1 | 2 => fld lo 16 0
  | 4 => addr64 lo hi % 2 ^ 40
  | 5 => fld lo 25 0
  | 6 | 9 | 0xA => fld lo 23 0
  | 7 => fld lo 22 0
  | 8 => addr64 lo hi
  | 0xB => fld lo 15 0
  | _ => lo.toNat
/-- A space code that the opcode does not allow as a source or destination. -/
def spaceBad (e op sp : Nat) (src : Bool) : Bool :=
  let xy := decide (e ≥ 18) && (decide (sp = 1) || decide (sp = 2))
  if op = 0x22 then (if src then decide (sp ≠ 0) else !(decide (sp = 9) || decide (sp = 0xA)))
  else if src then xy || decide (sp = 9) || decide (sp = 0xA)
  else xy || decide (sp = 3) || decide (sp = 9)
/-- Place of the engine's member in its unit, as a logical unit of the grid (R197). -/
def gridUnit (s : State) (e : Nat) (x : Job) : Nat := unitBase s x.level + (members s x).idxOf (leadOf s e)
/-- The logical unit that a HALO names (R198, R211). -/
def haloUnit (s : State) (e : Nat) (x : Job) (ws : List Word) : Option Nat :=
  match genOf s x with
  | none => none
  | some g => match gridRec s g x.entry with
    | none => none
    | some (gm, gn, gk, _, _, _, _) => gridNeighbour gm gn gk (gridUnit s e x) (fld (wd ws 4) 1 0)
/-- Where the base of a source or destination lies; none for a HALO neighbour outside the grid. -/
def spaceBase (s : State) (e : Nat) (x : Job) (ws : List Word) (sp : Nat) (lo hi : Word) : Option (Nat × Nat) :=
  let a := spaceAddr sp lo hi
  match sp with
  | 3 => (genOf s x).map (fun g => (4, g.base + a))
  | 4 => (partRegion s (engPart s e x)).map (fun r => (4, r.1 + a))
  | 9 =>
    match haloUnit s e x ws with
    | none => none
    | some u =>
      let b := unitBase s x.level
      if u < b ∨ u ≥ b + (members s x).length then some (0xA, a + u % 16 * 2 ^ 24 + u / 16 * 2 ^ 28)
      else ((members s x)[u - b]?).bind (fun c => some (0, (physUnits s x).idxOf c * Config.spadBytes + a))
  | 0xA => some (0xA, a + fld hi 6 3 * 2 ^ 24 + fld hi 2 0 * 2 ^ 28)
  | 0xB => some (0xB, fld hi 17 0 * 65536 + a)
  | _ => some (sp, a)

/-! ### The checks of R213, R443, R445 -/

/-- Rows of a source or destination as ranges: start and length. -/
def rowRanges (base planes pstride rows stride len : Nat) : List (Nat × Nat) :=
  (List.range planes).flatMap (fun p => (List.range rows).map (fun r => (base + p * pstride + r * stride, len)))
/-- Source rows from `base`. -/
def srcRanges (ws : List Word) (base : Nat) : List (Nat × Nat) :=
  rowRanges base (copyPlanes ws) (wd ws 9).toNat (copyRows ws) (wd ws 7).toNat (copyRow ws)
/-- Destination rows from `base`. -/
def dstRanges (ws : List Word) (base : Nat) : List (Nat × Nat) :=
  rowRanges base (copyPlanes ws) (wd ws 10).toNat (dstRows ws) (wd ws 8).toNat (dstRowBytes ws)
/-- Bytes of the exponent plane that a conversion writes. -/
def expBytes (ws : List Word) : Nat := if toBfp ws then copyPlanes ws * dstRows ws * expPad (dstElems ws) else 0
/-- Does a range of decoder memory touch a private half (R730)? -/
def dwmPrivate (r : Nat × Nat) : Bool := decide (r.1 % 0x100000 + r.2 > 0x80000)
/-- An update descriptor has the form of R445. -/
def updForm (ws : List Word) : Bool :=
  decide (opcodeOf ws = 0x20) && decide (wd ws 3 = 0) && bit (wd ws 4) 31 && decide (copyRows ws = 1) &&
    decide (copyPlanes ws = 1) && decide (copyConv ws = 0) && !copyTrans ws && decide (132 ≤ copyRow ws)
/-- Why a copy descriptor is skipped; the lowest code that applies (log 11). -/
def copyBad (s : State) (e : Nat) (x : Job) (ws : List Word) : Option Nat :=
  let op := opcodeOf ws
  let ss := copySrcSp ws
  let ds := copyDstSp ws
  let cv := copyConv ws
  let se := spaceAddr ss (wd ws 1) (wd ws 2) +
    extentOf (copyPlanes ws) (wd ws 9).toNat (copyRows ws) (wd ws 7).toNat (copyRow ws)
  let de := spaceAddr ds (wd ws 3) (wd ws 4) +
    extentOf (copyPlanes ws) (wd ws 10).toNat (dstRows ws) (wd ws 8).toNat (dstRowBytes ws)
  let row := copyRow ws
  let badSp := (!isFill ws && spaceBad e op ss true) || spaceBad e op ds false
  let p := engPart s e x
  let ctx (hi : Word) : Nat := fld hi 17 0
  firstCode [
    (1, !decide (0x20 ≤ op ∧ op ≤ 0x22) || decide (cv ≥ 6) || decide (fld (wd ws 0) 7 6 = 3) ||
      decide (fld (wd ws 0) 11 10 = 3) || decide (ds ≥ 0xC) || (!isFill ws && decide (ss ≥ 0xC)) ||
      decide (sigOp (wd ws 12) ≥ 3)),
    (2, !badSp && ((!isFill ws && decide (se > spaceSize s e x ss)) || decide (de > spaceSize s e x ds) ||
      (!isFill ws && decide (ss = 6) && (srcRanges ws (spaceAddr 6 (wd ws 1) 0)).any dwmPrivate) ||
      (decide (ds = 6) && (dstRanges ws (spaceAddr 6 (wd ws 3) 0)).any dwmPrivate) ||
      (toBfp ws && decide (fld (wd ws 11) 29 0 + expBytes ws > unitSize x.units)))),
    (3, decide (row = 0 ∨ row > 2 ^ 24 ∨ copyRows ws = 0 ∨ copyPlanes ws = 0) ||
      (copyTrans ws && decide (row % copyEsize ws ≠ 0)) || (decide (cv ≠ 0) && decide (row % convSize cv ≠ 0)) ||
      (copyTrans ws && decide (cv ≠ 0) && decide (copyEsize ws ≠ convSize cv)) ||
      (isFill ws && (decide (cv ≠ 0) || copyTrans ws)) ||
      (decide (e ≥ 18) && (copyGateM ws || copyGateV ws || copyAfterM ws || copyAfterV ws))),
    (4, toBfp ws && decide (fld (wd ws 11) 29 0 % 64 ≠ 0)),
    (7, decide (sigOp (wd ws 12) ≠ 0) && (jobObj s x (fld (wd ws 12) 15 0)).isNone),
    (8, itemsOut x (copyItems ws)),
    (0x10, badSp),
    (0x1C, (!isFill ws && decide (ss = 0xB) && decide (ctxOwner s (ctx (wd ws 2)) ≠ some p)) ||
      (decide (ds = 0xB) && decide (ctxOwner s (ctx (wd ws 4)) ≠ some p))),
    (0x1D, decide (ds = 0xB) && !updForm ws),
    (0x1E, !isFill ws && decide (ss = 0xB) && decide (ctxState s (ctx (wd ws 2)) = 0))]

/-! ### The queue (R214, R216, R217, R219) -/

/-- A copy engine. -/
def engOf (s : State) (e : Nat) : CopyEng := tgetD {} s.eng e
/-- Replace a copy engine. -/
def setEng (s : State) (e : Nat) (x : CopyEng) : State := { s with eng := tsetD {} s.eng e x }
/-- Change a descriptor by its number. -/
def modDesc (s : State) (e n : Nat) (f : CopyDesc → CopyDesc) : State :=
  let x := engOf s e
  setEng s e { x with q := x.q.map (fun d => if d.serial = n then f d else d) }
/-- Page code and instance of an engine. -/
def engPage (e : Nat) : Nat × Nat := if e < 18 then (19, e) else (20, e - 18)
/-- Raise an event of an engine's page (R236). -/
def engEvt (s : State) (e b : Nat) : State := raise s (engPage e).1 (engPage e).2 b
/-- Add to a wrapping counter of an engine, given its FTE name. -/
def engCount (s : State) (e r : Nat) : State :=
  wrapRg s ((engPage e).1 * 4096 + r % 4096) (engPage e).2 0 1
/-- Do consecutive source rows touch (R215)? -/
def merged (ws : List Word) : Bool := !isFill ws && decide ((wd ws 7).toNat = copyRow ws)
/-- Source ranges of a descriptor. -/
def rangeCount (ws : List Word) : Nat := if merged ws then copyPlanes ws else copyPlanes ws * copyRows ws
/-- Bytes of one source range. -/
def rangeLen (ws : List Word) : Nat := if merged ws then copyRows ws * copyRow ws else copyRow ws
/-- Has every run of a descriptor started? -/
def allStarted (d : CopyDesc) : Bool :=
  d.started && (d.skipped || d.silent || (if isPod d.ins.words then d.acted else decide (rangeCount d.ins.words ≤ d.range)))
/-- Has a run slot's time passed? -/
def slotFree (s : State) (r : Nat × Nat) : Bool := passed s r.1 r.2
/-- Is a descriptor ready to complete: nothing left to start, its last run and its update carried out, its flits
acknowledged (R573)? -/
def descDone (s : State) (e : Nat) (d : CopyDesc) : Bool :=
  allStarted d && (d.runs = 0 || slotFree s d.lastRun) &&
    (d.skipped || isPod d.ins.words || decide (copyDstSp d.ins.words ≠ 0xB) || d.acted) &&
    !s.ilk.unacked.any (fun u => u.2.any (fun o => decide (o = (e, d.serial))))
/-- Do two ranges share a 64-byte line? -/
def lineMeet (a b : Nat × Nat) : Bool :=
  decide (a.1 / 64 * 64 < b.1 + b.2) && decide (b.1 / 64 * 64 < a.1 + a.2) && decide (0 < a.2) && decide (0 < b.2)
/-- Ranges that a taken-up descriptor writes, with their space: a POP or a MOVE may write its HBUF. -/
def writesOf (d : CopyDesc) : List (Nat × (Nat × Nat)) :=
  let ws := d.ins.words
  if d.skipped ∨ d.silent ∨ opcodeOf ws = 0x30 then []
  else if isPod ws then [(d.dst.1, (d.dst.2, 16))]
  else (dstRanges ws d.dst.2).map (fun r => (d.dst.1, r)) ++
    (if toBfp ws then [(0, (fld (wd ws 11) 29 0, expBytes ws))] else [])
/-- Must a descriptor with these accesses wait for an earlier one (R217)? -/
def hazard (earlier : List CopyDesc) (acc : List (Nat × (Nat × Nat))) : Bool :=
  earlier.any (fun d => (writesOf d).any (fun w => acc.any (fun a => decide (a.1 = w.1) && lineMeet a.2 w.2)))
/-- Are AFTER_M and AFTER_V met (R219)? -/
def afterMet (s : State) (e : Nat) (d : CopyDesc) : Bool :=
  let c := leadOf s e
  let x := clu s c
  let m := !copyAfterM d.ins.words ||
    (!(unitTiles s c).any (fun t => decide (t.serial < d.ins.mxAt)) &&
      !x.mxq.any (fun n => match n with | .instr _ k => decide (k < d.ins.mxAt) | .gate _ => false))
  let v := !copyAfterV d.ins.words ||
    (decide (d.ins.vxAt ≤ x.vxDone) && (!cherry s c || decide (d.ins.vxAt2 ≤ (clu s (c + 1)).vxDone)))
  m && v
/-- The first descriptor not yet taken up, with those before it; none while one of those has runs to start. -/
def nextDesc : List CopyDesc → List CopyDesc → Option (List CopyDesc × CopyDesc)
  | _, [] => none
  | pre, d :: t => if d.started then (if allStarted d then nextDesc (pre ++ [d]) t else none) else some (pre, d)
/-- Skip a descriptor: recorded, its items failed, its page's event (R213, R203). -/
def skipDesc (s : State) (e : Nat) (d : CopyDesc) (reason source : Nat) : State :=
  let ws := d.ins.words
  let s := engEvt s e 0
  let s := if reason = 0x1C then
      let src := decide (copySrcSp ws = 0xB) && !isFill ws
      deny s 5 (match job? s d.ins.job with | some x => engPart s e x | none => 0) (engUnit s e)
        (fld (wd ws (if src then 2 else 4)) 17 0) (!src)
    else s
  let s := skipRec s d.ins.job reason source (engUnit s e) d.ins.off (copyTag ws) (copyItems ws)
    (if e < 18 then some e else none)
  modDesc s e d.serial (fun q => { q with started := true, skipped := true })
/-- Take up a descriptor whose opcode the row `op` carries out: skip it, let it pass, or make it ready to run. -/
def takeUp (s : State) (e op : Nat) : State :=
  match nextDesc [] (engOf s e).q with
  | none => s
  | some (pre, d) =>
    let ws := d.ins.words
    if isPod ws ∨ (opcodeOf ws ≠ op ∧ 0x20 ≤ opcodeOf ws ∧ opcodeOf ws ≤ 0x22) then s
    else match job? s d.ins.job with
      | none => s
      | some x =>
        match copyBad s e x ws with
        | some r => skipDesc s e d r 3
        | none =>
          let src := if isFill ws then some (0, 0) else spaceBase s e x ws (copySrcSp ws) (wd ws 1) (wd ws 2)
          match src, spaceBase s e x ws (copyDstSp ws) (wd ws 3) (wd ws 4) with
          | some a, some b =>
            let acc := (if isFill ws then [] else (srcRanges ws a.2).map (fun r => (a.1, r))) ++
              writesOf { d with dst := b }
            if hazard pre acc ∨ !afterMet s e d then s
            else modDesc s e d.serial (fun q => { q with
              started := true, src := a, dst := b, part := engPart s e x, units := physUnits s x, gen := (x.part, x.slot, x.gen) })
          | _, _ => modDesc s e d.serial (fun q => { q with started := true, silent := true })

/-! ### Moving bytes -/

/-- Does the firewall allow an engine's access to [a, a + n) of a resolved space? -/
def admitAt (s : State) (p : Nat) (units : List Nat) (key a n : Nat) (write : Bool) : Bool :=
  let g (m : Nat) : Bool := granAdmit s m p (a / 65536) ((a + n - 1) / 65536)
  match key with
  | 0 => (linesOf a n).all (fun l => match unitLoc s units (l * 64) with | some (k, o) => spAdmit s p k o 64 | none => false)
  | 4 => extAdmit s p a n write
  | 5 => g 0
  | 6 => granAdmit s 1 p (dwmGran a) (dwmGran (a + n - 1))
  | 7 => g 2
  | _ => true
/-- The firewall that denies an access to a resolved space (R731). -/
def fwOf (key : Nat) : Nat := match key with | 0 => 2 | 4 => 0 | _ => 1
/-- One byte of a unit's namespace. -/
def unitByte (s : State) (units : List Nat) (a : Nat) : Byte :=
  match unitLoc s units a with | some (k, o) => (clu s k).sp.get o | none => 0
/-- Bytes of a resolved space as engine `e` reads them. -/
def bytesAt (s : State) (e : Nat) (units : List Nat) (key a n : Nat) : List Byte :=
  match key with
  | 0 => (List.range n).map (fun i => unitByte s units (a + i))
  | 1 => (List.range n).map (fun i => xByte s e (a + i))
  | 2 => (clu s e).ym.read a n
  | 4 => extRead s a n
  | 5 => mread 0 s.mem.site a n
  | 6 => mread 0 s.mem.dwm a n
  | 7 => mread 0 s.mem.fhb a n
  | 8 => hostRead s a n
  | 0xB => ctxBytes s (a / 65536) (a % 65536) n
  | _ => List.replicate n 0
/-- Scratchpad ranges in error that a write covers are so no more (R219). -/
def healBad (s : State) (k o n : Nat) : State :=
  let c := leadOf s k
  let a := if k = c then o else o + Config.spadBytes
  let x := clu s c
  if x.bad = [] then s
  else setClu s c { x with bad := x.bad.filter (fun q => !decide (a ≤ q.1 ∧ q.1 + q.2 ≤ a + n)) }
/-- Does a source range of the unit's namespace hold data whose verdict was a mismatch? -/
def readsBad (s : State) (units : List Nat) (a n : Nat) : Bool :=
  match unitLoc s units a with
  | none => false
  | some (k, o) =>
    let c := leadOf s k
    let b := if k = c then o else o + Config.spadBytes
    (clu s c).bad.any (fun q => overlap q.1 q.2 b n)
/-- Write bytes into a unit's namespace, in the pieces of its clusters. -/
def unitPut (s : State) (units : List Nat) : Nat → Nat → List Byte → State
  | 0, _, _ => s
  | f + 1, a, bs =>
    if bs = [] then s
    else
      let n := Nat.min bs.length (Config.spadBytes - a % Config.spadBytes)
      let s := match unitLoc s units a with
        | some (k, o) => healBad (spWrite s k o (bs.take n)) k o n
        | none => s
      unitPut s units f (a + n) (bs.drop n)
/-- Write bytes into a resolved space; the flag says that a part was not carried out (R548). -/
def putAt (s : State) (e : Nat) (units : List Nat) (key a : Nat) (bs : List Byte) : State × Bool :=
  match key with
  | 0 => (unitPut s units (bs.length + 1) a bs, false)
  | 1 => (xyWrite s e false a bs, false)
  | 2 => (xyWrite s e true a bs, false)
  | 4 => extWrite s (engUnit s e) a bs
  | 5 => ({ s with mem := { s.mem with site := mwrite 0 s.mem.site a bs } }, false)
  | 6 => ({ s with mem := { s.mem with dwm := mwrite 0 s.mem.dwm a bs } }, false)
  | 7 => ({ s with mem := { s.mem with fhb := mwrite 0 s.mem.fhb a bs } }, false)
  | 8 => (hostWrite s a bs, false)
  | _ => (s, false)
/-- Mark a descriptor's items: those that the copy names. -/
def markCopy (s : State) (e : Nat) (d : CopyDesc) (lvl cause : Nat) : State :=
  let its := copyItems d.ins.words
  markItems (blame s d.ins.job cause its) d.ins.job lvl its (if e < 18 then some e else none)
/-- Write pieces of a descriptor; a denied one fails its items (R221). -/
def putPieces (s : State) (e : Nat) (d : CopyDesc) : List (Nat × Nat × List Byte) → State
  | [] => s
  | (key, a, bs) :: t =>
    if admitAt s d.part d.units key a bs.length true then
      let (s, bad) := putAt s e d.units key a bs
      let s := if key = 4 then priorWrite s d.ins.job false (match partRegion s d.part with | some r => r.1 | none => 0) a bs.length else s
      putPieces (if bad then markCopy s e d 2 5 else s) e d t
    else
      putPieces (markCopy (deny s (fwOf key) d.part (engUnit s e) a true) e d 2 5) e d t

/-! ### Conversion and transposition (R44-R46, R212) -/

/-- The staged bytes of element (row, index) of plane `p` of the destination, as a number. -/
def stagedEl (d : CopyDesc) (p r k : Nat) : Nat :=
  let ws := d.ins.words
  let es := srcEl ws
  let b := p * (copyRows ws * copyRow ws) + (if copyTrans ws then k * copyRow ws + r * es else r * copyRow ws + k * es)
  leNat (mread 0 d.staged b es)
/-- A source element of a conversion to BFP16 as a value. -/
def convVal (conv v : Nat) : FV :=
  let int (n : Nat) : FV := .fin (decide (sgn n v < 0)) (sgn n v).natAbs 0
  match conv with
  | 1 => fdecode fp32 v
  | 2 => fdecode bf16 v
  | 3 => int 8
  | _ => int 16
/-- A NaN or an infinity. -/
def FV.special : FV → Bool
  | .fin .. => false
  | _ => true
/-- Blocks of 32 (R212). -/
def blocks32 : Nat → List FV → List (List FV)
  | 0, _ => []
  | f + 1, l => if l = [] then [] else l.take 32 :: blocks32 f (l.drop 32)
/-- One block: its exponent byte, and 32 mantissas of 2 bytes (R44, R45). -/
def bfpBytes (vs : List FV) : Byte × List Byte :=
  let (e, ms) := bfpBlock (vs.map bfpRead)
  (BitVec.ofNat 8 e, (ms ++ List.replicate (32 - ms.length) 0).flatMap (fun m => natLe 2 (wrapN 16 m)))
/-- A destination row: its bytes, its exponent bytes, and whether a NaN or an infinity was met under R44. -/
def convRow (ws : List Word) (els : List Nat) : List Byte × List Byte × Bool :=
  let cv := copyConv ws
  if cv = 0 then (els.flatMap (natLe (srcEl ws)), [], false)
  else if cv = 5 then (els.flatMap (fun v => natLe 2 (memOfLane .bf16 (vcvtLane .fp32 .bf16 (w32 v)))), [], false)
  else
    let vs := els.map (convVal cv)
    let bs := (blocks32 (vs.length + 1) vs).map bfpBytes
    (bs.flatMap (fun b => b.2), bs.map (fun b => b.1), decide (cv ≤ 2) && vs.any FV.special)
/-- Write a staged copy out, and NONFINITE (R735). -/
def writeStaged (s : State) (e : Nat) (d : CopyDesc) : State :=
  let ws := d.ins.words
  let rows := (List.range (copyPlanes ws)).flatMap (fun p => (List.range (dstRows ws)).map (fun r => (p, r)))
  let outs := rows.map (fun (p, r) => (p, r, convRow ws ((List.range (dstElems ws)).map (stagedEl d p r))))
  let pieces := outs.flatMap (fun (p, r, b, x, _) =>
    (d.dst.1, d.dst.2 + p * (wd ws 10).toNat + r * (wd ws 8).toNat, b) ::
      (if x = [] then [] else [(0, fld (wd ws 11) 29 0 + (p * dstRows ws + r) * expPad (dstElems ws), x)]))
  let s := putPieces s e d pieces
  if outs.any (fun o => o.2.2.2.2) then engEvt (markCopy s e d 1 3) e 3 else s

/-! ### Runs (R214, R215, R540) -/

/-- The next run of a descriptor: source address, length, and its first byte in the packed plane, with the plane. -/
def nextRun (d : CopyDesc) : Nat × Nat × Nat × Nat :=
  let ws := d.ins.words
  let rows := copyRows ws
  let (pl, lin) := if merged ws then (d.range, d.pos) else (d.range / rows, d.range % rows * copyRow ws + d.pos)
  let a := d.src.2 + pl * (wd ws 9).toNat +
    (if merged ws then d.pos else d.range % rows * (wd ws 7).toNat + d.pos)
  let left := rangeLen ws - d.pos
  let cut := if d.src.1 = 4 ∨ d.src.1 = 8 then 4096 else 512
  let n := if isFill ws then Nat.min left 512 else Nat.min left (cut - a % cut)
  let n := if d.dst.1 = 8 then
      let o := lin % copyRow ws
      let h := d.dst.2 + pl * (wd ws 10).toNat + lin / copyRow ws * (wd ws 8).toNat + o
      Nat.min n (Nat.min (copyRow ws - o) (4096 - h % 4096))
    else n
  (a, n, lin, pl)
/-- The destination of bytes that begin at `lin` of plane `pl`, cut at the rows. -/
def runPieces (d : CopyDesc) (pl : Nat) : Nat → Nat → List Byte → List (Nat × Nat × List Byte)
  | 0, _, _ => []
  | f + 1, lin, bs =>
    if bs = [] then []
    else
      let ws := d.ins.words
      let o := lin % copyRow ws
      let n := Nat.min bs.length (copyRow ws - o)
      (d.dst.1, d.dst.2 + pl * (wd ws 10).toNat + lin / copyRow ws * (wd ws 8).toNat + o, bs.take n) ::
        runPieces d pl f (lin + n) (bs.drop n)
/-- Is a copy staged and written at its last run? -/
def isStaged (ws : List Word) : Bool := decide (copyConv ws ≠ 0) || copyTrans ws || decide (copyDstSp ws = 0xB)
/-- Does a resolved range lie in the engine's own cluster (R558)? -/
def ownPlace (s : State) (e : Nat) (units : List Nat) (q : Nat × Nat) : Bool :=
  decide (q.1 = 1) || decide (q.1 = 2) ||
    (decide (q.1 = 0) && decide ((unitLoc s units q.2).map (fun x => x.1) = some e))
/-- Bucket that a run is charged to (R558): external memory, the fabric, or none. -/
def runBucket (s : State) (e : Nat) (d : CopyDesc) (a da : Nat) : Option Nat :=
  let src := decide (d.src.1 = 4) && !isFill d.ins.words
  if src ∨ d.dst.1 = 4 then some d.part
  else if (isFill d.ins.words || ownPlace s e d.units (d.src.1, a)) && ownPlace s e d.units (d.dst.1, da) then none
  else some (256 + d.part)
/-- Take a run slot of one of the engines that share a queue; a slot kind that is full has none (R207, R214). -/
def takeSlot (s : State) (es : List Nat) (dram : Bool) (ns : Nat) : Option State :=
  match es.find? (fun h =>
    let x := engOf s h
    if dram then decide ((x.dram.filter (fun r => !slotFree s r)).length < 4)
    else decide ((x.chip.filter (fun r => !slotFree s r)).length < 8)) with
  | none => none
  | some h =>
    let x := engOf s h
    let r := (s.tmu.ticks, ns)
    let s := setEng s h (if dram then { x with dram := x.dram.filter (fun r => !slotFree s r) ++ [r] }
      else { x with chip := x.chip.filter (fun r => !slotFree s r) ++ [r] })
    some (engCount s h (if dram then FTE_RUNS_DRAM else FTE_RUNS_ONCHIP))
/-- The flits of a write to a peer chip: up to 192 bytes each, with their address (R567, R572). -/
def peerFlits (part a : Nat) : Nat → List Byte → List (List Nat)
  | 0, _ => []
  | f + 1, bs =>
    if bs = [] then []
    else ([part, a / 2 ^ 24 % 16, a % 2 ^ 24] ++ (bs.take 192).map BitVec.toNat) :: peerFlits part (a + 192) f (bs.drop 192)
/-- Send the pieces of a run to a peer chip; none while credits are short. A chip that no link reaches denies them. -/
def sendPieces (s : State) (e : Nat) (d : CopyDesc) (pieces : List (Nat × Nat × List Byte)) : Option State :=
  match pieces with
  | [] => some s
  | (_, a, bs) :: t =>
    match portFor s (a / 2 ^ 28 % 8) (engUnit s e) with
    | none => sendPieces (markCopy s e d 2 5) e d t
    | some port =>
      match sendFlits s port 0 0 (e, d.serial) (peerFlits d.part (a % 2 ^ 28) (bs.length + 1) bs) with
      | none => none
      | some s => sendPieces s e d t
/-- Zero the lines of a run that are uncorrectable (R221). -/
def zeroLines (a : Nat) (bad : List Nat) (bs : List Byte) : List Byte :=
  (List.range bs.length).map (fun i => if (a + i) / 64 ∈ bad then 0 else bs.getD i 0)
/-- The bytes of a run from its source, with what the read met: denied, uncorrectable, corrected. -/
def readRun (s : State) (e : Nat) (d : CopyDesc) (a n : Nat) (ecc : Ecc) (ok : Bool) : List Byte × State :=
  let src := d.src.1
  if !ok then
    (List.replicate n 0,
      engEvt (markCopy (deny s (fwOf src) d.part (engUnit s e) a false) e d 2 5) e 1)
  else
    let hit := if ecc = .uncorrectable then [a / 64] else []
    let mem := if src = 4 then (linesOf a n).filter (fun l => decide (l ∈ s.mem.ue)) else []
    let bad := (hit ++ mem).eraseDups
    let bs := zeroLines a bad (if src = 8 then hostReadFor s d.part a n else bytesAt s e d.units src a n)
    let s := if src = 4 then bad.foldl (fun s l => memUE s 1 (l * 64) (engUnit s e)) s else s
    let s := if src = 4 ∧ ecc = .corrected then memCE s a else s
    let (s, fill) := if src = 0xB then touchCtx s d.part (a / 65536) (a % 65536) n false else (s, false)
    let s := if src = 0xB then ctxUse s (a / 65536) else s
    let bs := if fill then List.replicate n 0 else bs
    let s := if bad ≠ [] ∨ fill then engEvt (markCopy s e d 2 5) e 1 else s
    let s := if copyAfterM d.ins.words ∧ src = 0 ∧ readsBad s d.units a n then markCopy s e d 2 2 else s
    (bs, s)
/-- Start the next run of descriptor `d`. -/
def startRun (s : State) (e : Nat) (d : CopyDesc) (ecc : Ecc) : State :=
  let ws := d.ins.words
  let (a, n, lin, pl) := nextRun d
  let fill := isFill ws
  let pieces0 := runPieces d pl (n + 1) lin (List.replicate n 0)
  let da := match pieces0 with | (_, x, _) :: _ => x | [] => 0
  let stg := isStaged ws
  let rok := fill || admitAt s d.part d.units d.src.1 a n false
  let wok := stg || pieces0.all (fun q => admitAt s d.part d.units q.1 q.2.1 q.2.2.length true)
  let host := decide (d.src.1 = 8) && !fill || decide (d.dst.1 = 8)
  let dram := (!fill && (decide (d.src.1 = 4) || decide (d.src.1 = 8))) || decide (d.dst.1 = 8)
  let ns := if !fill && decide (d.src.1 = 8) then 800 else if dram then 180 else 40
  let paid := if rok ∧ wok then
      match runBucket s e d a da with
      | none => some s
      | some b => charge s b (ceilDiv n 64)
    else some s
  if host && !mayWriteHost s d.part && !(replaying s d.part && decide (d.dst.1 ≠ 8)) then s
  else match paid.bind (fun s => takeSlot s (if e < 18 then halves s e else [e]) dram ns) with
    | none => s
    | some s1 =>
      let (bs, s1) := if fill then
          ((List.range n).map (fun i => BitVec.ofNat 8 ((wd ws 1).toNat / 2 ^ (8 * ((d.pos + i) % 4)))), s1)
        else readRun s1 e d a n ecc rok
      let s1 := if d.src.1 = 8 ∧ !fill then record s1 d.part 6 (wordsLe [w32 a, w32 (a / 2 ^ 32)] ++ bs) else s1
      let pieces := runPieces d pl (n + 1) lin bs
      let step (q : CopyDesc) : CopyDesc :=
        { q with runs := q.runs + 1, lastRun := (s.tmu.ticks, ns)
                 range := if d.pos + n = rangeLen ws then d.range + 1 else d.range
                 pos := if d.pos + n = rangeLen ws then 0 else d.pos + n
                 staged := if stg then mwrite 0 q.staged (pl * (copyRows ws * copyRow ws) + lin) bs else [] }
      let d2 := step d
      if stg then
        let s1 := modDesc s1 e d.serial step
        if rangeCount ws ≤ d2.range ∧ copyDstSp ws ≠ 0xB then
          modDesc (writeStaged s1 e d2) e d.serial (fun q => { q with staged := [] })
        else s1
      else if d.dst.1 = 0xA then
        match sendPieces s1 e d pieces with
        | none => s
        | some s1 => modDesc s1 e d.serial step
      else if wok then modDesc (putPieces s1 e d pieces) e d.serial step
      else
        let q := (pieces0.filter (fun q => !admitAt s d.part d.units q.1 q.2.1 q.2.2.length true)).headD (0, 0, [])
        modDesc (markCopy (deny s1 (fwOf q.1) d.part (engUnit s e) q.2.1 true) e d 2 5) e d.serial step

end Sys2Proof.Machine
end

