-- ==== Sys2Proof/Machine/Copy.lean ====
section
/-! DEFINITION. The rows of the copy engines (07 R207-R221, R229-R231, R735) and the context update that a copy carries (14
R443-R447). -/

namespace Sys2Proof.Machine

open Sys2Proof

/-- COPY: the next descriptor is taken up (R212, R213, R217, R219). -/
def execCopy (e : Nat) (s : State) : Host.Outcome State Fault Refusal := .next (takeUp s e 0x20)
/-- FILL (R215). -/
def execFill (e : Nat) (s : State) : Host.Outcome State Fault Refusal := .next (takeUp s e 0x21)
/-- HALO (R229, R230). -/
def execHalo (e : Nat) (s : State) : Host.Outcome State Fault Refusal := .next (takeUp s e 0x22)

/-- The descriptor whose runs are being started. -/
def runDesc (s : State) (e : Nat) : Option CopyDesc :=
  (engOf s e).q.find? (fun d => d.started && !allStarted d && !isPod d.ins.words)
/-- COPY_RUN: the next run in descriptor order starts (R214, R216, R221, R293, R558). -/
def execCopyRun (e : Nat) (ecc : Ecc) (s : State) : Host.Outcome State Fault Refusal :=
  .next (match runDesc s e with | none => s | some d => startRun s e d ecc)

/-- Take a copy's gate markers out of the streams of its cluster (R218). -/
def openGates (s : State) (e n : Nat) : State :=
  if e < 18 then
    (halves s e).foldl (fun s h =>
      let x := clu s h
      let keep (k : StreamEnt) : Bool := !decide (k = .gate n)
      setClu s h { x with mxq := x.mxq.filter keep, vxq := x.vxq.filter keep }) s
  else s
/-- The SIGNAL word of a descriptor. -/
def signalOf (ws : List Word) : Word := if isPod ws then wd ws 5 else wd ws 12
/-- Perform a descriptor's signal (R216, R221); an aborted job performs none (R250). -/
def signal (s : State) (e : Nat) (d : CopyDesc) : State :=
  let w := signalOf d.ins.words
  match job? s d.ins.job with
  | none => s
  | some x =>
    if d.silent ∨ sigOp w = 0 ∨ sigOp w ≥ 3 then s
    else match jobObj s x (fld w 15 0) with
      | none => s
      | some o => hwUpdate s (engPart s e x) o (engUnit s e) (decide (sigOp w = 2)) 1
/-- The head descriptor completes. -/
def completeDesc (s : State) (e : Nat) : State :=
  match (engOf s e).q with
  | [] => s
  | d :: t =>
    if !descDone s e d then s
    else
      let s := openGates (setEng s e { engOf s e with q := t }) e d.serial
      let s := engCount s e (if d.skipped then FTE_DESC_SKIPPED else FTE_DESC_DONE)
      let s := signal s e d
      if e < 18 then afterEngine s e else s
/-- DESC_COMPLETE (R216, R218, R221). -/
def execDescComplete (e : Nat) (s : State) : Host.Outcome State Fault Refusal := .next (reconsider (completeDesc s e))

/-! ### Context updates (R445, R446) -/

/-- The staged update block of a descriptor, as words. -/
def updBlock (d : CopyDesc) : List Word := leWords 32 (mread 0 d.staged 0 128)
/-- Its segments: offset and length in bytes, for the NSEG it names. -/
def updSegs (b : List Word) : List (Nat × Nat) :=
  (List.range (fld (wd b 0) 23 16)).map (fun i => (fld (wd b (4 + i)) 31 18 * 4, fld (wd b (4 + i)) 17 0))
/-- Do no two ranges of a list overlap? -/
def disjoint : List (Nat × Nat) → Bool
  | [] => true
  | r :: t => t.all (fun q => !overlap r.1 r.2 q.1 q.2) && disjoint t
/-- Is an update block well formed (R445)? A CHK_OFF that is used names a word of the context (log 134). -/
def updOk (ws b : List Word) : Bool :=
  let n := fld (wd b 0) 23 16
  let segs := updSegs b
  let chk := (wd b 3).toNat
  (!bit (wd b 0) 31 || decide (chk % 4 = 0 ∧ chk < 65536)) && decide (1 ≤ n ∧ n ≤ 16) && decide (copyRow ws = 128 + (segs.map (fun r => r.2)).sum) && disjoint segs &&
    segs.all (fun r => decide (0 < r.2 ∧ r.2 % 4 = 0 ∧ r.1 + r.2 ≤ 65536) && decide (0x14 ≤ r.1) &&
      !overlap r.1 r.2 0x100 0x2800)
/-- Write the segments of an update. -/
def updApply (s : State) (p i : Nat) (d : CopyDesc) : Nat → List (Nat × Nat) → State
  | _, [] => s
  | off, (o, n) :: t =>
    let s := (touchCtx s p i o n true).1
    let s := ctxPut s i o (mread 0 d.staged off n)
    updApply (priorWrite s d.ins.job true (ctxBase s) (ctxAddr s i o) n) p i d (off + n) t
/-- Is an update discarded (R446)? -/
def updStale (s : State) (i : Nat) (b : List Word) : Bool :=
  decide (ctxState s i = 0 ∨ ctxState s i = 3) || decide (ctxWord s i 8 ≠ wd b 1) ||
    (bit (wd b 0) 31 && (let df := (wd b 2 - ctxWord s i (wd b 3).toNat).toNat; decide (df = 0 ∨ 2 ^ 31 ≤ df)))
/-- An update is applied whole, or discarded as stale. -/
def applyUpdate (s : State) (e : Nat) (d : CopyDesc) : State :=
  let i := d.dst.2 / 65536
  let b := updBlock d
  if !updOk d.ins.words b then skipDesc s e d 0x1D 3
  else
    let s := modDesc s e d.serial (fun q => { q with acted := true, staged := [] })
    if updStale s i b then raise (satRg s CXS_PRED_STALE 0 (fld (ctxWord s i 4) 24 18) 1) 6 0 1
    else
      let s := (touchCtx s d.part i 0 20 true).1
      let s := ctxPutW s i 0 (ctxWord s i 0 + 2)
      ctxUse (updApply s d.part i d 128 (updSegs b)) i
/-- Does a copy that reads context `i` have runs still to start (R443)? -/
def ctxReading (s : State) (i : Nat) : Bool :=
  s.eng.any (fun x => x.2.q.any (fun d =>
    d.started && !allStarted d && decide (0 < d.runs) && decide (d.src.1 = 0xB) && decide (d.src.2 / 65536 = i)))
/-- CONTEXT_UPDATE: the update whose block an engine has read. -/
def execContextUpdate (e : Nat) (s : State) : Host.Outcome State Fault Refusal :=
  .next (match (engOf s e).q.find? (fun d => !isPod d.ins.words && decide (d.dst.1 = 0xB) && allStarted d && !d.skipped && !d.acted) with
    | none => s
    | some d => if !slotFree s d.lastRun || ctxReading s (d.dst.2 / 65536) then s else applyUpdate s e d)

end Sys2Proof.Machine
end

