-- ==== Sys2Proof/Machine/Pods.lean ====
section
/-! DEFINITION. Pod queues (07 R222-R228, R736): PUSH, POP, MOVE, their waits and limits, the return overflow. -/

namespace Sys2Proof.Machine

open Sys2Proof

/-! ### Fields of a pod descriptor (R223) -/

/-- DST_POD. -/
def podDst (ws : List Word) : Nat := fld (wd ws 1) 24 16
/-- SRC_POD. -/
def podSrc (ws : List Word) : Nat := fld (wd ws 1) 8 0
/-- HBUF. -/
def podBuf (ws : List Word) : Nat := fld (wd ws 3) 16 0
/-- NEW. -/
def podNew (ws : List Word) : Bool := bit (wd ws 0) 23
/-- FREE. -/
def podFree (ws : List Word) : Bool := bit (wd ws 0) 22
/-- SEQ_CHK. -/
def podChk (ws : List Word) : Bool := bit (wd ws 0) 21
/-- SEQ_MIN. -/
def podMin (ws : List Word) : Nat := fld (wd ws 4) 15 0

/-! ### Handles -/

/-- Do two handles name the same buffer: SPACE, ADDRESS, LEN64, ITEM_ID (R228)? -/
def hSame (a b : BitVec 128) : Bool :=
  decide (hFld a 127 124 = hFld b 127 124 ∧ hFld a 103 64 = hFld b 103 64 ∧ hFld a 63 48 = hFld b 63 48 ∧
    hFld a 23 0 = hFld b 23 0)
/-- The hole that stands for a handle that did not come (R224). -/
def hHoleFor (seq : Nat) : BitVec 128 := BitVec.ofNat 128 (seq % 65536 * 2 ^ 32 + 2 ^ 31 + 2 ^ 27 + 0xFFFFFF)
/-- May partition `p` read the range that a handle names (R223)? -/
def hReadable (s : State) (p : Nat) (units : List Nat) (h : BitVec 128) : Bool :=
  let a := hFld h 103 64
  let n := hFld h 63 48 * 64
  match hFld h 127 124 with
  | 0 => decide (a + n ≤ unitSize units) && admitAt s p units 0 a n false
  | 4 => (match partRegion s p with
    | some (b, z, _) => decide (a + n ≤ z) && admitAt s p units 4 (b + a) n false
    | none => false)
  | 5 => decide (a + n ≤ Config.siteBytes) && admitAt s p units 5 a n false
  | 6 => decide (a + n ≤ Config.dwmBytes) && admitAt s p units 6 a n false
  | 7 => decide (a + n ≤ Config.fhbBytes) && admitAt s p units 7 a n false
  | _ => false
/-- Is a handle's SEQ older than SEQ_MIN (R226)? -/
def hOld (min : Nat) (h : BitVec 128) : Bool :=
  let d := (min + 65536 - hFld h 47 32) % 65536
  decide (1 ≤ d ∧ d ≤ 32767)
/-- The handle that stands at HBUF. -/
def readHandle (s : State) (e : Nat) (d : CopyDesc) : BitVec 128 :=
  let a := podBuf d.ins.words
  BitVec.ofNat 128 (leNat (if e < 18 then bytesAt s e d.units 1 a 16 else bytesAt s e d.units 0 a 16))
/-- Write a handle to HBUF. -/
def writeHandle (s : State) (e : Nat) (d : CopyDesc) (h : BitVec 128) : State :=
  (putAt s e d.units (if e < 18 then 1 else 0) (podBuf d.ins.words) (natLe 16 h.toNat)).1

/-! ### Checks (R213, R223, R239) -/

/-- POPs of a job that wait and will hold what they take (R223, R228). -/
def popsWaiting (s : State) (j : Nat) : Nat :=
  (s.eng.map (fun x => (x.2.q.filter (fun d => d.started && !d.acted && !d.skipped && decide (opcodeOf d.ins.words = 0x31) &&
    !podFree d.ins.words && decide (d.ins.job = j))).length)).sum
/-- Why a pod descriptor is skipped; the lowest code that applies (log 11). -/
def podBad (s : State) (e : Nat) (x : Job) (d : CopyDesc) : Option Nat :=
  let ws := d.ins.words
  let p := engPart s e x
  let op := opcodeOf ws
  let bad (n : Nat) : Bool := !(podCfg s n).1 || decide ((podCfg s n).2.2.1 ≠ p)
  let h := readHandle s e { d with units := physUnits s x }
  firstCode [
    (1, decide (sigOp (wd ws 5) ≥ 3)),
    (2, decide (e ≥ 18) && decide (podBuf ws + 16 > unitSize x.units)),
    (4, decide (podBuf ws % 16 ≠ 0)),
    (7, decide (sigOp (wd ws 5) ≠ 0) && (jobObj s x (fld (wd ws 5) 15 0)).isNone),
    (0x11, (decide (op ≠ 0x31) && bad (podDst ws)) || (decide (op ≠ 0x30) && bad (podSrc ws))),
    (0x12, decide (op = 0x30) && !hHole h && !hReadable s p (physUnits s x) h),
    (0x13, decide (op = 0x31) && !podFree ws && decide (64 ≤ x.held.length + popsWaiting s d.ins.job)),
    (0x14, decide (wd ws 2 = 0)),
    (0x15, decide (op = 0x30) && !podNew ws && !hHole h && !x.held.any (fun q => hSame q.h h))]

/-! ### The halves -/

/-- The operation of a descriptor has been carried out. -/
def podActed (s : State) (e : Nat) (d : CopyDesc) : State :=
  modDesc s e d.serial (fun q => { q with acted := true, podWait := none, podHandle := none })
/-- Take a handle that matches off a job's list (R228). -/
def unhold (s : State) (j : Nat) (h : BitVec 128) : State :=
  modJob s j (fun x => { x with held := delFirst (fun q => hSame q.h h) x.held })
/-- The handle that the push half of a descriptor sends. -/
def pushed (d : CopyDesc) : BitVec 128 := match d.podHandle with | some (h, _) => h | none => d.handle
/-- The push half: into pod `n`, when it has room (R224, R227). -/
def pushHalf (s : State) (e : Nat) (d : CopyDesc) : State :=
  let ws := d.ins.words
  let n := podDst ws
  let h := pushed d
  if !podTakes s n d.part then s
  else
    let s := if hHole h then s
      else if d.podHandle.isNone && podNew ws then book (book s PODQ_PART_TOTAL d.part 1) PODQ_PART_INPODS d.part 1
      else book (book s PODQ_PART_HELD d.part (-1)) PODQ_PART_INPODS d.part 1
    let s := if hHole h ∨ d.podHandle.isSome ∨ podNew ws then s else unhold s d.ins.job h
    podActed (podPut s n h) e d
/-- Send stale handles at the head of a pod to its RETURN pod and look for one to take; `ex` counts those examined since the
last push (R226). -/
def examine (s : State) (n p min : Nat) : Nat → Nat → State × Nat × Option (BitVec 128)
  | 0, ex => (s, ex, none)
  | f + 1, ex =>
    let x := podOf s n
    match x.q with
    | [] => (s, ex, none)
    | h :: t =>
      if ex ≥ x.q.length then (s, ex, none)
      else if !hOld min h then (setPod s n { x with q := t }, ex, some h)
      else
        let self := decide ((podCfg s n).2.2.2 = n)
        let s := deliver (setPod s n { x with q := t }) p (hSet (hSet h 27) 30) n false
        let s := if self then setPod s n { podOf s n with pushes := x.pushes } else s
        examine s n p min f (if self then ex + 1 else ex)
/-- The handle that a pop takes from pod `n`, if any, and how far it has examined it. -/
def popHead (s : State) (d : CopyDesc) (n : Nat) : State × (Nat × Nat) × Option (BitVec 128) :=
  let x := podOf s n
  if podChk d.ins.words then
    let ex := if d.examined.1 = x.pushes then d.examined.2 else 0
    let (s, ex, h) := examine s n d.part (podMin d.ins.words) (x.q.length + 1) ex
    (s, (x.pushes, ex), h)
  else match x.q with
    | [] => (s, d.examined, none)
    | h :: t => (setPod s n { x with q := t }, d.examined, some h)
/-- The pop half of POP or MOVE (R224-R228). -/
def popHalf (s : State) (e : Nat) (d : CopyDesc) : State :=
  let ws := d.ins.words
  let n := podSrc ws
  let (s, ex, h) := popHead s d n
  match h with
  | none => modDesc s e d.serial (fun q => { q with examined := ex })
  | some h =>
    let mv := decide (opcodeOf ws = 0x32)
    let s := if hHole h then s
      else if !mv && podFree ws then book (book s PODQ_PART_TOTAL d.part (-1)) PODQ_PART_INPODS d.part (-1)
      else book (book s PODQ_PART_INPODS d.part (-1)) PODQ_PART_HELD d.part 1
    if mv then
      let f (q : CopyDesc) : CopyDesc := { q with podHandle := some (h, n), podWait := some s.tmu.ticks }
      pushHalf (modDesc s e d.serial f) e (f d)
    else
      let s := if hHole h ∨ podFree ws then s
        else modJob s d.ins.job (fun x => { x with held := x.held ++ [⟨h, n⟩] })
      podActed (writeHandle s e d h) e d
/-- Try the half of a descriptor that is due. -/
def podTry (s : State) (e : Nat) (d : CopyDesc) : State :=
  if opcodeOf d.ins.words = 0x30 ∨ d.podHandle.isSome then pushHalf s e d else popHalf s e d
/-- The pod descriptor that an engine waits on. -/
def podCur (s : State) (e : Nat) : Option CopyDesc :=
  (engOf s e).q.find? (fun d => isPod d.ins.words && d.started && !allStarted d)
/-- When the operation of an engine began to wait. -/
def podSince (s : State) (e : Nat) : Nat := match podCur s e with | some d => d.podWait.getD 0 | none => 0
/-- Put an engine behind those whose operations have waited as long or longer. -/
def podInsert (s : State) (e : Nat) : List Nat → List Nat
  | [] => [e]
  | k :: t => if podSince s k ≤ podSince s e then k :: podInsert s e t else e :: k :: t
/-- Every waiting operation tries again, the oldest first, those of one instant in ascending unit handle (R224, R225, log 57). -/
def podRound (s : State) : State :=
  ((List.range Config.copyEngines).foldl (fun l e => podInsert s e l) []).foldl (fun s e =>
    match podCur s e with | some d => podTry s e d | none => s) s
/-- Rounds until every operation that can complete has. -/
def servePods : Nat → State → State
  | 0, s => s
  | n + 1, s => let t := podRound s; if t = s then s else servePods n t
/-- After a pod has changed: waiting operations complete (R224). -/
def podsChanged (s : State) : State := servePods (2 * Config.copyEngines) s

/-- Take up the next descriptor of an engine when it is the pod operation `op`: skip it, or start it. -/
def podStart (s : State) (e op : Nat) : State :=
  match nextDesc [] (engOf s e).q with
  | none => s
  | some (pre, d) =>
    let ws := d.ins.words
    if opcodeOf ws ≠ op then s
    else match job? s d.ins.job with
      | none => s
      | some x =>
        let buf := (if e < 18 then 1 else 0, (podBuf ws, 16))
        if hazard pre [buf] then s
        else match podBad s e x d with
          | some r => skipDesc s e d r 4
          | none =>
            let f (q : CopyDesc) : CopyDesc :=
              { q with started := true, podWait := some s.tmu.ticks, part := engPart s e x, units := physUnits s x, dst := (buf.1, podBuf ws)
                       handle := if op = 0x30 then readHandle s e { d with units := physUnits s x } else 0 }
            podsChanged (podTry (modDesc s e d.serial f) e (f d))
/-- PUSH. -/
def execPush (e : Nat) (s : State) : Host.Outcome State Fault Refusal := .next (podStart s e 0x30)
/-- POP. -/
def execPop (e : Nat) (s : State) : Host.Outcome State Fault Refusal := .next (podStart s e 0x31)
/-- MOVE. -/
def execMove (e : Nat) (s : State) : Host.Outcome State Fault Refusal := .next (podStart s e 0x32)

/-- A pop's limit has passed, or its pod was disabled: a hole takes the handle's place (R224, R237). -/
def popExpire (s : State) (e : Nat) (d : CopyDesc) : State :=
  let s := raise (satFld s PODQ_PART_EXPIRE 0 d.part 15 0) 5 0 1
  podActed (writeHandle s e d (hHoleFor (podMin d.ins.words))) e d
/-- A push's limit has passed: the handle goes to the RETURN pod of its destination (R224, R736). -/
def pushExpire (s : State) (e : Nat) (d : CopyDesc) : State :=
  let ws := d.ins.words
  let h := pushed d
  let s := raise (satFld s PODQ_PART_EXPIRE 0 d.part 31 16) 5 0 1
  let fresh := d.podHandle.isNone && podNew ws
  let s := if fresh && !hHole h then book (book s PODQ_PART_TOTAL d.part 1) PODQ_PART_INPODS d.part 1 else s
  let s := if hHole h ∨ d.podHandle.isSome ∨ podNew ws then s else unhold s d.ins.job h
  podActed (deliver s d.part (hSet h 30) (podDst ws) (!fresh)) e d
/-- The limit of the half that is due has passed. -/
def podExpire (s : State) (e : Nat) (d : CopyDesc) : State :=
  if opcodeOf d.ins.words = 0x30 ∨ d.podHandle.isSome then pushExpire s e d else popExpire s e d
/-- POD_WAIT_EXPIRE. -/
def execPodWaitExpire (e : Nat) (s : State) : Host.Outcome State Fault Refusal :=
  .next (match podCur s e with
    | none => s
    | some d => match d.podWait with
      | none => s
      | some t => if passed s t (wd d.ins.words 2).toNat && !replaying s d.part then
          podsChanged (podExpire (decision s d.part 2 d.ins.job d.serial 0) e d) else s)

/-- The oldest handle of a partition's overflow whose RETURN pod can take it goes there (R736). -/
def drainOverflow (s : State) (p : Nat) : State :=
  match (overflow s p).find? (fun q => podTakes s q.2 p) with
  | none => s
  | some q =>
    let s := setOverflow s p (delFirst (fun r => decide (r = q)) (overflow s p))
    podPut s q.2 q.1
/-- RETURN_OVERFLOW_DRAIN. -/
def execReturnOverflowDrain (p : Nat) (s : State) : Host.Outcome State Fault Refusal :=
  .next (podsChanged (drainOverflow s p))

end Sys2Proof.Machine
end

