-- ==== Sys2Proof/Machine/Sched.lean ====
section
/-! DEFINITION. Jobs before they run: descriptors (17 R527 R528), buckets (06 R193 R194), admission (09 R287 R288 R296), floor
windows (09 R273-R279) and slot job templates (17 R530 R531). -/

namespace Sys2Proof.Machine

open Sys2Proof

/-! ### Buckets -/

/-- Offset of bucket set `k`. -/
def bucketAt (s : State) (g : Gen) : Nat → Nat → Nat
  | 0, off => off
  | k + 1, off => bucketAt s g k (off + 16 + 16 * fld (gword s g off) 15 8)
/-- The variants of a set: the two bucket values, offset and BUDGET. -/
def variants (s : State) (g : Gen) (k : Nat) : List (Nat × Nat × Nat × Nat) :=
  match sect? g 7 with
  | none => []
  | some x =>
    let o := bucketAt s g k x.off
    (List.range (fld (gword s g o) 15 8)).map (fun i =>
      let w (j : Nat) : Nat := (gword s g (o + 16 + 16 * i + 4 * j)).toNat
      (w 0, w 1, w 2, w 3))
/-- The variant of smallest BUDGET, the earliest of equals. -/
def cheapest : List (Nat × Nat × Nat × Nat) → Option (Nat × Nat)
  | [] => none
  | v :: t => match cheapest t with
    | some (o, b) => if b < v.2.2.2 then some (o, b) else some (v.2.2.1, v.2.2.2)
    | none => some (v.2.2.1, v.2.2.2)
/-- First instruction and BUDGET of a job of entry `e`: none is NO_BUCKET. An entry without a bucket set has no BUDGET in the
manual: a free value (log 2). -/
def bindEntry (s : State) (g : Gen) (e : Nat) (args : List Word) : Option (Nat × Nat × State) :=
  let k := fld (entryWord s g e 8) 15 0
  let a := entryWord s g e 3
  let arg (n : Nat) : Nat := (wd args (n - 1)).toNat
  if k = 0xFFFF then
    let (w, s) := freeW s
    some ((entryWord s g e 0).toNat, w.toNat, s)
  else
    let n1 := fld a 7 4
    let n2 := fld a 3 0
    if (n1 ≠ 0 ∧ arg n1 = 0) ∨ (n2 ≠ 0 ∧ arg n2 = 0) then none
    else
      let ok (v : Nat × Nat × Nat × Nat) : Bool :=
        (decide (n1 = 0) || decide (arg n1 ≤ v.1)) && (decide (n2 = 0) || decide (arg n2 ≤ v.2.1))
      (cheapest ((variants s g k).filter ok)).map (fun (o, b) => (o, b, s))

/-! ### Units a job may be placed on -/

/-- LEVEL, cluster-equivalents and array columns of an entry (R174). -/
def entryUnit (s : State) (g : Gen) (e : Nat) : Nat × Nat × Nat :=
  let u := entryWord s g e 1
  (fld u 31 29, fld u 15 0, fld (entryWord s g e 2) 15 0)
/-- The logical clusters of a group of `k` from `l`. -/
def groupFrom (l k : Nat) : List Nat := (List.range k).map (fun i => l + i)
/-- Does a group offer what an entry asks: in service, joined where pairs are asked for, and not joined where a cluster is
(R32, R35)? -/
def groupFits (s : State) (lv cols : Nat) (us : List Nat) : Bool :=
  us.all (fun l => decide (l < 16) && (physOf s l).isSome) &&
    (if lv = 2 ∨ cols = 256 then us.all (fun l => pairJoined s (l / 2))
     else if lv = 1 then us.all (fun l => !pairJoined s (l / 2)) else true)
/-- Candidate groups for an entry: consecutive logical clusters, from a multiple of their number. -/
def candidates (s : State) (lv k cols : Nat) : List (List Nat) :=
  if k = 0 ∨ k > 16 then []
  else ((List.range (16 / k)).map (fun i => groupFrom (i * k) k)).filter (groupFits s lv cols)
/-- The group that a unit handle names. -/
def hintGroup (h : Word) (k : Nat) : List Nat :=
  let i := fld h 15 0
  match fld h 31 29 with
  | 1 => groupFrom (i / k * k) k
  | 2 => groupFrom (2 * i / k * k) k
  | _ => groupFrom 0 k

/-! ### The demand test (R285, R287) -/

/-- Time of `n` bytes on the spill channel, in ns. -/
def spillNs (n : Nat) : Nat := ceilDiv n 32
/-- Bytes queued on the spill channel. -/
def spillQueued (s : State) : Nat := (s.disp.spill.map (fun r => r.left * 64)).sum
/-- Largest number of bytes that a running job would spill for job `x`. -/
def saveBytes (s : State) (y x : Job) : Nat :=
  match genOf s y with
  | none => 0
  | some g =>
    let n := match sect? g 5 with | some t => (gword s g t.off).toNat | none => 0
    let ms := (members s y).length
    (List.range n).foldl (fun m i =>
      let b := ((saveRegs s y g 0 i).map (fun r =>
        if r.space = 1 ∨ r.space = 2 then r.len * ms else if r.space = 0 ∧ regionHit s y x r then r.len else 0)).sum
      Nat.max m (b + 512 * ms)) (512 * ms)
/-- Jobs on the unit of `x`, other than `x`. -/
def unitJobs (s : State) (x : Job) : List Job :=
  s.disp.jobs.filterMap (fun e => match e.2 with
    | some y => if y.units.any (fun l => decide (l ∈ x.units)) then some y else none
    | none => none)
/-- Is a job on its clusters? -/
def onUnit (y : Job) : Bool := decide (y.phase = .running ∨ y.phase = .yielding)
/-- Remaining budget in ns at the unit's present step. -/
def remainingNs (s : State) (y : Job) : Nat := acycNs (y.budget - y.ran) (jobDiv s y)
/-- cost_to_start of R287: yield, spill, clearing, parked regions; and whether it displaces live data. -/
def startCost (s : State) (x : Job) : Nat :=
  let js := unitJobs s x
  let run := ((js.filter (fun y => onUnit y && decide (x.deadline < y.deadline))).map (fun y =>
    let gap := match genOf s y with | some g => yieldGap s g | none => 0
    let w := (members s y).all (memberStopped s)
    (if w then 0 else acycNs gap (jobDiv s y)) + spillNs (saveBytes s y x + spillQueued s))).foldl Nat.max 0
  let parked := ((js.filter (fun y => !onUnit y)).flatMap (fun y =>
    (y.regions.filter (fun r => !r.spilled && regionHit s y x r)).map (fun r => r.len))).sum
  let clear := (x.units.map (fun l => match physOf s l with
    | some c => if (clu s c).lastPart = x.part then 0 else (footprint s x l).2
    | none => 0)).sum
  run + spillNs parked + ceilDiv (clear * 10) 1024
/-- Period of a cluster's floor and the present place in it (R273, R512). -/
def floorPeriod (s : State) (l : Nat) : Nat := (rg s SYS_FLOOR_PERIOD 0 l).toNat
/-- Place of instant `t` in the period. -/
def floorPos (s : State) (l t : Nat) : Nat :=
  let p := floorPeriod s l
  if p = 0 then 0 else (((t : Int) - (frameOffset s : Int) - s.disp.floorShift) % (p : Int)).toNat
/-- Floor time from the frame grid's origin to place `n` periods and `r` ns. -/
def floorUpTo (s : State) (l n r : Nat) : Nat :=
  ((List.range 64).map (fun w => match floorWin s l w with
    | some (_, st, len) => n * len + Nat.min len (r - st)
    | none => 0)).sum
/-- Floor window time of a windowed cluster between two instants. -/
def floorTime (s : State) (l t0 t1 : Nat) : Nat :=
  let p := floorPeriod s l
  if floorMode s l ≠ 2 ∨ p = 0 then 0
  else
    let a := floorPos s l t0
    let n := (a + (t1 - t0)) / p
    floorUpTo s l n ((a + (t1 - t0)) % p) - floorUpTo s l 0 a
/-- The finish with the floor's time added until it stops growing. -/
def withFloor (s : State) (us : List Nat) (t0 t : Nat) : Nat → Nat → Nat
  | 0, cur => cur
  | f + 1, cur =>
    let n := t + (us.map (fun l => floorTime s l t0 cur)).foldl Nat.max 0
    if n = cur then cur else withFloor s us t0 t f n
/-- Finish of job `x` on its unit at cost `c`, with the jobs of earlier or equal deadline. -/
def finishAt (s : State) (x : Job) (c : Nat) : Nat :=
  let t := nowNs s + c + (((unitJobs s x).filter (fun y => decide (y.deadline ≤ x.deadline))).map (remainingNs s)).sum +
    acycNs x.budget (jobDiv s x)
  withFloor s x.units (nowNs s) t 64 t
/-- The demand test of R287 at cost `c`: the new job, then every later-deadline job with it. -/
def demandOk (s : State) (x : Job) (c : Nat) : Bool :=
  decide (finishAt s x c ≤ x.deadline) &&
    ((unitJobs s x).filter (fun y => decide (x.deadline < y.deadline))).all (fun y =>
      let t := nowNs s + c + (((unitJobs s x).filter (fun z => decide (z.deadline ≤ y.deadline))).map (remainingNs s)).sum +
        acycNs x.budget (jobDiv s x)
      decide (withFloor s x.units (nowNs s) t 64 t ≤ y.deadline))
/-- May an edge job stand on these clusters under the floor (R273, R274, R276)? -/
def floorFits (s : State) (x : Job) (gap : Nat) : Bool :=
  x.units.all (fun l => match floorMode s l with
    | 0 => true
    | 2 => decide ((footprint s x l).2 ≤ floorBase s l) &&
        decide (acycNs gap (jobDiv s x) + 8208 ≤ (rg s SYS_FLOOR_GUARD 0 l).toNat)
    | _ => false)
/-- What admission finds of a candidate: 0 it passes, or the status it would give (R288). -/
def judge (s : State) (x : Job) (gap : Nat) : Nat :=
  let depth := if x.level ≤ 2 then 32 else 256
  let same := (unitJobs s x).filter (fun y => decide (y.units = x.units))
  let pinned := (unitJobs s x).any (fun y => y.pinned.any (regionHit s y x))
  let displaced := (unitJobs s x).filter (fun y => onUnit y && decide (x.deadline < y.deadline))
  let fits := displaced.all (fun y => match spillRegion s y.part with
    | some (_, z) => decide (tgetD 0 s.disp.spillUsed y.part + saveBytes s y x ≤ z)
    | none => false)
  if same.length ≥ depth then 0x33
  else if pinned then 0x32
  else if !floorFits s x gap || !demandOk s x 0 then 0x30
  else if !demandOk s x (startCost s x) || !fits then 0x31
  else 0
/-- The best of the candidates that pass: the earliest finish, ties to the lowest index (R296). -/
def bestUnit (s : State) (x : Job) (gap : Nat) : List (List Nat) → Option (Nat × List Nat)
  | [] => none
  | us :: t =>
    let y := { x with units := us }
    match bestUnit s x gap t with
    | none => if judge s y gap = 0 then some (finishAt s y (startCost s y), us) else none
    | some (f, vs) =>
      let n := finishAt s y (startCost s y)
      if judge s y gap = 0 ∧ n ≤ f then some (n, us) else some (f, vs)
/-- Admission of a job that is not RADIO or SAFETY: its unit, or the status of its rejection (R288). A replay judges nothing (20 R602). -/
def admitted (s : State) (x : Job) (gap lv k cols : Nat) (hint : Word) : Nat ⊕ List Nat :=
  let dbal := bit (rg s SYS_PART_SCHED 0 x.part) 31
  let all := if dbal then candidates s lv k cols
    else if k = 0 then [] else [hintGroup hint k].filter (groupFits s lv cols)
  match (if replaying s x.part then all.head?.map (fun us => (0, us)) else bestUnit s x gap all) with
  | some (_, us) => .inr us
  | none =>
    let sts := all.map (fun us => judge s { x with units := us } gap)
    if 0x31 ∈ sts then .inl 0x31
    else if sts = [] ∨ 0x30 ∈ sts then .inl 0x30
    else if 0x32 ∈ sts then .inl 0x32 else .inl 0x33

/-! ### Floor windows -/

/-- Is the present instant within window `w` of logical cluster `l`? -/
def inWindow (s : State) (l w : Nat) : Bool :=
  match floorWin s l w with
  | some (_, st, len) => let p := floorPos s l (nowNs s); decide (st ≤ p ∧ p < st + len)
  | none => false
/-- Is it within FLOOR_GUARD before the window (R276)? -/
def inGuard (s : State) (l w : Nat) : Bool :=
  let g := (rg s SYS_FLOOR_GUARD 0 l).toNat
  let p := floorPeriod s l
  match floorWin s l w with
  | some (_, st, _) => decide (p ≠ 0) && decide ((floorPos s l (nowNs s) + p * (g / p + 1) + g - st) % p < g)
  | none => false
/-- Time until window `w` next starts. -/
def untilWindow (s : State) (l w : Nat) : Nat :=
  let p := floorPeriod s l
  match floorWin s l w with
  | some (_, st, _) => if p = 0 then 0 else (st + p - floorPos s l (nowNs s)) % p
  | none => 0
/-- The window of logical cluster `l` that next serves partition `p` (R275). -/
def nextWindow (s : State) (l p : Nat) : Option Nat :=
  let ws := (List.range 64).filter (fun w => match floorWin s l w with | some (q, _, _) => decide (q = p) | none => false)
  ws.foldl (fun b w => match b with
    | none => some w
    | some v => if untilWindow s l w < untilWindow s l v then some w else some v) none
/-- Place a RADIO or SAFETY job on window (l, w): its unit, or none is REJ_FLOOR (R275). -/
def placeFloor (s : State) (x : Job) (lv k cols l w : Nat) : Option (List Nat) :=
  let us := if lv = 2 then groupFrom (l / 2 * 2) 2 else groupFrom (if k = 0 then l else l / k * k) (Nat.max k 1)
  match floorWin s l w with
  | none => none
  | some (q, _, len) =>
    if q ≠ x.part ∨ floorMode s l = 0 ∨ !groupFits s lv cols us ∨ acycNs x.budget (jobDiv s { x with units := us }) > len
    then none else some us

/-! ### Picking up a job (R527, R528, R182) -/

/-- The generation of a slot that a job binds (R182). -/
def boundGen (s : State) (p slot : Nat) : Option Gen :=
  let n := tgetD 0 s.img.tick (p * 64 + slot)
  if n = 0 then none else s.img.gens.find? (fun g => decide (g.part = p ∧ g.slot = slot ∧ g.gen = n))
/-- Deadline of a job descriptor in ns (R520, R527). -/
def jobDeadline (s : State) (p : Nat) (d : List Word) : Nat :=
  if protoVer s p = some 1 then nowNs s + (wd d 4).toNat * 1000
  else (wd d 4).toNat + ((wd d 5).toNat + fld (wd d 6) 15 0 * 2 ^ 32) * 1000000000
/-- The job that a descriptor asks for, not yet placed. -/
def jobOf (s : State) (p : Nat) (d : List Word) (g : Gen) : Job :=
  { part := p, slot := g.slot, gen := g.gen, entry := fld (wd d 3) 15 0, cookieLo := wd d 1, cookieHi := wd d 2
    ring := dring d, seq := dseq d, args := (List.range 4).map (fun i => wd d (9 + i))
    deadline := jobDeadline s p d, lateOk := decide (protoVer s p ≠ some 1) && bit (wd d 6) 31
    nitems := fld (wd d 8) 28 16, scrKib := fld (wd d 8) 13 0, order := s.disp.nextJob }
/-- Reserved fields and ranges of a job descriptor (R525, R527); version 1 has no body past 0x3F and no split deadline. -/
def jobFields (s : State) (p : Nat) (d : List Word) : Bool :=
  dtypeOk d && decide (fld (wd d 3) 25 16 = 0) && decide (fld (wd d 8) 31 29 = 0 ∧ fld (wd d 8) 15 14 = 0) &&
    decide (fld (wd d 8) 13 0 ≤ 8192) &&
    (decide (protoVer s p = some 1) ||
      (decide ((wd d 4).toNat < 1000000000) && decide (fld (wd d 6) 30 16 = 0) && decide (fld (wd d 14) 31 8 = 0) &&
        zeroWords d 15 30))
/-- The end record of a job that is not admitted (R529). -/
def rejectJob (s : State) (p : Nat) (d : List Word) (status : Nat) : State :=
  let s := decision s p (if status = 0x36 then 3 else 4) (dseq d) status 0
  let s := if 0x30 ≤ status ∧ status ≤ 0x34 then satRg s SYS_ADMIT_REJ 0 p 1 else s
  let s := if 0x30 ≤ status ∧ status ≤ 0x34 ∧ !isRS s p then raise s 0 0 8 else s
  let s := if status = 0x20 then raise s 7 p 0 else s
  postRec s p (dring d) (mkRec s 2 status 0 (wd d 1) (wd d 2) 0 (w32 (fld (wd d 8) 28 16)) 0 (dseq d))
/-- Put an admitted job into the dispatcher's queue. -/
def enqueue (s : State) (x : Job) : State :=
  let n := s.disp.nextJob
  setJob { s with disp := { s.disp with nextJob := n + 1 } } n (some { x with order := n, start := s.tmu.ticks })
/-- Is a job older than its flow's stale window (R528)? -/
def isStale (s : State) (p : Nat) (d : List Word) : Bool :=
  let f := fld (wd d 14) 7 0
  let w := rg s HIF_FLOW_WIN p f
  decide (protoVer s p ≠ some 1) && decide (f ≠ 0) && decide (w ≠ 0) && decide (w.toNat < (stamp s - wd d 13).toNat)
/-- JOB: the descriptor at the head of partition `p`'s picked-up ones. -/
def takeJob (s : State) (p : Nat) (d : List Word) : State :=
  match boundGen s p (fld (wd d 3) 31 26) with
  | none => rejectJob s p d 0x20
  | some g =>
    let x := jobOf s p d g
    if !jobFields s p d || decide (entryCount g ≤ x.entry) ||
        !decide (1 ≤ x.nitems ∧ x.nitems ≤ (entryWord s g x.entry 10).toNat) then rejectJob s p d 0x20
    else if isStale s p d ∧ !replaying s p then rejectJob s p d 0x36
    else match bindEntry s g x.entry x.args with
      | none => rejectJob s p d 0x35
      | some (_, b, s) =>
        let (lv, k, cols) := entryUnit s g x.entry
        let x := { x with budget := b, level := lv }
        if isRS s p then
          let l := (hintGroup (wd d 7) 1).headD 0
          match (nextWindow s l p).bind (fun w => (placeFloor s x lv k cols l w).map (fun us => (w, us))) with
          | none => rejectJob s p d 0x34
          | some (w, us) => reconsider (enqueue s { x with units := us, win := some (l, w) })
        else match admitted s x (yieldGap s g) lv k cols (wd d 7) with
          | .inl st => rejectJob s p d st
          | .inr us => reconsider (enqueue s { x with units := us })

/-! ### Slot job templates (R530, R531) -/

/-- Slot number of a template's timer at the present instant. -/
def tplSlot (s : State) (p : Nat) (ws : List Word) : Nat :=
  if bit (wd ws 3) 23 then partSlotNow s p else cellSlotNow s (fld (wd ws 3) 22 16)
/-- The instant of the latest boundary of a template's timer, in ns (R268). -/
def tplBoundary (s : State) (p : Nat) (ws : List Word) : Nat :=
  let c := fld (wd ws 3) 22 16
  let off : Int := (frameOffset s : Int) + (if bit (wd ws 3) 23 then 0 else cellToff s c)
  let per : Int := if bit (wd ws 3) 23 then partSlotNs s p else slotNs s c
  ((nowNs s : Int) - ((nowNs s : Int) - off) % per).toNat
/-- Template `i` of a partition. -/
def tplOf (s : State) (p i : Nat) : Option Tpl := tgetD none s.disp.tpls (p * 256 + i)
/-- Apply the template changes of a partition whose timer has passed a boundary since they were asked for. -/
def commitTpls (s : State) : State :=
  let due (t : TplChange) : Bool :=
    match t.body, tplOf s t.part t.idx with
    | some b, _ => decide (tplSlot s t.part b.words ≠ t.since)
    | none, some b => decide (tplSlot s t.part b.words ≠ t.since)
    | none, none => true
  let go := s.disp.tplTodo.filter due
  let tp := go.foldl (fun t c => tsetD none t (c.part * 256 + c.idx) c.body) s.disp.tpls
  { s with disp := { s.disp with tpls := tp, tplTodo := s.disp.tplTodo.filter (fun t => !due t) } }
/-- Instantiate template `i` of partition `p` for slot `n` (R268, R275, R531). The first slot of a cell for which this happens
after a reset ends the cell's RESET fallback (11 R361). -/
def instantiate (s : State) (p i n : Nat) (ws : List Word) : State :=
  let arg (k : Nat) : Word := if bit (wd ws 12) k then w32 n else wd ws (8 + k)
  let s := { s with disp := { s.disp with tplLast := tsetD 0 s.disp.tplLast (p * 256 + i) (n + 1) } }
  let x : Job :=
    { part := p, slot := fld (wd ws 4) 31 26, gen := 0, entry := fld (wd ws 4) 15 0, cookieLo := wd ws 1
      cookieHi := wd ws 2, ring := dring ws, inst := some n, args := (List.range 4).map arg
      deadline := tplBoundary s p ws + (wd ws 5).toNat, nitems := fld (wd ws 7) 28 16, scrKib := fld (wd ws 7) 13 0 }
  let no (st : Nat) : State :=
    let s := if st = 0x34 then satRg s SYS_ADMIT_REJ 0 p 1 else s
    endRec s x st (w32 n)
  match boundGen s p x.slot with
  | none => no 0x20
  | some g =>
    let x := { x with gen := g.gen }
    if entryCount g ≤ x.entry ∨ x.nitems = 0 ∨ x.nitems > (entryWord s g x.entry 10).toNat then no 0x20
    else match bindEntry s g x.entry x.args with
      | none => no 0x35
      | some (_, b, s) =>
        let (lv, k, cols) := entryUnit s g x.entry
        let l := fld (wd ws 6) 31 28
        let w := fld (wd ws 6) 27 22
        let x := { x with budget := b, level := lv }
        match placeFloor s x lv k cols l w with
        | none => endRec (satRg s SYS_ADMIT_REJ 0 p 1) x 0x34 (w32 n)
        | some us =>
          let c := fld (wd ws 3) 22 16
          let s := if bit (wd ws 3) 23 then s else match (cellOf s c).reset with
            | some (t, none) => setCell s c { cellOf s c with reset := some (t, some n) }
            | _ => s
          enqueue s { x with units := us, win := some (l, w) }
/-- Partitions whose templates are armed; one being reset, or without an agreed version, is not (23 R663). -/
def armed (s : State) (p : Nat) : Bool := (part? s p).isSome && !decide (p ∈ s.disp.resetting) && (protoVer s p).isSome
/-- Instantiate the templates of window (l, w) whose slot number matches. -/
def runTemplates (s : State) (l w : Nat) : State :=
  let s := commitTpls s
  s.disp.tpls.foldl (fun s e => match e.2 with
    | none => s
    | some t =>
      let p := e.1 / 256
      let ws := t.words
      let n := tplSlot s p ws
      let per := fld (wd ws 3) 15 8
      if armed s p && decide (fld (wd ws 6) 31 28 = l ∧ fld (wd ws 6) 27 22 = w ∧ per ≠ 0 ∧ n % per = fld (wd ws 3) 7 0) &&
          decide (tgetD 0 s.disp.tplLast e.1 ≠ n + 1)
      then instantiate s p (e.1 % 256) n ws else s) s

end Sys2Proof.Machine
end

