-- ==== Sys2Proof/Machine/Dispatcher.lean ====
section
/-! DEFINITION. The dispatcher (09): the scan tick (17 R524), admission, the start of a job, spills and restores, floor
windows and deadlines. -/

namespace Sys2Proof.Machine

open Sys2Proof

/-! ### The scan tick (R293, R518, R524, R536, R269) -/

/-- Write a word of a submission window (R518). -/
def barWrite (s : State) (p off : Nat) (w : Word) : State :=
  let a := Config.windowBase + p * 0x8000 + off
  let s := { s with mem := { s.mem with site := mwrite 0 s.mem.site a (wordLe w) } }
  if off % 128 = 0x7C then { s with host := { s.host with seqSeen := tsetD false s.host.seqSeen (p * 256 + off / 128) true } } else s
/-- BAR2 writes that waited for tokens, in order; a partition without tokens holds all its later ones (R293, R518). -/
def drainBar (s : State) (held : List Nat) : List (Nat × Nat × Word) → State × List (Nat × Nat × Word)
  | [] => (s, [])
  | q :: t =>
    let p := q.1
    match (if p ∈ held then none else charge s (256 + p) 1) with
    | some s => drainBar (barWrite s p q.2.1 q.2.2) held t
    | none => let (s, r) := drainBar s (p :: held) t; (s, q :: r)
/-- A slot of a window, as its 32 words. -/
def slotWords (s : State) (p n : Nat) : List Word :=
  leWords 32 (mread 0 s.mem.site (Config.windowBase + p * 0x8000 + n * 128) 128)
/-- Visit window `p`: at most `n` descriptors more (R524, R535). -/
def visit (s : State) (p : Nat) : Nat → State
  | 0 => s
  | n + 1 =>
    let e := tgetD 0 s.host.expect p
    let d := slotWords s p (e % 256)
    if !tgetD false s.host.seqSeen (p * 256 + e % 256) then s
    else
      let ahead := (dseq d + 65536 - e) % 65536
      if ahead = 0 then
        if (staged s p).length ≥ Config.staging then raise s 7 p 2
        else
          let h := { s.host with expect := tsetD 0 s.host.expect p ((e + 1) % 65536),
                                 picked := tsetD [] s.host.picked p (tgetD [] s.host.picked p ++ [d]) }
          let s := { s with host := h }
          let s := recordW s p 5 ([w32 p, w32 e, timeNsW s] ++ d)
          visit s p n
      else if ahead ≤ 32767 then raise s 7 p 1 else s
/-- Is a window scanned (R521)? -/
def scanned (s : State) (p : Nat) : Bool :=
  (part? s p).isSome && (protoVer s p).isSome && !decide (p ∈ s.disp.resetting) &&
    (match s.trace.replay with | some r => decide (r.part ≠ p) || !r.begun | none => true)
/-- The spill channel moves what its bucket allows for the request in progress (R281, R294, R558). -/
def spillTick (s : State) : State :=
  match s.disp.spill.find? (fun r => r.started) with
  | none => s
  | some r =>
    let n := Nat.min r.left (bucket s 32).level
    match charge s 32 n with
    | none => s
    | some s => { s with disp := { s.disp with
        spill := updFirst (fun q => q.started) (fun q => { q with left := q.left - n }) s.disp.spill } }
/-- One window of a scan tick. -/
def scanOne (s : State) (p : Nat) : State :=
  let s := if scanned s p then screenAll (visit s p 16) p else s
  writeStatus (pumpMsgs (pumpStaged s p) p (tgetD [] s.host.rxWait p).length) p
/-- One scan tick. -/
def scanTick (s : State) : State :=
  let s := recTick s
  let s := ((List.range 33) ++ (List.range 32).map (fun p => 256 + p)).foldl refill s
  let s := spillTick s
  let cur := s.img.gens.filter (fun g => g.current)
  let s := { s with img := { s.img with tick := cur.foldl (fun t g => tsetD 0 t (g.part * 64 + g.slot) g.gen) [] } }
  let (s, w) := drainBar s [] s.host.barWait
  let s := { s with host := { s.host with barWait := w } }
  reconsider ((List.range 32).foldl scanOne s)

/-- JOB: the job descriptor at the head of partition `p`'s descriptors is admitted or rejected (R287, R288). -/
def execJob (p : Nat) (s : State) : Host.Outcome State Fault Refusal :=
  .next (match headDesc s p with
    | none => s
    | some d => if dtype d = 1 then dropDesc (takeJob s p d) p else s)

/-! ### The start of a job -/

/-- Are the power domains of a physical cluster on (24 R682, R684)? -/
def clusterOn (s : State) (c : Nat) : Bool := domOn s c && domOn s (18 + c) && domOn s (36 + c)
/-- Is a logical cluster free to take a job: in service and powered, no job on it, no slice of the rotor, not about to leave? -/
def unitFree (s : State) (l : Nat) : Bool :=
  match physOf s l with
  | none => false
  | some c => clusterOn s c && (clu s c).job.isNone && !decide (c ∈ s.units.testing) && !s.units.leaving.any (fun q => decide (q.1 = c))
/-- The ready job of earliest deadline on logical cluster `l` (R269). -/
def selected (s : State) (l : Nat) : Option (Nat × Job) := firstJob (fun x => isReady s x && decide (l ∈ x.units)) s.disp.jobs
/-- Put bytes into X or Y from sections of the image (R170). -/
def loadSect (s : State) (g : Gen) (c type : Nat) (y : Bool) : State :=
  match sect? g type with
  | some x => xyWrite s c y x.load (extRead s (g.base + x.off) x.size)
  | none => s
/-- Lock the PRELOAD lines of a generation in the cache of cluster `c` (R186). -/
def preload (s : State) (c : Nat) (x : Job) (g : Gen) : State :=
  if !isRS s x.part then s
  else
    let ls := ((g.sects.filter (fun t => decide (t.type = 1) && t.preload && decide (0 < t.size))).flatMap (fun t =>
      (List.range ((t.off + t.size - 1) / 256 + 1 - t.off / 256)).map (fun i => t.off / 256 + i))).eraseDups
    let k := clu s c
    setClu s c { k with ic := ls.foldl (fun ic l => addLine ic ⟨x.part, x.slot, x.gen, l, true, false⟩) k.ic }
/-- The grid record of the unit that cluster `c` leads (R198, R283). -/
def writeGrid (s : State) (c : Nat) (x : Job) (g : Gen) : State :=
  match gridRec s g x.entry with
  | none => s
  | some _ => xyWrite s c false 0x1FFA0 (wordsLe (gridWords s g x.entry x.args x.gridK (gridUnit s c x)))
/-- Pages of a cluster belong to the partition of the job it starts (R279, R713). -/
def ownCluster (s : State) (p c : Nat) : State :=
  (List.range 4).foldl (fun s i => setRg s ((16 + i) * 4096 + HDR_OWNER) c 0 (w32 p)) s
/-- Clear the footprint of a job on logical cluster `l` when another partition wrote it last (R284). -/
def clearFoot (s : State) (x : Job) (l : Nat) : State :=
  match physOf s l with
  | none => s
  | some c =>
    let k := clu s c
    let (a, n) := footprint s x l
    if k.lastPart = x.part then s else setClu s c { k with sp := k.sp.wipe a n 0, lastPart := x.part }
/-- The core as a job finds it (R136). -/
def freshCore (x : Job) (pc : Nat) : Clv :=
  { s := (List.range 4).foldl (fun t i => tsetD 0 t (i + 1) (wd x.args i)) [], pc := pc, ended := false }
/-- A member takes up the job. -/
def startMember (s : State) (x : Job) (g : Gen) (pc c : Nat) : State :=
  let s := loadSect (loadSect s g c 2 false) g c 3 true
  let s := preload (writeGrid s c x g) c x g
  setClu s c { clu s c with clv := freshCore x pc }
/-- Place a job on its physical clusters, and note it in the rotor's books (21 R619). -/
def occupy (s : State) (j : Nat) (x : Job) : State :=
  (mapUnits s x).foldl (fun s c =>
    let r := tgetD {} s.safe.rot c
    let s := { s with safe := { s.safe with rot := tsetD {} s.safe.rot c { r with ran := ((j, x.part) :: r.ran).eraseDups } } }
    setClu (ownCluster s x.part c) c { clu s c with job := some j }) s
/-- Parked regions of other jobs that the footprint of `x` needs (R282). -/
def inTheWay (s : State) (x : Job) : List (Nat × Job) :=
  s.disp.jobs.filterMap (fun e => match e.2 with
    | some y => if y.phase = .spilled ∧ y.regions.any (fun r => !r.spilled && regionHit s y x r) then some (e.1, y) else none
    | none => none)
/-- Ask for the spill of what is in the way. -/
def clearWay (s : State) (x : Job) (q : Nat × Job) : State :=
  let y := q.2
  let hit := y.regions.filter (fun r => !r.spilled && regionHit s y x r)
  let n := (hit.map (fun r => r.len)).sum
  let s := setJob s q.1 (some { y with
    phase := .spilling, areaUsed := y.areaUsed + n
    regions := y.regions.map (fun r => if r ∈ hit then { r with spilled := true } else r) })
  let s := { s with disp := { s.disp with spillUsed := tsetD 0 s.disp.spillUsed y.part (tgetD 0 s.disp.spillUsed y.part + n) } }
  askSpill s { job := q.1, restore := false, deadline := x.deadline, bytes := n }
/-- Start a job that has not run, or ask for the restore of one that yielded (R275, R279, R283, R284). -/
def startJob (s : State) (j : Nat) (x : Job) (g : Gen) : State :=
  if x.phase = .queued then
    match bindEntry s g x.entry x.args with
    | none => s
    | some (pc, _, _) =>
      let (w, s) := if (gridRec s g x.entry).isSome then freeW s else (0, s)
      let x := { x with phase := .running, start := s.tmu.ticks, gridK := w.toNat, phys := mapUnits s x }
      let s := recordW s x.part 0x0B ([w32 x.entry, w32 (x.slot * 65536 + x.level), w32 x.gen, w32 x.deadline,
        w32 (x.deadline / 2 ^ 32)] ++ x.args)
      let s := x.units.foldl (fun s l => clearFoot s x l) s
      let s := occupy (setJob s j (some x)) j x
      (members s x).foldl (fun s c => startMember s x g pc c) s
  else
    let n := 512 * (members s x).length + ((x.regions.filter (fun r => r.spilled)).map (fun r => r.len)).sum
    askSpill (occupy (setJob s j (some { x with phase := .restoring })) j x)
      { job := j, restore := true, deadline := x.deadline, bytes := n }
/-- JOB_START: the selected job of logical cluster `l`, when its clusters are free and no spill stands before it. -/
def jobStart (s : State) (l : Nat) : State :=
  match selected s l with
  | none => s
  | some (j, x) =>
    let s := ((mapUnits s x).filter (fun c => (clu s c).job.isNone)).foldl stepBoundary s
    let moving := (unitJobs s x).any (fun y => decide (y.phase = .spilling ∨ y.phase = .restoring))
    if !x.units.all (unitFree s) || moving then s
    else match inTheWay s x, genOf s x with
      | q :: t, _ => (q :: t).foldl (fun s q => clearWay s x q) s
      | [], some g => reconsider (startJob s j x g)
      | [], none => s
/-- JOB_START. -/
def execJobStart (l : Nat) (s : State) : Host.Outcome State Fault Refusal := .next (jobStart s l)

/-! ### Spills and restores (R190, R280-R283) -/

/-- The bytes of a region of a save set. -/
def regionBytes (s : State) (x : Job) (r : SaveReg) : List Byte :=
  match placeOf s x r.member with
  | none => []
  | some c =>
    match r.space with
    | 1 => (clu s c).xm.read r.start r.len
    | 2 => (clu s c).ym.read r.start r.len
    | _ => (clu s c).sp.read r.start r.len
/-- Write a region back. -/
def putRegion (s : State) (x : Job) (r : SaveReg) (bs : List Byte) : State :=
  match placeOf s x r.member with
  | none => s
  | some c =>
    match r.space with
    | 1 => xyWrite s c false r.start bs
    | 2 => xyWrite s c true r.start bs
    | _ => spWrite s c r.start bs
/-- Take the request in progress off the spill channel. -/
def popSpill (s : State) (r : SpillReq) : State :=
  startSpill { s with disp := { s.disp with spill := delFirst (fun q => decide (q = r)) s.disp.spill } }
/-- The request of the channel that has moved all its bytes. -/
def spillDone (s : State) (restore : Bool) : Option SpillReq :=
  s.disp.spill.find? (fun r => r.started && decide (r.restore = restore) && decide (r.left = 0))
/-- SPILL_COMPLETE: the save set is in the spill area; parked regions stay where they are. -/
def spillEnd (s : State) : State :=
  match spillDone s false with
  | none => s
  | some r =>
    let s := popSpill s r
    match job? s r.job with
    | none => s
    | some x =>
      if r.dropped ∨ x.phase ≠ .spilling then s
      else
        let img := (List.range x.regions.length).map (fun i =>
          let q := x.regions.getD i ⟨0, 0, 0, 0, false⟩
          let old := x.image.getD i []
          if q.spilled && decide (old = []) then regionBytes s x q else old)
        reconsider (setJob s r.job (some { x with phase := .spilled, image := img }))
/-- SPILL_COMPLETE. -/
def execSpillComplete (s : State) : Host.Outcome State Fault Refusal := .next (spillEnd s)
/-- Every byte of the footprint, X and Y of logical cluster `l` that is not restored is undefined (R190). -/
def forget (s : State) (x : Job) (ep l : Nat) : State :=
  match physOf s l with
  | none => s
  | some c =>
    let k := clu s c
    let (a, n) := footprint s x l
    setClu s c { k with xm := k.xm.wipe 0 Config.xyBytes ep, ym := k.ym.wipe 0 Config.xyBytes ep, sp := k.sp.wipe a n ep
                        lastPart := x.part }
/-- Put job `j` back as it was at its yield (R162, R190, R283). -/
def restoreJob (s : State) (j : Nat) (x : Job) (g : Gen) : State :=
  let kept := ((x.regions.filter (fun r => !r.spilled)) ++ x.pinned).map (fun r => (r, regionBytes s x r))
  let back := ((List.range x.regions.length).map (fun i => (x.regions.getD i ⟨0, 0, 0, 0, false⟩, x.image.getD i []))).filter
    (fun q => q.1.spilled)
  let x := { x with phys := mapUnits s x }
  let ep := s.freeCtr + 1
  let s := { s with freeCtr := s.freeCtr + 1 }
  let s := x.units.foldl (fun s l => forget s x ep l) s
  let s := (kept ++ back).foldl (fun s q => putRegion s x q.1 q.2) s
  let s := x.saved.foldl (fun s q => match placeOf s x q.1 with
    | some c => setClu s c { clu s c with clv := q.2 }
    | none => s) s
  let s := (members s x).foldl (fun s c => preload (writeGrid s c x g) c x g) s
  let left := tgetD 0 s.disp.spillUsed x.part - x.areaUsed
  let s := { s with disp := { s.disp with spillUsed := tsetD 0 s.disp.spillUsed x.part left } }
  setJob s j (some { x with phase := .running, saved := [], regions := [], image := [], areaUsed := 0 })
/-- RESTORE_COMPLETE: the job goes on after its YIELD, or at its wait. -/
def restoreEnd (s : State) : State :=
  match spillDone s true with
  | none => s
  | some r =>
    let s := popSpill s r
    match job? s r.job with
    | none => s
    | some x =>
      if r.dropped ∨ x.phase ≠ .restoring then s
      else match genOf s x with
        | none => s
        | some g => reconsider (restoreJob s r.job x g)
/-- RESTORE_COMPLETE. -/
def execRestoreComplete (s : State) : Host.Outcome State Fault Refusal := .next (restoreEnd s)

/-! ### Floor windows (R276-R278) -/

/-- Set the window open on a logical cluster. -/
def setOpen (s : State) (l : Nat) (w : Option Nat) : State :=
  { s with disp := { s.disp with winOpen := tsetD none s.disp.winOpen l w } }
/-- Set whether FLOOR_GUARD before a window has been reached. -/
def setGuard (s : State) (l : Nat) (b : Bool) : State :=
  { s with disp := { s.disp with guard := tsetD false s.disp.guard l b } }
/-- Jobs that run on logical cluster `l` and satisfy `p`. -/
def jobsOn (s : State) (l : Nat) (p : Job → Bool) : List (Nat × Job) :=
  s.disp.jobs.filterMap (fun e => match e.2 with
    | some x => if (onUnit x ∨ x.phase = .restoring) ∧ l ∈ x.units ∧ p x = true then some (e.1, x) else none
    | none => none)
/-- FLOOR_GUARD (R276). -/
def execFloorGuard (l w : Nat) (s : State) : Host.Outcome State Fault Refusal :=
  .next (if floorMode s l ≠ 2 ∨ tgetD false s.disp.guard l ∨ !inGuard s l w then s else reconsider (setGuard s l true))
/-- An edge job that has not yielded at a window start is aborted (R277, R301). -/
def floorAbort (s : State) (l w : Nat) (q : Nat × Job) : State :=
  let s := decision s q.2.part 1 q.1 2 q.2.ran
  let s := satFld s SYS_FLOOR_STAT 0 l 15 0
  let s := raise s 0 0 10
  abortJob (schedRec s 2 { q.2 with win := some (l, w) }) q.1 true true
/-- Must job `x` leave the cluster when window `w` starts there: an edge job, and in a SAFETY window any job of another partition
(R277, 21 R610)? -/
def mustLeave (s : State) (l w : Nat) (x : Job) : Bool :=
  !isRS s x.part || (match floorWin s l w with
    | some (p, _, _) => decide (pclass s p = .safety) && decide (x.part ≠ p)
    | none => false)
/-- FLOOR_WINDOW_START (R275, R277); a replay partition's jobs leave only by a DECISION record (20 R602). -/
def floorStart (s : State) (l w : Nat) : State :=
  if floorMode s l = 0 ∨ (openWin s l).isSome ∨ !inWindow s l w then s
  else
    let s := setGuard (setOpen s l (some w)) l false
    let s := (jobsOn s l (fun x => mustLeave s l w x && !replaying s x.part)).foldl (fun s q => floorAbort s l w q) s
    reconsider (runTemplates s l w)
/-- FLOOR_WINDOW_START. -/
def execFloorWindowStart (l w : Nat) (s : State) : Host.Outcome State Fault Refusal := .next (floorStart s l w)
/-- FLOOR_WINDOW_END: a job still running has overrun its window (R278). -/
def floorEnd (s : State) (l w : Nat) : State :=
  if openWin s l ≠ some w ∨ inWindow s l w then s
  else
    let s := setOpen s l none
    let late := jobsOn s l (fun x => decide (x.win = some (l, w)))
    reconsider (late.foldl (fun s q => schedRec (raise (satFld s SYS_FLOOR_STAT 0 l 31 16) 0 0 9) 1 q.2) s)
/-- FLOOR_WINDOW_END. -/
def execFloorWindowEnd (l w : Nat) (s : State) : Host.Outcome State Fault Refusal := .next (floorEnd s l w)

/-! ### Deadlines (R298-R301) -/

/-- What becomes of a job at its deadline (R298, R299). -/
def deadlineAct (s : State) (j : Nat) (x : Job) : State :=
  if !isRS s x.part && x.lateOk then
    reconsider (setJob s j (some { x with late := true, deadline := x.deadline + acycNs x.budget (jobDiv s x) }))
  else
    let s := raise (satRg s SYS_DL_ABORT_CNT 0 x.part 1) 0 0 11
    let s := if isRS s x.part then schedRec s 3 x else s
    let s := blame s j 4 x.open
    reconsider (abortJob s j false (!isRS s x.part))
/-- DEADLINE_EXPIRE: the deadline of job `j` has passed; a replay partition's deadlines do not count (20 R602). -/
def deadlinePassed (s : State) (j : Nat) : State :=
  match job? s j with
  | none => s
  | some x =>
    if nowNs s < x.deadline ∨ x.late = true ∨ replaying s x.part = true then s
    else deadlineAct (decision s x.part 1 j 3 x.ran) j x
/-- DEADLINE_EXPIRE. -/
def execDeadlineExpire (j : Nat) (s : State) : Host.Outcome State Fault Refusal := .next (deadlinePassed s j)

end Sys2Proof.Machine
end

