-- ==== Sys2Proof/Machine/RadioOps.lean ====
section
/-! DEFINITION. What the radio families share: instants of a slot and its symbols (10 R310 R312 R333), messages to the host (R335), items of a
slot, the erasure mask (R318-R321), LLRs (13 R404), code-block figures and checksums of TS 38.212, and HARQ entries
(13 R422). -/

namespace Sys2Proof.Machine

open Sys2Proof

/-! ### Instants -/

/-- Start of slot `n` of a cell at the air interface, in ns: the boundary nearest the present that brings that number. -/
def slotStart (s : State) (c n : Nat) : Int :=
  let off : Int := (frameOffset s : Int) + cellToff s c
  let per : Int := slotNs s c
  let i : Int := ((nowNs s : Int) - off) / per
  off + (i + sgn 32 ((n + 2 ^ 32 - cellSlotNow s c) % 2 ^ 32)) * per
/-- The instant at which symbol `k` of slot `n` of a cell starts; `k` = 14 is the slot's end. A symbol has 2,192 / 2^μ samples of
30.72 MHz, and 16 more where half a subframe starts (R305: normal cyclic prefix). -/
def symEdge (s : State) (c n k : Nat) : Int :=
  let mu := cellMu s c
  let st := slotStart s c n
  let inSub := ((st - ((frameOffset s : Int) + cellToff s c)) % 1000000).toNat
  let l := inSub / slotNs s c * 14 + k
  let smp := l * 2192 / 2 ^ mu + (if 0 < l then 16 else 0) + (if 7 * 2 ^ mu < l then 16 else 0)
  st - (inSub : Int) + (rdiv (smp * 3125) 96 : Int)
/-- The reference instant of an uplink slot (R310). -/
def refInstant (s : State) (c n : Nat) : Int := slotStart s c n + (slotNs s c : Int)
/-- Is a cell LTE? -/
def cellLte (s : State) (c : Nat) : Bool := match (cellOf s c).cfg with | some x => x.lte | none => false
/-- The points of R312 in ns after the reference instant: reception closes, receiver-graph deadline, last block decoded, batch. -/
def points (s : State) (c : Nat) : Nat × Nat × Nat × Nat :=
  if cellLte s c then (30000, 520000, 560000, 600000)
  else match cellMu s c with
    | 0 => (30000, 520000, 560000, 600000)
    | 1 => (20000, 260000, 285000, 300000)
    | 2 => (15000, 165000, 185000, 200000)
    | _ => (10000, 95000, 112000, 125000)
/-- Has a point of slot `n` been reached? -/
def reached (s : State) (c n pt : Nat) : Bool := decide (refInstant s c n + (pt : Int) ≤ (nowNs s : Int))
/-- Lead time of a request for the downlink, or of UL_TTI.request (R333). -/
def leadNs (s : State) (c : Nat) (ul : Bool) : Nat :=
  let d := if cellLte s c then 1000000 else match cellMu s c with
    | 0 => 1000000 | 1 => 500000 | 2 => 300000 | _ => 200000
  if ul then d / 2 else d
/-- A request for slot `n` is on time. -/
def onTime (s : State) (c n : Nat) (ul : Bool) : Bool :=
  decide ((nowNs s : Int) + (leadNs s c ul : Int) ≤ slotStart s c n)
/-- More than 8 slots beyond the slot in progress (R337). -/
def farAhead (s : State) (c n : Nat) : Bool :=
  let d := (n + 2 ^ 32 - cellSlotNow s c) % 2 ^ 32
  decide (8 < d ∧ d < 2 ^ 31)

/-! ### Messages to the host (R335, R537, R539) -/

/-- Deliver a FAPI message to a partition's receive buffers. -/
def fapiSend (s : State) (p c : Nat) (m : FapiMsg) : State :=
  emit (deliverMsg s p (Config.fapiBytes m)) (.fapi p c m)
/-- ERROR.indication. -/
def fapiError (s : State) (p c : Nat) (r : FapiReq) (e : FapiErr) (slot : Nat) (pdu : Option Nat) : State :=
  fapiSend s p c (.errorIndication r e slot pdu)

/-! ### Slots and items -/

/-- The uplink of a slot. -/
def ulOf (s : State) (c n : Nat) : Option UlSlot := s.radio.ul.find? (fun u => decide (u.cell = c ∧ u.slot = n))
/-- Item `i` of a slot. -/
def itemOf (s : State) (c n i : Nat) : Option UlItem := (ulOf s c n).bind (fun u => u.items[i]?)
/-- Replace item `i` of a slot. -/
def setItem (s : State) (c n i : Nat) (x : UlItem) : State :=
  { s with radio := { s.radio with
      ul := updFirst (fun u => decide (u.cell = c ∧ u.slot = n)) (fun u => { u with items := lset u.items i x }) s.radio.ul } }
/-- Replace a code block of an item. -/
def setCb (s : State) (c n i k : Nat) (x : UlItem) (b : CodeBlock) : State :=
  setItem s c n i { x with cbs := tsetD {} x.cbs k b }
/-- An item is final with a STATUS of R533: 0 OK, 1 FAILED, 2 CORRUPT, 3 CRC_FAIL. -/
def finalItem (s : State) (c n i : Nat) (st : Nat) : State :=
  match itemOf s c n i with
  | some x => setItem s c n i { x with status := some st }
  | none => s
/-- The downlink of a slot. -/
def dlOf (s : State) (c n : Nat) : Option DlSlot := s.radio.dl.find? (fun u => decide (u.cell = c ∧ u.slot = n))
/-- Item `i` of a slot's downlink. -/
def dlItem (s : State) (c n i : Nat) : Option DlItem := (dlOf s c n).bind (fun u => u.items[i]?)
/-- Replace it. -/
def setDl (s : State) (c n i : Nat) (x : DlItem) : State :=
  { s with radio := { s.radio with
      dl := updFirst (fun u => decide (u.cell = c ∧ u.slot = n)) (fun u => { u with items := lset u.items i x }) s.radio.dl } }

/-! ### Grids and the erasure mask (R318-R321) -/

/-- The grid of one symbol and antenna, once stage 2 has written it. -/
def gridOf (s : State) (c n sym ant : Nat) : Option Grid :=
  s.fh.grids.find? (fun g => decide (g.cell = c ∧ g.slot = n ∧ g.sym = sym ∧ g.ant = ant))
/-- Put a grid in place of any earlier one. -/
def putGrid (s : State) (g : Grid) : State :=
  { s with fh := { s.fh with
      grids := s.fh.grids.filter (fun x => !decide (x.cell = g.cell ∧ x.slot = g.slot ∧ x.sym = g.sym ∧ x.ant = g.ant)) ++ [g] } }
/-- Is a PRB erased on one antenna and symbol? What no section brought is erased, and so is a stream erased whole. -/
def prbErased (s : State) (c n sym ant prb : Nat) : Bool :=
  decide ((c, n, sym, ant) ∈ s.fh.erase) || match gridOf s c n sym ant with | some g => decide (prb ∈ g.erased) | none => true
/-- Receive antennas of a cell. -/
def rxAnts (s : State) (c : Nat) : Nat := match (cellOf s c).cfg with | some x => x.rxAnts | none => 0
/-- PRBs of an allocation. -/
def prbsOf (p : UlPdu) : List Nat := (List.range p.prbs).map (fun k => p.prb0 + k)
/-- No PRB of the allocation has its DMRS unerased on this antenna (R320). -/
def antLost (s : State) (c n : Nat) (p : UlPdu) (ant : Nat) : Bool :=
  decide (p.dmrs ≠ []) && (prbsOf p).all (fun b => p.dmrs.any (fun m => prbErased s c n m ant b))
/-- Erased data positions of an allocation after R320, and all of them. -/
def erasedShare (s : State) (c n : Nat) (p : UlPdu) : Nat × Nat :=
  let ants := List.range (rxAnts s c)
  ((ants.map (fun a =>
      if antLost s c n p a then p.prbs * p.syms.length
      else ((prbsOf p).map (fun b => (p.syms.filter (fun m => prbErased s c n m a b)).length)).sum)).sum,
   ants.length * p.prbs * p.syms.length)
/-- A vendor TLV of a cell, with its default (R338): 0xA001 ANT_ERASE_MAX. -/
def antEraseMax (s : State) (c : Nat) : Nat :=
  match (cellOf s c).cfg with | some x => x.antEraseMax.getD (x.rxAnts / 2) | none => 0
/-- 0xA002 ERASE_MAX_PCT. -/
def eraseMaxPct (s : State) (c : Nat) : Nat := match (cellOf s c).cfg with | some x => x.eraseMaxPct.getD 50 | none => 50
/-- 0xA003 PRACH_THRESH, 8.8. -/
def prachThresh (s : State) (c : Nat) : Nat := match (cellOf s c).cfg with | some x => x.prachThresh.getD 0xA00 | none => 0xA00
/-- 0xA004 SLOT_IND_ADV. -/
def slotIndAdv (s : State) (c : Nat) : Nat := match (cellOf s c).cfg with | some x => x.slotIndAdv.getD 2 | none => 2
/-- 0xA005 LEARNED_RX. -/
def cfgLearned (x : CellConfig) : Nat := x.learnedRx.getD 1
/-- An allocation is CORRUPT (R321). -/
def isCorrupt (s : State) (c n : Nat) (p : UlPdu) : Bool :=
  let (e, t) := erasedShare s c n p
  decide (eraseMaxPct s c * t < 100 * e)
/-- Antennas that count as erased at one PRB and symbol of an allocation exceed ANT_ERASE_MAX (R319). -/
def zeroLlrs (s : State) (c n : Nat) (p : UlPdu) (sym prb : Nat) : Bool :=
  decide (antEraseMax s c < ((List.range (rxAnts s c)).filter (fun a => antLost s c n p a || prbErased s c n sym a prb)).length)

/-! ### LLRs (R404) -/

/-- An LLR as a number; 0x80 is read as -127. -/
def llrVal (b : Byte) : Int := if b = 0x80 then -127 else b.toInt
/-- A number as an LLR, saturated to ±127. -/
def llrSat (x : Int) : Byte := BitVec.ofInt 8 (if x > 127 then 127 else if x < -127 then -127 else x)
/-- LLRs as a matrix engine reads them: 0x80 is -127. -/
def llrNorm (b : Byte) : Byte := llrSat (llrVal b)

/-! ### Figures of TS 38.212 (log 12) -/

/-- CRC remainder of `w` bits with generator `g` (without its leading bit), most significant bit first. -/
def crcReg (w g : Nat) : Nat → List Bool → Nat
  | r, [] => r
  | r, b :: t =>
    let x := r * 2 % 2 ^ w
    crcReg w g (if (decide (r / 2 ^ (w - 1) % 2 = 1)) != b then Nat.xor x g else x) t
/-- The bits of a number, most significant first. -/
def bitsOf (w v : Nat) : List Bool := (List.range w).map (fun i => decide (v / 2 ^ (w - 1 - i) % 2 = 1))
/-- CRC of a transport block: 24 bits, or 16 for an NR block of at most 3,824 bits. -/
def tbCrc (lte : Bool) (bits : List Bool) : List Bool :=
  if lte ∨ bits.length > 3824 then bitsOf 24 (crcReg 24 0x864CFB 0 bits) else bitsOf 16 (crcReg 16 0x1021 0 bits)
/-- CRC of a code block. -/
def cbCrc (bits : List Bool) : List Bool := bitsOf 24 (crcReg 24 0x800063 0 bits)
/-- Bits of a transport block with its CRC. -/
def tbLen (lte : Bool) (tbs : Nat) : Nat := tbs + (if lte ∨ tbs > 3824 then 24 else 16)
/-- Bits of one code block before filler bits, its CRC included where there is more than one. -/
def cbLen (lte : Bool) (tbs n : Nat) : Nat := if n ≤ 1 then tbLen lte tbs else ceilDiv (tbLen lte tbs + 24 * n) n
/-- Systematic columns of a base graph. -/
def kCols (bg2 : Bool) : Nat := if bg2 then 10 else 22
/-- All columns. -/
def nCols (bg2 : Bool) : Nat := if bg2 then 52 else 68
/-- Length of a full circular buffer: the first two columns are punctured. -/
def bufLen (bg2 : Bool) (zc : Nat) : Nat := (nCols bg2 - 2) * zc
/-- Start of a redundancy version in a buffer of `ncb`. -/
def rvStart (bg2 : Bool) (zc ncb rv : Nat) : Nat :=
  let (m, d) := if bg2 then (match rv with | 0 => 0 | 1 => 13 | 2 => 25 | _ => 43, 50)
    else (match rv with | 0 => 0 | 1 => 17 | 2 => 33 | _ => 56, 66)
  if zc = 0 then 0 else m * ncb / (d * zc) * zc
/-- Rate-matched bits of code block `k` of `n`: `g` bits in all, at `q` bits for each symbol over the layers. -/
def matchedLen (g q n k : Nat) : Nat :=
  if q = 0 ∨ n = 0 then 0
  else if k + 1 + g / q % n ≤ n then q * (g / q / n) else q * ceilDiv (g / q) n
/-- Bits before code block `k`. -/
def matchedOff (g q n k : Nat) : Nat := ((List.range k).map (matchedLen g q n)).sum
/-- Is position `i` of the circular buffer a filler bit? -/
def isFiller (bg2 : Bool) (zc k i : Nat) : Bool := decide (k ≤ i + 2 * zc ∧ i + 2 * zc < kCols bg2 * zc)
/-- The positions of the circular buffer that `e` bits take from `i` on, filler bits left out. -/
def ringPos (bg2 : Bool) (zc k ncb : Nat) : Nat → Nat → Nat → List Nat
  | 0, _, _ => []
  | f + 1, i, e =>
    if e = 0 ∨ ncb = 0 then []
    else if isFiller bg2 zc k (i % ncb) then ringPos bg2 zc k ncb f (i + 1) e
    else (i % ncb) :: ringPos bg2 zc k ncb f (i + 1) (e - 1)
/-- The positions of one transmission of a code block. -/
def txPos (bg2 : Bool) (zc k ncb rv e : Nat) : List Nat :=
  ringPos bg2 zc k ncb ((e + 1) * (kCols bg2 * zc + 1)) (rvStart bg2 zc ncb rv) e
/-- Bytes as bits, most significant first. -/
def byteBits (bs : List Byte) : List Bool := bs.flatMap (fun b => bitsOf 8 b.toNat)
/-- Bits as bytes. -/
def bitBytes : Nat → List Bool → List Byte
  | 0, _ => []
  | n + 1, l => BitVec.ofNat 8 ((List.range 8).foldl (fun v i => v * 2 + b2n (l.getD i false)) 0) :: bitBytes n (l.drop 8)

/-! ### HARQ entries (R419, R422-R424, 14 R438) -/

/-- HQ_ENTRIES of a partition. -/
def hqEntries (s : State) (p : Nat) : Nat := fld (rg s LDD_HQ_ENTRIES 0 p) 19 0
/-- Entries in use. -/
def hqUsed (s : State) (p : Nat) : List Nat := tgetD [] s.radio.harq p
/-- Replace them. -/
def setHq (s : State) (p : Nat) (l : List Nat) : State :=
  { s with radio := { s.radio with harq := tsetD [] s.radio.harq p l } }
/-- Device address of an entry. -/
def hqAddr (s : State) (p i : Nat) : Nat :=
  (match partRegion s p with | some (b, _, _) => b | none => 0) + (rg s LDD_HQ_BASE_LO 0 p).toNat +
    fld (rg s LDD_HQ_BASE_HI 0 p) 7 0 * 2 ^ 32 + i * 25344
/-- Allocate the free entry of lowest index; POOL_EXHAUST counts the lack of one (R423). -/
def hqAlloc (s : State) (p : Nat) : Option Nat × State :=
  match (List.range (hqEntries s p)).find? (fun i => !decide (i ∈ hqUsed s p)) with
  | some i => (some i, setHq s p (hqUsed s p ++ [i]))
  | none => (none, satRg s LDD_POOL_EXHAUST 0 p 1)
/-- Offset of a HARQ process record in a context. -/
def procOff (h : Nat) : Nat := 0x100 + h * 640
/-- Release every entry of process `h` of context `i` (R422). -/
def procRelease (s : State) (p i h : Nat) : State :=
  let o := procOff h
  let es := (List.range 152).filterMap (fun k =>
    let w := ctxWord s i (o + 0x20 + 4 * k)
    if bit w 31 then some (fld w 19 0) else none)
  let s := setHq s p ((hqUsed s p).filter (fun e => !decide (e ∈ es)))
  let s := ctxPut s i (o + 0x20) (List.replicate 608 0)
  ctxPutW s i o (setFld (ctxWord s i o) 7 0 0)
/-- Release every entry of a context. -/
def ctxEntries (s : State) (p i : Nat) : State := (List.range 16).foldl (fun s h => procRelease s p i h) s

end Sys2Proof.Machine
end

