-- ==== Sys2Proof/Machine/Fapi.lean ====
section
/-! DEFINITION. FAPI messages (10 R305-R309 R333-R338, 17 R537 R538): each takes the FAPI descriptor at the head of its
partition's window, and its decoded content is the command's operand, since the manual does not give the SCF 222 encoding. -/

namespace Sys2Proof.Machine

open Sys2Proof

/-! ### The descriptor -/

/-- A FAPI descriptor of R537 has a length of 1 to 65,536, a cell below 96 and zeros elsewhere. -/
def fapiOk (d : List Word) : Bool :=
  dtypeOk d && decide (1 ≤ (wd d 5).toNat ∧ (wd d 5).toNat ≤ 65536) && decide ((wd d 6).toNat < Config.cells) && zeroWords d 7 30
/-- Carry out `f` on the message at the head of partition `p`'s descriptors, if it is for this cell. A cell belongs to the
partition that configured it (log 14); another's message is refused with NO_PERM. -/
def takeFapi (s : State) (p c : Nat) (f : State → State) : State :=
  match headDesc s p with
  | none => s
  | some d =>
    if dtype d ≠ 0x30 then s
    else if !fapiOk d then dropDesc (badDesc s p d 0x20) p
    else if (wd d 6).toNat ≠ c ∨ !mayWriteHost s p then s
    else if (cellOf s c).part.isSome ∧ (cellOf s c).part ≠ some p then dropDesc (badDesc s p d 0x22) p
    else
      let a := addr64 (wd d 3) (wd d 4)
      let s := record s p 6 (wordsLe [wd d 3, wd d 4] ++ hostRead s a (wd d 5).toNat)
      dropDesc (cmdRec (f s) p d 0 0 0) p

/-! ### PARAM, CONFIG, START, STOP -/

/-- PARAM_REQUEST. -/
def execParamRequest (p c : Nat) (s : State) : Host.Outcome State Fault Refusal :=
  .next (takeFapi s p c (fun s => fapiSend s p c .paramResponse))

/-- Widest carrier in PRBs of a numerology; none where the range does not offer it (R305, R308). -/
def maxPrbs (x : CellConfig) : Option Nat :=
  if x.lte then (if x.mu = 0 ∧ !x.fr2 then some 100 else none)
  else match x.mu, x.fr2 with
    | 0, false => some 270
    | 1, false => some 273
    | 2, false => some 135
    | 2, true => some 264
    | 3, true => some 264
    | _, _ => none
/-- Every vendor TLV lies in its range (R338). -/
def tlvsOk (x : CellConfig) (ants : Nat) : Bool :=
  decide (x.antEraseMax.getD 0 ≤ ants) && decide (1 ≤ x.eraseMaxPct.getD 50 ∧ x.eraseMaxPct.getD 50 ≤ 100) &&
    decide (0x100 ≤ x.prachThresh.getD 0xA00 ∧ x.prachThresh.getD 0xA00 ≤ 0xFFFF) &&
    decide (1 ≤ x.slotIndAdv.getD 2 ∧ x.slotIndAdv.getD 2 ≤ 8) && decide (x.learnedRx.getD 1 ≤ 1)
/-- Cells configured as NR, or as LTE, besides `c`. -/
def cellsOf (s : State) (c : Nat) (lte : Bool) : Nat :=
  (s.radio.cells.filter (fun e => decide (e.1 ≠ c) && (match e.2.cfg with | some x => x.lte == lte | none => false))).length
/-- A configuration that the device supports (R305-R309). -/
def cfgOk (s : State) (c : Nat) (x : CellConfig) : Bool :=
  (match maxPrbs x with | some m => decide (1 ≤ x.prbs ∧ x.prbs ≤ m) | none => false) &&
    !x.extendedCp && !x.unsupported && tlvsOk x x.rxAnts && decide (cellsOf s c x.lte < (if x.lte then 32 else 64))
/-- The vendor TLVs of `y` where it gives them, over those of `x`. -/
def mergeTlvs (x y : CellConfig) : CellConfig :=
  { x with antEraseMax := y.antEraseMax <|> x.antEraseMax, eraseMaxPct := y.eraseMaxPct <|> x.eraseMaxPct
           prachThresh := y.prachThresh <|> x.prachThresh, slotIndAdv := y.slotIndAdv <|> x.slotIndAdv
           learnedRx := y.learnedRx <|> x.learnedRx }
/-- A configuration takes effect: the tick of LEARNED_RX 0 is noted (R357). -/
def applyCfg (s : State) (c : Nat) (x : CellConfig) : State :=
  let k := cellOf s c
  setCell s c { k with cfg := some x, todo := none
                       learnedOff := if cfgLearned x = 0 then some (k.learnedOff.getD s.tmu.ticks) else none }
/-- CONFIG.request (R336, R338). -/
def configCell (s : State) (p c : Nat) (x : CellConfig) : State :=
  let k := cellOf s c
  match k.st, k.cfg with
  | .running, some old =>
    if x.otherChange then fapiSend s p c (.configResponse false)
    else if !tlvsOk x old.rxAnts then fapiSend s p c (.configResponse false)
    else fapiSend (setCell s c { k with todo := some (mergeTlvs (k.todo.getD old) x) }) p c (.configResponse true)
  | _, _ =>
    if !cfgOk s c x ∨ k.st = .running then fapiSend s p c (.configResponse false)
    else
      let s := setCell s c { k with part := some p, st := .configured }
      fapiSend (applyCfg s c x) p c (.configResponse true)
/-- CONFIG_REQUEST. -/
def execConfigRequest (p c : Nat) (x : CellConfig) (s : State) : Host.Outcome State Fault Refusal :=
  .next (takeFapi s p c (fun s => configCell s p c x))
/-- START.request (R336). -/
def startCell (s : State) (p c : Nat) : State :=
  let k := cellOf s c
  if k.st = .configured ∧ k.startAt = none ∧ k.stopAt = none then
    setCell s c { k with startAt := some ((frameCnt s + 2) % 2 ^ 32) }
  else fapiError s p c .start .invalidState 0 none
/-- START_REQUEST. -/
def execStartRequest (p c : Nat) (s : State) : Host.Outcome State Fault Refusal :=
  .next (takeFapi s p c (fun s => startCell s p c))
/-- STOP.request (R336). -/
def stopCell (s : State) (p c : Nat) : State :=
  let k := cellOf s c
  if k.st = .running ∧ k.stopAt = none then setCell s c { k with stopAt := some (frameCnt s) }
  else fapiError s p c .stop .invalidState 0 none
/-- STOP_REQUEST. -/
def execStopRequest (p c : Nat) (s : State) : Host.Outcome State Fault Refusal :=
  .next (takeFapi s p c (fun s => stopCell s p c))

/-! ### Slot requests (R309, R333, R334, R337) -/

/-- Does a cell take slot requests: it runs, or it is about to start? -/
def takesSlots (k : Cell) : Bool := decide (k.st = .running) || k.startAt.isSome
/-- Why a request for slot `n` is refused before its content is looked at; `kind` is 0 DL_TTI, 1 UL_TTI, 2 UL_DCI, 3 TX_Data. -/
def slotErr (s : State) (c n kind : Nat) : Option FapiErr :=
  if !takesSlots (cellOf s c) then some .invalidState
  else if farAhead s c n then some .invalidSfn
  else if (let p := (cellOf s c).part.getD 0
      if replaying s p then decide (forced s 6 (c * 4 + kind) = some n) else !onTime s c n (decide (kind = 1))) then some .late
  else none
/-- A late request has been answered, and its absence at the slot's start is not reported again (R334); it is a choice of 20 R592. -/
def noteLate (s : State) (e : FapiErr) (c n kind : Nat) : State :=
  if e = .late then
    let s := decision (forcedMet s 6 (c * 4 + kind)) ((cellOf s c).part.getD 0) 6 (c * 4 + kind) n 0
    if kind ≤ 1 then { s with radio := { s.radio with lateSeen := s.radio.lateSeen ++ [(c, n, decide (kind = 1))] } } else s
  else s
/-- The first downlink PDU that asks for what R307 refuses, or breaks a limit. -/
def dlBad (pdus : List DlPdu) : Option (Option Nat) :=
  match findIdx? (fun (x : DlPdu) => x.unsupported || decide (8 < x.layers)) pdus 0 with
  | some (i, _) => some (some i)
  | none =>
    if 64 < (pdus.filter (fun x => decide (x.kind = .pdsch))).length ∨ 64 < (pdus.filter (fun x => decide (x.kind = .pdcch))).length
    then some none else none
/-- DL_TTI.request: taken whole or not at all. A slot takes one. -/
def dlTti (s : State) (p c n : Nat) (pdus : List DlPdu) : State :=
  match slotErr s c n 0 with
  | some e => noteLate (fapiError s p c .dlTti e n none) e c n 0
  | none =>
    match dlBad pdus with
    | some i => fapiError s p c .dlTti .invalidConfig n i
    | none =>
      let items := pdus.map (fun x => ({ pdu := x } : DlItem))
      match dlOf s c n with
      | none => { s with radio := { s.radio with dl := s.radio.dl ++ [⟨p, c, n, items, 0, true⟩] } }
      | some u =>
        if u.tti = true ∨ 64 < u.dcis + (pdus.filter (fun x => decide (x.kind = .pdcch))).length then
          fapiError s p c .dlTti .invalidConfig n none
        else { s with radio := { s.radio with
          dl := updFirst (fun u => decide (u.cell = c ∧ u.slot = n)) (fun u => { u with items := items, tti := true }) s.radio.dl } }
/-- DL_TTI_REQUEST. -/
def execDlTtiRequest (p c n : Nat) (pdus : List DlPdu) (s : State) : Host.Outcome State Fault Refusal :=
  .next (takeFapi s p c (fun s => dlTti s p c n pdus))
/-- UL_DCI.request: at most 64 DCIs in the slot. -/
def ulDci (s : State) (p c n k : Nat) : State :=
  match slotErr s c n 2 with
  | some e => noteLate (fapiError s p c .ulDci e n none) e c n 2
  | none =>
    let have_ := match dlOf s c n with
      | some u => u.dcis + (u.items.filter (fun x => decide (x.pdu.kind = .pdcch))).length
      | none => 0
    if 64 < have_ + k then fapiError s p c .ulDci .invalidConfig n none
    else match dlOf s c n with
      | some _ => { s with radio := { s.radio with
          dl := updFirst (fun u => decide (u.cell = c ∧ u.slot = n)) (fun u => { u with dcis := u.dcis + k }) s.radio.dl } }
      | none => { s with radio := { s.radio with dl := s.radio.dl ++ [⟨p, c, n, [], k, false⟩] } }
/-- UL_DCI_REQUEST. -/
def execUlDciRequest (p c n k : Nat) (s : State) : Host.Outcome State Fault Refusal :=
  .next (takeFapi s p c (fun s => ulDci s p c n k))
/-- One payload of TX_Data.request: the device reads it from host memory (R537). -/
def txPayload (s : State) (p c n : Nat) (x : TxPayload) : State :=
  match dlItem s c n x.pdu with
  | some i =>
    if i.pdu.kind = .pdsch then
      let s := record s p 6 (wordsLe [w32 x.addr, w32 (x.addr / 2 ^ 32)] ++ hostReadFor s p x.addr x.len)
      setDl s c n x.pdu { i with payload := some (hostReadFor s p x.addr x.len) }
    else fapiError s p c .txData .invalidConfig n (some x.pdu)
  | none => fapiError s p c .txData .invalidConfig n (some x.pdu)
/-- A payload of a late TX_Data.request: its PDU is named, once (R334). -/
def txLate (s : State) (p c n : Nat) (x : TxPayload) : State :=
  let s := fapiError s p c .txData .late n (some x.pdu)
  match dlItem s c n x.pdu with
  | some i => setDl s c n x.pdu { i with told := true }
  | none => s
/-- TX_Data.request (R334). -/
def txData (s : State) (p c n : Nat) (l : List TxPayload) : State :=
  match slotErr s c n 3 with
  | some .late => noteLate (l.foldl (fun s x => txLate s p c n x) s) .late c n 3
  | some e => fapiError s p c .txData e n none
  | none => l.foldl (fun s x => txPayload s p c n x) s
/-- TX_DATA_REQUEST. -/
def execTxDataRequest (p c n : Nat) (l : List TxPayload) (s : State) : Host.Outcome State Fault Refusal :=
  .next (takeFapi s p c (fun s => txData s p c n l))

/-! ### UL_TTI.request -/

/-- PDUs of one kind. -/
def kindCount (pdus : List UlPdu) (k : UlKind) : Nat := (pdus.filter (fun x => decide (x.kind = k))).length
/-- Two PUSCH PDUs name one UE and HARQ process (13 R420). -/
def harqTwice : List UlPdu → Bool
  | [] => false
  | x :: t => (decide (x.kind = .pusch) && x.ctx.isSome &&
      t.any (fun y => decide (y.kind = .pusch ∧ y.ctx = x.ctx ∧ y.harq = x.harq))) || harqTwice t
/-- A PDU that asks for what the device does not support (R306, R307, 13 R405). -/
def ulPduBad (lte : Bool) (x : UlPdu) : Bool :=
  x.unsupported || decide (x.kind = .pusch ∧ (4 < x.layers ∨ 16 ≤ x.harq ∨ 152 < x.codeBlocks ∨ x.codeBlocks = 0)) ||
    (decide (x.kind = .pusch ∧ (x.zc < 2 ∨ 384 < x.zc)) && !lte)
/-- The first thing wrong with an UL_TTI.request: a PDU, or the whole (R309). -/
def ulBad (lte : Bool) (pdus : List UlPdu) : Option (Option Nat) :=
  match findIdx? (ulPduBad lte) pdus 0 with
  | some (i, _) => some (some i)
  | none =>
    if 64 < kindCount pdus .pusch ∨ 256 < kindCount pdus .pucch ∨ 8 < kindCount pdus .prach ∨ 64 < kindCount pdus .srs ∨ harqTwice pdus
    then some none else none
/-- Sectors of a context that bytes [off, off + n) touch. -/
def sectsOf (off n : Nat) : List Nat := (List.range ((off + n - 1) / 1024 + 1 - off / 1024)).map (fun i => off / 1024 + i)
/-- Prefetch and pin what a PDU needs of its context (14 R450). -/
def prefetch (s : State) (p c n : Nat) (x : UlPdu) : State :=
  match x.ctx with
  | none => s
  | some i =>
    let bank := (cellOf s c).bank
    let l := sectsOf 0 256 ++ (if x.kind = .srs then sectsOf 0x2900 4096
      else sectsOf (procOff x.harq) 640 ++ sectsOf 0x3900 4096 ++ sectsOf 0x4900 4096 ++ sectsOf 0x5900 16960) ++
      sectsOf (if bank = 0 then 0xA000 else 0xD000) 12288
    l.eraseDups.foldl (fun s k => pinSect s p c n i k) s
/-- A PUSCH or SRS PDU without a context of its partition that is in use (14 R442). -/
def noContext (s : State) (p : Nat) (x : UlPdu) : Bool :=
  decide (x.kind = .pusch ∨ x.kind = .srs) &&
    (match x.ctx with | none => true | some i => decide (ctxOwner s i ≠ some p) || decide (ctxState s i = 0))
/-- Take up the PDUs from index `k` on. -/
def takePdus (s : State) (p c n k : Nat) : List UlPdu → State
  | [] => s
  | x :: t =>
    let s := if noContext s p x then fapiError (finalItem s c n k 1) p c .ulTti .invalidConfig n (some k)
      else if x.kind = .pusch ∨ x.kind = .srs then prefetch s p c n x else s
    takePdus s p c n (k + 1) t
/-- UL_TTI.request. -/
def ulTti (s : State) (p c n : Nat) (pdus : List UlPdu) : State :=
  match slotErr s c n 1 with
  | some e => noteLate (fapiError s p c .ulTti e n none) e c n 1
  | none =>
    match ulBad (cellLte s c) pdus with
    | some i => fapiError s p c .ulTti .invalidConfig n i
    | none =>
      if (ulOf s c n).isSome then fapiError s p c .ulTti .invalidConfig n none
      else
        let s := { s with radio := { s.radio with
          ul := s.radio.ul ++ [⟨p, c, n, pdus.map (fun x => { pdu := x, bank := (cellOf s c).bank }), false⟩] } }
        takePdus s p c n 0 pdus
/-- UL_TTI_REQUEST. -/
def execUlTtiRequest (p c n : Nat) (pdus : List UlPdu) (s : State) : Host.Outcome State Fault Refusal :=
  .next (takeFapi s p c (fun s => ulTti s p c n pdus))

/-- FAPI: a message that R335 does not list is refused by ERROR.indication, which names its type. -/
def execFapi (p c m : Nat) (s : State) : Host.Outcome State Fault Refusal :=
  .next (takeFapi s p c (fun s => fapiError s p c (.other m) .unsupported 0 none))

end Sys2Proof.Machine
end

