-- ==== Sys2Proof/Machine/Uplink.lean ====
section
/-! DEFINITION. The uplink stages (10 R311-R330): PRACH detection, the Baseline Equaliser and the path selector (11 R349-R362),
rate recovery and HARQ combining (13 R418-R423), the transport-block check and the slot batch. -/

namespace Sys2Proof.Machine

open Sys2Proof

/-! ### PRACH (R326-R330) -/

/-- Highest sample of a window and its delay; of equal ones the earlier. -/
def winPeak (prof : List Nat) (w : Nat × Nat × Nat) : Nat × Nat :=
  (List.range w.2.2).foldl (fun m i => let v := prof.getD (w.2.1 + i) 0; if m.1 < v then (v, i) else m) (prof.getD w.2.1 0, 0)
/-- Detections of one root from its summed profile (R327 step 5, R328): preamble, delay, peak over noise. -/
def detect (thr : Nat) (prof : List Nat) (wins : List (Nat × Nat × Nat)) : List (Nat × Nat × Nat × Nat) :=
  let n := prof.length
  let hot := wins.filter (fun w => decide (thr * prof.sum ≤ (winPeak prof w).1 * 256 * n))
  let rest := (List.range n).filter (fun i => !hot.any (fun w => decide (w.2.1 ≤ i ∧ i < w.2.1 + w.2.2)))
  let (s2, n2) := if rest = [] then (prof.sum, n) else ((rest.map (fun i => prof.getD i 0)).sum, rest.length)
  (wins.filter (fun w => decide (thr * s2 ≤ (winPeak prof w).1 * 256 * n2))).map (fun w =>
    let (v, d) := winPeak prof w
    (w.1, d, v * n2, s2))
/-- Send RACH.indication once every PRACH item of the slot is final (R323, R329). -/
def sendRach (s : State) (c n : Nat) : State :=
  match ulOf s c n with
  | none => s
  | some u =>
    let l := u.items.filter (fun x => decide (x.pdu.kind = .prach))
    if u.rach ∨ l = [] ∨ l.any (fun x => x.status.isNone) then s
    else
      let s := { s with radio := { s.radio with
        ul := updFirst (fun u => decide (u.cell = c ∧ u.slot = n)) (fun u => { u with rach := true }) s.radio.ul } }
      fapiSend s u.part c (.rach n (l.map (fun x => x.prach)))
/-- Sequence length and repetitions of a PRACH format: 0 to 3, then A1, A2, A3, B1, B2, B3, B4, C0, C2 (TS 38.211; log 131). -/
def prachShape (fmt : Nat) : Nat × Nat :=
  match fmt with
  | 0 => (839, 1) | 1 => (839, 2) | 2 => (839, 4) | 3 => (839, 4)
  | 4 => (139, 2) | 5 => (139, 4) | 6 => (139, 6) | 7 => (139, 2) | 8 => (139, 4) | 9 => (139, 6) | 10 => (139, 12) | 11 => (139, 1)
  | _ => (139, 4)
/-- a-cycles of an occasion over `n` antenna-root correlations (R329). -/
def prachWork (fmt n : Nat) : Nat :=
  let (l, r) := prachShape fmt
  n * (r * ceilDiv l 4 + if l = 839 then 320 else 128)
/-- The bound of R329 on correlator `u`: 20 µs after the occasion, and the work of the occasion and of what was queued ahead of it. A
report after it raises OCC_LATE. -/
def prachDue (s : State) (u c n work : Nat) (syms : List Nat) : State :=
  let base := (symEdge s c n (syms.foldl Nat.max 0 + 1)).toNat + 20000
  let due := Nat.max base (tgetD 0 s.radio.pxcDue u) + acycNs work 4
  let s := { s with radio := { s.radio with pxcDue := tsetD 0 s.radio.pxcDue u due } }
  let s := setRg s PXC_QUEUE_PEAK u 0 (w32 (Nat.max (rg s PXC_QUEUE_PEAK u 0).toNat ((due - base) * 12288 / 12500)))
  if due < nowNs s then raise s 29 u 1 else s
/-- Correlate the occasion that PDU `i` of a slot names, over the antennas that are not missing. -/
def correlate (s : State) (u c n i : Nat) (missing : List Nat) : State :=
  match itemOf s c n i with
  | none => s
  | some x =>
    if x.pdu.kind ≠ .prach ∨ x.status.isSome ∨ (29, u) ∈ s.units.engOut then s
    else
      let bad (a : Nat) : Bool := s.fh.prach.any (fun q =>
        decide (fld (rg s FHP_ASSOC_CFG 0 q.assoc) 21 15 = c ∧ q.slot = n ∧ q.ant = a) && q.bad)
      let ants := (List.range (rxAnts s c)).filter (fun a => !decide (a ∈ missing) && !bad a)
      let s := prachDue (wrapRg s PXC_OCC_COUNT u 0 1) u c n (prachWork x.pdu.fmt (ants.length * x.pdu.roots)) x.pdu.syms
      if ants = [] then
        let s := raise (satRg s PXC_OCC_CORRUPT u 0 1) 29 u 0
        sendRach (setItem s c n i { x with status := some 2, prach := ⟨2, 0, []⟩ }) c n
      else
        let fr := (s.fh.prach.filter (fun q => decide (fld (rg s FHP_ASSOC_CFG 0 q.assoc) 21 15 = c ∧ q.slot = n))).map
          (fun q => (q.ant, q.payload))
        let cv := (s.fh.prachIn.filter (fun q => decide (q.1 = c ∧ q.2.1 = i))).map (fun q => q.2.2)
        let l := (List.range x.pdu.roots).flatMap (fun r =>
          detect (prachThresh s c) (Config.prachProfile c n i r ants fr cv) (Config.prachWindows c i r))
        let s := { s with fh := { s.fh with prachIn := s.fh.prachIn.filter (fun q => !decide (q.1 = c ∧ q.2.1 = i)) } }
        let s := wrapRg s PXC_DET_COUNT u 0 l.length
        sendRach (setItem s c n i { x with status := some 0, prach := ⟨0, ants.length, l⟩ }) c n
/-- PRACH_CORRELATE. -/
def execPrachCorrelate (u c n occ : Nat) (missing : List Nat) (s : State) : Host.Outcome State Fault Refusal :=
  .next (correlate s u c n occ missing)

/-! ### The Baseline Equaliser (R349-R355) -/

/-- Bits of one modulation symbol over the layers. -/
def symBits (p : UlPdu) : Nat := p.qm * p.layers
/-- Symbol and PRB of bit `k` of an allocation: over layers, then subcarriers, then data symbols. -/
def bitPlace (p : UlPdu) (k : Nat) : Nat × Nat :=
  let re := k / symBits p
  (p.syms.getD (re / (p.prbs * 12)) 0, p.prb0 + re % (p.prbs * 12) / 12)
/-- Cut the LLRs of an allocation into its code blocks. -/
def cutBlocks (p : UlPdu) (l : List Byte) : List (List Byte) :=
  (List.range p.codeBlocks).map (fun k =>
    (l.drop (matchedOff p.bits (symBits p) p.codeBlocks k)).take (matchedLen p.bits (symBits p) p.codeBlocks k))
/-- The LLRs of the Baseline Equaliser: zero where too many antennas are erased (R319). -/
def beqLlrs (s : State) (c n i : Nat) (p : UlPdu) : List (List Byte) :=
  let seen := (p.syms ++ p.dmrs).flatMap (fun m => (List.range (rxAnts s c)).filterMap (fun a =>
    (gridOf s c n m a).map (fun g => (m, a, g.vals, if antLost s c n p a then prbsOf p else g.erased))))
  cutBlocks p ((List.range p.bits).map (fun k =>
    let (m, b) := bitPlace p k
    if zeroLlrs s c n p m b then 0 else llrNorm (Config.beqLlr c n i k seen)))
/-- Does the Baseline Equaliser compute slot `n` of a cell (R352, R353)? -/
def beqServes (s : State) (c n : Nat) : Bool :=
  beqEn s c && (beqHot s c || (match (cellOf s c).engaged with
    | some t => decide ((t : Int) < slotStart s c n)
    | none => false))
/-- Note that an engine leaves service at the next slot boundary (23 R659). -/
def leaveEngine (s : State) (code inst cause : Nat) : State :=
  if (code, inst) ∈ s.units.engOut ∨ s.units.engLeaving.any (fun q => decide (q.1 = code ∧ q.2.1 = inst)) then s
  else { s with units := { s.units with engLeaving := s.units.engLeaving ++ [(code, inst, cause)] } }
/-- SAFETY partitions whose cells a Baseline Equaliser unit serves. -/
def unitParts (s : State) (u : Nat) : List Nat :=
  ((List.range Config.cells).filterMap (fun c =>
    if beqEn s c ∧ beqUnit s c = u then (cellOf s c).part else none)).eraseDups.filter (fun p => decide (pclass s p = .safety))
/-- A residue check fails in unit `u` (R355, R629, 23 R659). -/
def beqFault (s : State) (u : Nat) : State :=
  let old := tgetD [] s.radio.beqFaults u
  let s := { s with radio := { s.radio with beqFaults := tsetD [] s.radio.beqFaults u [s.tmu.ticks] } }
  let s := raise (satRg s BEQ_BEQ_FAULTS u 0 1) 30 u 0
  let near (ns : Nat) : Bool := old.any (fun t => decide (sinceNs s t ≤ ns))
  let s := if near 1000000000 then leaveEngine s 30 u 4 else s
  (unitParts s u).foldl (fun s p => if near (fld (rg s SYS_SAF_CFG 0 p) 15 0 * 1000000) then trigger s p 3 else s) s
/-- BEQ_ALLOCATION: PDU `i` of a slot; a CORRUPT allocation is final (R321). -/
def beqAllocation (s : State) (c n i : Nat) (residueFail : Bool) : State :=
  match itemOf s c n i with
  | none => s
  | some x =>
    if x.pdu.kind ≠ .pusch ∨ x.status.isSome ∨ x.beq.isSome ∨ x.path.isSome ∨ !beqServes s c n then s
    else if isCorrupt s c n x.pdu then finalItem s c n i 2
    else
      let u := beqUnit s c
      if (30, u) ∈ s.units.engOut then setItem s c n i { x with beq := some false }
      else
        let s := wrapRg s BEQ_ALLOC_COUNT u 0 1
        if residueFail then beqFault (setItem s c n i { x with beq := some false }) u
        else setItem s c n i { x with beq := some true }
/-- BEQ_ALLOCATION. -/
def execBeqAllocation (c n i : Nat) (residueFail : Bool) (s : State) : Host.Outcome State Fault Refusal :=
  .next (beqAllocation s c n i residueFail)

/-! ### The path selector (R356-R362) -/

/-- The receiver item that carries an allocation, once it is final: its mark, and the cause raised first with its tick. The
graph's deadline makes one that is not final failed (R356). -/
def rxOutcome (s : State) (c n p job item : Nat) : Option (Nat × Nat × Nat) :=
  match s.radio.rx.find? (fun r => decide (r.job = job ∧ r.part = p)) with
  | some r =>
    let m := tgetD 0 r.marks item
    let (k, t) := tgetD (0, 0) r.causes item
    some (m, if k ≠ 0 then k else if m = 2 then 5 else 0, if k ≠ 0 then t else r.ended)
  | none => if (if replaying s p then (forced s 5 job).isSome else reached s c n (points s c).2.1) then some (2, 4, s.tmu.ticks) else none
/-- Causes of cell scope that apply to slot `n` of a cell, with their ticks (R361). -/
def cellCauses (s : State) (c n : Nat) : List (Nat × Nat) :=
  let k := cellOf s c
  (match k.saff with | some t => [(6, t)] | none => []) ++
    (match k.reset with
      | some (t, none) => [(7, t)]
      | some (t, some e) => if (n + 2 ^ 32 - e) % 2 ^ 32 < 2 ^ 31 then [] else [(7, t)]
      | none => []) ++
    (match k.learnedOff with | some t => [(8, t)] | none => [])
/-- The cause raised first; of two raised together the lower code. -/
def firstCause (l : List (Nat × Nat)) : Nat :=
  (l.foldl (fun m q => match m with
    | none => some q
    | some r => if q.2 < r.2 ∨ (q.2 = r.2 ∧ q.1 < r.1) then some q else some r) none).elim 0 (fun q => q.1)
/-- The counter of R376 for a cause. -/
def fbCounter (cause : Nat) : Nat :=
  match cause with
  | 1 => BEQ_FB_MISFIT
  | 2 | 3 | 5 => BEQ_FB_FAULT
  | 4 => BEQ_FB_DEADLINE
  | _ => BEQ_FB_CELL
/-- LLRs that the graph wrote, by the handles it passed, one for each code block (R344, R404); zero where too many antennas are erased
(R319). -/
def graphLlrs (s : State) (c n : Nat) (p : UlPdu) (hs : List (BitVec 128)) : List (List Byte) :=
  (List.range p.codeBlocks).map (fun k =>
    match hs[k]? with
    | some h => if hFld h 127 124 = 6 ∧ !hHole h then
        let off := matchedOff p.bits (symBits p) p.codeBlocks k
        (mread 0 s.mem.dwm (hFld h 103 64) (matchedLen p.bits (symBits p) p.codeBlocks k)).mapIdx (fun j b =>
          let (m, q) := bitPlace p (off + j)
          if zeroLlrs s c n p m q then 0 else llrNorm b) else []
    | none => [])
/-- PATH_SELECT for a PUSCH allocation. -/
def selectPath (s : State) (c n i p job item : Nat) (x : UlItem) (hs : List (BitVec 128)) : State :=
  if isCorrupt s c n x.pdu then finalItem s c n i 2
  else match rxOutcome s c n p job item with
    | none => s
    | some (_, k, t) =>
      let cause := firstCause ((if k = 0 then [] else [(k, t)]) ++ cellCauses s c n)
      if cause = 0 then setItem s c n i { x with path := some false, llrs := graphLlrs s c n x.pdu hs }
      else
        let s := if cause = 4 then decision (forcedMet s 5 job) p 5 job i 0 else s
        let s := satRg s (fbCounter cause) 0 c 1
        let s := engage (setCell s c { cellOf s c with lastCause := cause }) c
        if x.beq = some true then
          setItem s c n i { x with path := some true, cause := cause, llrs := beqLlrs s c n i x.pdu }
        else
          setItem (satRg s BEQ_FB_NONE 0 c 1) c n i { x with cause := cause, status := some 1 }
/-- PATH_SELECT: `job` and `item` name the receiver item that carries the allocation, `handles` what the graph passed for its code
blocks. A PUCCH PDU of format 0 or 1, which the clusters detect (R316), takes the status of its item and what they detect. -/
def pathSelect (s : State) (c n i job item : Nat) (hs : List (BitVec 128)) : State :=
  match ulOf s c n, itemOf s c n i with
  | some u, some x =>
    if x.status.isSome ∨ x.path.isSome then s
    else match x.pdu.kind with
      | .pusch => selectPath s c n i u.part job item x hs
      | .pucch => if x.pdu.fmt ≤ 1 then
          match rxOutcome s c n u.part job item with
          | some (m, _, _) => setItem s c n i { x with
              status := some (if m = 2 then 1 else 0), uci := if m = 2 then [] else Config.uciCorr c n i }
          | none => s
        else s
      | _ => s
  | _, _ => s
/-- PATH_SELECT. -/
def execPathSelect (c n i job item : Nat) (hs : List (BitVec 128)) (s : State) : Host.Outcome State Fault Refusal :=
  .next (pathSelect s c n i job item hs)

/-! ### Rate recovery (R418) -/

/-- Add LLRs into a buffer at their positions, with saturation. -/
def addAt : List Byte → List (Nat × Byte) → List Byte
  | buf, [] => buf
  | buf, (i, b) :: t => addAt (lset buf i (llrSat (llrVal (buf.getD i 0) + llrVal b))) t
/-- The recovered buffer of code block `k`. -/
def recover (c n i k : Nat) (p : UlPdu) (l : List Byte) : List Byte :=
  let off := matchedOff p.bits (symBits p) p.codeBlocks k
  let e := l.length
  let cols := e / p.qm
  let plain := (List.range e).map (fun j =>
    let b := l.getD j 0
    if Config.scramble c n i (off + j) then llrSat (-(llrVal b)) else b)
  let bits := (List.range e).map (fun m => plain.getD (m / cols + m % cols * p.qm) 0)
  let len := bufLen p.bg2 p.zc
  let ring := Nat.min len (Config.ncb c len)
  let kk := cbLen false p.tbs p.codeBlocks
  let buf := addAt (List.replicate len 0) ((txPos p.bg2 p.zc kk ring p.rv e).zip bits)
  (List.range len).map (fun j => if isFiller p.bg2 p.zc kk j then 127 else buf.getD j 0)
/-- RATE_RECOVERY of code block `k` of PDU `i`, once its LLRs stand (R311 stage 4). -/
def rateRecovery (s : State) (c n i k : Nat) : State :=
  match itemOf s c n i with
  | none => s
  | some x =>
    let b := tgetD {} x.cbs k
    if x.path.isNone ∨ x.status.isSome ∨ b.stage ≠ 0 ∨ x.pdu.codeBlocks ≤ k then s
    else
      let l := x.llrs.getD k []
      if l = [] then setCb s c n i k x { b with stage := 3, failed := true }
      else setCb s c n i k x { b with
        stage := 1
        llr := if cellLte s c then (Config.lteRecover x.pdu.rv l).map llrNorm else recover c n i k x.pdu l }
/-- RATE_RECOVERY. -/
def execRateRecovery (c n i k : Nat) (s : State) : Host.Outcome State Fault Refusal := .next (rateRecovery s c n i k)

/-! ### HARQ combining (R419-R423, 14 R438 R439) -/

/-- PROC_CTRL for a PDU: VALID, NDI, LAST_RV, BG2, LTE, NCB, NENT. -/
def procCtrl (ndi : Nat) (p : UlPdu) (lte : Bool) (ent : Nat) : Word :=
  w32 (2 ^ 31 + ndi * 2 ^ 30 + p.rv % 4 * 2 ^ 28 + b2n p.bg2 * 2 ^ 27 + b2n lte * 2 ^ 26 + p.codeBlocks % 256 * 256 + ent)
/-- Does the record describe the transport block of this PDU (R439)? -/
def procMatches (s : State) (x o : Nat) (p : UlPdu) (lte : Bool) : Bool :=
  let w := ctxWord s x o
  bit w 31 && decide ((ctxWord s x (o + 4)).toNat = p.tbs) && (bit w 27 == p.bg2) && (bit w 26 == lte) &&
    decide (fld w 15 8 = p.codeBlocks)
/-- The process record at the first code block of a PDU: new data and a mismatch release its entries. -/
def openProc (s : State) (part c n x : Nat) (p : UlPdu) : State :=
  let o := procOff p.harq
  let lte := cellLte s c
  let s := if p.newData ∨ !procMatches s x o p lte then procRelease s part x p.harq else s
  let w := ctxWord s x o
  let ndi := (fld w 30 30 + b2n p.newData) % 2
  let s := ctxPutW s x o (procCtrl ndi p lte (fld w 7 0))
  ctxPutW (ctxPutW s x (o + 4) (w32 p.tbs)) x (o + 8) (w32 n)
/-- Write LLRs to an entry. -/
def hqWrite (s : State) (p e : Nat) (l : List Byte) : State :=
  { s with mem := { s.mem with ext := mwrite 0 s.mem.ext (hqAddr s p e) l } }
/-- Combine code block `k`: its entry is read and added, or one is allocated. -/
def combine (s : State) (part c n i k x : Nat) (it : UlItem) (b : CodeBlock) : State :=
  let o := procOff it.pdu.harq
  let w := ctxWord s x (o + 0x20 + 4 * k)
  if bit w 31 then
    let e := fld w 19 0
    match anyUE s (hqAddr s part e) b.llr.length with
    | some u => setCb (memUE s 1 (u * 64) (engHandle s 24 0)) c n i k it { b with stage := 3, failed := true }
    | none =>
      let old := extRead s (hqAddr s part e) b.llr.length
      let sum := (b.llr.zip old).map (fun q => llrSat (llrVal q.1 + llrVal q.2))
      setCb (hqWrite s part e sum) c n i k it { b with stage := 2, comb := sum }
  else
    match hqAlloc s part with
    | (some e, s) =>
      let s := hqWrite s part e b.llr
      let s := ctxPutW s x (o + 0x20 + 4 * k) (w32 (2 ^ 31 + e))
      let s := ctxPutW s x o (setFld (ctxWord s x o) 7 0 (fld (ctxWord s x o) 7 0 + 1))
      setCb s c n i k it { b with stage := 2, comb := b.llr }
    | (none, s) => setCb s c n i k it { b with stage := 2, comb := b.llr }

/-! ### Forming passes (R406, R414) -/

/-- Rows that a block's LLRs call for: the four core rows, and each extension row whose parity column is not all zero. -/
def rowsOf (bg2 : Bool) (zc : Nat) (l : List Byte) : List Nat :=
  (List.range (if bg2 then 42 else 46)).filter (fun r =>
    decide (r < 4) || ((l.drop ((kCols bg2 + r - 2) * zc)).take zc).any (fun b => decide (b ≠ 0)))
/-- Blocks of a slot of one base graph and lifting size, in the order of their PDUs, that are neither decoded nor in a pass:
PDU, block, and the rows once it is combined. -/
def openBlocks (s : State) (u : UlSlot) (bg2 : Bool) (zc : Nat) : List (Nat × Nat × Option (List Nat)) :=
  let taken := (s.radio.passes.filter (fun q => decide (q.cell = u.cell ∧ q.slot = u.slot))).flatMap (fun q => q.blocks)
  (List.range u.items.length).flatMap (fun i =>
    match u.items[i]? with
    | none => []
    | some x =>
      if x.pdu.kind ≠ .pusch ∨ x.status.isSome ∨ x.pdu.bg2 ≠ bg2 ∨ x.pdu.zc ≠ zc then []
      else (List.range x.pdu.codeBlocks).filterMap (fun k =>
        let b := tgetD {} x.cbs k
        if b.stage = 3 ∨ (i, k) ∈ taken then none
        else some (i, k, if b.stage = 2 then some (rowsOf bg2 zc b.comb) else none)))
/-- The leading blocks that are combined. -/
def combinedHead : List (Nat × Nat × Option (List Nat)) → List (Nat × Nat × List Nat)
  | (i, k, some r) :: t => (i, k, r) :: combinedHead t
  | _ => []
/-- Split blocks into passes of at most `n` that share their rows; a short pass is formed only when `all` are known. -/
def packs (n : Nat) (all : Bool) : Nat → List (Nat × Nat × List Nat) → List (List Nat × List (Nat × Nat))
  | 0, _ => []
  | _, [] => []
  | f + 1, q :: t =>
    let same := (q :: t).filter (fun x => decide (x.2.2 = q.2.2))
    let mine := same.take n
    let rest := (q :: t).filter (fun x => !decide (x ∈ mine))
    if all ∨ mine.length = n then (q.2.2, mine.map (fun x => (x.1, x.2.1))) :: packs n all f rest
    else packs n all f ((q :: t).filter (fun x => !decide (x ∈ same)))
/-- Decode point of a slot in ns (R312). -/
def decodePoint (s : State) (c n : Nat) : Int := refInstant s c n + ((points s c).2.2.1 : Int)
/-- Does pass `a` stand before pass `b` in the queue (R414)? -/
def passBefore (s : State) (a b : LdpcPass) : Bool :=
  let x := decodePoint s a.cell a.slot
  let y := decodePoint s b.cell b.slot
  decide (x < y) || (decide (x = y) && (decide (a.done < b.done) || (decide (a.done = b.done) && decide (a.cell < b.cell))))
/-- Put a pass into the queue. -/
def queuePass (s : State) (a : LdpcPass) : List LdpcPass → List LdpcPass
  | [] => [a]
  | b :: t => if passBefore s a b then a :: b :: t else b :: queuePass s a t
/-- Form the passes of one base graph and lifting size that are complete. -/
def formPasses (s : State) (c n : Nat) (bg2 : Bool) (zc : Nat) : State :=
  match ulOf s c n with
  | none => s
  | some u =>
    let l := openBlocks s u bg2 zc
    let r := combinedHead l
    let m := Nat.min 8 (384 / Nat.max zc 1)
    (packs m (decide (r.length = l.length)) (r.length + 1) r).foldl (fun s q =>
      let a : LdpcPass := ⟨u.part, c, n, bg2, zc, q.1, q.2, s.tmu.ticks⟩
      { s with radio := { s.radio with passes := queuePass s a s.radio.passes } }) s
/-- HARQ_COMBINE of code block `k` of PDU `i` (R311 stage 5). An allocation that is CORRUPT or failed never comes here (R421). -/
def harqCombine (s : State) (c n i k : Nat) : State :=
  match ulOf s c n, itemOf s c n i with
  | some u, some x =>
    let b := tgetD {} x.cbs k
    match x.pdu.ctx with
    | none => s
    | some ctx =>
      if x.status.isSome ∨ b.stage ≠ 1 then s
      else
        let first := !x.cbs.any (fun e => decide (2 ≤ e.2.stage) && !e.2.failed)
        let s := if first then openProc s u.part c n ctx x.pdu else s
        let s := ctxUse (combine s u.part c n i k ctx x b) ctx
        if cellLte s c then s else formPasses s c n x.pdu.bg2 x.pdu.zc
  | _, _ => s
/-- HARQ_COMBINE. -/
def execHarqCombine (c n i k : Nat) (s : State) : Host.Outcome State Fault Refusal := .next (harqCombine s c n i k)

/-! ### The transport-block check (R324) -/

/-- Bits of a transport block with its CRC, from the hard decisions of its code blocks. -/
def tbBits (lte : Bool) (x : UlItem) : List Bool :=
  let n := x.pdu.codeBlocks
  let k := cbLen lte x.pdu.tbs n - (if n ≤ 1 then 0 else 24)
  ((List.range n).flatMap (fun i => (tgetD {} x.cbs i).hard.take k)).take (tbLen lte x.pdu.tbs)
/-- CRC_CHECK of PDU `i`: its item becomes final by the first row of R324 that applies; a pass releases its HARQ entries. -/
def crcCheck (s : State) (c n i : Nat) : State :=
  match ulOf s c n, itemOf s c n i with
  | some u, some x =>
    let bs := (List.range x.pdu.codeBlocks).map (fun k => tgetD {} x.cbs k)
    if x.pdu.kind ≠ .pusch ∨ x.status.isSome ∨ x.path.isNone ∨ bs.any (fun b => decide (b.stage ≠ 3)) then s
    else if bs.any (fun b => b.failed) then finalItem s c n i 1
    else
      let lte := cellLte s c
      let t := tbBits lte x
      let data := t.take x.pdu.tbs
      if bs.any (fun b => b.capped) ∨ t.drop x.pdu.tbs ≠ tbCrc lte data then finalItem s c n i 3
      else
        let s := match x.pdu.ctx with | some k => procRelease s u.part k x.pdu.harq | none => s
        setItem s c n i { x with status := some 0, data := bitBytes (ceilDiv x.pdu.tbs 8) data }
  | _, _ => s
/-- CRC_CHECK. -/
def execCrcCheck (c n i : Nat) (s : State) : Host.Outcome State Fault Refusal := .next (crcCheck s c n i)

/-! ### The slot batch (R323, R325, R317) -/

/-- STOP.indication once a stopped cell has no slot left (R336). -/
def stopDone (s : State) (c : Nat) : State :=
  let k := cellOf s c
  match k.stopAt, k.part with
  | some _, some p =>
    if k.st ≠ .running ∧ !s.radio.ul.any (fun u => decide (u.cell = c)) then
      fapiSend (setCell s c { k with stopAt := none }) p c .stopIndication
    else s
  | _, _ => s
/-- What one slot holds is let go: its pins, grids, sections, passes and the slot itself. -/
def dropSlot (s : State) (c n : Nat) : State :=
  let mine (a : Nat) : Bool := decide (fld (rg s FHP_ASSOC_CFG 0 a) 21 15 = c)
  { s with
    cxs := { s.cxs with pins := s.cxs.pins.filter (fun q => !decide (q.1 = c ∧ q.2.1 = n)) }
    fh := { s.fh with
      grids := s.fh.grids.filter (fun g => !decide (g.cell = c ∧ g.slot = n))
      prach := s.fh.prach.filter (fun q => !(mine q.assoc && decide (q.slot = n)))
      erase := s.fh.erase.filter (fun q => !decide (q.1 = c ∧ q.2.1 = n))
      clips := s.fh.clips.filter (fun q => !decide (q.1 = c ∧ q.2.1 = n))
      bufs := s.fh.bufs.filter (fun b => !(!b.tx && mine b.key.1 && decide (b.key.2.1 = n)))
      begun := s.fh.begun.filter (fun q => !(mine q.1 && decide (q.2.1 = n)))
      cplane := s.fh.cplane.filter (fun q => !(mine q.assoc && decide (q.slot = n))) }
    radio := { s.radio with
      ul := s.radio.ul.filter (fun u => !decide (u.cell = c ∧ u.slot = n))
      passes := s.radio.passes.filter (fun q => !decide (q.cell = c ∧ q.slot = n))
      runs := s.radio.runs.filter (fun e => match e.2 with
        | some (q, _) => !decide (q.cell = c ∧ q.slot = n)
        | none => true) } }
/-- UCI on PUSCH that is still to be decoded (R316): the allocation's path is selected, so that it has LLRs. -/
def uciOpen (x : UlItem) : Bool :=
  decide (x.pdu.kind = .pusch) && x.pdu.uci && x.uciSt.isNone && (x.status.isNone || x.path.isSome)
/-- The PDUs that carry UCI. -/
def hasUci (x : UlItem) : Bool := decide (x.pdu.kind = .pucch) || (decide (x.pdu.kind = .pusch) && x.pdu.uci)
/-- STATUS of a PDU's UCI: a PUSCH without a path reports its own. -/
def uciStatus (x : UlItem) : Nat :=
  if x.pdu.kind = .pusch ∧ x.path.isSome then x.uciSt.getD 1 else x.status.getD 1
/-- The messages of a batch, in the order of the PDUs. -/
def sendBatch (s : State) (u : UlSlot) : State :=
  let kind (k : UlKind) : List UlItem := u.items.filter (fun x => decide (x.pdu.kind = k))
  let st (x : UlItem) : Nat := x.status.getD 1
  let send (s : State) (l : List UlItem) (m : FapiMsg) : State := if l = [] then s else fapiSend s u.part u.cell m
  let ps := kind .pusch
  let s := send s ps (.crcIndication u.slot (ps.map (fun x => ⟨decide (st x = 0), st x, decide (x.cause ≠ 0), x.cause⟩)))
  let s := send s ps (.rxData u.slot (ps.map (fun x => if st x = 0 then x.data else [])))
  let us := u.items.filter hasUci
  let s := send s us (.uci u.slot (us.map (fun x => (uciStatus x, x.uci))))
  let rs := kind .prach
  let s := if u.rach then s else send s rs (.rach u.slot (rs.map (fun x => { x.prach with status := st x })))
  let qs := (kind .srs).filter (fun x => x.pdu.report)
  send s qs (.srs u.slot (qs.map (fun x => x.status.getD 0)))
/-- BATCH_DELIVER: every item is final, or the batch point of R312 has been reached and the others are failed. -/
def batchDeliver (s : State) (c n : Nat) : State :=
  match ulOf s c n with
  | none => s
  | some u =>
    let all := u.items.all (fun x => decide (x.pdu.kind = .srs) || (x.status.isSome && !uciOpen x))
    if !all && !reached s c n (points s c).2.2.2 then s
    else stopDone (dropSlot (sendBatch s u) c n) c
/-- BATCH_DELIVER. -/
def execBatchDeliver (c n : Nat) (s : State) : Host.Outcome State Fault Refusal := .next (batchDeliver s c n)

end Sys2Proof.Machine
end

