-- ==== Sys2Proof/Machine/Coding.lean ====
section
/-! DEFINITION. The coding engines (13): the LDPC decoder pool (R406-R417), turbo and polar decoding (R427-R430), and the downlink
chain from segmentation to modulation (R425-R427, 10 R331). -/

namespace Sys2Proof.Machine

open Sys2Proof

/-! ### Layered min-sum (R408-R411) -/

/-- What stays fixed while a pass runs: lifting size, the rows processed, and the weights by iteration and layer. -/
structure LdpcCtx where
  zc : Nat
  rows : List (Nat × List (Nat × Nat))
  weight : Nat → Nat → Nat × Nat

/-- A decoder's sums and messages: one sum for each variable node; for each row processed, lane and edge, the last message. -/
structure LdpcSt where
  q : List Int
  r : List (List (List Int))

/-- A sum of 12 bits. -/
def sat12 (x : Int) : Int := clampS 12 x
/-- A message of 8 bits. -/
def satMsg (x : Int) : Int := if x > 127 then 127 else if x < -127 then -127 else x
/-- The message to one edge from the inputs of the others (R408): α in 1.7, β in the units of R404. -/
def checkMsg (a b : Nat) (others : List Int) : Int :=
  let m := others.foldl (fun m x => Nat.min m x.natAbs) 127
  let v : Int := (rdiv (a * m) 128 : Int) - (b : Int)
  let v := if v < 0 then 0 else v
  satMsg (if others.foldl (fun n x => n != decide (x < 0)) false then -v else v)
/-- Variable node of an edge in lane `z`. -/
def edgeAt (zc z : Nat) (e : Nat × Nat) : Nat := e.1 * zc + (z + e.2) % zc
/-- One lane of one row: new sums and messages. -/
def laneStep (zc a b z : Nat) (es : List (Nat × Nat)) (q : List Int) (old : List Int) : List Int × List Int :=
  let ins := (List.range es.length).map (fun i => q.getD (edgeAt zc z (es.getD i (0, 0))) 0 - old.getD i 0)
  let ms := (List.range es.length).map (fun i => checkMsg a b ((ins.eraseIdx i).map satMsg))
  ((List.range es.length).foldl (fun q i =>
    lset q (edgeAt zc z (es.getD i (0, 0))) (sat12 (ins.getD i 0 + ms.getD i 0))) q, ms)
/-- All lanes of one row. -/
def rowStep (zc a b : Nat) (es : List (Nat × Nat)) (q : List Int) (old : List (List Int)) : List Int × List (List Int) :=
  (List.range zc).foldl (fun (st : List Int × List (List Int)) z =>
    let (q, m) := laneStep zc a b z es st.1 (old.getD z [])
    (q, st.2 ++ [m])) (q, [])
/-- One iteration over the rows processed. -/
def iterStep (x : LdpcCtx) (it : Nat) (st : LdpcSt) : LdpcSt :=
  let (q, r) := (List.range x.rows.length).foldl (fun (acc : List Int × List (List (List Int))) i =>
    let (l, es) := x.rows.getD i (0, [])
    let (a, b) := x.weight it l
    let (q, m) := rowStep x.zc a b es acc.1 (st.r.getD i [])
    (q, acc.2 ++ [m])) (st.q, [])
  ⟨q, r⟩
/-- Hard decisions. -/
def hardBits (q : List Int) : List Bool := q.map (fun x => decide (x < 0))
/-- The syndrome of the rows processed is zero. -/
def syndromeOk (x : LdpcCtx) (h : List Bool) : Bool :=
  x.rows.all (fun row => (List.range x.zc).all (fun z =>
    !(row.2.foldl (fun p e => p != h.getD (edgeAt x.zc z e) false) false)))
/-- Run one block for at most `cap` iterations: its hard decisions, the iteration at which it stopped, and whether it did. -/
def runBlock (x : LdpcCtx) (ok : List Bool → Bool) : Nat → Nat → LdpcSt → List Bool × Nat × Bool
  | 0, it, st => (hardBits st.q, it, false)
  | f + 1, it, st =>
    let st := iterStep x (it + 1) st
    let h := hardBits st.q
    if syndromeOk x h && ok h then (h, it + 1, true) else runBlock x ok f (it + 1) st

/-! ### The pool -/

/-- Is decoder `d` in service? -/
def lddIn (s : State) (d : Nat) : Bool := !decide ((24, d) ∈ s.units.engOut)
/-- Decoders in service. -/
def lddAvail (s : State) : List Nat := (List.range 16).filter (lddIn s)
/-- Decoders reserved for SAFETY: the highest-indexed in service; the reservation shrinks with the pool (R415, R417). -/
def lddReserved (s : State) : List Nat :=
  let l := lddAvail s
  let r := fld (rg s LDD_POOL_CFG 0 0) 3 0
  let r := if l.length ≤ r then l.length - 1 else r
  l.drop (l.length - r)
/-- May decoder `d` take a pass? One that has failed its check takes none while it waits for the boundary at which it leaves (R416). -/
def lddTakes (s : State) (d : Nat) (a : LdpcPass) : Bool :=
  lddIn s d && !decide ((24, d, 3) ∈ s.units.engLeaving) && (tgetD none s.radio.runs d).isNone && (!decide (d ∈ lddReserved s) || decide (pclass s a.part = .safety))
/-- The pass that decoder `d` takes: the first in the queue that it may, when no free decoder of lower index may take it. -/
def nextPass (s : State) (d : Nat) : Option LdpcPass :=
  (s.radio.passes.find? (lddTakes s d)).bind (fun a =>
    if (List.range d).any (fun k => lddTakes s k a) then none else some a)
/-- Rows of the base graph that a pass processes. -/
def passRows (a : LdpcPass) : List (Nat × List (Nat × Nat)) :=
  let g := Config.baseGraph a.bg2 a.zc
  a.rows.map (fun r => (r, g.getD r []))
/-- Non-zero entries E of the rows processed (R406). -/
def passE (a : LdpcPass) : Nat := ((passRows a).map (fun r => r.2.length)).sum
/-- a-cycles of `i` iterations. -/
def passCycles (a : LdpcPass) (i : Nat) : Nat := i * ceilDiv (passE a) 2 + 120
/-- a-cycles at 983.04 MHz in ns, rounded up. -/
def lddNs (n : Nat) : Nat := acycNs n 4
/-- Device address of a cell's weight bank (11 R363). -/
def bankAddr (s : State) (c p b : Nat) : Nat :=
  (match partRegion s p with | some (a, _, _) => a | none => 0) + (rg s (if b = 0 then BEQ_WBANK0 else BEQ_WBANK1) 0 c).toNat
/-- Offset of the decoder weighting tables in a weight bank. The manual says that the bank holds them and not where: a free value
of the cell (log 2). -/
def decTableOff (c : Nat) : Nat := (Config.freeWord (0x1000000 + c)).toNat
/-- Does a pass of cell `c` use the fixed table (R409)? -/
def fixedTable (s : State) (c n : Nat) (x : UlItem) : Bool :=
  decide (x.cause = 8) || (cellCauses s c n).any (fun q => decide (q.1 = 6 ∨ q.1 = 7))
/-- α and β of an iteration and layer (R409). -/
def weights (s : State) (a : LdpcPass) (x : UlItem) (it l : Nat) : Nat × Nat :=
  if fixedTable s a.cell a.slot x then (0x68, 0)
  else
    let k := (Nat.min it 8 - 1) * (if a.bg2 then 42 else 46) + l
    let w := extRead s (bankAddr s a.cell a.part x.bank + decTableOff a.cell + (if a.bg2 then 736 else 0) + 2 * k) 2
    ((w.getD 0 0).toNat, (w.getD 1 0).toNat)
/-- ITER_CAP of a cell. -/
def iterCap (s : State) (c : Nat) : Nat := fld (rg s LDD_CELL_DEC 0 c) 3 0 + 1
/-- One block of a pass, for at most `cap` iterations. -/
def decodeBlock (s : State) (a : LdpcPass) (cap : Nat) (x : UlItem) (k : Nat) : List Bool × Nat × Bool :=
  let b := tgetD {} x.cbs k
  let ctx : LdpcCtx := ⟨a.zc, passRows a, weights s a x⟩
  let n := cbLen false x.pdu.tbs x.pdu.codeBlocks
  let crcOk (h : List Bool) : Bool :=
    decide (x.pdu.codeBlocks ≤ 1) || decide ((h.take n).drop (n - 24) = cbCrc ((h.take n).take (n - 24)))
  runBlock ctx crcOk cap 0 ⟨List.replicate (2 * a.zc) 0 ++ b.comb.map llrVal, []⟩
/-- The blocks of a pass with their results. -/
def decodePass (s : State) (a : LdpcPass) (cap : Nat) : List ((Nat × Nat) × List Bool × Nat × Bool) :=
  a.blocks.filterMap (fun q => (itemOf s a.cell a.slot q.1).map (fun x => (q, decodeBlock s a cap x q.2)))
/-- Store the results of a pass on decoder `d`; `late` counts blocks that the decode point stopped (R411, R412). -/
def storePass (s : State) (d : Nat) (a : LdpcPass) (late : Bool) (res : List ((Nat × Nat) × List Bool × Nat × Bool)) : State :=
  let s := res.foldl (fun s r =>
    match itemOf s a.cell a.slot r.1.1 with
    | none => s
    | some x =>
      let b := tgetD {} x.cbs r.1.2
      let s := setCb s a.cell a.slot r.1.1 r.1.2 x { b with stage := 3, hard := r.2.1, capped := !r.2.2.2 }
      if r.2.2.2 then s else if late then satRg s LDD_DEC_STOP 0 0 1 else satRg s LDD_CAP_COUNT 0 0 1) s
  let its := (res.map (fun r => r.2.2.1)).foldl Nat.max 0
  wrapRg (wrapRg s LDD_PASS_COUNT d 0 1) LDD_ITER_COUNT d 0 its
/-- Take a pass out of the queue. -/
def unqueue (s : State) (a : LdpcPass) : State :=
  { s with radio := { s.radio with passes := delFirst (fun q => decide (q = a)) s.radio.passes } }
/-- A check of R416 fails: the pass goes back to the head of the queue, and the decoder leaves service. -/
def decFault (s : State) (d : Nat) (a : LdpcPass) : State :=
  let s := { s with radio := { s.radio with passes := a :: s.radio.passes, runs := tsetD none s.radio.runs d none } }
  let s := raise (satRg s LDD_RESTARTS d 0 1) 24 d 0
  trigger (leaveEngine s 24 d 3) a.part 4
/-- LDPC_PASS on decoder `d`: the pass ends here when it ends before its decode point, and otherwise stays on the decoder until
DEC_LATE (R412). -/
def ldpcPass (s : State) (d : Nat) (checkFail : Bool) : State :=
  match nextPass s d with
  | none => s
  | some a =>
    let s := unqueue s a
    if checkFail then decFault s d a
    else
      let res := decodePass s a (iterCap s a.cell)
      let its := (res.map (fun r => r.2.2.1)).foldl Nat.max 0
      if (nowNs s : Int) + (lddNs (passCycles a its) : Int) ≤ decodePoint s a.cell a.slot then storePass s d a false res
      else { s with radio := { s.radio with runs := tsetD none s.radio.runs d (some (a, s.tmu.ticks)) } }
/-- LDPC_PASS. -/
def execLdpcPass (d : Nat) (checkFail : Bool) (s : State) : Host.Outcome State Fault Refusal := .next (ldpcPass s d checkFail)

/-- Iterations that a pass started at tick `t0` has run or is running at its decode point. -/
def lateIters (s : State) (a : LdpcPass) (t0 : Nat) : Nat :=
  let left := (decodePoint s a.cell a.slot - ((nowNs s : Int) - (sinceNs s t0 : Int))).toNat
  let cyc := left * 12288 / (4 * 3125)
  Nat.max 1 (ceilDiv (cyc - 120) (Nat.max 1 (ceilDiv (passE a) 2)))
/-- DEC_LATE on decoder `d` (R412). -/
def decLate (s : State) (d : Nat) : State :=
  match tgetD none s.radio.runs d with
  | none => s
  | some (a, t0) =>
    if (nowNs s : Int) < decodePoint s a.cell a.slot then s
    else
      let s := { s with radio := { s.radio with runs := tsetD none s.radio.runs d none } }
      let n := Nat.min (iterCap s a.cell) (lateIters s a t0)
      raise (storePass s d a true (decodePass s a n)) 24 0 1
/-- DEC_LATE. -/
def execDecLate (d : Nat) (s : State) : Host.Outcome State Fault Refusal := .next (decLate s d)

/-! ### Turbo and polar decoding -/

/-- TURBO_DECODE of an LTE code block on decoder `u` (R430). -/
def turboDecode (s : State) (u c n i k : Nat) : State :=
  match itemOf s c n i with
  | none => s
  | some x =>
    let b := tgetD {} x.cbs k
    if !cellLte s c ∨ x.status.isSome ∨ b.stage ≠ 2 ∨ engAway s 27 u then s
    else
      let cap := fld (rg s LDD_CELL_DEC 0 c) 6 4 + 1
      let (h, ok) := Config.turbo cap (cbLen true x.pdu.tbs x.pdu.codeBlocks) b.comb
      let late := reached s c n (points s c).2.2.1
      let done := ok && !late
      let s := wrapRg (setCb s c n i k x { b with stage := 3, hard := h, capped := !done }) TBO_WORK_COUNT u 0 1
      if done then s else if late then satRg s LDD_DEC_STOP 0 0 1 else satRg s LDD_CAP_COUNT 0 0 1
/-- TURBO_DECODE. -/
def execTurboDecode (u c n i k : Nat) (s : State) : Host.Outcome State Fault Refusal := .next (turboDecode s u c n i k)
/-- POLAR_DECODE of the UCI block of a PUCCH PDU of format 2 to 4, or of UCI on PUSCH, on codec `u` (R427, R428, 10 R316). -/
def polarDecode (s : State) (u c n i : Nat) : State :=
  match itemOf s c n i with
  | none => s
  | some x =>
    let pucch := decide (x.pdu.kind = .pucch ∧ 2 ≤ x.pdu.fmt) && x.status.isNone
    if !(pucch || (uciOpen x && x.path.isSome)) ∨ engAway s 26 u then s
    else
      let list := 2 ^ fld (rg s LDD_CELL_DEC 0 c) 10 9
      let (bits, ok) := Config.polar (cellLte s c) list (Config.uciLlr c n i)
      let st := some (if ok then 0 else 3)
      let x := if pucch then { x with status := st } else { x with uciSt := st }
      wrapRg (setItem s c n i { x with uci := if ok then bits else [] }) PLC_WORK_COUNT u 0 1
/-- POLAR_DECODE. -/
def execPolarDecode (u c n i : Nat) (s : State) : Host.Outcome State Fault Refusal := .next (polarDecode s u c n i)

/-! ### The downlink (10 R331) -/

/-- POLAR_ENCODE of a DCI or PBCH block. -/
def polarEncode (s : State) (u c n i : Nat) : State :=
  match dlItem s c n i with
  | none => s
  | some x =>
    if (x.pdu.kind ≠ .pdcch ∧ x.pdu.kind ≠ .ssb) ∨ engAway s 26 u then s
    else wrapRg (setDl s c n i { x with enc := Config.polarBits c n i }) PLC_WORK_COUNT u 0 1
/-- POLAR_ENCODE. -/
def execPolarEncode (u c n i : Nat) (s : State) : Host.Outcome State Fault Refusal := .next (polarEncode s u c n i)
/-- Code blocks of an NR transport block: parts of equal length, each with its checksum where there is more than one, then
filler bits up to the base graph's columns. -/
def segment (p : DlPdu) (bits : List Bool) : List (List (Option Bool)) :=
  let b := bits ++ tbCrc false bits
  let n := p.codeBlocks
  let k := cbLen false p.tbs n
  let m := if n ≤ 1 then k else k - 24
  (List.range n).map (fun i =>
    let part := (b.drop (i * m)).take m
    let part := if n ≤ 1 then part else part ++ cbCrc part
    part.map some ++ List.replicate (kCols p.bg2 * p.zc - part.length) none)
/-- SEGMENTATION of a PDSCH PDU whose payload has come (R331 stage 2). -/
def segmentation (s : State) (c n i : Nat) : State :=
  match dlItem s c n i with
  | none => s
  | some x =>
    match x.payload with
    | none => s
    | some bs =>
      let bits := (byteBits bs).take x.pdu.tbs
      let bl := if cellLte s c then Config.lteSegment (bits ++ tbCrc true bits) else segment x.pdu bits
      setDl s c n i { x with blocks := bl }
/-- SEGMENTATION. -/
def execSegmentation (c n i : Nat) (s : State) : Host.Outcome State Fault Refusal := .next (segmentation s c n i)
/-- LDPC_ENCODE of code block `k` on encoder `u`, or turbo encoding in LTE mode (R425, R426). -/
def ldpcEncode (s : State) (u c n i k : Nat) : State :=
  match dlItem s c n i with
  | none => s
  | some x =>
    match x.blocks[k]? with
    | none => s
    | some b =>
      if engAway s 25 u then s
      else
        let b := Config.encode (cellLte s c) x.pdu.bg2 x.pdu.zc b
        wrapRg (setDl s c n i { x with coded := tsetD [] x.coded k b }) LDE_WORK_COUNT u 0 1
/-- LDPC_ENCODE. -/
def execLdpcEncode (u c n i k : Nat) (s : State) : Host.Outcome State Fault Refusal := .next (ldpcEncode s u c n i k)
/-- Rate matching and scrambling of code block `k` (R331 stage 4): bits taken from the circular buffer, interleaved over the
modulation order, and scrambled. -/
def matchBits (c n i k : Nat) (p : DlPdu) (coded : List (Option Bool)) : List Bool :=
  let q := p.qm * p.layers
  let e := matchedLen p.bits q p.codeBlocks k
  let len := bufLen p.bg2 p.zc
  let ring := Nat.min len (Config.ncb c len)
  let pos := txPos p.bg2 p.zc (cbLen false p.tbs p.codeBlocks) ring p.rv e
  let bits := pos.map (fun j => (coded.getD j none).getD false)
  let cols := e / p.qm
  let off := matchedOff p.bits q p.codeBlocks k
  (List.range e).map (fun j =>
    let m := j % p.qm * cols + j / p.qm
    bits.getD m false != Config.scramble c n i (off + j))
/-- RATE_MATCHING of code block `k`. -/
def rateMatching (s : State) (c n i k : Nat) : State :=
  match dlItem s c n i with
  | none => s
  | some x =>
    let b := tgetD [] x.coded k
    if b = [] then s
    else
      let e := matchedLen x.pdu.bits (x.pdu.qm * x.pdu.layers) x.pdu.codeBlocks k
      let m := if cellLte s c then Config.lteMatch x.pdu.rv e b else matchBits c n i k x.pdu b
      setDl s c n i { x with matched := tsetD [] x.matched k m }
/-- RATE_MATCHING. -/
def execRateMatching (c n i k : Nat) (s : State) : Host.Outcome State Fault Refusal := .next (rateMatching s c n i k)
/-- Groups of `q` bits: the constellation points in order. -/
def groups (q : Nat) : Nat → List Bool → List (List Bool)
  | 0, _ => []
  | f + 1, l => if l = [] ∨ q = 0 then [] else l.take q :: groups q f (l.drop q)
/-- MODULATION_MAPPING of a PDU whose code blocks are all matched; control channels use QPSK. -/
def modulationMapping (s : State) (c n i : Nat) : State :=
  match dlItem s c n i with
  | none => s
  | some x =>
    if x.pdu.kind = .pdsch then
      let bs := (List.range x.pdu.codeBlocks).map (fun k => tgetD [] x.matched k)
      if bs.any (fun b => decide (b = [])) then s
      else setDl s c n i { x with symbols := groups x.pdu.qm (bs.flatten.length + 1) bs.flatten }
    else if x.enc = [] then s
    else setDl s c n i { x with symbols := groups 2 (x.enc.length + 1) x.enc }
/-- MODULATION_MAPPING. -/
def execModulationMapping (c n i : Nat) (s : State) : Host.Outcome State Fault Refusal := .next (modulationMapping s c n i)

end Sys2Proof.Machine
end

