-- ==== Sys2Proof/Machine/FhOps.lean ====
section
/-! DEFINITION. What the fronthaul and converter rows share: associations (15 R464 R489 R490), buffers
(R472 R473), packing of I/Q samples (R462 R463), links and gain groups (R474-R484). -/

namespace Sys2Proof.Machine

open Sys2Proof

/-! ### Associations -/

/-- A field of an association's registers. -/
def aReg (s : State) (r a : Nat) : Word := rg s r 0 a
/-- EN, PORT, CELL. -/
def aEn (s : State) (a : Nat) : Bool := bit (aReg s FHP_ASSOC_CFG a) 31
/-- PORT. -/
def aPort (s : State) (a : Nat) : Nat := fld (aReg s FHP_ASSOC_CFG a) 30 27
/-- CELL. -/
def aCell (s : State) (a : Nat) : Nat := fld (aReg s FHP_ASSOC_CFG a) 21 15
/-- ANT_BASE and NRX. -/
def aAnts (s : State) (a : Nat) : Nat × Nat := (fld (aReg s FHP_ASSOC_ANT a) 5 0, fld (aReg s FHP_ASSOC_ANT a) 30 24)
/-- Uplink method and width. -/
def aUl (s : State) (a : Nat) : Nat × Nat :=
  let w := aReg s FHP_ASSOC_COMP a
  (fld w 31 28, if fld w 27 24 = 0 then 16 else fld w 27 24)
/-- Downlink method and width. -/
def aDl (s : State) (a : Nat) : Nat × Nat :=
  let w := aReg s FHP_ASSOC_COMP a
  (fld w 23 20, if fld w 19 16 = 0 then 16 else fld w 19 16)
/-- A 48-bit MAC address from two registers. -/
def macOf (lo hi : Word) : Nat := fld hi 15 0 * 2 ^ 32 + lo.toNat
/-- RU port bits of an eAxC ID. -/
def portBits (s : State) (a : Nat) : Nat := fld (aReg s FHP_ASSOC_EAXC a) 15 12
/-- The association of a received U-plane frame (R464). -/
def assocOf (s : State) (port : Nat) (f : RxFrame) (e : ECpri) : Option Nat :=
  (List.range 64).find? (fun a =>
    let hi := aReg s FHP_RU_MAC_HI a
    let vlan := if bit hi 31 then decide (f.vlanTags = 1 ∧ f.vid = fld hi 27 16) else decide (f.vlanTags = 0)
    aEn s a && decide (aPort s a = port) && decide (macOf (aReg s FHP_RU_MAC_LO a) hi = f.src) && vlan &&
      decide (e.eaxc / 2 ^ portBits s a = fld (aReg s FHP_ASSOC_EAXC a) 31 16 / 2 ^ portBits s a))
/-- Add 1 to a counter of an association, and RX_LOSS on its port where asked. -/
def aCount (s : State) (r a n : Nat) : State := satRg s r 0 a n
/-- RX_LOSS of a port (R491). -/
def rxLoss (s : State) (port : Nat) : State := raise s 9 port 1

/-! ### Stamps (16 R497) -/

/-- A register of ns with a 16-bit fraction, signed. -/
def tsCorr (s : State) (r port : Nat) : Int := (rg s r 0 port).toInt
/-- Corrected receive stamp in ns. -/
def rxStamp (s : State) (port raw : Nat) : Int := rdivS ((raw : Int) * 65536 - tsCorr s TMU_TS_CORR_ING port) 65536
/-- Corrected transmit stamp. -/
def txStamp (s : State) (port raw : Nat) : Int := rdivS ((raw : Int) * 65536 + tsCorr s TMU_TS_CORR_EGR port) 65536

/-! ### Buffers (R472, R473) -/

/-- Buffers of a port in use. -/
def fbUsed (s : State) (port : Nat) (tx : Bool) : Nat :=
  ((s.fh.bufs.filter (fun b => decide (b.port = port) && b.tx == tx)).map (fun b => b.n)).sum
/-- FB_QUOTA. -/
def fbQuota (s : State) (port : Nat) : Nat := fld (rg s FHP_FB_QUOTA port 0) 12 0
/-- Free buffers of a port. -/
def fbFree (s : State) (port : Nat) : Nat := fbQuota s port - fbUsed s port false - fbUsed s port true

/-! ### Packed samples (R462, R463) -/

/-- Bytes as one number, first byte most significant. -/
def beNat (bs : List Byte) : Nat := bs.foldl (fun v b => v * 256 + b.toNat) 0
/-- `n` signed fields of `w` bits, most significant first. -/
def unpack (w n : Nat) (bs : List Byte) : List Int :=
  let v := beNat bs
  let t := 8 * bs.length
  (List.range n).map (fun i => sgn w (v / 2 ^ (t - (i + 1) * w)))
/-- Signed fields packed most significant first into whole bytes. -/
def pack (w : Nat) (l : List Int) : List Byte :=
  let bits := l.flatMap (fun x => bitsOf w (wrapN w x))
  bitBytes (ceilDiv bits.length 8) bits
/-- Pairs of a flat list. -/
def pairsOf : List Int → List (Int × Int)
  | a :: b :: t => (a, b) :: pairsOf t
  | _ => []
/-- Bytes of one PRB. -/
def prbBytes (meth w : Nat) : Nat := if meth = 0 then 3 * w else 3 * w + 1
/-- The twelve values of one PRB, and how many components saturated. -/
def expandPrb (meth w : Nat) (bs : List Byte) : List (Int × Int) × Nat :=
  match meth with
  | 0 => (pairsOf (unpack w 24 bs), 0)
  | 1 =>
    let e := (bs.headD 0).toNat % 16
    let l := (unpack w 24 bs.tail).map (fun (m : Int) => m * 2 ^ e)
    (pairsOf (l.map (clampS 16)), (l.filter (outS 16)).length)
  | _ => (Config.oranExpand meth w 1 bs, 0)
/-- The smallest exponent at which every component fits `w` bits after a rounding shift. -/
def bfpExp (w : Nat) (l : List Int) : Nat :=
  ((List.range 16).find? (fun e => l.all (fun x => !outS w (rdivS x (2 ^ e))))).getD 15
/-- One PRB compressed. -/
def compressPrb (meth w : Nat) (l : List (Int × Int)) : List Byte :=
  let flat := l.flatMap (fun q => [q.1, q.2])
  match meth with
  | 0 => pack w flat
  | 1 => let e := bfpExp w flat; BitVec.ofNat 8 e :: pack w (flat.map (fun x => rdivS x (2 ^ e)))
  | _ => Config.oranCompress meth w l

/-! ### Converter links (R474-R480, R492) -/

/-- Is a link enabled? -/
def linkEn (s : State) (l : Nat) : Bool := bit (rg s JCL_LINK_CFG 0 l) 31
/-- Lanes, converters, and fs code. -/
def linkShape (s : State) (l : Nat) : Nat × Nat × Nat :=
  let w := rg s JCL_LINK_CFG 0 l
  (2 ^ fld w 21 20, fld w 19 12, fld w 3 0)
/-- Cell and first antenna of a link. -/
def linkMap (s : State) (l : Nat) : Nat × Nat := (fld (rg s JCL_LINK_MAP 0 l) 31 25, fld (rg s JCL_LINK_MAP 0 l) 24 18)
/-- State of a link. -/
def linkSt (s : State) (l : Nat) : Link := tgetD {} s.fh.links l
/-- Replace it. -/
def setLink (s : State) (l : Nat) (x : Link) : State := { s with fh := { s.fh with links := tsetD {} s.fh.links l x } }
/-- Does a link carry antenna `a` of its cell? -/
def linkHas (s : State) (l a : Nat) : Bool :=
  let (_, m, _) := linkShape s l
  let (_, a0) := linkMap s l
  decide (a0 ≤ a ∧ a < a0 + m / 2)
/-- Points of the transform of a link: fs over the subcarrier spacing. -/
def fftPoints (s : State) (l : Nat) : Nat :=
  let (_, _, fs) := linkShape s l
  512 * 2 ^ fs / 2 ^ cellMu s (linkMap s l).1
/-- Antennas of a link's cell that relative lane `k` carries: its converters, two to a stream. -/
def laneAnts (s : State) (l k : Nat) : List Nat :=
  let (lanes, m, _) := linkShape s l
  let a0 := (linkMap s l).2
  let lo := k * m / lanes / 2
  let hi := ceilDiv (ceilDiv ((k + 1) * m) lanes) 2
  (List.range (hi - lo)).map (fun i => a0 + lo + i)
/-- Erase a stream for a symbol. -/
def eraseSym (s : State) (c n sym a : Nat) : State :=
  if (c, n, sym, a) ∈ s.fh.erase then s else { s with fh := { s.fh with erase := s.fh.erase ++ [(c, n, sym, a)] } }
/-- Some FFT engine is in service. -/
def ffeUp (s : State) : Bool := (List.range 4).any (fun i => !decide ((28, i) ∈ s.units.engOut))

/-! ### Gain groups (R481-R483) -/

/-- A gain group. A group that is enabled holds its initial gain until it has stepped. -/
def agcOf (s : State) (g : Nat) : Agc := tgetD { gain := fld (rg s JCL_AGC_CFG 0 g) 27 24 } s.fh.agc g
/-- Replace it. -/
def setAgc (s : State) (g : Nat) (x : Agc) : State := { s with fh := { s.fh with agc := tput s.fh.agc g x } }
/-- The gain word appears on the group's pins. -/
def agcPins (s : State) (g gain : Nat) : State :=
  (List.range 4).foldl (fun s i => emit s (.pin 1 (4 * g + i) (decide (gain / 2 ^ i % 2 = 1)))) s
/-- A gain step. -/
def agcStep (s : State) (g : Nat) (d : Int) : State :=
  let x := agcOf s g
  let n := (min 15 (max 0 ((x.gain : Int) + d))).toNat
  if n = x.gain then setAgc s g x else agcPins (setAgc s g { x with gain := n, sinceStep := some 0 }) g n
/-- GAIN_COMP of the group of stream `a`: multiplier and left shift. -/
def gainComp (s : State) (a : Nat) : Nat × Nat :=
  let g := fld (rg s JCL_STRM_MAP 0 a) 4 0
  let w := rg s (JCL_GAIN_COMP + 4 * (agcOf s g).gain) 0 0
  (fld w 31 16, fld w 4 0)
/-- A sample scaled by GAIN_COMP, rounded and saturated. -/
def scaleSample (mc : Nat × Nat) (x : Int) : Int := clampS 16 (rdivS (x * (mc.1 * 2 ^ mc.2 : Nat)) 32768)

end Sys2Proof.Machine
end

