-- ==== Sys2Proof/Machine/Convert.lean ====
section
/-! DEFINITION. The converter path: JESD links, FFT and inverse FFT, the gain loop and the amplifier pins (15 R474-R487, R492, R493). -/

namespace Sys2Proof.Machine

open Sys2Proof

/-! ### Links (R475, R476) -/

/-- MULTIBLOCK: a failed one erases every stream of its lane for the symbol it overlaps. -/
def multiblock (s : State) (l lane n sym : Nat) (bad : Bool) : State :=
  if !bad ∨ !linkEn s l ∨ 8 ≤ l then s
  else
    let s := raise (satRg s JCL_CRC_ERR 0 l 1) 10 0 0
    (laneAnts s l lane).foldl (fun s a => eraseSym s (linkMap s l).1 n sym a) s
/-- MULTIBLOCK: `lane` counts from the link's first lane. -/
def execMultiblock (l lane n sym : Nat) (bad : Bool) (s : State) : Host.Outcome State Fault Refusal := .next (multiblock s l lane n sym bad)
/-- A link loses alignment: its streams are erased until it has realigned at a slot boundary. -/
def linkLoss (s : State) (l : Nat) : State :=
  if (linkSt s l).aligned then raise (setLink s l { linkSt s l with aligned := false }) 10 0 1 else s
/-- LINK_LOSS. -/
def execLinkLoss (l : Nat) (s : State) : Host.Outcome State Fault Refusal := .next (linkLoss s l)
/-- A lane of the link is faulty and no spare slice serves it (23 R661): receive lanes are quads 8 to 11 of `lanes`, transmit lanes 12
to 15. -/
def linkDead (s : State) (l : Nat) : Bool :=
  let (n, _, _) := linkShape s l
  let f := fld (rg s JCL_LINK_CFG 0 l) 25 22
  (List.range n).any (fun k =>
    let g := 16 * (l / 8) + f + k
    s.fh.lanes.any (fun e => decide (e.1 = 8 + g / 4 ∧ e.2.1 = g % 4 ∧ e.2.2.1 = 1)))
/-- At a slot boundary of its cell a link that had been aligned before realigns (R476). -/
def realign (s : State) (c : Nat) : State :=
  (List.range 16).foldl (fun s l =>
    let x := linkSt s l
    if linkEn s l = true ∧ (linkMap s l).1 = c ∧ x.sysref = true ∧ x.aligned = false ∧ linkDead s l = false then
      setLink s l { x with aligned := true, since := nowNs s }
    else s) s
/-- SYSREF_EDGE at a link's start aligns it and fixes its latency; a later edge out of place is an error. -/
def sysrefEdge (s : State) (l : Nat) (ok : Bool) (lat : Nat) : State :=
  if !linkEn s l then s
  else if !(linkSt s l).sysref then setLink s l { aligned := true, sysref := true, lat := lat % 2 ^ 14, since := nowNs s }
  else if ok then s
  else raise s 10 0 2
/-- SYSREF_EDGE: `lat` is the read offset that link start fixes, in samples. -/
def execSysrefEdge (l : Nat) (ok : Bool) (lat : Nat) (s : State) : Host.Outcome State Fault Refusal := .next (sysrefEdge s l ok lat)

/-! ### FFT (R477, R479) -/

/-- Subcarriers of a cell's carrier. -/
def carrierScs (s : State) (c : Nat) : Nat := match (cellOf s c).cfg with | some x => x.prbs * 12 | none => 0
/-- Write a receive symbol of one stream to the grid, erased whole where its link was not aligned throughout. -/
def fftSymbol (s : State) (l a n sym : Nat) (smp : List (Int × Int)) : State :=
  let c := (linkMap s l).1
  if !linkEn s l ∨ 8 ≤ l ∨ !linkHas s l a ∨ !ffeUp s ∨ (ulOf s c n).isNone then s
  else
    let x := linkSt s l
    let s := if !x.aligned ∨ symEdge s c n sym < (x.since : Int) then eraseSym s c n sym a else s
    let sc := gainComp s a
    let smp := smp.map (fun q => (scaleSample sc q.1, scaleSample sc q.2))
    let sh := fld (rg s JCL_LINK_FFT 0 l) 23 20
    let raw := (List.range (carrierScs s c)).map (fun k => Config.fftBin (c, n, sym) (fftPoints s l) (fld (rg s JCL_LINK_FFT 0 l) 31 24) smp k)
    let parts := raw.map (fun q => (rdivS q.1 (2 ^ sh), rdivS q.2 (2 ^ sh)))
    let sat := (parts.map (fun q => b2n (outS 16 q.1) + b2n (outS 16 q.2))).sum
    let vals := (List.range parts.length).foldl (fun t k =>
      let q := parts.getD k (0, 0)
      tsetD (0, 0) t k (clampS 16 q.1, clampS 16 q.2)) []
    let s := if sat = 0 then s else satRg s JCL_FFT_SAT 0 l sat
    let lost := decide ((c, n, sym, a) ∈ s.fh.erase)
    let g : Grid := { cell := c, slot := n, sym := sym, ant := a, vals := vals, erased := if lost then List.range (carrierScs s c / 12) else [] }
    let e := ((List.range 4).find? (fun i => !decide ((28, i) ∈ s.units.engOut))).getD 0
    let s := wrapRg (putGrid s g) FFE_WORK_COUNT e 0 1
    match (cellOf s c).part with
    | none => s
    | some p => record s p 4 (wordsLe [w32 c, w32 n, w32 sym, w32 a, w32 (b2n lost)] ++
        (List.range (carrierScs s c)).flatMap (fun k => let q := tgetD (0, 0) vals k; natLe 2 (wrapN 16 q.1) ++ natLe 2 (wrapN 16 q.2)))
/-- FFT_SYMBOL: the samples of one symbol as the converters gave them. -/
def execFftSymbol (l a n sym : Nat) (smp : List (Int × Int)) (s : State) : Host.Outcome State Fault Refusal := .next (fftSymbol s l a n sym smp)
/-- PRACH_FRONT_END: the sequence bins of one antenna of an occasion go to the correlator. -/
def prachFrontEnd (s : State) (f c occ a : Nat) (smp : List (Int × Int)) : State :=
  if (28, f) ∈ s.units.engOut then s
  else
    let old := s.fh.prachIn.filter (fun q => !decide (q.1 = c ∧ q.2.1 = occ ∧ q.2.2.1 = a))
    { s with fh := { s.fh with prachIn := old ++ [(c, occ, a, Config.prachBins c occ smp)] } }
/-- PRACH_FRONT_END. -/
def execPrachFrontEnd (f c occ a : Nat) (smp : List (Int × Int)) (s : State) : Host.Outcome State Fault Refusal :=
  .next (prachFrontEnd s f c occ a smp)

/-! ### Inverse FFT and ramps (R480, R485, R486) -/

/-- Samples of a ramp. -/
def rampLen (fs : Nat) : Nat := rdiv (2 * 7680 * 2 ^ fs) 1000
/-- Point `j` of the envelope. -/
def envPt (s : State) (fall : Bool) (j : Nat) : Nat := fld (rg s (JCL_PA_ENV + 4 * (if fall then 32 - j else j)) 0 0) 15 0
/-- A component of sample `k` of a ramp of `m`. -/
def rampSample (s : State) (fall : Bool) (m k : Nat) (x : Int) : Int :=
  let j := 32 * k / m
  let r := 32 * k % m
  rdivS (x * ((envPt s fall j * (m - r) + envPt s fall (Nat.min 32 (j + 1)) * r : Nat) : Int)) (m * 65536)
/-- Samples of a symbol's cyclic prefix: longer at each half of a subframe. -/
def cpLen (s : State) (c n sym points fs : Nat) : Nat :=
  let mu := cellMu s c
  let st := slotStart s c n
  let l := (((st - ((frameOffset s : Int) + cellToff s c)) % 1000000).toNat) / slotNs s c * 14 + sym
  points * 9 / 128 + (if l % (7 * 2 ^ mu) = 0 then 4 * 2 ^ fs else 0)
/-- The samples of a transmit symbol, a ramp before the first of a burst and after the last. -/
def txSamples (s : State) (l c n sym : Nat) (bins : List (Int × Int)) (first last : Bool) : List (Int × Int) :=
  let (_, _, fs) := linkShape s l
  let pts := fftPoints s l
  let cp := cpLen s c n sym pts fs
  let m := rampLen fs
  let at_ (i : Int) : Int × Int := Config.ifftSample (c, n, sym) pts bins ((i - (cp : Int)) % (Nat.max pts 1 : Nat)).toNat
  let ramp (fall : Bool) (k : Nat) (q : Int × Int) : Int × Int := (rampSample s fall m k q.1, rampSample s fall m k q.2)
  let pre := if first then (List.range m).map (fun k => ramp false k (at_ ((k : Int) - (m : Int)))) else []
  let body := (List.range (cp + pts)).map (fun i => at_ (i : Int))
  let post := if last then (List.range m).map (fun k => ramp true k (at_ ((cp + pts + k : Nat) : Int))) else []
  pre ++ body ++ post
/-- IFFT_SYMBOL: a downlink symbol of a stream is built and launched. -/
def ifftSymbol (s : State) (l a n sym : Nat) (bins : List (Int × Int)) (first last : Bool) : State :=
  let c := (linkMap s l).1
  if !linkEn s l ∨ l < 8 ∨ !linkHas s l a ∨ !ffeUp s ∨ (dlOf s c n).isNone then s
  else
    let e := ((List.range 4).find? (fun i => !decide ((28, i) ∈ s.units.engOut))).getD 0
    emit (wrapRg s FFE_WORK_COUNT e 0 1) (.samples l a n sym (txSamples s l c n sym bins first last))
/-- IFFT_SYMBOL: `first` and `last` say that the symbol begins or ends a burst of its amplifier group. -/
def execIfftSymbol (l a n sym : Nat) (bins : List (Int × Int)) (first last : Bool) (s : State) : Host.Outcome State Fault Refusal :=
  .next (ifftSymbol s l a n sym bins first last)

/-! ### The fast gain loop (R481-R484) -/

/-- Is a gain group enabled? -/
def agcEn (s : State) (g : Nat) : Bool := bit (rg s JCL_AGC_CFG 0 g) 31
/-- The energy detector fires on a stream of a group: a freeze until the slot ends in which the occasion ends. -/
def energyDetect (s : State) (g power slots : Nat) : State :=
  if !agcEn s g ∨ power < (rg s JCL_PDET_THR 0 g).toNat then s
  else
    let x := agcOf s g
    setAgc s g { x with prach := Nat.max x.prach (Nat.max 1 slots) }
/-- ENERGY_DETECT: mean power of 1,024 samples, and how many slot ends lie between now and the end of the freeze. -/
def execEnergyDetect (g _cell power slots : Nat) (s : State) : Host.Outcome State Fault Refusal := .next (energyDetect s g power slots)
/-- A decision of the loop: at once while free, else into the pending step. -/
def agcDecide (s : State) (g : Nat) (d : Int) : State :=
  let x := agcOf s g
  if d = 0 then s
  else if x.frozen = false ∧ x.prach = 0 then agcStep s g d
  else
    let b : Int := fld (rg s JCL_AGC_CFG 0 g) 7 4
    let p := min b (max (-b) (x.pending + d))
    setAgc s g { x with pending := min (15 - (x.gain : Int)) (max (-(x.gain : Int)) p) }
/-- Clipped samples of one stream in one symbol (R484). -/
def clipStream (s : State) (g n sym : Nat) (q : Nat × Nat × Nat) : State :=
  let (c, a, k) := q
  let old := match s.fh.clips.find? (fun e => decide (e.1 = c ∧ e.2.1 = n ∧ e.2.2.1 = sym ∧ e.2.2.2.1 = a)) with
    | some e => e.2.2.2.2
    | none => 0
  let rest := s.fh.clips.filter (fun e => !decide (e.1 = c ∧ e.2.1 = n ∧ e.2.2.1 = sym ∧ e.2.2.2.1 = a))
  let s := { s with fh := { s.fh with clips := rest ++ [(c, n, sym, a, old + k)] } }
  let s := setAgc s g { agcOf s g with clipped := (agcOf s g).clipped + k }
  let lim := fld (rg s JCL_AGC_CFG 0 g) 15 8
  if lim < old + k ∧ old ≤ lim then raise (eraseSym s c n sym a) 10 0 3 else s
/-- One evaluation of a group. -/
def agcEvaluate (s : State) (g peak power n sym : Nat) (clipped : List (Nat × Nat × Nat)) : State :=
  if !agcEn s g then s
  else
    let s := clipped.foldl (fun s q => clipStream s g n sym q) s
    let x := agcOf s g
    let high := fld (rg s JCL_AGC_THR 0 g) 31 16
    let low := fld (rg s JCL_AGC_THR 0 g) 15 0
    let win := fld (rg s JCL_AGC_TIME 0 g) 31 16
    let hits := if high ≤ peak then x.hits + 1 else 0
    let attack := decide (Nat.max 1 (fld (rg s JCL_AGC_CFG 0 g) 3 0) ≤ hits)
    let powers := (x.powers ++ [power]).drop (x.powers.length + 1 - win)
    let decay := decide (0 < win ∧ powers.length = win ∧ powers.sum < low * low * win ∧
      fld (rg s JCL_AGC_TIME 0 g) 15 0 ≤ x.sinceStep.getD (fld (rg s JCL_AGC_TIME 0 g) 15 0))
    let s := setAgc s g { x with hits := if attack then 0 else hits, powers := powers, sinceStep := x.sinceStep.map (· + 1) }
    agcDecide s g (if attack then -1 else if decay then 1 else 0)
/-- AGC_EVALUATE: the peak of |I| and |Q| and the mean power of 4 samples, and the samples at full scale by cell and antenna. -/
def execAgcEvaluate (g peak power : Nat) (clipped : List (Nat × Nat × Nat)) (n sym : Nat) (s : State) :
    Host.Outcome State Fault Refusal := .next (agcEvaluate s g peak power n sym clipped)
/-- The first uplink symbol of a slot freezes a group, after its pending step where no PRACH freeze is in force; the slot's end
frees it. -/
def agcFreeze (s : State) (g : Nat) (slotEnd : Bool) : State :=
  if !agcEn s g then s
  else
    let x := agcOf s g
    if slotEnd then setAgc s g { x with frozen := false, prach := x.prach - 1, clipLast := x.clipped, clipped := 0 }
    else
      let s := if x.prach = 0 then agcStep (setAgc s g { x with pending := 0 }) g x.pending else s
      setAgc s g { agcOf s g with frozen := true }
/-- AGC_FREEZE: at the first uplink symbol of a slot, or at the slot's end. -/
def execAgcFreeze (g : Nat) (slotEnd : Bool) (s : State) : Host.Outcome State Fault Refusal := .next (agcFreeze s g slotEnd)

/-! ### Amplifier pins (R485) -/

/-- Drive PA_EN of a group. -/
def paPin (s : State) (g : Nat) (v : Bool) : State :=
  if tgetD false s.fh.pa g = v then s else emit { s with fh := { s.fh with pa := tsetD false s.fh.pa g v } } (.pin 0 g v)
/-- PA_EN_ASSERT: PA_LEAD before a burst's ramp-up. -/
def execPaEnAssert (g : Nat) (s : State) : Host.Outcome State Fault Refusal := .next (paPin s g true)
/-- PA_EN_DEASSERT: PA_LAG after a burst's ramp-down. -/
def execPaEnDeassert (g : Nat) (s : State) : Host.Outcome State Fault Refusal := .next (paPin s g false)

end Sys2Proof.Machine
end

