-- ==== Sys2Proof/Machine/Fronthaul.lean ====
section
/-! DEFINITION. Fronthaul ports: frames in and out, stage 2 of the uplink, stage 8 of the downlink (10 R318, R322; 15 R456-R473;
16 R497-R502). -/

namespace Sys2Proof.Machine

open Sys2Proof

/-! ### Reception (R458-R469) -/

/-- A port is enabled and its link is up. -/
def portUp (s : State) (i : Nat) : Bool := portExists s i && bit (rg s FHP_PORT_CFG i 0) 28 && tgetD false s.fh.up i
/-- PORT_MAC. -/
def portMac (s : State) (i : Nat) : Nat := macOf (rg s FHP_PORT_MAC_LO i 0) (rg s FHP_PORT_MAC_HI i 0)
/-- The conditions of R458; pause frames are never accepted. -/
def frameOk (s : State) (i : Nat) (f : RxFrame) : Bool :=
  (decide (f.dst = portMac s i) || f.multicastOn || decide (f.dst = 2 ^ 48 - 1)) && decide (f.vlanTags ≤ 1) && f.fcsOk &&
    decide (f.len ≤ 9600) && !f.pause
/-- A stamp as the device reports it (R497). -/
def stampW (x : Int) : Word := w32 (x % (2 ^ 32 : Nat)).toNat
/-- A frame for the exception ring of partition 0 (R458, R500); `lim` where EXC_RATE applies to it. -/
def excFrame (s : State) (i : Nat) (f : RxFrame) (lim : Bool) : State :=
  let sec := nowNs s / 1000000000
  let (t, n) := tgetD (0, 0) s.fh.exc i
  let used := if t = sec then n else 0
  if lim = true ∧ (rg s FHP_EXC_RATE i 0).toNat * 125000 < used + f.len then satRg s FHP_RX_DROP i 0 1
  else
    let s := if lim then { s with fh := { s.fh with exc := tsetD (0, 0) s.fh.exc i (sec, used + f.len) } } else s
    deliverTo s 0 f.bytes (some (i, stampW (rxStamp s i f.rawNs)))
/-- What R467 refuses a whole frame for, as far as its header shows: revision, C, size. -/
def headerBad (e : ECpri) : Bool := decide (e.rev ≠ 1) || e.concat || decide (e.len ≠ e.space)
/-- RU port of an eAxC ID. -/
def ruPort (s : State) (a eaxc : Nat) : Nat := eaxc % 2 ^ portBits s a
/-- The rest of R467's checks on a whole frame: the stream, and the symbol. -/
def streamBad (s : State) (a : Nat) (e : ECpri) : Bool :=
  decide ((aAnts s a).2 ≤ ruPort s a e.eaxc) || !e.uplink || decide (14 ≤ e.sym)
/-- A section was announced for its symbol, and its PRBs stay inside it (R467). -/
def announced (s : State) (a n sym : Nat) (x : Section) : Bool :=
  s.fh.cplane.any (fun q => decide (q.assoc = a ∧ q.slot = n ∧ q.sym = sym ∧ q.id = x.sectionId ∧ q.prb0 ≤ x.startPrb ∧
    x.startPrb + x.numPrb ≤ q.prb0 + q.n))
/-- The checks of R467 on one section. A static udCompHdr is the association's own. -/
def sectionBad (s : State) (a : Nat) (e : ECpri) (x : Section) : Bool :=
  !announced s a e.slot e.sym x || (bit (aReg s FHP_ASSOC_COMP a) 15 && decide ((x.compMeth, x.iqWidth) ≠ aUl s a)) || !x.lenOk
/-- PRBs of a section that one held before brought for the same stream and symbol (R468). -/
def dupPrbs (s : State) (y : RxSect) : Nat :=
  ((List.range y.n).filter (fun k => s.fh.sects.any (fun q =>
    decide (q.assoc = y.assoc ∧ q.ant = y.ant ∧ q.slot = y.slot ∧ q.sym = y.sym ∧ q.prb0 ≤ y.prb0 + k ∧ y.prb0 + k < q.prb0 + q.n)))).length
/-- Hold one section of an accepted frame. -/
def holdSection (s : State) (i a : Nat) (e : ECpri) (x : Section) : State :=
  let bad := sectionBad s a e x
  let y : RxSect := ⟨a, (aAnts s a).1 + ruPort s a e.eaxc, e.slot, e.sym, x.sectionId, x.startPrb, x.numPrb, bad, (aUl s a).1,
    (aUl s a).2, x.payload⟩
  let s := if bad then rxLoss (aCount s FHP_RX_CORRUPT a 1) i else s
  if e.filterIndex ≠ 0 then { s with fh := { s.fh with prach := s.fh.prach ++ [y] } }
  else
    let s := match dupPrbs s y with | 0 => s | n => aCount s FHP_RX_DUP a n
    { s with fh := { s.fh with sects := s.fh.sects ++ [y] } }
/-- Follow ecpriSeqId, per association and eAxC (R460, R468). -/
def rxSequence (s : State) (a : Nat) (e : ECpri) : State :=
  let key := a * 65536 + e.eaxc % 65536
  let s := match tgetD none s.fh.rxSeq key with
    | some q => if e.seqId % 256 = (q + 1) % 256 then s else aCount s FHP_SEQ_GAP a 1
    | none => s
  { s with fh := { s.fh with rxSeq := tsetD none s.fh.rxSeq key (some (e.seqId % 256)) } }
/-- Are the sections of a cell recorded: does the mask CELLS name it (20 R594)? -/
def recCell (s : State) (c : Nat) : Bool := match s.trace.run with | some r => decide (c ∈ r.cells) | none => false
/-- The SECTION record of a U-plane frame (20 R597): its verdict is 0 on time, 1 early, 2 late, 3 corrupt. -/
def sectionRec (s : State) (i a verdict : Nat) (f : RxFrame) (e : ECpri) : State :=
  match (cellOf s (aCell s a)).part with
  | none => s
  | some p => if !recCell s (aCell s a) then s else record s p 3 (wordsLe [w32 a, w32 e.eaxc, w32 e.slot, w32 e.sym, stampW (rxStamp s i f.rawNs), w32 verdict] ++ f.bytes)
/-- A whole frame is corrupt: dropped, and each of its sections counted (R467). -/
def dropCorrupt (s : State) (i a : Nat) (f : RxFrame) (e : ECpri) : State :=
  rxLoss (aCount (sectionRec s i a 3 f e) FHP_RX_CORRUPT a e.sections.length) i
/-- The reception window of a symbol, both ends inclusive (R465). -/
def rxWindow (s : State) (a n sym : Nat) : Int × Int :=
  let e := symEdge s (aCell s a) n (sym + 1)
  (e + (fld (aReg s FHP_RX_WIN a) 31 16 : Nat), e + (fld (aReg s FHP_RX_WIN a) 15 0 : Nat))
/-- The symbol from whose end a frame's window is measured: for PRACH the last of its occasion (R465). -/
def windowSym (s : State) (a : Nat) (e : ECpri) : Nat :=
  if e.filterIndex = 0 then e.sym
  else match ulOf s (aCell s a) e.slot with
    | some u => ((u.items.filter (fun x => decide (x.pdu.kind = .prach))).flatMap (fun x => x.pdu.syms)).foldl Nat.max e.sym
    | none => e.sym
/-- Judge a U-plane frame of an association by its stamp, and hold its sections (R465, R466). -/
def judgeFrame (s : State) (i a n : Nat) (f : RxFrame) (e : ECpri) : State :=
  let t := rxStamp s i f.rawNs
  let (w0, w1) := rxWindow s a e.slot (windowSym s a e)
  if t < w0 then rxLoss (aCount (sectionRec s i a 1 f e) FHP_RX_EARLY a 1) i
  else if w1 < t ∨ (e.filterIndex = 0 ∧ (a, e.slot, e.sym) ∈ s.fh.begun) then
    rxLoss (aCount (sectionRec s i a 2 f e) FHP_RX_LATE a 1) i
  else
    let s := aCount (sectionRec s i a 0 f e) FHP_RX_ON_TIME a 1
    if (ulOf s (aCell s a) e.slot).isNone then s
    else
      let s := { s with fh := { s.fh with bufs := s.fh.bufs ++ [⟨i, n, false, (a, e.slot, e.sym)⟩] } }
      e.sections.foldl (fun s x => holdSection s i a e x) s
/-- A U-plane frame (R464, R467, R472). -/
def uplaneFrame (s : State) (i : Nat) (f : RxFrame) (e : ECpri) : State :=
  let n := ceilDiv f.len 2048
  if fbFree s i < n then rxLoss (satRg s FHP_NO_BUF i 0 1) i
  else match assocOf s i f e with
    | none => satRg s FHP_NO_ASSOC i 0 1
    | some a =>
      if headerBad e then dropCorrupt s i a f e
      else
        let s := rxSequence s a e
        if streamBad s a e then dropCorrupt s i a f e else judgeFrame s i a n f e
/-- A frame of the fronthaul path by its message type (R460). A delay measurement is answered with the port's own stamp. -/
def ecpriFrame (s : State) (i : Nat) (f : RxFrame) : State :=
  match f.ecpri with
  | none => satRg s FHP_NO_ASSOC i 0 1
  | some e =>
    if e.msgType = 0 then uplaneFrame s i f e
    else if e.msgType = 5 then
      { s with fh := { s.fh with txq := s.fh.txq ++ [⟨i, none, natLe 4 (stampW (rxStamp s i f.rawNs)).toNat, none⟩] } }
    else satRg s FHP_UNK_MSG i 0 1
/-- A frame at a port, routed by EtherType. -/
def frameReceive (s : State) (i : Nat) (f : RxFrame) : State :=
  if !portUp s i then s
  else if !frameOk s i f then satRg s FHP_RX_DROP i 0 1
  else if f.etype = 0xAEFE then ecpriFrame s i f
  else excFrame s i f (f.etype ≠ 0x88F7)
/-- FRAME_RECEIVE. -/
def execFrameReceive (i : Nat) (f : RxFrame) (s : State) : Host.Outcome State Fault Refusal := .next (frameReceive s i f)

/-! ### Transmission of queued frames (16 R497, R501, R502; 17 R533) -/

/-- A transmit stamp enters the queue of 64, or is discarded. -/
def pushStamp (s : State) (i tag : Nat) (st : Word) : State :=
  if s.tmu.tsq.length < 64 then { s with tmu := { s.tmu with tsq := s.tmu.tsq ++ [(i, tag % 65536, st)] } }
  else raise (satRg s TMU_TSQ_DISCARD 0 0 1) 3 0 0
/-- The oldest frame that waits at a port leaves it: its stamp enters the queue when TS_REQ asks, and a type 0x06 record is
written for a frame of the host. -/
def frameTransmit (s : State) (i raw : Nat) : State :=
  if !portUp s i then s
  else match s.fh.txq.find? (fun x => decide (x.port = i)) with
    | none => s
    | some x =>
      let s := { s with fh := { s.fh with txq := delFirst (fun x => decide (x.port = i)) s.fh.txq } }
      let s := emit s (.frame i (if x.desc.isSome then 1 else 5) x.bytes)
      let st := stampW (txStamp s i raw)
      let s := match x.ts with | some tag => pushStamp s i tag st | none => s
      match x.desc with
      | some d => postRec s 0 (dring d) (mkRec s 6 0 0 (wd d 1) (wd d 2) 0 (w32 (i * 65536 + fld (wd d 5) 15 0)) st (dseq d))
      | none => s
/-- FRAME_TRANSMIT: `raw` is the raw transmit time in ns. -/
def execFrameTransmit (i raw : Nat) (s : State) : Host.Outcome State Fault Refusal := .next (frameTransmit s i raw)

/-! ### Stage 2 (R318, R463, R466) -/

/-- Antennas of an association's uplink streams. -/
def rxStreams (s : State) (a : Nat) : List Nat := (List.range (aAnts s a).2).map (fun r => (aAnts s a).1 + r)
/-- PRBs announced for a symbol. -/
def wanted (s : State) (a n sym : Nat) : List Nat :=
  ((s.fh.cplane.filter (fun q => decide (q.assoc = a ∧ q.slot = n ∧ q.sym = sym))).flatMap (fun q =>
    (List.range q.n).map (fun k => q.prb0 + k))).eraseDups
/-- The section that brought a PRB of one stream first (R468). -/
def broughtBy (s : State) (a n sym ant prb : Nat) : Option RxSect :=
  s.fh.sects.find? (fun q => decide (q.assoc = a ∧ q.slot = n ∧ q.sym = sym ∧ q.ant = ant ∧ q.prb0 ≤ prb ∧ prb < q.prb0 + q.n))
/-- The grid of one stream: values of the PRBs that came sound, the mask over the others, and the saturations. -/
def fillGrid (s : State) (a n sym ant : Nat) : Grid × Nat :=
  (wanted s a n sym).foldl (fun (q : Grid × Nat) prb =>
    match broughtBy s a n sym ant prb with
    | some x =>
      if x.bad then ({ q.1 with erased := q.1.erased ++ [prb] }, q.2)
      else
        let len := prbBytes x.meth x.width
        let (l, sat) := expandPrb x.meth x.width ((x.payload.drop ((prb - x.prb0) * len)).take len)
        let vals := (List.range l.length).foldl (fun t k => tsetD (0, 0) t (prb * 12 + k) (l.getD k (0, 0))) q.1.vals
        ({ q.1 with vals := vals }, q.2 + sat)
    | none => ({ q.1 with erased := q.1.erased ++ [prb] }, q.2)) ({ cell := aCell s a, slot := n, sym, ant }, 0)
/-- Stage 2 may begin: every announced section is there on every stream, or 1.0 µs has passed since the window closed. -/
def stageTwoDue (s : State) (a n sym : Nat) : Bool :=
  decide ((rxWindow s a n sym).2 + 1000 ≤ (nowNs s : Int)) ||
    (!(wanted s a n sym).isEmpty && (rxStreams s a).all (fun ant => (wanted s a n sym).all (fun prb => (broughtBy s a n sym ant prb).isSome)))
/-- An association whose sections stage 1 takes: an enabled one, or one that a replay partition's trace names (20 R602). -/
def aServes (s : State) (a : Nat) : Bool :=
  aEn s a || (match (cellOf s (aCell s a)).part with | some p => replaying s p | none => false)
/-- DECOMPRESS a symbol of an association: its grids and mask are written and its buffers are free again. -/
def decompress (s : State) (a n sym : Nat) : State :=
  let c := aCell s a
  if !aServes s a ∨ (a, n, sym) ∈ s.fh.begun ∨ (ulOf s c n).isNone ∨ !stageTwoDue s a n sym then s
  else
    let s1 := (rxStreams s a).foldl (fun s' ant =>
      let (g, sat) := fillGrid s a n sym ant
      let s' := if sat = 0 then s' else satRg s' FHP_DECOMP_SAT (aPort s a) 0 sat
      putGrid s' g) s
    { s1 with fh := { s1.fh with
        begun := s1.fh.begun ++ [(a, n, sym)]
        sects := s1.fh.sects.filter (fun q => !decide (q.assoc = a ∧ q.slot = n ∧ q.sym = sym))
        bufs := s1.fh.bufs.filter (fun b => b.tx || !decide (b.key = (a, n, sym))) } }
/-- DECOMPRESS. -/
def execDecompress (a n sym : Nat) (s : State) : Host.Outcome State Fault Refusal := .next (decompress s a n sym)

/-! ### Stage 8 and the C-plane (R463, R470, R471) -/

/-- Streams of an association in a direction: RU ports. -/
def ruPorts (s : State) (a : Nat) (dl : Bool) : Nat :=
  if dl then fld (aReg s FHP_ASSOC_ANT a) 22 16 else fld (aReg s FHP_ASSOC_ANT a) 30 24
/-- Send one message of an eAxC: ecpriSeqId counts by 1 modulo 256 per eAxC and plane (R460). -/
def ecpriSend (s : State) (a r kind : Nat) (body : List Byte) : State :=
  let eaxc := fld (aReg s FHP_ASSOC_EAXC a) 31 16 / 2 ^ portBits s a * 2 ^ portBits s a + r
  let key := (a * 65536 + eaxc) * 2 + (if kind = 2 then 1 else 0)
  let q := tgetD 0 s.fh.txSeq key
  let s := { s with fh := { s.fh with txSeq := tsetD 0 s.fh.txSeq key ((q + 1) % 256) } }
  emit s (.frame (aPort s a) kind (natLe 2 eaxc ++ natLe 1 q ++ body))
/-- CPLANE_SEND: sections (identifier, first PRB, PRBs) of a symbol, on every stream; the uplink's are what R466 and R467 compare with. -/
def cplaneSend (s : State) (a : Nat) (dl : Bool) (n sym : Nat) (l : List (Nat × Nat × Nat)) : State :=
  let c := aCell s a
  let adv := (aReg s (if dl then FHP_CP_ADV_DL else FHP_CP_ADV_UL) a).toNat
  if !aEn s a ∨ !portUp s (aPort s a) ∨ (dl = true ∧ (dlOf s c n).isNone) ∨ (nowNs s : Int) + adv < symEdge s c n sym then s
  else
    let body := natLe 4 n ++ natLe 1 sym ++ l.flatMap (fun q => natLe 2 q.1 ++ natLe 2 q.2.1 ++ natLe 2 q.2.2)
    let s := (List.range (ruPorts s a dl)).foldl (fun s r => ecpriSend s a r 2 body) s
    if dl then s
    else { s with fh := { s.fh with cplane := s.fh.cplane ++ l.map (fun q => ⟨a, n, sym, q.1, q.2.1, q.2.2⟩) } }
/-- CPLANE_SEND. -/
def execCplaneSend (a : Nat) (dl : Bool) (n sym : Nat) (l : List (Nat × Nat × Nat)) (s : State) :
    Host.Outcome State Fault Refusal := .next (cplaneSend s a dl n sym l)
/-- Is compressed output of this stream and symbol at hand? -/
def txReady (s : State) (a ant n sym : Nat) : Option TxSym :=
  s.fh.txSyms.find? (fun x => decide (x.assoc = a ∧ x.ant = ant ∧ x.slot = n ∧ x.sym = sym))
/-- Let go the output of one stream and symbol, and its buffers. -/
def dropTx (s : State) (x : TxSym) : State :=
  { s with fh := { s.fh with
      txSyms := delFirst (fun y => decide (y = x)) s.fh.txSyms
      bufs := delFirst (fun b => b.tx && decide (b.key = (x.assoc * 128 + x.ant, x.slot, x.sym))) s.fh.bufs } }
/-- COMPRESSION of one stream and symbol, PRB by PRB: the output takes transmit buffers of the port's quota (R472). -/
def compression (s : State) (a ant n sym : Nat) (prbs : List (List (Int × Int))) : State :=
  let (meth, w) := aDl s a
  let bytes := prbs.flatMap (compressPrb meth w)
  let k := ceilDiv bytes.length 2048
  if !aEn s a ∨ (dlOf s (aCell s a) n).isNone ∨ (txReady s a ant n sym).isSome ∨ fbFree s (aPort s a) < k then s
  else { s with fh := { s.fh with
      txSyms := s.fh.txSyms ++ [⟨a, ant, n, sym, bytes⟩]
      bufs := s.fh.bufs ++ [⟨aPort s a, k, true, (a * 128 + ant, n, sym)⟩] } }
/-- COMPRESSION. -/
def execCompression (a ant n sym : Nat) (prbs : List (List (Int × Int))) (s : State) : Host.Outcome State Fault Refusal :=
  .next (compression s a ant n sym prbs)
/-- UPLANE_SEND: launched whole inside its window, or not at all (R470, R471). -/
def uplaneSend (s : State) (a ant n sym : Nat) : State :=
  let c := aCell s a
  let st := symEdge s c n sym
  let now : Int := nowNs s
  let late (s : State) : State := raise (aCount s FHP_TX_LATE a 1) 9 (aPort s a) 0
  if !aEn s a ∨ (dlOf s c n).isNone ∨ now + (aReg s FHP_UP_ADV_MAX a).toNat < st then s
  else
    let inTime := decide (now + (aReg s FHP_UP_ADV_MIN a).toNat ≤ st)
    match txReady s a ant n sym with
    | some x =>
      if inTime = true ∧ portUp s (aPort s a) = true then ecpriSend (dropTx s x) a (ant - (aAnts s a).1) 0 (natLe 4 n ++ natLe 1 sym ++ x.bytes)
      else if inTime then s else late (dropTx s x)
    | none => if now + (aReg s FHP_UP_ADV_MIN a).toNat < st then s else late s
/-- UPLANE_SEND. -/
def execUplaneSend (a ant n sym : Nat) (s : State) : Host.Outcome State Fault Refusal := .next (uplaneSend s a ant n sym)

/-! ### Links of the ports (R456, R491) -/

/-- LINK_UP: auto-negotiation and training are complete; PORT_STAT reads LINK_UP and FEC_LOCK. -/
def linkUp (s : State) (i : Nat) : State :=
  if portExists s i = true ∧ bit (rg s FHP_PORT_CFG i 0) 28 = true then { s with fh := { s.fh with up := tsetD false s.fh.up i true } } else s
/-- LINK_UP. -/
def execLinkUp (i : Nat) (s : State) : Host.Outcome State Fault Refusal := .next (linkUp s i)
/-- LINK_DOWN of a port that had its link. -/
def linkDown (s : State) (i : Nat) : State :=
  if tgetD false s.fh.up i then raise { s with fh := { s.fh with up := tsetD false s.fh.up i false } } 9 i 2 else s
/-- LINK_DOWN. -/
def execLinkDown (i : Nat) (s : State) : Host.Outcome State Fault Refusal := .next (linkDown s i)

end Sys2Proof.Machine
end

