-- ==== Sys2Proof/Machine/IlkOps.lean ====
section
/-! DEFINITION. What becomes of an Ilush port: its credits, the loss of its link, lanes that fail, and the domain it serves (19 R570
R576-R585). -/

namespace Sys2Proof.Machine

open Sys2Proof

/-! ### Credits -/

/-- Set the credits of every channel of a port to what its version gives (R576). -/
def resetCredits (s : State) (port ver : Nat) : State :=
  (List.range 4).foldl (fun s ch =>
    let n := w32 (credits ver ch)
    setRg (setRg (setRg (setUnacked s port ch []) ILK_CR_LIMIT port ch n) ILK_CR_AVAIL port ch n) ILK_CR_OUT port ch 0) s
/-- The receiver returns `n` credits of a channel: the oldest flits are acknowledged (R577). -/
def creditReturn (s : State) (port ch n : Nat) : State :=
  let n := Nat.min n (rg s ILK_CR_OUT port ch).toNat
  let s := setRg s ILK_CR_OUT port ch (rg s ILK_CR_OUT port ch - w32 n)
  let s := setRg s ILK_CR_AVAIL port ch (rg s ILK_CR_AVAIL port ch + w32 n)
  setUnacked s port ch ((unacked s port ch).drop n)
/-- A write of descriptor `own` was denied or lost: its items are marked failed (R573, R584, 07 R221). -/
def failWrite (s : State) (own : Nat × Nat) : State :=
  match (engOf s own.1).q.find? (fun d => decide (d.serial = own.2)) with
  | some d => markCopy s own.1 d 2 5
  | none => s
/-- The port sent or received something. -/
def touchPort (s : State) (port : Nat) : State :=
  { s with ilk := { s.ilk with active := tsetD 0 s.ilk.active port s.tmu.ticks } }
/-- Replace ILK_STAT of a port: link up, lanes up, version; the peer's index and domain stay. -/
def setLinkStat (s : State) (port : Nat) (up : Bool) (lanes ver : Nat) : State :=
  setRg s ILK_ILK_STAT port 0
    (setFld (setFld (setFld (rg s ILK_ILK_STAT port 0) 31 31 (b2n up)) 30 29 lanes) 23 16 ver)

/-! ### The domain -/

/-- Member mask of DOM_CFG, and its members other than this chip. -/
def domPeers (s : State) : List Nat :=
  let w := rg s ILK_DOM_CFG 0 0
  (List.range 8).filter (fun k => bit w (8 + k) && decide (k ≠ fld w 2 0))
/-- DOM_STAT as the books show it (R588). -/
def showDomain (s : State) (formed : Bool) : State :=
  let mask (l : List Nat) : Nat := ((List.range 8).map (fun k => if k ∈ l then 2 ^ k else 0)).sum
  let me := if bit (rg s ILK_DOM_CFG 0 0) 31 ∧ formed = true then [fld (rg s ILK_DOM_CFG 0 0) 2 0] else []
  setRg s ILK_DOM_STAT 0 0
    (w32 (b2n formed * 2 ^ 31 + mask (me ++ s.ilk.joined) * 2 ^ 8 + mask s.ilk.mismatch))
/-- Is the domain formed? -/
def domFormed (s : State) : Bool := bit (rg s ILK_DOM_STAT 0 0) 31
/-- Jobs of the domain. -/
def domJobs (s : State) : List Nat :=
  s.disp.jobs.filterMap (fun e => match e.2 with
    | some x => if x.level = 4 then some e.1 else none
    | none => none)
/-- A member has left: its jobs abort, the record is replaced without it, and PEER_LEFT shows it (R585). -/
def peerLeft (s : State) (chip : Nat) : State :=
  if chip ∉ s.ilk.joined then s
  else
    let was := domFormed s
    let s := { s with ilk := { s.ilk with joined := s.ilk.joined.filter (fun k => decide (k ≠ chip)) } }
    let s := showDomain s (was && decide (s.ilk.joined ≠ []))
    if !was then s
    else
      let s := (domJobs s).foldl (fun s j => abortJob s j false false) s
      let s := bumpCap s (handle s 4 0)
      raise (logErr s 0x1B 2 0 0 (w32 chip) 0 0 0 0) 11 0 4
/-- This chip leaves its domain, because its DOM_CFG has changed (R585). -/
def leaveDomain (s : State) : State :=
  let s := (domJobs s).foldl (fun s j => abortJob s j false false) s
  showDomain { s with ilk := { s.ilk with joined := [], mismatch := [], skew := [] } } false

/-! ### Losing a link (R584) -/

/-- Waits and registrations of the peer behind a port are removed (08 R259). -/
def dropPeerWaits (s : State) (port : Nat) : State :=
  { s with sync := { s.sync with waits := s.sync.waits.filter (fun w => match w.who with
      | .peer q _ => decide (q ≠ port)
      | _ => true) } }
/-- The link of a port is lost. -/
def dropLink (s : State) (port : Nat) : State :=
  match linkPeer s port with
  | none => s
  | some chip =>
    let ver := linkVer s port
    let lost := ((unacked s port 0).eraseDups).filter (fun o => decide (o.1 < Config.copyEngines))
    let s := lost.foldl failWrite s
    let s := dropPeerWaits (resetCredits s port ver) port
    let s := setLinkStat s port false 0 ver
    let s := raise (logErr s 0x1B 1 0 0 (w32 port) 0 0 0 0) 11 port 0
    let s := { s with ilk := { s.ilk with replays := tsetD 0 (tsetD 0 s.ilk.replays (2 * port) 0) (2 * port + 1) 0 } }
    reconsider (if portsTo s chip = [] then peerLeft s chip else s)
/-- A lane of a port is faulty (R570): version 2.0 goes on with the other lane, otherwise the link is lost. -/
def ilkLaneBad (s : State) (port lane : Nat) : State :=
  let k := 2 * port + lane
  let s := { s with ilk := { s.ilk with bad := if k ∈ s.ilk.bad then s.ilk.bad else s.ilk.bad ++ [k] } }
  if (linkPeer s port).isNone then s
  else if linkVer s port < 0x20 ∨ (2 * port + (1 - lane)) ∈ s.ilk.bad then dropLink s port
  else raise (setLinkStat s port true (2 ^ (1 - lane)) (linkVer s port)) 11 port 1

end Sys2Proof.Machine
end

