-- ==== Sys2Proof/Machine/Repair.lean ====
section
/-! DEFINITION. Units and lanes that leave service and return (23 R656 R659-R662, 01 R33 R34, 24 R685). -/

namespace Sys2Proof.Machine

open Sys2Proof

/-- The record of type 0x14 and the REMAP event: KIND of R662, quad, instance or lane, the cause, the logical index served before
and the instance that serves it now (0xFF for none). -/
def serviceRec (s : State) (reason kind quad inst cause old new : Nat) : State :=
  raise (logErr s 0x14 reason 0 0 (w32 (kind * 2 ^ 28 + quad * 256 + inst)) (w32 cause) (w32 old) (w32 new) 0) 0 0 1

/-! ### Clusters -/

/-- Jobs that the leaving of physical cluster `c` ends: those on it, and those that keep data there or whose spill is not complete. -/
def lostJobs (s : State) (c : Nat) : List Nat :=
  s.disp.jobs.filterMap (fun e => match e.2 with
    | none => none
    | some x =>
      let kept := ((x.regions.filter (fun r => !r.spilled)) ++ x.pinned).any (fun r => decide (placeOf s x r.member = some c))
      let moving := decide (c ∈ physUnits s x) && decide (x.phase = .spilling ∨ x.phase = .restoring)
      if (clu s c).job = some e.1 ∨ kept = true ∨ moving = true then some e.1 else none)
/-- Set the physical cluster of a logical index. -/
def setMap (s : State) (l : Nat) (c : Option Nat) : State :=
  { s with units := { s.units with map := tset (fun k => if k < 16 then some k else none) s.units.map l c } }
/-- The capability records that a remap of logical index `l` changes. -/
def bumpRemap (s : State) (l : Nat) : State :=
  let s := bumpCap (bumpCap s (handle s 2 (l / 2))) (handle s 3 0)
  if domFormed s then bumpCap s (handle s 4 0) else s
/-- A pair that is no longer capable is no longer joined (R32). -/
def partPairs (s : State) : State :=
  { s with units := { s.units with joined := s.units.joined.filter (cherryCapable s) } }
/-- Edge jobs placed on a withdrawn index that have no data on a cluster go to the lowest group that fits (R283; assumption log). -/
def rehome (s : State) (l : Nat) : State :=
  { s with disp := { s.disp with jobs := s.disp.jobs.map (fun e => match e.2 with
      | none => e
      | some x =>
        if l ∈ x.units ∧ !isRS s x.part ∧ (x.phase = .queued ∨ x.phase = .spilled) then
          match (genOf s x).bind (fun g => let (lv, k, cols) := entryUnit s g x.entry; (candidates s lv k cols).head?) with
          | some us => (e.1, some { x with units := us })
          | none => e
        else e) } }
/-- Give logical index `l` of the failed cluster a new home: the spare pair, a lone spare, or none (R33, R34). -/
def remap (s : State) (l : Nat) : Option Nat × State :=
  if 16 ∈ s.units.spares ∧ 17 ∈ s.units.spares then
    let m := l / 2 * 2 + (1 - l % 2)
    let s := setMap s l (some (16 + l % 2))
    let rest := s.units.spares.filter (fun k => decide (k ≠ 16 ∧ k ≠ 17))
    match physOf s m with
    | none => (some (16 + l % 2), { s with units := { s.units with spares := rest ++ [17 - l % 2] } })
    | some h =>
      let s := { s with units := { s.units with spares := rest, moving := s.units.moving ++ [(m, 16 + m % 2)] } }
      (some (16 + l % 2), if (clu s h).job.isNone then jobBoundary s h else s)
  else
    match s.units.spares.min? with
    | some k => (some k, { setMap s l (some k) with units := { (setMap s l (some k)).units with
        spares := s.units.spares.filter (fun q => decide (q ≠ k)) } })
    | none => (none, rehome (setMap s l none) l)
/-- Take a physical cluster out of every list of clusters that serve. -/
def strike (s : State) (c : Nat) : State :=
  let u := s.units
  let keep (l : List Nat) : List Nat := l.filter (fun k => decide (k ≠ c))
  { s with
    units := { u with out := u.out ++ [c], spares := keep u.spares, testing := keep u.testing, wanting := keep u.wanting
                      leaving := u.leaving.filter (fun q => decide (q.1 ≠ c)) }
    safe := { s.safe with rot := tsetD {} s.safe.rot c { tgetD {} s.safe.rot c with
      start := none, handed := none, untested := false, ran := [], returning := false } } }
/-- Physical cluster `c` leaves service: its jobs abort, and its index moves to a spare or is withdrawn (R33, R34, R656). -/
def leaveCluster (s : State) (c cause : Nat) : State :=
  if c ∈ s.units.out ∨ Config.clusters ≤ c then s
  else
    let s := (lostJobs s c).foldl (fun s j => abortJob s j true false) s
    let handed := (tgetD {} s.safe.rot c).handed
    let l := (List.range 16).find? (fun l => decide (physOf s l = some c))
    let s := strike s c
    let back := s.safe.rot.find? (fun e => decide (e.2.handed.map (fun h => h.2) = some c))
    let (old, new, s) := match handed, l, back with
      | some (k, sp), _, _ => (some k, some sp, s)
      | none, some k, some e =>
        (some k, some e.1, setMap { s with safe := { s.safe with rot := tsetD {} s.safe.rot e.1 { e.2 with handed := none } } } k (some e.1))
      | none, some k, none => let (n, s) := remap s k; (some k, n, s)
      | none, none, _ => (none, none, s)
    let s := partPairs s
    let s := match old with | some k => bumpRemap s k | none => s
    reconsider (serviceRec s 1 1 0 c cause (old.getD 0xFF) (new.getD 0xFF))

/-! ### Engines -/

/-- 11 R350: full-band cost of a cell per slot. -/
def beqCost (s : State) (c : Nat) : Nat :=
  match (cellOf s c).cfg with
  | none => 0
  | some x =>
    let g := ceilDiv x.prbs (2 ^ fld (rg s BEQ_CELL_CFG 0 c) 27 26)
    let sc := x.prbs * 12
    g * (2 * 256 * x.rxAnts + 4096) + 12 * sc * 16 * x.rxAnts + 2 * sc * x.rxAnts
/-- 11 R351: load of a unit in complex MAC/s. -/
def beqLoad (s : State) (u : Nat) : Nat :=
  ((List.range Config.cells).map (fun c => if beqEn s c = true ∧ beqUnit s c = u then beqCost s c * 1000 * 2 ^ cellMu s c else 0)).sum
/-- KIND of R662 of a page code. -/
def kindOf (code : Nat) : Nat :=
  match code with | 24 => 2 | 30 => 3 | 25 => 4 | 26 => 5 | 27 => 6 | 28 => 7 | _ => 8
/-- Page code of a KIND. -/
def codeOf (kind : Nat) : Nat :=
  match kind with | 2 => 24 | 3 => 30 | 4 => 25 | 5 => 26 | 6 => 27 | 7 => 28 | _ => 29
/-- The unit that takes over a cell: in service, within 80 %, of lowest load (R351, R660). -/
def newBeq (s : State) (c : Nat) : Option Nat :=
  let add := beqCost s c * 1000 * 2 ^ cellMu s c
  let ok := (List.range 4).filter (fun u => !engAway s 30 u && decide (10 * (beqLoad s u + add) ≤ 8 * 2013265920000))
  ok.foldl (fun b u => match b with
    | none => some u
    | some v => if beqLoad s u < beqLoad s v then some u else some v) none
/-- Move the cells of a Baseline Equaliser unit that has left (R660). -/
def moveCells (s : State) (u : Nat) : State :=
  (List.range Config.cells).foldl (fun s c =>
    if beqEn s c = true ∧ beqUnit s c = u then
      match newBeq s c with
      | some v => setRg s BEQ_CELL_CFG 0 c (setFld (rg s BEQ_CELL_CFG 0 c) 29 28 v)
      | none => s
    else s) s
/-- Results of a unit's allocations that are not selected yet fail as under R355. -/
def failBeq (s : State) (u : Nat) : State :=
  { s with radio := { s.radio with ul := s.radio.ul.map (fun x =>
      if beqUnit s x.cell = u then { x with items := x.items.map (fun i => if i.beq = some true ∧ i.path.isNone then { i with beq := some false } else i) }
      else x) } }
/-- What the leaving of an engine does to its work (R656). -/
def engineWork (s : State) (code i : Nat) : State :=
  if code = 24 then
    let s := match tgetD none s.radio.runs i with
      | some (a, _) => { s with radio := { s.radio with passes := a :: s.radio.passes, runs := tsetD none s.radio.runs i none } }
      | none => s
    raise s 24 0 2
  else if code = 30 then moveCells (failBeq s i) i
  else if code = 29 then s
  else raise s code i 0
/-- An engine leaves service. -/
def dropEngine (s : State) (code i cause : Nat) : State :=
  if engAway s code i then s
  else
    let s := { s with units := { s.units with
      engOut := s.units.engOut ++ [(code, i)]
      engLeaving := s.units.engLeaving.filter (fun q => !decide (q.1 = code ∧ q.2.1 = i)) } }
    serviceRec (engineWork s code i) 1 (kindOf code) 0 i cause 0xFF 0xFF
/-- Is an instance fused out (R662)? -/
def fusedOut (s : State) (kind i : Nat) : Bool :=
  let f := s.sec.fuses
  let b (w k : Nat) : Bool := decide (w / 2 ^ k % 2 = 1)
  match kind with
  | 1 => b f.repCl i | 2 => b f.repLdd i | 3 => b f.repBeq i | 4 => b f.repEng i
  | 5 => b f.repEng (4 + i) | 6 => b f.repEng (6 + i) | 7 => b f.repEng (8 + i) | _ => b f.repEng (12 + i)
/-- An engine returns to service. -/
def backEngine (s : State) (code i cause : Nat) : State :=
  if (code, i) ∉ s.units.engOut ∨ fusedOut s (kindOf code) i = true then s
  else
    let s := { s with units := { s.units with engOut := s.units.engOut.filter (fun q => decide (q ≠ (code, i))) } }
    let s := if code = 24 then raise s 24 0 2 else s
    serviceRec s 2 (kindOf code) 0 i cause 0xFF 0xFF

/-! ### Parking (24 R685) -/

/-- Engines of a domain. -/
def domEngines (d : Nat) : List (Nat × Nat) :=
  if d < 54 then [] else if d < 70 then [(24, d - 54)] else if d < 74 then [(25, d - 70)] else if d < 76 then [(26, d - 74)]
  else if d < 78 then [(27, d - 76)] else if d < 82 then [(28, d - 78)] else if d = 82 then [(29, 0), (29, 1)] else []
/-- PARK comes into force. -/
def parkDomain (s : State) (d : Nat) : State :=
  (domEngines d).foldl (fun s q =>
    if engAway s q.1 q.2 then s
    else
      let s := dropEngine s q.1 q.2 7
      { s with units := { s.units with parked := s.units.parked ++ [q], engBack := s.units.engBack.filter (fun x => !decide (x.1 = q.1 ∧ x.2.1 = q.2)) } }) s
/-- PARK is cleared: the engines return at the first slot boundary after the domain's power-up. -/
def unparkDomain (s : State) (d : Nat) : State :=
  let l := (domEngines d).filter (fun q => decide (q ∈ s.units.parked))
  { s with units := { s.units with parked := s.units.parked.filter (fun q => !decide (q ∈ l)), engBack := s.units.engBack ++ l.map (fun q => (q.1, q.2, 7)) } }
/-- What leaves or returns at a slot boundary (R659, R685). -/
def unitsAtSlot (s : State) : State :=
  let s := s.units.leaving.foldl (fun s q => leaveCluster s q.1 q.2) s
  let s := s.units.engLeaving.foldl (fun s q => dropEngine s q.1 q.2.1 q.2.2) s
  let go := s.units.engBack.filter (fun q => pageOn s q.1 q.2.1)
  let s := { s with units := { s.units with engBack := s.units.engBack.filter (fun q => !decide (q ∈ go)) } }
  go.foldl (fun s q => backEngine s q.1 q.2.1 q.2.2) s

/-! ### Lanes (R661) -/

/-- Quad 0-19 of a kind (0 fronthaul, 1 Ilush, 2 JESD, 3 PCI Express) and its own quad number. -/
def quadNo (kind quad : Nat) : Nat := match kind with | 0 => quad | 1 => 4 + quad | 2 => 8 + quad | _ => 16 + quad
/-- Set how a lane stands. -/
def setLane (s : State) (q lane st cause : Nat) : State :=
  { s with fh := { s.fh with lanes := s.fh.lanes.filter (fun e => !decide (e.1 = q ∧ e.2.1 = lane)) ++ [(q, lane, st, cause)] } }
/-- How a lane stands. -/
def laneSt (s : State) (q lane : Nat) : Option Nat :=
  (s.fh.lanes.find? (fun e => decide (e.1 = q ∧ e.2.1 = lane))).map (fun e => e.2.2.1)
/-- The fronthaul port that a lane carries. -/
def lanePort (s : State) (q k : Nat) : Nat :=
  match qmode s q with | 0 => 4 * q | 1 => 4 * q + k / 2 * 2 | _ => 4 * q + k
/-- Links that use a JESD lane: receive quads 0-3, transmit quads 4-7. -/
def laneLinks (s : State) (quad k : Nat) : List Nat :=
  let g := quad % 4 * 4 + k
  (List.range 16).filter (fun l =>
    let f := fld (rg s JCL_LINK_CFG 0 l) 25 22
    linkEn s l && decide (l / 8 = quad / 4 ∧ f ≤ g ∧ g < f + (linkShape s l).1))
/-- What a faulty lane does at once, repaired or not. -/
def laneEffect (s : State) (kind quad k : Nat) : State :=
  match kind with
  | 0 => linkDown s (lanePort s quad k)
  | 1 => ilkLaneBad s (2 * quad + k / 2) (k % 2)
  | 2 => (laneLinks s quad k).foldl linkLoss s
  | _ => s
/-- A lane is judged faulty. -/
def laneFault (s : State) (kind quad lane cause : Nat) : State :=
  let q := quadNo kind quad
  let free := !s.fh.lanes.any (fun e => decide (e.1 = q ∧ e.2.2.1 ≠ 1))
  match laneSt s q lane with
  | some 1 | some 2 => s
  | some _ => laneEffect (serviceRec (setLane s q lane 1 cause) 4 9 q lane cause 0xFF 0xFF) kind quad lane
  | none =>
    if !free then laneEffect (serviceRec (setLane s q lane 1 cause) 4 9 q lane cause 0xFF 0xFF) kind quad lane
    else if kind = 3 then setLane s q lane 2 cause
    else laneEffect (serviceRec (setLane s q lane 0 cause) 3 9 q lane cause 0xFF 0xFF) kind quad lane
/-- LANE_FAULT: kind 0 fronthaul, 1 Ilush, 2 JESD, 3 PCI Express; the cause in the codes of R731. -/
def execLaneFault (kind quad lane cause : Nat) (s : State) : Host.Outcome State Fault Refusal := .next (laneFault s kind quad lane cause)
/-- LINK_RETRAINING: the host retrains the PCI Express link, and the repairs that wait for it are made. -/
def execLinkRetraining (s : State) : Host.Outcome State Fault Refusal :=
  .next ((s.fh.lanes.filter (fun e => decide (e.2.2.1 = 2))).foldl (fun s e =>
    serviceRec (setLane s e.1 e.2.1 0 e.2.2.2) 3 9 e.1 e.2.1 e.2.2.2 0xFF 0xFF) s)

end Sys2Proof.Machine
end

