-- ==== Sys2Proof/Machine/Commit.lean ====
section
/-! DEFINITION. Commits (23 R667, 25 R711 R712): the boundary that governs each register, the refusal checks of every chapter, and what
follows when a value comes into force. -/

namespace Sys2Proof.Machine

open Sys2Proof

/-! ### Which boundary governs a register (R512, R712) -/

/-- A boundary at which commits apply. -/
inductive Bound where
  | cell (c : Nat)
  | part (p : Nat)
  | frame
  | grid
  deriving DecidableEq, Repr

/-- Register, instance and selector of a key. -/
def keyReg (k : Nat) : Nat × Nat × Nat := (k / 65536 / 256, k / 65536 % 256, k % 65536)
/-- The boundary that governs a register: cells for the tables of cells and associations, a partition's timer for the pages that a
RADIO or SAFETY partition owns, the frame for CELL_TIME and PART_SLOT (16 R732), the 125 µs grid for the rest. -/
def governs (s : State) (k : Nat) : Bound :=
  let (r, i, sel) := keyReg k
  let c := r / 4096
  let o := r % 4096
  if c = 30 ∧ i = 0 ∧ 0x84 ≤ o ∧ o ≤ 0x94 then .cell sel
  else if r = LDD_CELL_DEC then .cell sel
  else if c = 9 ∧ 0x104 ≤ o ∧ o ≤ 0x12C then .cell (fld (shadow s FHP_ASSOC_CFG 0 sel) 21 15)
  else if c = 10 ∧ 0x44 ≤ o ∧ o ≤ 0x50 then .cell (fld (shadow s JCL_LINK_MAP 0 sel) 31 25)
  else if r = TMU_CELL_TIME ∨ r = TMU_PART_SLOT then .frame
  else if isRS s (ownerOf s c i) then .part (ownerOf s c i)
  else .grid
/-- Entries of a page whose shadow differs from the value in force. -/
def pageShadow (s : State) (c i : Nat) : List (Nat × Word) :=
  s.pg.shadow.filterMap (fun e => match e.2 with
    | some v => if (keyReg e.1).1 / 4096 = c ∧ (keyReg e.1).2.1 = i then some (e.1, v) else none
    | none => none)
/-- The state with entries put in force, for the checks. -/
def prospect (s : State) (l : List (Nat × Word)) : State :=
  { s with pg := { s.pg with regs := l.foldl (fun t e => tset regReset t e.1 e.2) s.pg.regs } }
/-- Selectors of the entries whose offsets lie in a range. -/
def touched (l : List (Nat × Word)) (lo hi : Nat) : List Nat :=
  (l.filterMap (fun e => let (r, _, sel) := keyReg e.1; if lo ≤ r % 4096 ∧ r % 4096 ≤ hi then some sel else none)).eraseDups

/-! ### The refusal checks -/

/-- The first offset whose check fails, in ascending offset. -/
def firstBad (l : List (Nat × Bool)) : Option Nat := (l.find? (fun q => q.2)).map (fun q => q.1)
/-- 09 R303, 24 R679: FLOOR tables of cluster `l`. -/
def floorChecks (s n : State) (l : Nat) : List (Nat × Bool) :=
  let ws := (List.range 64).filterMap (floorWin n l)
  let per := floorPeriod n l
  let clash := ws.any (fun w => decide (per < w.2.1 + w.2.2)) ||
    (List.range ws.length).any (fun i => (List.range i).any (fun j =>
      match ws[i]?, ws[j]? with
      | some a, some b => overlap a.2.1 a.2.2 b.2.1 b.2.2
      | _, _ => false))
  let moved := decide (floorMode s l ≠ floorMode n l ∨ floorBase s l ≠ floorBase n l)
  let used := match physOf s l with
    | some c => (clu s c).job.isSome || !(keptRegions s c).isEmpty
    | none => false
  let capped := bit (rg s PWC_CLK_CFG 0 l) 31 && (decide (floorMode n l = 1) || decide (floorMode n l = 2))
  [(0x104, decide (fld (rg n SYS_FLOOR_CFG 0 l) 13 0 % 64 ≠ 0) || (moved && used) || capped), (0x110, clash)]
/-- 21 R613, R633: FTTI, and the block of SAFF_OBJ. -/
def safetyChecks (n : State) (ps cs : List Nat) : List (Nat × Bool) :=
  [(0x1C4, ps.any (fun p => decide (fld (rg n SYS_SAF_CFG 0 p) 15 0 < 6))),
   (0x1EC, cs.any (fun c => (cellOf n c).part.isNone ||
      decide (objOwner n (fld (rg n SYS_SAFF_CFG 0 c) 13 0) ≠ (cellOf n c).part)))]
/-- 11 R379: cell table. -/
def cellTableChecks (s n : State) (c : Nat) : List (Nat × Bool) :=
  let part := (cellOf n c).part
  let sz := (rg n BEQ_WBANK_KIB 0 c).toNat * 1024
  let b0 := (rg n BEQ_WBANK0 0 c).toNat
  let b1 := (rg n BEQ_WBANK1 0 c).toNat
  let room := match part.bind (partRegion n) with | some r => r.2.1 | none => 0
  let moved (r : Nat) : Bool := decide (rg s r 0 c ≠ rg n r 0 c)
  let busy := s.disp.jobs.any (fun e => match e.2 with
    | some j => decide (some j.part = part) && j.inst.isSome
    | none => false)
  let safe := match part with | some p => decide (pclass n p = .safety) | none => false
  [(0x84, beqEn n c && (decide (10 * beqLoad n (beqUnit n c) > 8 * 2013265920000) || (safe && !beqHot n c) ||
      decide (fld (rg n BEQ_CELL_CFG 0 c) 27 26 = 3) || part.isNone ||
      decide (objOwner n (fld (rg n BEQ_CELL_CFG 0 c) 13 0) ≠ part))),
   (0x8C, (decide (sz ≠ 0) && decide (room < b0 + sz)) || (moved BEQ_WBANK0 && busy)),
   (0x90, (decide (sz ≠ 0) && (decide (room < b1 + sz) || overlap b0 sz b1 sz)) || (moved BEQ_WBANK1 && busy)),
   (0x94, moved BEQ_WBANK_KIB && busy)]
/-- 13 R432: the HARQ pool of a partition. -/
def hqChecks (s n : State) (p : Nat) : List (Nat × Bool) :=
  let used := !(hqUsed s p).isEmpty
  let moved (r : Nat) : Bool := decide (rg s r 0 p ≠ rg n r 0 p)
  let off := (rg n LDD_HQ_BASE_LO 0 p).toNat + fld (rg n LDD_HQ_BASE_HI 0 p) 7 0 * 2 ^ 32
  let out := decide (0 < hqEntries n p) && match partRegion n p with
    | some r => decide (r.2.1 < off + hqEntries n p * 25344)
    | none => true
  [(0x9C, (used && moved LDD_HQ_BASE_LO) || out), (0xA0, used && moved LDD_HQ_BASE_HI), (0xA4, used && moved LDD_HQ_ENTRIES)]
/-- Does a block hold a context that is not FREE? -/
def blockInUse (s : State) (b : Nat) : Bool := (List.range 1024).any (fun k => decide (ctxState s (b * 1024 + k) ≠ 0))
/-- 14 R453: the CXS page. -/
def cxsChecks (s n : State) (l : List (Nat × Word)) : List (Nat × Bool) :=
  let any := s.cxs.active.any (fun e => decide (e.2 ≠ 0))
  let moved (r k : Nat) : Bool := decide (rg s r 0 k ≠ rg n r 0 k)
  [(0x40, any && moved CXS_CTX_BASE_LO 0), (0x44, any && moved CXS_CTX_BASE_HI 0),
   (0x4C, (touched l 0x4C 0x4C).any (fun b => (ctxOwner s (b * 1024)).isSome && decide (ctxOwner n (b * 1024) ≠ ctxOwner s (b * 1024)) &&
      blockInUse s b)),
   (0x5C, decide (8192 < ((List.range 32).map (fun p => fld (rg n CXS_CACHE_QUOTA 0 p) 13 0)).sum))]
/-- A compression method and width of R462. -/
def methodOk (dl : Bool) (q : Nat × Nat) : Bool :=
  match q.1 with
  | 0 => decide (q.2 = 16)
  | 1 => decide (8 ≤ q.2 ∧ q.2 ≤ 16)
  | 3 => decide (8 ≤ q.2 ∧ q.2 ≤ 15)
  | 4 => dl && decide (1 ≤ q.2 ∧ q.2 ≤ 4)
  | _ => false
/-- 15 R465, R470, R490: one association. -/
def assocChecks (n : State) (a : Nat) : List (Nat × Bool) :=
  let w := aReg n FHP_RX_WIN a
  let close := fld w 15 0
  [(0x104, aEn n a && !portExists n (aPort n a)), (0x118, aEn n a && !(methodOk false (aUl n a) && methodOk true (aDl n a))),
   (0x11C, decide (close < fld w 31 16) || (aEn n a && decide ((points n (aCell n a)).1 < close + 1000))),
   (0x12C, decide ((aReg n FHP_UP_ADV_MAX a).toNat < (aReg n FHP_UP_ADV_MIN a).toNat))]
/-- 15 R457, R472: one port page. -/
def portChecks (s n : State) (i : Nat) : List (Nat × Bool) :=
  let q := i / 4
  [(0x40, decide (i % 4 = 0 ∧ qmode s q ≠ qmode n q) && (List.range 64).any (fun a => aEn s a && decide (aPort s a / 4 = q))),
   (0x50, decide (4096 < ((List.range 16).map (fbQuota n)).sum))]
/-- 15 R474: shape of an enabled link; the lane rate lies within 6.5 to 32 Gb/s (in units of 2^fs × 7.68 Msps). -/
def linkBad (n : State) (l : Nat) : Bool :=
  let w := rg n JCL_LINK_CFG 0 l
  let (lanes, m, fs) := linkShape n l
  let bps := m * 16 * (7680000 * 2 ^ fs) * 66
  linkEn n l && (decide (m < 2 ∨ 128 < m ∨ m % 2 = 1 ∨ 4 < fs ∨ 16 < fld w 25 22 + lanes ∨ fld w 11 8 < 11) ||
    decide (bps < 6500000000 * 64 * lanes ∨ 32000000000 * 64 * lanes < bps))
/-- 15 R478, scaled by 23 R659: samples per second of all streams. -/
def fftOver (n : State) (out : Nat) : Bool :=
  let rate := ((List.range 16).map (fun l => if linkEn n l then (linkShape n l).2.1 / 2 * (7680000 * 2 ^ (linkShape n l).2.2) else 0)).sum
  decide ((4 - out) * 3932160000 < rate)
/-- FFT engines out of service or parked. -/
def fftOut (n : State) : Nat :=
  ((List.range 4).filter (fun i => decide ((28, i) ∈ n.units.engOut) || bit (rg n PWC_DOM_CTL 0 (78 + i)) 31)).length
/-- 15 R487: amplifier times of a group against the TDD patterns of the cells whose transmit streams use it. -/
def paBad (n : State) (g : Nat) : Bool :=
  let w := rg n JCL_PA_TIME 0 g
  (List.range 16).any (fun l => decide (8 ≤ l) && linkEn n l && (let (_, m, _) := linkShape n l; let (c, a0) := linkMap n l
    (List.range (m / 2)).any (fun k => decide (fld (rg n JCL_STRM_MAP 0 (128 + a0 + k)) 4 0 = g)) &&
      match (cellOf n c).cfg.bind (fun x => x.tddGap) with
      | some (after, before) => decide (after < 2002 + fld w 15 0 ∨ before < fld w 31 16 + 2002)
      | none => false))
/-- 15 R492: the JCL tables. Only EN of an enabled link may change. -/
def jclChecks (s n : State) (l : List (Nat × Word)) : List (Nat × Bool) :=
  let ks := touched l 0x44 0x50
  let moved (r k : Nat) : Bool := decide (rg s r 0 k ≠ rg n r 0 k)
  [(0x44, ks.any (fun k => linkBad n k || (linkEn s k && decide ((rg s JCL_LINK_CFG 0 k).toNat % 2 ^ 31 ≠ (rg n JCL_LINK_CFG 0 k).toNat % 2 ^ 31))) ||
      fftOver n (fftOut n)),
   (0x48, ks.any (fun k => linkEn s k && moved JCL_LINK_MAP k)), (0x4C, ks.any (fun k => linkEn s k && moved JCL_LINK_FFT k)),
   (0x50, ks.any (fun k => linkEn s k && moved JCL_ANALOG_NS k)),
   (0x7C, (touched l 0x7C 0x7C).any (paBad n))]
/-- What a range of external memory holds that a commit may not move (18 R555). -/
def holdsData (s : State) (r : Nat × Nat × Nat × Nat × Nat) : Bool :=
  let (b, z, ty, _, p) := r
  let hits (a n : Nat) : Bool := overlap b z a n
  s.img.gens.any (fun g => hits g.base g.len) || (lockedBanks s).any (fun q => hits q.1 q.2) ||
    (List.range 96).any (fun c => [0, 1].any (fun k => match weightBank s c k with | some q => hits q.1 q.2 | none => false)) ||
    (List.range 32).any (fun q => !(hqUsed s q).isEmpty && hits (hqAddr s q 0) (hqEntries s q * 25344)) ||
    (decide (ty = 1) && decide (tgetD 0 s.disp.spillUsed p ≠ 0)) ||
    (decide (ty = 2) && s.cxs.active.any (fun e => decide (e.2 ≠ 0))) ||
    (decide (ty = 0) && s.disp.jobs.any (fun e => match e.2 with | some j => decide (j.part = p) | none => false))
/-- 18 R552, R555: regions and granules. -/
def memChecks (s n : State) (l : List (Nat × Word)) : List (Nat × Bool) :=
  let rs := (List.range 64).filterMap (fun k => (region? n k).map (fun r => (k, r)))
  let top := s.mem.usable - 0x10000000
  let clash := rs.any (fun a => decide (top < a.2.1 + a.2.2.1) || rs.any (fun b => decide (a.1 < b.1) && overlap a.2.1 a.2.2.1 b.2.1 b.2.2.1))
  let twice := rs.any (fun a => rs.any (fun b => decide (a.1 < b.1 ∧ a.2.2.2.1 = b.2.2.2.1 ∧ a.2.2.2.2.2 = b.2.2.2.2.2 ∧ a.2.2.2.1 ≤ 1)))
  let shrunk (k : Nat) : Bool := match region? s k with
    | none => false
    | some r => holdsData s r && match region? n k with
      | some q => decide (q.1 ≠ r.1 ∨ q.2.1 < r.2.1 ∨ q.2.2.1 ≠ r.2.2.1 ∨ q.2.2.2.2 ≠ r.2.2.2.2)
      | none => true
  let gs := touched l 0x9C 0x9C
  let gone (k : Nat) : Bool := bit (rg s MEM_GRAN_CFG 0 k) 31 && decide (rg n MEM_GRAN_CFG 0 k ≠ rg s MEM_GRAN_CFG 0 k) &&
    s.disp.jobs.any (fun e => match e.2 with | some j => decide (j.part = fld (rg s MEM_GRAN_CFG 0 k) 4 0) | none => false)
  let sum (f : Nat) : Nat := ((List.range 32).map (fun p => fld (rg n MEM_REG_CFG 0 (f * 256 + p)) 15 0)).sum
  let thin (f p : Nat) : Bool := (part? s p).isSome && (let w := rg n MEM_REG_CFG 0 (f * 256 + p)
    decide (fld w 15 0 = 0 ∨ fld w 31 16 < if f = 0 then 64 else 8))
  let reg := !(touched l 0x104 0x104).isEmpty
  [(0x8C, clash && !(touched l 0x8C 0x94).isEmpty), (0x90, (touched l 0x8C 0x94).any shrunk), (0x94, twice && !(touched l 0x8C 0x94).isEmpty),
   (0x9C, gs.any (fun k => decide (752 ≤ k ∧ k ≤ 767) || gone k)),
   (0x104, reg && (decide (1979 < sum 0 ∨ 25000 < sum 1) || (List.range 32).any (fun p => thin 0 p || thin 1 p)))]
/-- A reference that REF_STAT shows as valid (24 R671, R673, R674); EXT and PTP fail together. -/
def refValid (s : State) (r : Nat) : Bool :=
  match r with
  | 0 => !decide (0 ∈ s.pwr.refLost)
  | 1 => portUp s (fld (rg s PWC_REF_CFG 0 0) 27 24) && !decide (1 ∈ s.pwr.refLost)
  | 2 => !decide (2 ∈ s.pwr.refLost) && !decide (0 ∈ s.pwr.refLost)
  | _ => false
/-- A reserved decoder of the SAFETY reservation (13 R415, R417): the highest-indexed ones in service. -/
def inReserve (s : State) (d : Nat) : Bool :=
  let up := (List.range 16).filter (fun i => !decide ((24, i) ∈ s.units.engOut))
  let res := Nat.min (fld (rg s LDD_POOL_CFG 0 0) 3 0) (up.length - 1)
  decide (d ∈ up.drop (up.length - res))
/-- 24 R685: PARK of a domain. -/
def parkBad (s n : State) (d : Nat) : Bool :=
  bit (rg n PWC_DOM_CTL 0 d) 31 && !bit (rg s PWC_DOM_CTL 0 d) 31 &&
    (decide (d < 54 ∨ 82 < d) || (decide (d < 70) && ((tgetD none s.radio.runs (d - 54)).isSome || inReserve s (d - 54))) ||
      (decide (78 ≤ d ∧ d ≤ 81) && fftOver n (fftOut n)))
/-- 24 R673, R679, R685, R691: the PWC page. -/
def pwcChecks (s n : State) (l : List (Nat × Word)) : List (Nat × Bool) :=
  let cap := rg n PWC_PWR_CAP 0 0
  let divOk (d : Nat) : Bool := decide (d = 4 ∨ d = 5 ∨ d = 6 ∨ d = 8)
  let clkBad (k : Nat) : Bool :=
    let w := rg n PWC_CLK_CFG 0 k
    !divOk (fld w 3 0) || !divOk (fld w 7 4) || decide (fld w 7 4 < fld w 3 0) ||
      ((decide (floorMode s k = 1) || decide (floorMode s k = 2)) && (bit w 31 ||
        (decide (fld w 3 0 ≠ fld (rg s PWC_CLK_CFG 0 k) 3 0) && (List.range 64).any (fun v => (floorWin s k v).isSome))))
  [(0x40, !(touched l 0x40 0x40).isEmpty && !refValid n (fld (rg n PWC_REF_CFG 0 0) 31 30)),
   (0x48, decide (fld cap 23 16 < 85 ∨ 105 < fld cap 23 16 ∨ fld cap 15 0 < 100 ∨ 250 < fld cap 15 0)),
   (0x58, (touched l 0x58 0x58).any clkBad), (0x64, (touched l 0x64 0x64).any (parkBad s n))]
/-- 07 R237: one pod. -/
def podBadCfg (s n : State) (k : Nat) : Bool :=
  let (_, _, o0, _) := podCfg s k
  let (e1, c1, o1, _) := podCfg n k
  let held := (podOf s k).q.length
  (e1 && decide (c1 = 0)) || (decide (0 < held) && (!e1 || decide (c1 < held) || decide (o0 ≠ o1)))
/-- 08 R264: a block that holds waiters or is part of a slice. -/
def blockBad (s n : State) (b : Nat) : Bool :=
  let o := objOwner s (64 * b)
  o.isSome && decide (objOwner n (64 * b) ≠ o) && (s.sync.waits.any (fun w => decide (w.obj / 64 = b)) ||
    s.disp.parts.any (fun e => match e.2 with
      | some p => p.slices.any (fun q => overlap q.1 q.2 (64 * b) 64)
      | none => false))
/-- A cell that is RUNNING or about to start (16 R732). -/
def cellBusy (s : State) (c : Nat) : Bool := decide ((cellOf s c).st = .running) || (cellOf s c).startAt.isSome
/-- 01 R35: a pair that may not be joined. -/
def pairBad (s : State) (q : Nat) : Bool :=
  match physOf s (2 * q), physOf s (2 * q + 1) with
  | some a, some b => !cherryCapable s q || decide (ownerOf s 16 a ≠ ownerOf s 16 b)
  | _, _ => true
/-- The offset of the first register for which a commit of a page is refused. -/
def offender (s : State) (c i : Nat) (l : List (Nat × Word)) : Option Nat :=
  let n := prospect s l
  let merge (f : Nat → List (Nat × Bool)) (ks : List Nat) : List (Nat × Bool) := ks.flatMap f
  let sorted (q : List (Nat × Bool)) : Option Nat := ((q.filter (fun x => x.2)).map (fun x => x.1)).min?
  match c with
  | 0 => sorted (merge (floorChecks s n) ((touched l 0x104 0x10C).eraseDups ++ (touched l 0x110 0x114).map (fun k => k % 16)) ++
      safetyChecks n (touched l 0x1C4 0x1C4) (touched l 0x1EC 0x1EC))
  | 1 => firstBad (pwcChecks s n l)
  | 3 => firstBad [(0x80, (touched l 0x80 0x80).any (cellBusy s))]
  | 4 => firstBad [(0x44, (touched l 0x44 0x44).any (blockBad s n))]
  | 5 => firstBad [(0x44, (touched l 0x44 0x44).any (podBadCfg s n))]
  | 6 => firstBad (cxsChecks s n l)
  | 8 => if i = 0 then firstBad (memChecks s n l) else none
  | 9 => sorted (portChecks s n i ++ if i = 0 then merge (assocChecks n) (touched l 0x104 0x12C) else [])
  | 10 => if i = 0 then firstBad (jclChecks s n l) else none
  | 11 => firstBad [(0x80, !(touched l 0x80 0x80).isEmpty && s.disp.jobs.any (fun e => match e.2 with
      | some j => decide (j.level = 4)
      | none => false))]
  | 24 => if i = 0 then sorted (merge (hqChecks s n) (touched l 0x9C 0xA4)) else none
  | 30 => if i = 0 then sorted (merge (cellTableChecks s n) (touched l 0x84 0x94)) else none
  | _ => none

/-! ### When a value comes into force -/

/-- TS_CORR of a port type (16 R498), in units of 2^-16 ns. -/
def tsConst (mode fec : Nat) : Nat × Nat :=
  let (a, b) := match mode, fec with
    | 0, _ => (142, 98) | 1, _ => (168, 110) | 2, _ => (214, 126)
    | 3, 0 => (398, 212) | 3, 1 => (262, 176) | 3, _ => (118, 96)
    | _, _ => (164, 132)
  (a * 65536, b * 65536)
/-- PORT_CFG of a quad's port: the constants of its type, and links of ports that are gone go down (15 R457). -/
def portApplied (s : State) (i : Nat) (old : Word) : State :=
  let q := i / 4
  let new := rg s FHP_PORT_CFG i 0
  let s := if i % 4 = 0 ∧ (fld old 31 29 ≠ qmode s q ∨ (qmode s q = 3 ∧ fld old 27 26 ≠ fld new 27 26)) then
      (List.range 4).foldl (fun s k =>
        let (a, b) := tsConst (qmode s q) (fld new 27 26)
        setRg (setRg s TMU_TS_CORR_ING 0 (4 * q + k) (w32 a)) TMU_TS_CORR_EGR 0 (4 * q + k) (w32 b)) s
    else s
  (List.range 4).foldl (fun s k =>
    let j := 4 * q + k
    if tgetD false s.fh.up j = true ∧ (portExists s j = false ∨ bit (rg s FHP_PORT_CFG j 0) 28 = false ∨ (i % 4 = 0 ∧ fld old 31 29 ≠ qmode s q)) then
      linkDown s j else s) s
/-- What follows when the register behind a key changes from `old`. -/
def applied (s : State) (k : Nat) (old : Word) : State :=
  let (r, i, sel) := keyReg k
  if r = FHP_PORT_CFG then portApplied s i old
  else if r = JCL_LINK_CFG then (if bit old 31 = linkEn s sel then s else setLink s sel {})
  else if r = JCL_AGC_CFG then
    (if bit old 31 = bit (rg s r 0 sel) 31 then s
     else agcPins (setAgc s sel { gain := fld (rg s r 0 sel) 27 24 }) sel (fld (rg s r 0 sel) 27 24))
  else if r = PODQ_POD_CFG then podsChanged s
  else if r = PWC_CLK_CFG then
    let w := rg s r 0 sel
    let d := if bit w 31 then Nat.min (fld w 7 4) (Nat.max (fld w 3 0) (divAsked s sel)) else fld w 3 0
    askVolts { s with pwr := { s.pwr with divNext := tsetD none s.pwr.divNext sel (if d = divOf s sel then none else some d) } }
  else if r = PWC_DOM_CTL then
    (if bit old 31 = bit (rg s r 0 sel) 31 then s else if bit (rg s r 0 sel) 31 then parkDomain s sel else unparkDomain s sel)
  else if r = ILK_ILK_CFG then
    (if bit old 23 = bit (rg s r i 0) 23 then s
     else if bit old 23 then dropLink s i
     else { s with ilk := { s.ilk with range := tsetD (0, 0) s.ilk.range i (fld (rg s r i 0) 15 8, fld (rg s r i 0) 31 24) } })
  else if r = ILK_DOM_CFG then leaveDomain s
  else if (r = TMU_FRAME_OFFSET ∨ r = TMU_CELL_TIME ∨ r = TMU_PART_SLOT) ∧ old ≠ rg s r i sel then syncBooks s
  else if r = PWC_REF_CFG then
    (if fld old 31 30 = fld (rg s r 0 0) 31 30 then s
     else { s with pwr := { s.pwr with locking := some (fld (rg s r 0 0) 31 30) } })
  else s
/-- The COMMIT record of the trace (20 R597) for a page of a recorded partition. -/
def commitRec (s : State) (k : Nat) (v : Word) (b : Bound) : State :=
  let (r, i, sel) := keyReg k
  let at_ := match b with | .cell c => cellSlotNow s c | .part p => partSlotNow s p | .frame => frameCnt s | .grid => gridNow s
  recordW s (ownerOf s (r / 4096) i) 7 [w32 (barOff (r / 4096) i (r % 4096)), w32 sel, v, w32 at_]
/-- Put one entry in force; a shadow that no longer differs is dropped. -/
def applyEntry (s : State) (b : Bound) (e : Nat × Word) : State :=
  let (r, i, sel) := keyReg e.1
  let old := rg s r i sel
  let sh := shadow s r i sel
  let s := setRg s r i sel e.2
  let s := setShadow s r i sel sh
  applied (commitRec s e.1 e.2 b) e.1 old

/-! ### Judging and applying -/

/-- Commit books of a page. -/
def commitOf (s : State) (c i : Nat) : PageCommit := tgetD {} s.pg.commits (c * 256 + i)
/-- Replace them. -/
def setCommit (s : State) (c i : Nat) (x : PageCommit) : State :=
  { s with pg := { s.pg with commits := tsetD {} s.pg.commits (c * 256 + i) x } }
/-- The firmware is switching or restarting, and commits, snapshots and critical commands wait (23 R657, 24 R688). -/
def fwWaits (s : State) : Bool := match s.sec.fwBusy with | some (t, ns) => !passed s t ns | none => false
/-- One more commit of a page is wholly applied. -/
def commitDone (s : State) (c i : Nat) : State :=
  let r := c * 4096 + HDR_COMMIT_STAT
  setRg s r i 0 (setFld (rg s r i 0) 15 0 (fld (rg s r i 0) 15 0 + 1))
/-- Refuse a commit: nothing is applied, the shadow stays, REFUSED and OFFENDER show it, and a type 0x19 record is written. -/
def commitRefuse (s : State) (c i o : Nat) (l : List (Nat × Word)) : State :=
  let r := c * 4096 + HDR_COMMIT_STAT
  let v := match l.find? (fun e => decide ((keyReg e.1).1 % 4096 = o)) with | some e => e.2 | none => shadow s (c * 4096 + o) i 0
  let s := setRg s r i 0 (setFld (setFld (rg s r i 0) 30 30 1) 27 16 o)
  let s := logErr s 0x19 0 0 (ownerOf s c i) (w32 (c * 256 + i)) (w32 o) v 0 0
  raise (setCommit s c i { commitOf s c i with requested := false }) 0 0 0
/-- Judge a page whose commit waits, at the first boundary that governs an entry (or the grid where nothing differs). -/
def judgePage (s : State) (b : Bound) (c i : Nat) : State :=
  let x := commitOf s c i
  let l := pageShadow s c i
  let due := if l = [] then decide (b = .grid) else l.any (fun e => decide (governs s e.1 = b))
  if !x.requested ∨ x.todo ≠ [] ∨ !due ∨ !pageOn s c i then s
  else
    let pairs := if c = 0 then s.units.pairTodo.any (fun q => q.2 && pairBad s q.1) && !x.held else false
    match (if pairs then some 0 else offender s c i l) with
    | some o => commitRefuse s c i o l
    | none =>
      let r := c * 4096 + HDR_COMMIT_STAT
      let s := setRg s r i 0 (setFld (rg s r i 0) 30 30 0)
      let s := setCommit s c i { requested := false, held := decide (c = 0) && !s.units.pairTodo.isEmpty, todo := l }
      if l = [] ∧ (commitOf s c i).held = false then commitDone s c i else s
/-- Apply the entries of a judged page that a boundary governs. -/
def applyDue (s : State) (b : Bound) (c i : Nat) : State :=
  let x := commitOf s c i
  let now := x.todo.filter (fun e => decide (governs s e.1 = b))
  if now = [] then s
  else
    let rest := x.todo.filter (fun e => !decide (governs s e.1 = b))
    let s := setCommit s c i { x with todo := rest }
    let s := now.foldl (fun s e => applyEntry s b e) s
    if rest = [] ∧ x.held = false then commitDone s c i else s
/-- Pages with a commit that waits. -/
def waitingPages (s : State) : List (Nat × Nat) := s.pg.commits.map (fun e => (e.1 / 256, e.1 % 256))
/-- A boundary for commits: every page is judged, then every judged entry that the boundary governs applies. -/
def commitAt (s : State) (b : Bound) : State :=
  if fwWaits s then s
  else
    let ps := waitingPages s
    let s := ps.foldl (fun s q => judgePage s b q.1 q.2) s
    ps.foldl (fun s q => applyDue s b q.1 q.2) s
/-- Cherry joins and partings take effect once both clusters are between jobs (01 R35). -/
def joinPairs (s : State) : State :=
  if !(commitOf s 0 0).held then s
  else
    let free (q : Nat) : Bool := [2 * q, 2 * q + 1].all (fun l => match physOf s l with
      | some c => (clu s c).job.isNone
      | none => true)
    let go := s.units.pairTodo.filter (fun q => free q.1)
    let rest := s.units.pairTodo.filter (fun q => !free q.1)
    let s := go.foldl (fun s q =>
      let j := s.units.joined.filter (fun k => decide (k ≠ q.1))
      let s := { s with units := { s.units with joined := if q.2 then j ++ [q.1] else j } }
      bumpCap (bumpCap s (handle s 2 q.1)) (handle s 3 0)) { s with units := { s.units with pairTodo := rest } }
    if rest = [] then
      let x := commitOf s 0 0
      let s := setCommit s 0 0 { x with held := false }
      if x.todo = [] then commitDone s 0 0 else s
    else s

end Sys2Proof.Machine
end

