-- ==== Sys2Proof/Machine/Crypto.lean ====
section
/-! DEFINITION. SHA-384 (FIPS 180-4), HMAC (RFC 2104) and ECDSA on brainpoolP384r1 (RFC 5639), which the manual names by their
standards (00 R8, 22 R638-R645). The constants are those of the standards (assumption log). -/

namespace Sys2Proof.Machine

open Sys2Proof

/-! ### Bytes -/

/-- A number as `n` bytes, most significant first. -/
def natBe (n v : Nat) : List Byte := (natLe n v).reverse
/-- Bytes as a number, most significant first. -/
def bytesBe (bs : List Byte) : Nat := bs.foldl (fun v b => v * 256 + b.toNat) 0
/-- The ASCII bytes of a text. -/
def ascii (t : String) : List Byte := t.toList.map (fun c => BitVec.ofNat 8 c.toNat)

/-! ### SHA-384 -/

/-- The round constants. -/
def shaK : List Nat :=
  [0x428A2F98D728AE22, 0x7137449123EF65CD, 0xB5C0FBCFEC4D3B2F, 0xE9B5DBA58189DBBC,
  0x3956C25BF348B538, 0x59F111F1B605D019, 0x923F82A4AF194F9B, 0xAB1C5ED5DA6D8118,
  0xD807AA98A3030242, 0x12835B0145706FBE, 0x243185BE4EE4B28C, 0x550C7DC3D5FFB4E2,
  0x72BE5D74F27B896F, 0x80DEB1FE3B1696B1, 0x9BDC06A725C71235, 0xC19BF174CF692694,
  0xE49B69C19EF14AD2, 0xEFBE4786384F25E3, 0x0FC19DC68B8CD5B5, 0x240CA1CC77AC9C65] ++
  [0x2DE92C6F592B0275, 0x4A7484AA6EA6E483, 0x5CB0A9DCBD41FBD4, 0x76F988DA831153B5,
  0x983E5152EE66DFAB, 0xA831C66D2DB43210, 0xB00327C898FB213F, 0xBF597FC7BEEF0EE4,
  0xC6E00BF33DA88FC2, 0xD5A79147930AA725, 0x06CA6351E003826F, 0x142929670A0E6E70,
  0x27B70A8546D22FFC, 0x2E1B21385C26C926, 0x4D2C6DFC5AC42AED, 0x53380D139D95B3DF,
  0x650A73548BAF63DE, 0x766A0ABB3C77B2A8, 0x81C2C92E47EDAEE6, 0x92722C851482353B] ++
  [0xA2BFE8A14CF10364, 0xA81A664BBC423001, 0xC24B8B70D0F89791, 0xC76C51A30654BE30,
  0xD192E819D6EF5218, 0xD69906245565A910, 0xF40E35855771202A, 0x106AA07032BBD1B8,
  0x19A4C116B8D2D0C8, 0x1E376C085141AB53, 0x2748774CDF8EEB99, 0x34B0BCB5E19B48A8,
  0x391C0CB3C5C95A63, 0x4ED8AA4AE3418ACB, 0x5B9CCA4F7763E373, 0x682E6FF3D6B2B8A3,
  0x748F82EE5DEFB2FC, 0x78A5636F43172F60, 0x84C87814A1F0AB72, 0x8CC702081A6439EC] ++
  [0x90BEFFFA23631E28, 0xA4506CEBDE82BDE9, 0xBEF9A3F7B2C67915, 0xC67178F2E372532B,
  0xCA273ECEEA26619C, 0xD186B8C721C0C207, 0xEADA7DD6CDE0EB1E, 0xF57D4F7FEE6ED178,
  0x06F067AA72176FBA, 0x0A637DC5A2C898A6, 0x113F9804BEF90DAE, 0x1B710B35131C471B,
  0x28DB77F523047D84, 0x32CAAB7B40C72493, 0x3C9EBE0A15C9BEBC, 0x431D67C49C100D4C,
  0x4CC5D4BECB3E42B6, 0x597F299CFC657E2A, 0x5FCB6FAB3AD6FAEC, 0x6C44198C4A475817]
/-- The initial hash value. -/
def shaH : List Nat :=
  [0xCBBB9D5DC1059ED8, 0x629A292A367CD507, 0x9159015A3070DD17, 0x152FECD8F70E5939,
   0x67332667FFC00B31, 0x8EB44A8768581511, 0xDB0C2E0D64F98FA7, 0x47B5481DBEFA4FA4]
/-- Rotate right. -/
def rotR (x : BitVec 64) (n : Nat) : BitVec 64 := (x >>> n) ||| (x <<< (64 - n))
/-- The message schedule: word `t` from the words before it, the latest first. -/
def schedule : Nat → List (BitVec 64) → List (BitVec 64)
  | 0, l => l
  | n + 1, l =>
    let w (k : Nat) : BitVec 64 := l.getD (k - 1) 0
    let s0 := rotR (w 15) 1 ^^^ rotR (w 15) 8 ^^^ (w 15 >>> 7)
    let s1 := rotR (w 2) 19 ^^^ rotR (w 2) 61 ^^^ (w 2 >>> 6)
    schedule n ((s1 + w 7 + s0 + w 16) :: l)
/-- One round on the working variables a to h. -/
def shaRound (v : List (BitVec 64)) (k w : BitVec 64) : List (BitVec 64) :=
  let g (i : Nat) : BitVec 64 := v.getD i 0
  let s1 := rotR (g 4) 14 ^^^ rotR (g 4) 18 ^^^ rotR (g 4) 41
  let ch := (g 4 &&& g 5) ^^^ (~~~(g 4) &&& g 6)
  let t1 := g 7 + s1 + ch + k + w
  let s0 := rotR (g 0) 28 ^^^ rotR (g 0) 34 ^^^ rotR (g 0) 39
  let maj := (g 0 &&& g 1) ^^^ (g 0 &&& g 2) ^^^ (g 1 &&& g 2)
  [t1 + s0 + maj, g 0, g 1, g 2, g 3 + t1, g 4, g 5, g 6]
/-- Words of 64 bits, most significant byte first. -/
def words64 : Nat → List Byte → List (BitVec 64)
  | 0, _ => []
  | n + 1, bs => BitVec.ofNat 64 (bytesBe (bs.take 8)) :: words64 n (bs.drop 8)
/-- One block of 128 bytes. -/
def shaBlock (h : List (BitVec 64)) (bs : List Byte) : List (BitVec 64) :=
  let ws := (schedule 64 (words64 16 bs).reverse).reverse
  let v := (shaK.zip ws).foldl (fun v q => shaRound v (BitVec.ofNat 64 q.1) q.2) h
  (h.zip v).map (fun q => q.1 + q.2)
/-- All blocks. -/
def shaBlocks : Nat → List (BitVec 64) → List Byte → List (BitVec 64)
  | 0, h, _ => h
  | n + 1, h, bs => shaBlocks n (shaBlock h (bs.take 128)) (bs.drop 128)
/-- A message with its padding and length. -/
def shaPad (m : List Byte) : List Byte :=
  m ++ [0x80] ++ List.replicate ((239 - m.length % 128) % 128) 0 ++ natBe 16 (8 * m.length)
/-- SHA-384, as 48 bytes. -/
def sha384 (m : List Byte) : List Byte :=
  let p := shaPad m
  ((shaBlocks (p.length / 128) (shaH.map (BitVec.ofNat 64)) p).take 6).flatMap (fun w => natBe 8 w.toNat)
/-- HMAC-SHA-384 (RFC 2104). -/
def hmac (key m : List Byte) : List Byte :=
  let k := if key.length > 128 then sha384 key else key
  let k := k ++ List.replicate (128 - k.length) 0
  let mask (v : Byte) : List Byte := k.map (fun b => b ^^^ v)
  sha384 (mask 0x5C ++ sha384 (mask 0x36 ++ m))

/-! ### brainpoolP384r1 (RFC 5639) -/

/-- The field. -/
def bpP : Nat := 0x8CB91E82A3386D280F5D6F7E50E641DF152F7109ED5456B412B1DA197FB71123ACD3A729901D1A71874700133107EC53
/-- Coefficient A. -/
def bpA : Nat := 0x7BC382C63D8C150C3C72080ACE05AFA0C2BEA28E4FB22787139165EFBA91F90F8AA5814A503AD4EB04A8C7DD22CE2826
/-- Coefficient B. -/
def bpB : Nat := 0x04A8C7DD22CE28268B39B55416F0447C2FB77DE107DCD2A62E880EA53EEB62D57CB4390295DBC9943AB78696FA504C11
/-- The base point. -/
def bpG : Nat × Nat :=
  (0x1D1C64F068CF45FFA2A63A81B7C13F6B8847A3E77EF14FE3DB7FCAFE0CBD10E8E826E03436D646AAEF87B2E247D4AF1E,
   0x8ABE1D7520F9C2A45CB1EB8E95CFD55262B70B29FEEC5864E19C054FF99129280E4646217791811142820341263C5315)
/-- The group order. -/
def bpN : Nat := 0x8CB91E82A3386D280F5D6F7E50E641DF152F7109ED5456B31F166E6CAC0425A7CF3AB6AF6B7FC3103B883202E9046565
/-- Power modulo `m`, over `f` bits of the exponent. -/
def powMod (m : Nat) : Nat → Nat → Nat → Nat
  | 0, _, _ => 1 % m
  | f + 1, b, e =>
    let h := powMod m f (b * b % m) (e / 2)
    if e % 2 = 1 then b % m * h % m else h
/-- Inverse modulo a prime of at most 384 bits. -/
def invMod (m a : Nat) : Nat := powMod m 384 (a % m) (m - 2)
/-- A difference modulo the field. -/
def subP (a b : Nat) : Nat := (a % bpP + bpP - b % bpP) % bpP
/-- Is a point on the curve? -/
def onCurve (x y : Nat) : Bool :=
  decide (x < bpP ∧ y < bpP) && decide (y * y % bpP = (x * x % bpP * x + bpA * x + bpB) % bpP)
/-- Sum of two points; none is the point at infinity. -/
def ecAdd : Option (Nat × Nat) → Option (Nat × Nat) → Option (Nat × Nat)
  | none, q => q
  | p, none => p
  | some (x1, y1), some (x2, y2) =>
    if x1 = x2 ∧ (y1 + y2) % bpP = 0 then none
    else
      let l := if x1 = x2 then (3 * x1 * x1 + bpA) % bpP * invMod bpP (2 * y1) % bpP
        else subP y2 y1 * invMod bpP (subP x2 x1) % bpP
      let x := subP (subP (l * l) x1) x2
      some (x, subP (l * subP x1 x) y1)
/-- Multiple of a point, over `f` bits of the scalar. -/
def ecMul : Nat → Nat → Option (Nat × Nat) → Option (Nat × Nat)
  | 0, _, _ => none
  | f + 1, k, p =>
    let h := ecMul f (k / 2) (ecAdd p p)
    if k % 2 = 1 then ecAdd p h else h
/-- ECDSA verification of digest `e` under key (x, y). -/
def ecdsaOk (x y : Nat) (digest : List Byte) (r s : Nat) : Bool :=
  let e := bytesBe digest
  let w := invMod bpN s
  decide (1 ≤ r ∧ r < bpN ∧ 1 ≤ s ∧ s < bpN) && onCurve x y &&
    (match ecAdd (ecMul 384 (e * w % bpN) (some bpG)) (ecMul 384 (r * w % bpN) (some (x, y))) with
     | some (v, _) => decide (v % bpN = r)
     | none => false)
/-- ECDSA signature with private scalar `d` and nonce `k`. -/
def ecdsaSign (d : Nat) (digest : List Byte) (k : Nat) : Nat × Nat :=
  let r := match ecMul 384 k (some bpG) with | some (v, _) => v % bpN | none => 0
  (r, invMod bpN k * ((bytesBe digest + r * d) % bpN) % bpN)
/-- key_from of R640. -/
def keyFrom (v : List Byte) : Nat := bytesBe v % (bpN - 1) + 1
/-- Public key of a private scalar. -/
def pubKey (d : Nat) : Nat × Nat := (ecMul 384 d (some bpG)).getD (0, 0)
/-- A point as 96 bytes. -/
def pointBytes (q : Nat × Nat) : List Byte := natBe 48 q.1 ++ natBe 48 q.2

end Sys2Proof.Machine
end

