-- ==== Sys2Proof/Machine/SecOps.lean ====
section
/-! DEFINITION. The security engine's shared steps (22 R636-R647): measurement registers, identity, and the judgement of a critical
command. -/

namespace Sys2Proof.Machine

open Sys2Proof

/-! ### Measurement registers (R641) -/

/-- A measurement register's 48 bytes. -/
def mrBytes (s : State) (k : Nat) : List Byte := natBe 48 (tgetD 0 s.sec.mrs k)
/-- Extend a measurement register with an event digest. -/
def extendMr (s : State) (k : Nat) (digest : List Byte) : State :=
  { s with sec := { s.sec with mrs := tsetD 0 s.sec.mrs k (bytesBe (sha384 (mrBytes s k ++ digest))) } }

/-! ### Identity (R635, R636, R640) -/

/-- Set bits of a thermometer or mask field: how many. -/
def popCount (w v : Nat) : Nat := ((List.range w).filter (fun i => decide (v / 2 ^ i % 2 = 1))).length
/-- UDS as every derivation takes it: in RMA the public value. -/
def udsBytes (s : State) : List Byte :=
  if s.sec.fuses.life = 2 then sha384 (ascii "AK7840 RMA") else natBe 48 Config.uds
/-- DEVICE_ID, 8 bytes. -/
def deviceId (s : State) : List Byte := (sha384 (pointBytes (pubKey s.sec.devKey))).take 8
/-- The fuse state that MR2 is extended with; the manual names the fields and not their places (assumption log). -/
def fuseState (s : State) : List Byte :=
  let f := s.sec.fuses
  [f.life, f.svnBoot, f.svnFw, f.revoke, f.epoch].map (BitVec.ofNat 8)

/-! ### The judgement of a critical command (R643-R647) -/

/-- Is AUTH_HOLD in force? -/
def authHold (s : State) : Bool := match s.sec.hold with | some t => !passed s t 1000000000 | none => false
/-- PARAMS word `k` of a critical command. -/
def param (d : List Word) (k : Nat) : Word := wd d (8 + k)
/-- The parameter block as it is staged. -/
def pblk (s : State) (d : List Word) : List Byte :=
  let a := addr64 (wd d 5) (wd d 6)
  if a = 0 then [] else hostRead s a (wd d 7).toNat
/-- The first 16 bytes of the check of R645. -/
def cmdMac (s : State) (d : List Word) : List Byte :=
  let root := match s.sec.fuses.cmdRoot with | some r => r | none => 0
  let k := hmac (natBe 48 root) (ascii "AK7840 command key" ++ [BitVec.ofNat 8 s.sec.fuses.epoch])
  let blk := if (wd d 7).toNat = 0 then List.replicate 48 0 else sha384 (pblk s d)
  (hmac k (deviceId s ++ wordLe (wd d 0) ++ wordsLe ((d.drop 3).take 21) ++ blk)).take 16
/-- Is the check of a command right? In MANUFACTURE and RMA none is made, and MAC is zero. -/
def macOk (s : State) (d : List Word) : Bool :=
  let mac := wordsLe ((d.drop 24).take 4)
  if s.sec.fuses.life = 1 then decide (mac = cmdMac s d) else decide (mac = List.replicate 16 0)
/-- A command fails check 1 to 4: its record, AUTH_FAILS, and its completion. -/
def secFail (s : State) (d : List Word) (status : Nat) : State :=
  let s := logErr s 0x13 status 0 0 (wd d 0) (wd d 3) (wd d 4) (w32 (dseq d * 65536)) 0
  let s := satRg s SEC_AUTH_FAILS 0 0 1
  let s := if status = 0x40 then raise s 2 0 0 else if status = 0x41 ∨ status = 0x42 then raise s 2 0 1 else s
  dropDesc (cmdRec s 0 d status 0 0) 0
/-- Check 3 failed once more: after sixteen in a row AUTH_HOLD is in force (R647). -/
def badMac (s : State) (d : List Word) : State :=
  let n := s.sec.badRun + 1
  let s := secFail { s with sec := { s.sec with badRun := n } } d 0x40
  if n < 16 then s else raise { s with sec := { s.sec with badRun := 0, hold := some s.tmu.ticks } } 2 0 2
/-- The layout that every critical command keeps: reserved words zero, and a parameter block with an address and a length of at most
65,536 (R525, R644). -/
def critOk (d : List Word) : Bool :=
  dtypeOk d && zeroWords d 28 30 && decide ((wd d 7).toNat ≤ 65536) &&
    (decide ((wd d 7).toNat = 0) || decide (addr64 (wd d 5) (wd d 6) ≠ 0))
/-- The firmware switches or restarts, and critical commands wait. -/
def secBusy (s : State) : Bool := match s.sec.fwBusy with | some (t, ns) => !passed s t ns | none => false
/-- Carry out critical command `type` when it stands at the head of partition 0's descriptors and passes checks 1 to 4 (R646): `f`
gives its status, the details of its record, and the state. It waits while firmware switches (23 R657), and while
its parameter block cannot be read. `ok` says whether the fields of its parameters are in range (17 R525). -/
def critical (s : State) (type : Nat) (ok : List Word → Bool) (f : List Word → State → Nat × Word × Word × State) : State :=
  match headDesc s 0 with
  | none => s
  | some d =>
    if dtype d ≠ type ∨ secBusy s = true then s
    else if !critOk d || !ok d then dropDesc (badDesc s 0 d 0x20) 0
    else if (wd d 7).toNat ≠ 0 ∧ !mayWriteHost s 0 then s
    else if authHold s then secFail s d 0x43
    else if wd d 4 ≠ s.sec.session then secFail s d 0x42
    else if !macOk s d then badMac s d
    else
      let s := { s with sec := { s.sec with badRun := 0 } }
      if (wd d 3).toNat ≤ s.sec.ctr.toNat then secFail s d 0x41
      else
        let s := wrapRg { s with sec := { s.sec with ctr := wd d 3 } } SEC_CMD_COUNT 0 0 1
        let (st, a, b, s) := f d s
        dropDesc (cmdRec s 0 d st a b) 0

end Sys2Proof.Machine
end

