-- ==== Sys2Proof/Machine/Boundaries.lean ====
section
/-! DEFINITION. Boundaries of the time unit: frames, slots of a cell, the partitions' slot timers and the 125 µs device grid (16
R510-R512). A boundary command carries out the boundary that the present instant lies after; one that has been carried out does
nothing (log 9). -/

namespace Sys2Proof.Machine

open Sys2Proof

/-! ### The frame (R510) -/

/-- Has frame number `g` been reached at frame `f`? -/
def frameReached (f g : Nat) : Bool := decide ((f + 2 ^ 32 - g) % 2 ^ 32 < 2 ^ 31)
/-- Slots of a cell that have not begun are given up. -/
def dropUnbegun (s : State) (c : Nat) : State :=
  let now : Int := nowNs s
  let ul := (s.radio.ul.filter (fun u => decide (u.cell = c) && decide (now ≤ slotStart s c u.slot))).map (fun u => u.slot)
  let s := ul.foldl (fun s n => dropSlot s c n) s
  { s with radio := { s.radio with dl := s.radio.dl.filter (fun u => !decide (u.cell = c)) } }
/-- A cell starts or stops (10 R336). -/
def cellRuns (s : State) (f c : Nat) : State :=
  let k := cellOf s c
  match k.startAt, k.stopAt with
  | some g, _ => if frameReached f g then setCell s c { k with st := .running, startAt := none } else s
  | none, some g =>
    if k.st = .running ∧ f ≠ g then stopDone (dropUnbegun (setCell s c { k with st := .configured }) c) c else s
  | none, none => s
/-- Vendor TLVs take effect (10 R336). -/
def cellTlvs (s : State) (c : Nat) : State :=
  match (cellOf s c).todo with
  | some x => applyCfg s c x
  | none => s
/-- The weight-set object is read; a requested bank becomes active (11 R366). The flag says whether a swap took place. -/
def cellSwap (s : State) (c : Nat) : State × Bool :=
  let k := cellOf s c
  let o := fld (rg s BEQ_CELL_CFG 0 c) 13 0
  if !beqEn s c ∨ k.part.isNone ∨ objOwner s o ≠ k.part then (s, false)
  else
    let v := objVal s o
    let rej := fld v 15 8
    let s := satRg s BEQ_VAL_REJECT 0 c ((rej + 256 - k.rejSeq) % 256)
    let s := setCell s c { k with rejSeq := rej, reqSeen := bit v 31 }
    if bit v 31 ∧ fld v 0 0 ≠ k.bank then
      let s := setCell s c { cellOf s c with bank := fld v 0 0, swapJob := s.disp.nextJob }
      (raise (satRg s BEQ_SWAP_COUNT 0 c 1) 30 0 2, true)
    else (s, false)
/-- The Saffron books of a frame that ends: a missed run, and the end of a fallback (11 R361 R368, 21 R627). -/
def cellSaffron (s : State) (c : Nat) (ran swapped : Bool) : State :=
  let k := cellOf s c
  let w := rg s SYS_SAFF_CFG 0 c
  let s := if k.saff.isSome ∧ k.saffPass = true ∧ swapped = false then setCell s c { k with saff := none } else s
  let seen := k.saffSeen
  let s := setCell s c { cellOf s c with saffPass := false, saffSeen := false }
  if !bit w 31 ∨ !ran ∨ seen then s
  else
    let n := fld (rg s SYS_SAFF_STAT 0 c) 7 0 + 1
    let s := raise (setSaffStat (satRg s SYS_SAFF_MISS 0 c 1) c 3 n) 0 0 18
    if n < fld w 23 16 ∨ (cellOf s c).saff.isSome then s
    else startSaff (logErr s 0x18 6 0 ((cellOf s c).part.getD 0) (w32 c) 0 0 0 0) c
/-- An engaged cell returns to cold standby (11 R353). -/
def cellCold (s : State) (f c : Nat) : State :=
  let k := cellOf s c
  if k.engaged.isSome ∧ 2 ≤ (f + 2 ^ 32 - k.fbFrame) % 2 ^ 32 then setCell s c { k with engaged := none } else s
/-- One cell at a frame boundary. -/
def cellFrame (f : Nat) (s : State) (c : Nat) : State :=
  let ran := decide ((cellOf s c).st = .running)
  let s := cellTlvs s c
  let s := cellRuns s f c
  let (s, swapped) := cellSwap s c
  cellCold (cellSaffron s c ran swapped) f c
/-- The RWS values in force of the pages that a partition owns, in words: page and offset, selector, value. -/
def ownedRws (s : State) (p : Nat) : List Word :=
  s.pg.regs.flatMap (fun e =>
    let (r, i, sel) := keyReg e.1
    match regRow? (r / 4096) i (r % 4096) with
    | some x => if x.acc = .rws ∧ ownerOf s (r / 4096) i = p then [w32 (barOff (r / 4096) i (r % 4096)), w32 sel, e.2] else []
    | none => [])
/-- The START record (20 R597): version, partition, current generations, RWS values. -/
def recStartBody (s : State) (p : Nat) : List Word :=
  let gs := s.img.gens.filter (fun g => g.current && decide (g.part = p))
  let rw := ownedRws s p
  [1, w32 p, w32 gs.length] ++ gs.flatMap (fun g => [w32 g.slot, gword s g 0x20, gword s g 0x24]) ++ [w32 (rw.length / 3)] ++ rw
/-- One range of the checkpoint, as it stands now (20 R595). -/
def recRange (s : State) (p : Nat) (r : Bool × Nat × Nat) : State :=
  let (ctx, u, n) := r
  let a := if ctx then ctxAddr s u 0 else (match partRegion s p with | some x => x.1 | none => 0) + u * 4096
  record s p 2 (wordsLe [w32 (b2n ctx), w32 u, w32 n] ++ extRead s a (n * if ctx then 65536 else 4096))
/-- A recording takes effect at a frame boundary: START, then the checkpoint (20 R595). -/
def recBegin (s : State) : State :=
  match s.trace.run with
  | some r =>
    if r.since.isSome then s
    else
      let s := setRec s { s.trace with run := some { r with since := some s.tmu.ticks }, seq := 0, staged := [], written := 0
                                       wrapped := false, lost := 0, lostAll := 0 }
      r.ranges.foldl (fun s q => recRange s r.part q) (recordW s r.part 1 (recStartBody s r.part))
  | none => s
/-- FRAME_BOUNDARY. -/
def frameBoundary (s : State) : State :=
  let f := frameCnt s
  if f = s.tmu.frame then s
  else
    let s := { s with tmu := { s.tmu with frame := f }, disp := { s.disp with floorShift := 0 } }
    let s := { s with radio := { s.radio with rx := s.radio.rx.filter (fun r => !passed s r.ended 10000000) } }
    let s := commitAt s .frame
    let s := (s.radio.cells.map (fun e => e.1)).foldl (cellFrame f) s
    recBegin s
/-- FRAME_BOUNDARY. -/
def execFrameBoundary (s : State) : Host.Outcome State Fault Refusal := .next (frameBoundary s)

/-! ### A cell's slot (R511) -/

/-- Is slot `m` past at slot `n`, by `k` slots or more? -/
def pastBy (n m k : Nat) : Bool := let d := (n + 2 ^ 32 - m) % 2 ^ 32; decide (k ≤ d ∧ d < 2 ^ 31)
/-- Slots of a cell for which something is held. -/
def heldSlots (s : State) (c : Nat) : List Nat :=
  let mine (a : Nat) : Bool := decide (aCell s a = c)
  ((s.fh.sects.filter (fun q => mine q.assoc)).map (fun q => q.slot) ++ (s.fh.prach.filter (fun q => mine q.assoc)).map (fun q => q.slot) ++
    (s.fh.grids.filter (fun g => decide (g.cell = c))).map (fun g => g.slot) ++
    (s.fh.erase.filter (fun q => decide (q.1 = c))).map (fun q => q.2.1) ++ (s.fh.clips.filter (fun q => decide (q.1 = c))).map (fun q => q.2.1) ++
    (s.fh.begun.filter (fun q => mine q.1)).map (fun q => q.2.1) ++ (s.fh.cplane.filter (fun q => mine q.assoc)).map (fun q => q.slot) ++
    (s.fh.bufs.filter (fun b => !b.tx && mine b.key.1)).map (fun b => b.key.2.1)).eraseDups
/-- What was received for past slots without a request is released unprocessed (10 R334). -/
def releasePast (s : State) (c n : Nat) : State :=
  let gone := (heldSlots s c).filter (fun m => pastBy n m 2 && (ulOf s c m).isNone)
  let s := gone.foldl (fun s m => dropSlot s c m) s
  { s with fh := { s.fh with sects := s.fh.sects.filter (fun q => !(decide (aCell s q.assoc = c) && decide (q.slot ∈ gone))) } }
/-- The start of slot `n` of a cell that runs: SLOT.indication, absent requests, the bank that its allocations bind (10 R334 R337, 11
R364). -/
def slotStarts (s : State) (c n : Nat) : State :=
  let k := cellOf s c
  match k.part with
  | none => s
  | some p =>
    if k.st ≠ .running then s
    else
      let s := fapiSend s p c (.slotIndication ((n + slotIndAdv s c) % 2 ^ 32))
      let told (ul : Bool) : Bool := decide ((c, n, ul) ∈ s.radio.lateSeen)
      let s := if (dlOf s c n).all (fun u => !u.tti) = true ∧ told false = false then fapiError s p c .dlTti .late n none else s
      let s := if (ulOf s c n).isNone ∧ told true = false then fapiError s p c .ulTti .late n none else s
      let s := match dlOf s c n with
        | some u => (List.range u.items.length).foldl (fun (s : State) (i : Nat) => match dlItem s c n i with
            | some x => if x.pdu.kind = DlKind.pdsch ∧ x.payload.isNone ∧ x.told = false then fapiError s p c .txData .late n (some i) else s
            | none => s) s
        | none => s
      { s with radio := { s.radio with
          lateSeen := s.radio.lateSeen.filter (fun q => !(decide (q.1 = c) && pastBy n q.2.1 0))
          ul := updFirst (fun (u : UlSlot) => decide (u.cell = c ∧ u.slot = n))
            (fun (u : UlSlot) => { u with items := u.items.map (fun (x : UlItem) => { x with bank := k.bank }) }) s.radio.ul } }
/-- SLOT_BOUNDARY of a cell. -/
def slotBoundary (s : State) (c : Nat) : State :=
  let n := cellSlotNow s c
  if n = tgetD 0 s.tmu.cellSlot c then s
  else
    let s := { s with tmu := { s.tmu with cellSlot := tsetD 0 s.tmu.cellSlot c n } }
    let s := commitTpls s
    let s := unitsAtSlot s
    let s := commitAt s (.cell c)
    let s := realign s c
    let s := { s with radio := { s.radio with dl := s.radio.dl.filter (fun u => !(decide (u.cell = c) && pastBy n u.slot 1)) } }
    slotStarts (releasePast s c n) c n
/-- SLOT_BOUNDARY. -/
def execSlotBoundary (c : Nat) (s : State) : Host.Outcome State Fault Refusal := .next (slotBoundary s c)

/-! ### A partition's slot timer (R512) -/

/-- SLOT_TIMER of a RADIO or SAFETY partition: the SLOT interrupt in its jobs, and its commits. -/
def slotTimer (s : State) (p : Nat) : State :=
  let n := partSlotNow s p
  if n = tgetD 0 s.tmu.partSlot p ∨ !isRS s p ∨ (part? s p).isNone then s
  else
    let s := { s with tmu := { s.tmu with partSlot := tsetD 0 s.tmu.partSlot p n } }
    let js := s.disp.jobs.filterMap (fun e => match e.2 with
      | some x => if x.part = p ∧ onUnit x = true then some x else none
      | none => none)
    let s := js.foldl (fun s x => (members s x).foldl (fun s c => raiseIrq s c 2) s) s
    commitAt (commitTpls s) (.part p)
/-- SLOT_TIMER. -/
def execSlotTimer (p : Nat) (s : State) : Host.Outcome State Fault Refusal := .next (slotTimer s p)

/-! ### The device grid (R512) -/

/-- A verified firmware set takes over: MR3, the running set, and the switch during which commits and commands wait (23 R657). -/
def firmwareTakesOver (s : State) : State :=
  match s.sec.fwNext with
  | none => s
  | some (copy, svn, digest) =>
    let s := extendMr s 3 (natBe 48 digest)
    raise { s with sec := { s.sec with fwNext := none, fwCopy := copy, fwSvn := svn, fwBusy := some (s.tmu.ticks, 20000) } } 0 0 2
/-- Logical indices whose cluster has passed its slice return from the spare (21 R617). -/
def indexReturns (s : State) : State :=
  (s.safe.rot.filter (fun e => e.2.back)).foldl (fun s e =>
    match e.2.handed with
    | none => s
    | some (l, sp) =>
      let r := tgetD {} s.safe.rot e.1
      let s := { s with safe := { s.safe with rot := tsetD {} s.safe.rot e.1 { r with handed := none, back := false } } }
      let s := setMap s l (some e.1)
      let s := bumpRemap { s with units := { s.units with spares := s.units.spares ++ [sp] } } l
      reconsider (logErr s 0x18 4 0 0 (w32 e.1) (w32 sp) 0 0 0)) s
/-- DEVICE_GRID_BOUNDARY. -/
def gridBoundary (s : State) : State :=
  let n := gridNow s
  if n = s.tmu.grid then s
  else
    let s := { s with tmu := { s.tmu with grid := n } }
    let s := commitAt s .grid
    let s := joinPairs s
    indexReturns (firmwareTakesOver s)
/-- DEVICE_GRID_BOUNDARY. -/
def execDeviceGridBoundary (s : State) : Host.Outcome State Fault Refusal := .next (gridBoundary s)

end Sys2Proof.Machine
end

