-- ==== Sys2Proof/Machine/Context.lean ====
section
/-! DEFINITION. The host's context commands and the ageing sweep (14 R440-R448). -/

namespace Sys2Proof.Machine

open Sys2Proof

/-- Carry out the descriptor at the head of partition `p`'s picked-up ones, when it has type `type`; `f` writes its record. -/
def hostCmd (s : State) (p type : Nat) (f : List Word → State → State) : State :=
  match headDesc s p with
  | none => s
  | some d => if dtype d ≠ type then s else dropDesc (f d s) p

/-- Contexts that are not FREE, in ascending index: those with a byte of CTX_STATE that is not zero. -/
def liveCtxs (s : State) : List Nat :=
  let b := ctxBase s
  ((s.mem.ext.filterMap (fun e => if b ≤ e.1 ∧ e.1 < b + 2 ^ 34 ∧ (e.1 - b) % 65536 = 7 then some ((e.1 - b) / 65536) else none)).eraseDups).filter
    (fun i => decide (ctxState s i ≠ 0))
/-- Count the contexts of a partition that are ACTIVE or AGED (R452). -/
def countCtx (s : State) (p : Nat) (d : Int) : State :=
  { s with cxs := { s.cxs with active := tsetD 0 s.cxs.active p (((tgetD 0 s.cxs.active p : Nat) : Int) + d).toNat } }
/-- A context is released (R440): its HARQ entries, then its state. -/
def releaseCtx (s : State) (i : Nat) : State :=
  let p := fld (ctxWord s i 4) 29 25
  let s := (List.range 16).foldl (fun s h => procRelease s p i h) s
  countCtx (ctxPutW (touchCtx s p i 0 20 true).1 i 4 (setFld (ctxWord s i 4) 31 30 0)) p (-1)
/-- A context is created (R440): zero sectors, and its header and RING_CTRL. -/
def createCtx (s : State) (p i cell ue : Nat) (ring : Word) : State :=
  let g := ctxWord s i 8
  let a := ctxAddr s i 0
  let s := (List.range 64).foldl (fun s n => (touchSect s p i n false true).1) s
  let s := { s with mem := { s.mem with ext := s.mem.ext.filter (fun e => !decide (a ≤ e.1 ∧ e.1 < a + 65536)) } }
  let s := ctxPutW s i 4 (w32 (2 ^ 30 + p * 2 ^ 25 + cell * 2 ^ 18 + i))
  let s := ctxPutW (ctxPutW s i 8 (g + 1)) i 0x0C (w32 ue)
  countCtx (ctxPutW (ctxPutW s i 0x10 (ageNow s)) i 0x5900 ring) p 1
/-- A context command whose fields are good: its context must lie in a block of the requester (R435), and `no` refuses it. -/
def ctxCmd (s : State) (p : Nat) (d : List Word) (write : Bool) (no : Nat → Bool) (f : Nat → State → State × Nat) : State :=
  let i := fld (wd d 3) 17 0
  if ctxOwner s i ≠ some p then cmdRec (deny s 5 p (hostHandle s) i write) p d 3 0 0
  else if no i then cmdRec s p d 3 0 0
  else let (s, st) := f i s; cmdRec s p d st 0 0
/-- Reserved bits of INDEX are zero. -/
def indexOk (d : List Word) : Bool := dtypeOk d && decide (fld (wd d 3) 31 18 = 0)
/-- CTX_CREATE (R440). -/
def execCtxCreate (p : Nat) (s : State) : Host.Outcome State Fault Refusal :=
  .next (hostCmd s p 0x20 (fun d s =>
    let c := wd d 4
    let r := wd d 6
    if !indexOk d || !decide (c.toNat < Config.cells ∧ (wd d 5).toNat < 65536 ∧ r.toNat < 65536 ∧ 1 ≤ fld r 15 8 ∧ 1 ≤ fld r 7 0 ∧ fld r 7 0 ≤ 64) ||
        !zeroWords d 7 30 then badDesc s p d 0x20
    else ctxCmd s p d true (fun i => decide (ctxState s i ≠ 0)) (fun i s =>
      (createCtx s p i c.toNat (wd d 5).toNat (w32 (fld r 15 8 * 2 ^ 24 + fld r 7 0 * 2 ^ 16)), 0))))
/-- CTX_RELEASE (R440). -/
def execCtxRelease (p : Nat) (s : State) : Host.Outcome State Fault Refusal :=
  .next (hostCmd s p 0x21 (fun d s =>
    if !indexOk d || !zeroWords d 4 30 then badDesc s p d 0x20
    else ctxCmd s p d true (fun i => decide (ctxState s i = 0)) (fun i s => (releaseCtx s i, 0))))
/-- CTX_READ (R443); it waits while the device may not write host memory. -/
def execCtxRead (p : Nat) (s : State) : Host.Outcome State Fault Refusal :=
  .next (if !mayWriteHost s p then s
    else hostCmd s p 0x22 (fun d s =>
      let off := fld (wd d 4) 31 16
      let n := fld (wd d 4) 15 0
      if !indexOk d || !zeroWords d 7 30 || decide (n = 0 ∨ 1024 < off + n) then badDesc s p d 0x20
      else ctxCmd s p d false (fun i => decide (ctxState s i = 0)) (fun i s =>
        let (s, bad) := touchCtx s p i (off * 64) (n * 64) false
        if bad then (s, 1) else (hostWrite s (addr64 (wd d 5) (wd d 6)) (ctxBytes s i (off * 64) (n * 64)), 0))))
/-- HARQ_REL (13 R422). -/
def execHarqRel (p : Nat) (s : State) : Host.Outcome State Fault Refusal :=
  .next (hostCmd s p 0x23 (fun d s =>
    if !indexOk d || decide (65536 ≤ (wd d 4).toNat) || !zeroWords d 5 30 then badDesc s p d 0x20
    else ctxCmd s p d true (fun i => decide (ctxState s i = 0)) (fun i s =>
      ((List.range 16).foldl (fun s h => if bit (wd d 4) h then procRelease s p i h else s) s, 0))))
/-- The sweep's action on one context (R441). -/
def ageOne (s : State) (i : Nat) : State :=
  let p := fld (ctxWord s i 4) 29 25
  let w := rg s CXS_PART_CTX 0 p
  let lim := fld w 23 0
  if ctxState s i ≠ 1 ∨ lim = 0 ∨ (ageNow s - ctxWord s i 0x10).toNat ≤ lim then s
  else
    let s := if bit w 31 then releaseCtx s i else ctxPutW s i 4 (setFld (ctxWord s i 4) 31 30 2)
    raise (setRg s CXS_AGED_IDX 0 0 (w32 (2 ^ 31 + i))) 6 0 2
/-- AGE_SWEEP: once every 256 frames. -/
def execAgeSweep (s : State) : Host.Outcome State Fault Refusal :=
  .next (if (frameCnt s + 2 ^ 32 - s.cxs.swept) % 2 ^ 32 < 256 then s
    else (liveCtxs s).foldl ageOne { s with cxs := { s.cxs with swept := frameCnt s } })

end Sys2Proof.Machine
end

