-- ==== Sys2Proof/Machine/Apf.lean ====
section
/-! DEFINITION. The registration checks of an image (06 R168-R199, 21 R623). -/

namespace Sys2Proof.Machine

open Sys2Proof

/-- A range of external memory as an image: base and length. -/
structure Apf where
  base : Nat
  len : Nat
  deriving DecidableEq, Repr

/-- A word of it. -/
def apfW (s : State) (m : Apf) (off : Nat) : Word := extWord s (m.base + off)
/-- Its section table, as it stands (R169, R170); empty where the header's figures do not hold. -/
def apfTable (s : State) (m : Apf) : List (Word × Nat × Nat × Nat) :=
  let n := fld (apfW s m 0x14) 15 0
  let t := (apfW s m 0x18).toNat
  if 1 ≤ n ∧ n ≤ 64 ∧ t % 64 = 0 ∧ 64 ≤ t ∧ t + 16 * n ≤ m.len then
    (List.range n).map (fun i => let o := t + 16 * i
      (apfW s m o, (apfW s m (o + 4)).toNat, (apfW s m (o + 8)).toNat, (apfW s m (o + 12)).toNat))
  else []
/-- Its sections as a generation keeps them. -/
def apfSects (s : State) (m : Apf) : List Sect :=
  (apfTable s m).map (fun q => { type := fld q.1 31 24, preload := bit q.1 0, off := q.2.1, size := q.2.2.1, load := q.2.2.2 })
/-- The generation that would be registered. -/
def apfGen (s : State) (m : Apf) (p slot gen : Nat) : Gen :=
  { part := p, slot := slot, gen := gen, base := m.base, len := m.len, digest := 0, current := true, sects := apfSects s m }

/-! ### FORMAT, VERSION, signature, CLASS -/

/-- FORMAT: MAGIC, and the reserved header fields are zero. -/
def apfFormat (s : State) (m : Apf) : Bool :=
  decide (apfW s m 0 = 0x46504B41 ∧ fld (apfW s m 4) 31 16 = 0 ∧ fld (apfW s m 0x0C) 31 4 = 0 ∧ fld (apfW s m 0x10) 31 9 = 0 ∧
    fld (apfW s m 0x14) 31 16 = 0) && [0x2C, 0x30, 0x34, 0x38, 0x3C].all (fun o => decide (apfW s m o = 0))
/-- The minor version that introduced a section type (R171). -/
def apfSince (type : Nat) : Nat := match type with | 8 => 1 | 9 => 2 | 10 => 3 | _ => 0
/-- VERSION (R172). -/
def apfVersion (s : State) (m : Apf) : Bool :=
  let v := apfW s m 4
  decide (fld v 15 8 = 1 ∧ fld v 7 0 ≤ 3) && (apfTable s m).all (fun q => decide (apfSince (fld q.1 31 24) ≤ fld v 7 0))
/-- SIG_OFFSET. -/
def apfSig (s : State) (m : Apf) : Nat := (apfW s m 0x28).toNat
/-- Is a signature required (R178)? -/
def sigNeeded (s : State) (p : Nat) : Bool :=
  match part? s p with | some x => decide (x.cls ≠ .edge) || x.requireSig | none => true
/-- The first 8 bytes of SHA-384 of a key, as they stand in memory (22 R649). -/
def keyIdOf (x y : Nat) : List Byte := (sha384 (natBe 48 x ++ natBe 48 y)).take 8
/-- Keys that may sign for a partition: KEY_ID and point (R178). -/
def keysFor (s : State) (p : Nat) : List (List Byte × Nat × Nat) :=
  let u := Config.imageKey
  let c := pclass s p
  (keyIdOf u.1 u.2, u.1, u.2) :: (s.sec.keys.filter (fun k =>
    match c with
    | .mgmt => false
    | .radio => decide (k.cls = 1)
    | .safety => decide (k.cls = 1) && k.safety
    | .edge => decide (k.cls = 1) || decide (k.cls = 2 ∧ k.part = p))).map (fun k => (natLe 8 k.id, k.x, k.y))
/-- SIG_BAD (R179). -/
def sigGood (s : State) (p : Nat) (m : Apf) : Bool :=
  let o := apfSig s m
  let rd (a n : Nat) : List Byte := extRead s (m.base + o + a) n
  if o % 64 ≠ 0 ∨ o + 128 ≠ m.len then false
  else (rd 104 24).all (fun b => decide (b = 0)) && (match (keysFor s p).find? (fun k => decide (k.1 = rd 0 8)) with
    | none => false
    | some k => ecdsaOk k.2.1 k.2.2 (sha384 (extRead s m.base o)) (bytesBe (rd 8 48)) (bytesBe (rd 56 48)))
/-- Bit of CLASS_MASK of a class. -/
def classBit (c : PClass) : Nat := match c with | .mgmt => 0 | .radio => 1 | .safety => 2 | .edge => 3

/-! ### SECTION -/

/-- Two ranges of a list overlap. -/
def anyOverlap : List (Nat × Nat) → Bool
  | [] => false
  | a :: t => t.any (fun b => overlap a.1 a.2 b.1 b.2) || anyOverlap t
/-- An instruction offset: a multiple of 4 within CODE. -/
def codeAt (g : Gen) (off : Nat) : Bool := decide (off % 4 = 0) && inCode g off 4
/-- R170, R171: the sections themselves. -/
def sectsOk (s : State) (m : Apf) : Bool :=
  let t := apfTable s m
  let sig := apfSig s m
  let stop := if sig = 0 then m.len else sig
  let n (ty : Nat) : Nat := (t.filter (fun q => decide (fld q.1 31 24 = ty))).length
  let one (q : Word × Nat × Nat × Nat) : Bool :=
    let ty := fld q.1 31 24
    decide (1 ≤ ty ∧ ty ≤ 10 ∧ fld q.1 23 1 = 0 ∧ (ty = 1 ∨ bit q.1 0 = false) ∧ q.2.1 % 64 = 0 ∧ q.2.1 + q.2.2.1 ≤ stop) &&
      (if ty = 2 ∨ ty = 3 then decide (q.2.2.2 + q.2.2.1 ≤ Config.xyBytes) else decide (q.2.2.2 = 0))
  let spans := [(0, 64), ((apfW s m 0x18).toNat, 16 * t.length)] ++ t.map (fun q => (q.2.1, q.2.2.1))
  decide (t ≠ [] ∧ m.len % 64 = 0 ∧ 1 ≤ (apfW s m 0x1C).toNat ∧ (apfW s m 0x1C).toNat ≤ 9830) && t.all one && !anyOverlap spans &&
    decide (1 ≤ n 1 ∧ n 4 = 1 ∧ n 5 = 1) && [2, 3, 7, 8, 9, 10].all (fun ty => decide (n ty ≤ 1))
/-- R186: PRELOAD takes at most 64 KiB, and 6 lines in a set. -/
def preloadOk (g : Gen) : Bool :=
  let l := g.sects.filter (fun x => decide (x.type = 1) && x.preload)
  let lines := (l.flatMap (fun x => if x.size = 0 then [] else
    (List.range ((x.off + x.size - 1) / 256 + 1 - x.off / 256)).map (fun i => x.off / 256 + i))).eraseDups
  decide ((l.map (fun x => x.size)).sum ≤ 65536) &&
    (List.range 128).all (fun k => decide ((lines.filter (fun q => decide (q % 128 = k))).length ≤ 6))
/-- R193: walk the bucket sets; none when one is bad, otherwise how many there are. -/
def bucketSets (s : State) (g : Gen) (minor stop : Nat) : Nat → Nat → Nat → Option Nat
  | 0, _, k => some k
  | f + 1, off, k =>
    if stop ≤ off then some k
    else
      let h := gword s g off
      let n := fld h 15 8
      let ax := fld h 3 0
      if stop < off + 16 ∨ n = 0 ∨ 32 < n ∨ stop < off + 16 + 16 * n ∨ ¬ (ax = 1 ∨ (ax = 2 ∧ 1 ≤ minor)) then none
      else if (List.range n).all (fun i => codeAt g (gword s g (off + 16 + 16 * i + 8)).toNat &&
          (decide (ax = 2) || decide (gword s g (off + 16 + 16 * i + 4) = 0))) then
        bucketSets s g minor stop f (off + 16 + 16 * n) (k + 1)
      else none
/-- Bucket sets of an image. -/
def bucketCount (s : State) (g : Gen) (minor : Nat) : Option Nat :=
  match sect? g 7 with
  | none => some 0
  | some x => bucketSets s g minor (x.off + x.size) (x.size / 16 + 1) x.off 0
/-- R196: one grid record. -/
def gridOk (s : State) (g : Gen) (off : Nat) : Bool :=
  let a := gword s g off
  let t := gword s g (off + 4)
  decide (1 ≤ fld a 31 24 ∧ 1 ≤ fld a 23 16 ∧ 1 ≤ fld a 15 8 ∧ fld a 7 0 = 0 ∧ (fld t 31 16 = 128 ∨ fld t 31 16 = 64) ∧
    (fld t 15 0 = 128 ∨ fld t 15 0 = 256 ∨ fld t 15 0 = 64) ∧ fld (gword s g (off + 8)) 31 28 ≤ 4 ∧ fld (gword s g (off + 12)) 31 28 ≤ 4)
/-- R199: one layer record. -/
def layerOk (s : State) (g : Gen) (off : Nat) : Bool :=
  let f := gword s g (off + 4)
  let o := gword s g (off + 16)
  let w := gword s g (off + 20)
  decide (fld f 31 8 = 0 ∧ fld f 3 1 = 0 ∧ fld w 31 16 = 0 ∧ gword s g (off + 24) = 0 ∧ gword s g (off + 28) = 0) &&
    (if bit f 0 then codeAt g o.toNat && (match g.sects[fld w 15 0]? with | some x => decide (x.type = 6) | none => false)
     else decide (o = 0xFFFFFFFF))
/-- A table of `n`-byte records: its size and each record. -/
def tableOk (g : Gen) (type n : Nat) (ok : Nat → Bool) : Bool :=
  match sect? g type with
  | none => true
  | some x => decide (x.size % n = 0) && (List.range (x.size / n)).all (fun i => ok (x.off + n * i))
/-- R174, R175, R196: one entry record. -/
def entryOk (s : State) (g : Gen) (sets : Nat) (off : Nat) : Bool :=
  let w (k : Nat) : Word := gword s g (off + 4 * k)
  let a := w 3
  let bk := fld (w 8) 15 0
  let gr := fld (w 9) 15 0
  let grids := match sect? g 8 with | some x => x.size / 16 | none => 0
  let ceq := fld (w 1) 15 0
  let shapes := decide (w 2 = 0x00800080 ∨ w 2 = 0x00800100)
  let hands := (List.range 4).all (fun k => (decide (w (4 + k) = 0xFFFFFFFF) && !bit a (11 - k)) || codeAt g (w (4 + k)).toNat)
  let product := match sect? g 8 with
    | some x => if gr = 0xFFFF then 1 else let t := gword s g (x.off + 16 * gr); fld t 31 24 * fld t 23 16 * fld t 15 8
    | none => 1
  codeAt g (w 0).toNat && shapes && hands &&
    decide (fld (w 1) 31 29 ≤ 4 ∧ fld (w 1) 28 16 = 0 ∧ 1 ≤ ceq ∧ ceq ≤ 128 ∧ fld a 31 12 = 0 ∧ fld a 7 4 ≤ 4 ∧ fld a 3 0 ≤ 4 ∧
      fld (w 8) 31 16 = 0 ∧ fld (w 9) 31 16 = 0 ∧ (bk = 0xFFFF ∨ bk < sets) ∧ (gr = 0xFFFF ∨ gr < grids) ∧ product ≤ ceq ∧
      1 ≤ (w 10).toNat ∧ (w 10).toNat ≤ 4096 ∧ fld (w 11) 31 16 = 0) && (List.range 4).all (fun k => decide (w (12 + k) = 0))
/-- R188-R190: one yield entry's records, in an image whose largest UNIT is `big` cluster-equivalents. -/
def yieldOk (s : State) (g : Gen) (big off stop : Nat) : Bool :=
  let regs := yieldRegs s g off
  let n := fld (gword s g (off + 4)) 15 0
  let wait := yieldWait s g off
  let sp (k : Nat) : List (Nat × Nat) := (regs.filter (fun r => decide (r.1 = k ∨ (k = 0 ∧ r.1 = 3)))).map (fun r => r.2)
  codeAt g (gword s g off).toNat && decide (fld (gword s g (off + 4)) 31 16 = 0 ∧ n ≤ 4096 ∧ fld (gword s g (off + 12)) 31 1 = 0 ∧
      off + 16 + 8 * n ≤ stop) &&
    regs.all (fun r => decide (r.1 ≤ 3 ∧ r.2.2 ≠ 0 ∧ r.2.2 % 64 = 0) && (decide (r.1 ≠ 3) || wait) &&
      decide (r.2.1 + r.2.2 ≤ (if r.1 = 1 ∨ r.1 = 2 then Config.xyBytes else big * Config.spadBytes))) &&
    !anyOverlap (sp 0) && !anyOverlap (sp 1) && !anyOverlap (sp 2) &&
    decide (yieldBytes s g off = ((regs.filter (fun r => decide (r.1 < 3))).map (fun r => r.2.2)).sum + 512 ∧
      yieldBytes s g off ≤ big * Config.spadBytes)
/-- Walk the yield table. -/
def yieldsOk (s : State) (g : Gen) (big stop : Nat) : Nat → Nat → Bool
  | 0, _ => true
  | n + 1, off => decide (off + 16 ≤ stop) && yieldOk s g big off stop &&
      yieldsOk s g big stop n (off + 16 + 8 * fld (gword s g (off + 4)) 15 0)
/-- R623: the SAFFRON section. -/
def saffronOk (s : State) (g : Gen) (entries : Nat) : Bool :=
  match sect? g 10 with
  | none => true
  | some x =>
    let n := (gword s g x.off).toNat
    decide (64 ≤ x.size ∧ 1 ≤ n ∧ n ≤ 64 ∧ 64 + 32 * n ≤ x.size ∧ (gword s g (x.off + 4)).toNat < entries) && (List.range n).all (fun i =>
      let w (k : Nat) : Nat := (gword s g (x.off + 64 + 32 * i + 4 * k)).toNat
      decide (w 0 + w 1 ≤ g.len ∧ w 2 + ceilDiv (w 3) 8 ≤ g.len))
/-- An image that a RADIO or SAFETY partition may run holds what 11 R345 asks for. -/
def receiverOk (s : State) (m : Apf) (g : Gen) : Bool :=
  decide (fld (apfW s m 0x0C) 2 1 = 0) || [7, 9, 10].all (fun ty => (sect? g ty).isSome)
/-- SECTION. -/
def apfSections (s : State) (p : Nat) (m : Apf) : Bool :=
  let g := apfGen s m p 0 0
  let minor := fld (apfW s m 4) 7 0
  if !sectsOk s m then false
  else match bucketCount s g minor, sect? g 4, sect? g 5 with
    | some sets, some en, some yt =>
      let n := (gword s g yt.off).toNat
      let big := ((List.range (en.size / 64)).map (fun i => fld (gword s g (en.off + 64 * i + 4)) 15 0)).foldl Nat.max 0
      preloadOk g && receiverOk s m g && tableOk g 8 16 (gridOk s g) && tableOk g 9 32 (layerOk s g) && saffronOk s g (en.size / 64) &&
        decide (en.size ≠ 0) && tableOk g 4 64 (entryOk s g sets) && decide (16 ≤ yt.size ∧ n ≤ 65536) && yieldsOk s g big (yt.off + yt.size) n (yt.off + 16)
    | _, _, _ => false

/-! ### CAPABILITY, and the whole -/

/-- CAPABILITY: formats, units and shapes against what is in service. -/
def apfCapable (s : State) (p : Nat) (m : Apf) : Bool :=
  let g := apfGen s m p 0 0
  let up := (inService s).length
  (List.range (entryCount g)).all (fun e =>
    let (lv, k, cols) := entryUnit s g e
    (match lv with
      | 1 => decide (k ≤ up)
      | 2 => decide (k ≤ 2 * capablePairs s)
      | 3 => decide (k ≤ up)
      | 4 => bit (rg s ILK_DOM_STAT 0 0) 31
      | _ => false) && (decide (cols ≠ 256) || decide (0 < capablePairs s)))
/-- The status of R177: the first check that fails, or 0. -/
def apfStatus (s : State) (p slot off len : Nat) : Nat :=
  match partRegion s p with
  | none => if 63 < slot then 0x0B else 0x0A
  | some r =>
    let m : Apf := ⟨r.1 + off, len⟩
    if 63 < slot then 0x0B
    else if off % 4096 ≠ 0 ∨ len < 64 ∨ 0x10000000 < len ∨ r.2.1 < off + len ∨ (apfW s m 8).toNat ≠ len then 0x0A
    else if s.img.gens.any (fun g => overlap g.base g.len m.base len) ∨ 128 ≤ (s.img.gens.filter (fun g => decide (g.part = p))).length then 0x09
    else if !apfFormat s m then 0x01
    else if !apfVersion s m then 0x02
    else if apfSig s m = 0 ∧ sigNeeded s p = true then 0x04
    else if apfSig s m ≠ 0 ∧ sigGood s p m = false then 0x05
    else if !bit (apfW s m 0x0C) (classBit (pclass s p)) then 0x06
    else if !apfSections s p m then 0x03
    else if !apfCapable s p m then 0x07
    else 0

end Sys2Proof.Machine
end

