-- ==== Sys2Proof/Machine/Reset.lean ====
section
/-! DEFINITION. The reset of a partition (23 R663), the safe state of a SAFETY partition (21 R629-R632) with error injection (R621,
R622), and the scan tick that carries both on. -/

namespace Sys2Proof.Machine

open Sys2Proof

/-! ### The reset of a partition -/

/-- Cells that belong to a partition. -/
def cellsOfPart (s : State) (p : Nat) : List Nat := (List.range Config.cells).filter (fun c => decide ((cellOf s c).part = some p))
/-- Jobs of a partition. -/
def jobsOf (s : State) (p : Nat) : List Nat :=
  s.disp.jobs.filterMap (fun e => match e.2 with
    | some x => if x.part = p then some e.1 else none
    | none => none)
/-- Job descriptors that were picked up and not carried out end as aborted jobs do. -/
def discardPicked (s : State) (p : Nat) : State :=
  let ds := tgetD [] s.host.picked p
  let s := { s with host := { s.host with picked := tsetD [] s.host.picked p (ds.filter (fun d => decide (dtype d ≠ 1))) } }
  let s := (ds.filter (fun d => decide (dtype d = 1))).foldl (fun s d =>
    postRec s p (dring d) (mkRec s 2 1 0 (wd d 1) (wd d 2) 0 (w32 (fld (wd d 8) 28 16)) 0 (dseq d))) s
  screenAll s p
/-- What a FULL reset does to a partition's window and rings. -/
def resetHost (s : State) (p : Nat) : State :=
  let s := { s with host := { s.host with
    expect := tsetD 0 s.host.expect p 0
    seqSeen := s.host.seqSeen.filter (fun e => decide (e.1 / 256 ≠ p))
    status := tsetD [] s.host.status p [] } }
  let s := setRg (setRg (setRg s HIF_PROTO_AGREED p 0 0) HIF_STAT_ADDR_LO p 0 0) HIF_STAT_ADDR_HI p 0 0
  (List.range 4).foldl (fun s r => setRing (setRg s HIF_CQ_CFG p r (rg s HIF_CQ_CFG p r &&& 0x7FFFFFFF)) p r {}) s
/-- The first of the common steps: every job of the partition aborts in the manner of 09 R277, and its cells fall back with cause RESET
(11 R361). -/
def abortPart (s : State) (p : Nat) : State :=
  let s := (cellsOfPart s p).foldl (fun s c => setCell s c { cellOf s c with reset := some (s.tmu.ticks, none) }) s
  let s := (jobsOf s p).foldl (fun s j => match job? s j with
    | some x => abortJob (if isRS s p then blame s j 7 x.open else s) j true true
    | none => s) s
  discardPicked s p
/-- A reset of partition `p` begins; `full` is its depth, `trig` the trigger of a safe state. -/
def beginReset (s : State) (p : Nat) (full : Bool) (trig : Nat) : State :=
  match s.safe.resets.find? (fun r => decide (r.part = p)) with
  | some _ =>
    let s := if full then resetHost s p else s
    { s with safe := { s.safe with resets := s.safe.resets.map (fun r =>
        if r.part = p then { r with full := r.full || full, trig := if r.trig = 0 then trig else r.trig } else r) } }
  | none =>
    let js := jobsOf s p
    let s := match s.trace.run with | some r => if r.part = p then recEnd s 2 else s | none => s
    let s := { s with disp := { s.disp with resetting := s.disp.resetting ++ [p] } }
    let s := abortPart s p
    let s := if full then resetHost s p else s
    reconsider { s with safe := { s.safe with resets := s.safe.resets ++ [{ part := p, full := full, trig := trig, since := s.tmu.ticks, jobs := js }] } }
/-- Clear the floor scratchpad of a partition's clusters: on each cluster that serves it and whose floor it wrote last (09 R284). -/
def clearFloor (s : State) (p : Nat) : State :=
  (List.range 16).foldl (fun s l =>
    match physOf s l with
    | none => s
    | some c =>
      let k := clu s c
      if p ∈ floorParts s l ∧ k.lastPart = p then
        let a := if floorMode s l = 2 then floorBase s l else 0
        setClu s c { k with sp := k.sp.wipe a (Config.spadBytes - a) 0 }
      else s) s
/-- The partition's objects become 0 and its host waits end with REFUSED (08 R261). -/
def clearObjs (s : State) (p : Nat) : State :=
  let mine (w : WaitEnt) : Bool := match w.who with | .host q _ _ _ _ => decide (q = p) | _ => false
  let ws := s.sync.waits.filter mine
  let s := { s with sync := { s.sync with
    objs := s.sync.objs.filter (fun e => decide (objOwner s e.1 ≠ some p))
    waits := s.sync.waits.filter (fun w => !mine w) } }
  ws.foldl (fun s w => completeWait s w 2) s
/-- The rest of a reset, once a spill or restore that had started has run to its end. -/
def endReset (s : State) (r : PReset) : State :=
  let s := clearObjs (clearFloor s r.part) r.part
  let s := { s with
    disp := { s.disp with resetting := s.disp.resetting.filter (fun q => decide (q ≠ r.part)) }
    safe := { s.safe with resets := s.safe.resets.filter (fun q => decide (q.part ≠ r.part)) } }
  let s := if r.trig = 0 then s
    else
      let us := w32 (sinceNs s r.since / 1000)
      let s := setRg s SYS_SAF_STAT 0 r.part (rg s SYS_SAF_STAT 0 r.part &&& 0x7FFFFFFF)
      if (rg s SYS_SAFE_TIME 0 r.part).toNat < us.toNat then setRg s SYS_SAFE_TIME 0 r.part us else s
  raise s 0 0 3
/-- May a reset go on to its end: no spill of its jobs runs, and no checker still fails its injection? -/
def resetDone (s : State) (r : PReset) : Bool :=
  !r.inj && !s.disp.spill.any (fun q => decide (q.job ∈ r.jobs))
/-- Resets that can end do. -/
def resetTick (s : State) : State := (s.safe.resets.filter (resetDone s)).foldl endReset s
/-- PART_RESET: partition 0 resets another one at depth JOBS; `p` is the writer. -/
def partResetGo (s : State) (target : Nat) : State :=
  if target = 0 ∨ (part? s target).isNone ∨ target ∈ s.disp.resetting then s else beginReset s target false 0
/-- PART_RESET. -/
def execPartReset (p target : Nat) (s : State) : Host.Outcome State Fault Refusal :=
  let (ok, s) := pageGate s (hostUnit s p) p 0 0 0x230
  .next (if ok then partResetGo s target else s)

/-! ### Error injection (21 R621, R622) -/

/-- Injection at a start of a SAFETY partition; `bad` is a checker that does not report: kind and instance. Its unit leaves at once and its
replacement passes (assumption log); a checker of kind 6 or 7 has no unit that could leave. The result says whether every checker has passed. -/
def inject (s : State) (p : Nat) (bad : Option (Nat × Nat)) : Bool × State :=
  match bad with
  | none => (true, setRg s SYS_INJ_STAT 0 0 (rg s SYS_INJ_STAT 0 0 ||| bitW 31))
  | some (kind, inst) =>
    let who := w32 (kind % 256 * 256 + inst % 256)
    let s := raise (logErr (setRg s SYS_INJ_STAT 0 0 who) 0x18 8 0 p who 0 0 0 0) 0 0 20
    let s := if kind ≤ 3 then leaveCluster s inst 5 else if kind = 4 then dropEngine s 30 inst 5 else if kind = 5 then dropEngine s 24 inst 5 else s
    if kind ≤ 5 then (true, setRg s SYS_INJ_STAT 0 0 (who ||| bitW 31)) else (false, s)

/-! ### The safe state (21 R629-R632) -/

/-- A trigger acts on a SAFETY partition. In the safe state it counts, and a trigger 6 repeats an injection that failed. -/
def safeEnter (s : State) (p t : Nat) (bad : Option (Nat × Nat)) : State :=
  if pclass s p ≠ .safety ∨ (part? s p).isNone then s
  else if bit (rg s SYS_SAF_STAT 0 p) 31 then
    let s := satFld s SYS_SAF_STAT 0 p 23 0
    if t = 6 ∧ s.safe.resets.any (fun r => decide (r.part = p) && r.inj) then
      let (ok, s) := inject s p bad
      { s with safe := { s.safe with resets := s.safe.resets.map (fun r => if r.part = p then { r with inj := !ok } else r) } }
    else s
  else
    let w := satFld s SYS_SAF_STAT 0 p 23 0
    let s := setRg w SYS_SAF_STAT 0 p (setFld (rg w SYS_SAF_STAT 0 p ||| bitW 31) 27 24 t)
    let s := raise (logErr s 0x18 7 0 p (w32 t) 0 0 0 0) 0 0 19
    let (ok, s) := inject (beginReset s p false t) p bad
    { s with safe := { s.safe with resets := s.safe.resets.map (fun r => if r.part = p then { r with inj := !ok } else r) } }
/-- Triggers that were noted act (assumption log, row 13). -/
def safeTick (s : State) : State :=
  s.safe.trig.foldl (fun s q => safeEnter s q.1 q.2 none) { s with safe := { s.safe with trig := [] } }
/-- ENTER: partition 0 writes SAF_CTL.ENTER for partition `target`; `p` is the writer. -/
def execEnter (p target : Nat) (failedChecker : Option (Nat × Nat)) (s : State) : Host.Outcome State Fault Refusal :=
  let (ok, s) := pageGate s (hostUnit s p) p 0 0 0x1C8
  .next (if ok then safeEnter s target 6 failedChecker else s)

end Sys2Proof.Machine
end

