-- ==== Sys2Proof/Machine/HostCmds.lean ====
section
/-! DEFINITION. Host commands (17 R519-R541, 06 R177-R184): templates, images, the unit query, receive buffers, exception frames, rings,
the protocol version, and the resets of PCI Express (24 R687). -/

namespace Sys2Proof.Machine

open Sys2Proof

/-! ### Templates (R530, R531) -/

/-- The fields of a template are in range. -/
def tplOk (d : List Word) : Bool :=
  let t := wd d 3
  let z := wd d 7
  dtypeOk d && decide (fld t 22 16 < Config.cells ∧ 1 ≤ fld t 15 8 ∧ fld t 15 8 ≤ 80 ∧ fld t 7 0 < fld t 15 8 ∧ fld (wd d 4) 25 16 = 0 ∧
    fld (wd d 6) 21 0 = 0 ∧ fld z 31 29 = 0 ∧ fld z 15 14 = 0 ∧ 1 ≤ fld z 28 16 ∧ fld z 13 0 ≤ 8192 ∧ fld (wd d 12) 31 4 = 0) && zeroWords d 13 30
/-- Ask for a template change, which commits at the next slot boundary of its timer. -/
def askTpl (s : State) (p i : Nat) (body : Option Tpl) : State :=
  let ws := match body, tplOf s p i with
    | some b, _ => b.words
    | none, some b => b.words
    | none, none => []
  let c : TplChange := { part := p, idx := i, body := body, since := tplSlot s p ws }
  { s with disp := { s.disp with tplTodo := s.disp.tplTodo.filter (fun t => !decide (t.part = p ∧ t.idx = i)) ++ [c] } }
/-- TPL_REG. -/
def execTplReg (p : Nat) (s : State) : Host.Outcome State Fault Refusal :=
  .next (hostCmd s p 2 (fun d s =>
    if !tplOk d then badDesc s p d 0x20 else cmdRec (askTpl s p (fld (wd d 3) 31 24) (some { words := d })) p d 0 0 0))
/-- TPL_DEL. -/
def execTplDel (p : Nat) (s : State) : Host.Outcome State Fault Refusal :=
  .next (hostCmd s p 3 (fun d s =>
    if !dtypeOk d || decide (255 < (wd d 3).toNat) || !zeroWords d 4 30 then badDesc s p d 0x20
    else cmdRec (askTpl s p (wd d 3).toNat none) p d 0 0 0))

/-! ### Images (06 R177-R184) -/

/-- The current generation of a slot is retired; released at once when nothing references it. -/
def retireSlot (s : State) (p slot : Nat) : State :=
  releaseGens { s with img := { s.img with gens := s.img.gens.map (fun g => if g.part = p ∧ g.slot = slot then { g with current := false } else g) } }
/-- A registration completes (R181), and MR4 takes it up (22 R641). -/
def register (s : State) (p slot off len : Nat) : State :=
  match partRegion s p with
  | none => s
  | some r =>
    let m : Apf := ⟨r.1 + off, len⟩
    let n := (tgetD 0 s.img.genNo (p * 64 + slot) + 1) % 2 ^ 32
    let digest := sha384 (extRead s m.base (if apfSig s m = 0 then len else apfSig s m))
    let g : Gen := { apfGen s m p slot n with digest := bytesBe digest }
    let s := retireSlot s p slot
    let s := { s with img := { s.img with gens := s.img.gens ++ [g], genNo := tsetD 0 s.img.genNo (p * 64 + slot) n } }
    extendMr s 4 (sha384 (wordsLe [w32 p, w32 slot, w32 n, apfW s m 0x20, apfW s m 0x24] ++ digest))
/-- IMAGE_REG. -/
def execImageReg (p : Nat) (s : State) : Host.Outcome State Fault Refusal :=
  .next (hostCmd s p 0x10 (fun d s =>
    if !dtypeOk d || decide (255 < (wd d 5).toNat) || !tailZero s p d 7 then badDesc s p d 0x20
    else
      let slot := (wd d 3).toNat
      let off := addr64 (wd d 4) (wd d 5)
      let st := apfStatus s p slot off (wd d 6).toNat
      cmdRec (if st = 0 then register s p slot off (wd d 6).toNat else s) p d st 0 0))
/-- IMAGE_REL: it fails on a slot without a current generation (assumption log). -/
def execImageRel (p : Nat) (s : State) : Host.Outcome State Fault Refusal :=
  .next (hostCmd s p 0x11 (fun d s =>
    if !dtypeOk d || decide (63 < (wd d 3).toNat) || !tailZero s p d 4 then badDesc s p d 0x20
    else
      let slot := (wd d 3).toNat
      if s.img.gens.any (fun g => decide (g.part = p ∧ g.slot = slot) && g.current) then cmdRec (retireSlot s p slot) p d 0 0 0
      else cmdRec s p d 1 0 0))
/-- UNIT_QUERY (00 R24); it waits while the device may not write host memory, and fails on a handle that names no unit of this chip. -/
def execUnitQuery (p : Nat) (s : State) : Host.Outcome State Fault Refusal :=
  .next (if !mayWriteHost s p then s
    else hostCmd s p 0x12 (fun d s =>
      let h := wd d 3
      if !dtypeOk d || !tailZero s p d 6 then badDesc s p d 0x20
      else if h = handle s (fld h 31 29) (fld h 15 0) ∧ unitExists s (fld h 31 29) (fld h 15 0) = true then
        cmdRec (hostWrite s (addr64 (wd d 4) (wd d 5)) (wordsLe (capRecord s p (fld h 31 29) (fld h 15 0)))) p d 0 0 0
      else cmdRec s p d 1 0 0))

/-! ### Receive buffers and exception frames (R539) -/

/-- RXBUF. -/
def execRxbuf (p : Nat) (s : State) : Host.Outcome State Fault Refusal :=
  .next (hostCmd s p 0x31 (fun d s =>
    if !dtypeOk d || decide (fld (wd d 3) 11 0 ≠ 0) || !zeroWords d 5 30 then badDesc s p d 0x20
    else
      let b := (addr64 (wd d 3) (wd d 4), wd d 1, wd d 2, dring d)
      let s := { s with host := { s.host with rxbufs := tsetD [] s.host.rxbufs p (tgetD [] s.host.rxbufs p ++ [b]) } }
      pumpMsgs s p (tgetD [] s.host.rxWait p).length))
/-- EXC_TX: the frame is read and waits at its port; without an open port the command fails. -/
def execExcTx (p : Nat) (s : State) : Host.Outcome State Fault Refusal :=
  .next (if !mayWriteHost s p then s
    else hostCmd s p 0x38 (fun d s =>
      let w := wd d 5
      let n := (wd d 6).toNat
      if !dtypeOk d || decide (fld w 30 20 ≠ 0 ∨ n = 0 ∨ 9600 < n) || !zeroWords d 7 30 then badDesc s p d 0x20
      else if !portUp s (fld w 19 16) then cmdRec s p d 1 0 0
      else
        let ts := if bit w 31 then some (fld w 15 0) else none
        let f : TxFrame := ⟨fld w 19 16, ts, hostRead s (addr64 (wd d 3) (wd d 4)) n, some d⟩
        { s with fh := { s.fh with txq := s.fh.txq ++ [f] } }))

/-! ### Rings (R534) and the protocol version (R521) -/

/-- CQ_TIMER of ring `r`: its message is sent. -/
def execCqTimer (p r : Nat) (s : State) : Host.Outcome State Fault Refusal :=
  let us := fld (rg s HIF_CQ_CFG p r) 15 0
  .next (match (ring s p r).first with
    | some t => if us ≠ 0 ∧ 0 < (ring s p r).since ∧ passed s t (us * 1000) = true then sendRing s p r else s
    | none => s)
/-- CQ_HEAD: the host moves the consumer index of ring `r`, and records that waited go in (R535). -/
def execCqHead (p r : Nat) (v : Word) (s : State) : Host.Outcome State Fault Refusal :=
  let (ok, s) := pageGate s (hostUnit s p) p 7 p 0x60
  .next (if ok ∧ r < 4 then pumpStaged (setRg s HIF_CQ_HEAD p r v) p else s)
/-- A write to PROTO_OFFER of page `i`. -/
def offerWrite (s : State) (i : Nat) (v : Word) : State :=
  if (protoVer s i).isSome then s
  else
    let s := setRg s HIF_PROTO_OFFER i 0 (v &&& 0xFFFF)
    let best := Nat.min (fld v 7 0) 2
    if Nat.max (fld v 15 8) 1 ≤ best then setRg s HIF_PROTO_AGREED i 0 (w32 (2 ^ 31 + best)) else raise s 7 i 3
/-- PROTO_OFFER. -/
def execProtoOffer (p : Nat) (v : Word) (s : State) : Host.Outcome State Fault Refusal :=
  let (ok, s) := pageGate s (hostUnit s p) p 7 p 0x40
  .next (if ok then offerWrite s p v else s)

/-! ### Resets of PCI Express (R519, 24 R687) -/

/-- Partition behind a function: the one that it is bound to. -/
def fnPart (s : State) (fn : Nat) : Option Nat :=
  if fn = 0 then some 0 else (List.range Config.partitions).find? (fun p => decide (1 ≤ p) && (part? s p).isSome && decide (fnOf s p = fn))
/-- Bus mastering of a function. -/
def setMaster (s : State) (fn : Nat) (on : Bool) : State :=
  { s with host := { s.host with busMaster := tsetD false s.host.busMaster fn on } }
/-- FUNCTION_LEVEL_RESET: of a VF, a FULL reset of its partition; of the PF, its PCIe state, its window scan and its rings. -/
def execFunctionLevelReset (fn : Nat) (s : State) : Host.Outcome State Fault Refusal :=
  let s := setMaster s fn false
  .next (if fn = 0 then resetHost s 0
    else match fnPart s fn with
      | some p => beginReset s p true 0
      | none => s)
/-- PCIE_CONVENTIONAL_RESET: PERST_N or, with `hot`, a hot reset; bus mastering is off until the host enables it again. -/
def execPcieConventionalReset (_hot : Bool) (s : State) : Host.Outcome State Fault Refusal :=
  .next { s with host := { s.host with busMaster := [] } }
/-- CONFIGURATION_REQUEST: the host writes a function's bus-master enable; records and messages that waited go out. -/
def execConfigurationRequest (fn : Nat) (busMaster : Bool) (s : State) : Host.Outcome State Fault Refusal :=
  .next (if !s.host.linkUp || decide (32 ≤ fn) then s
    else
      let s := setMaster s fn busMaster
      match fnPart s fn with
      | some p => pumpMsgs (pumpStaged s p) p (tgetD [] s.host.rxWait p).length
      | none => s)

end Sys2Proof.Machine
end

