-- ==== Sys2Proof/Machine/Links.lean ====
section
/-! DEFINITION. The Ilush links (19 R566-R589): flits received, heartbeats, lost links, training. -/

namespace Sys2Proof.Machine

open Sys2Proof

/-! ### Flits (R567, R570-R573, R576-R578) -/

/-- The local partition that stands for a remote one (R571). -/
def mapPart (s : State) (port rp : Nat) : Option Nat :=
  let m := rg s ILK_PART_MAP port rp
  if bit m 31 then some (fld m 4 0) else none
/-- A transaction whose remote identifier has no entry is denied. -/
def mapDeny (s : State) (port rp : Nat) (write : Bool) : State :=
  raise (deny s 6 0 (engHandle s 11 port) rp write) 11 port 2
/-- Send a denial back to the source (R573). -/
def denyBack (s : State) (port : Nat) : State := emit s (.flit port 2 [])
/-- A write flit at the scratchpad of logical cluster `l`, offset `a` of its namespace (R572, R573). -/
def peerWrite (s : State) (port rp l a : Nat) (bs : List Byte) : State :=
  match mapPart s port rp with
  | none => denyBack (mapDeny s port rp true) port
  | some p =>
    let s := record s p 9 (wordsLe [w32 port, 0, w32 l, w32 a] ++ bs)
    match (physOf s l).bind (fun c => (nsLoc s c a).bind (fun x => (nsLoc s c (a + (bs.length - 1))).map (fun y => (c, x, y)))) with
    | none => denyBack (deny s 2 p (engHandle s 11 port) a true) port
    | some (c, (k, o), (k2, o2)) =>
      let ok := if k = k2 then spAdmit s p k o (o2 + 1 - o)
        else spAdmit s p k o (Config.spadBytes - o) && spAdmit s p k2 0 (o2 + 1)
      if ok then nsWrite s c a bs else denyBack (deny s 2 p (engHandle s 11 port) a true) port
/-- A push of a handle over the link: into its pod, or as an expired push to the pod that takes returns (R578). -/
def peerPush (s : State) (port rp n : Nat) (h : BitVec 128) : State :=
  match mapPart s port rp with
  | none => mapDeny s port rp true
  | some p =>
    let s := record s p 9 (wordsLe [w32 port, 0x20, w32 n] ++ natLe 16 h.toNat)
    let s := if hHole h then s else book (book s PODQ_PART_TOTAL p 1) PODQ_PART_INPODS p 1
    podsChanged (if podTakes s n p then podPut s n h else deliver s p (hSet h 30) n false)
/-- What a good flit asks for. -/
def flitBody (s : State) (port ch : Nat) : FlitBody → State
  | .write rp l a bs => if ch = 0 then peerWrite s port rp l a bs else s
  | .denial => if ch ≠ 0 then s else match (unacked s port 0).head? with
    | some own => failWrite s own
    | none => s
  | .pod rp n h => if ch = 2 ∧ 0x11 ≤ linkVer s port then peerPush s port rp n h else s
  | .credits c n => creditReturn s port c n
  | .management => s
/-- FLIT_RECEIVE: `crcOk` and the lane it came on; one that fails is replayed, the eighth in a row makes the lane faulty (R570).
What a good flit took is given back to the sender. -/
def flitReceive (s : State) (port ch : Nat) (crcOk : Bool) (lane : Nat) (b : FlitBody) : State :=
  let k := 2 * port + lane
  if (linkPeer s port).isNone ∨ k ∈ s.ilk.bad then s
  else
    let s := touchPort s port
    if !crcOk then
      let n := tgetD 0 s.ilk.replays k + 1
      let s := satRg { s with ilk := { s.ilk with replays := tsetD 0 s.ilk.replays k n } } ILK_REPLAYS port 0 1
      if n < 8 then s else laneFault s 1 (port / 2) (port % 2 * 2 + lane) 10
    else
      let s := wrapRg { s with ilk := { s.ilk with replays := tsetD 0 s.ilk.replays k 0 } } ILK_FLITS_RX port 0 1
      let s := flitBody s port ch b
      match b with
      | .credits .. => s
      | _ => emit s (.flit port 3 [ch, 1])
/-- FLIT_RECEIVE. -/
def execFlitReceive (port ch : Nat) (crcOk : Bool) (lane : Nat) (b : FlitBody) (s : State) : Host.Outcome State Fault Refusal :=
  .next (reconsider (flitReceive s port ch crcOk lane b))

/-! ### Heartbeats and the domain (R579, R581) -/

/-- The peer's index and domain as its heartbeat gives them. -/
def notePeer (s : State) (port peer : Nat) (cfg : Word) : State :=
  setRg s ILK_ILK_STAT port 0 (setFld (setFld (rg s ILK_ILK_STAT port 0) 10 8 peer) 7 0 (fld cfg 23 16))
/-- A skew against a peer is measured. -/
def noteSkew (s : State) (peer ns : Nat) : State :=
  let s := { s with ilk := { s.ilk with skew := tsetD 0 s.ilk.skew peer ns } }
  let m := (s.ilk.skew.map (fun e => e.2)).foldl Nat.max 0
  let s := setRg s ILK_DOM_SKEW 0 0 (w32 m)
  if (rg s ILK_DOM_SKEW_MAX 0 0).toNat < ns then raise s 11 0 6 else s
/-- HEARTBEAT of the peer behind a port, with its DOM_CFG and the skew that its stamp shows. -/
def heartbeat (s : State) (port peer : Nat) (cfg : Word) (skew : Nat) : State :=
  if (linkPeer s port).isNone ∨ linkVer s port < 0x11 then s
  else
    let s := notePeer (touchPort s port) port peer cfg
    let own := rg s ILK_DOM_CFG 0 0
    if !bit own 31 then s
    else
      let good := bit cfg 31 && decide (fld cfg 23 8 = fld own 23 8 ∧ fld cfg 2 0 = peer) && decide (peer ∈ domPeers s)
      if good then
        let s := noteSkew s peer skew
        let s := { s with ilk := { s.ilk with joined := if peer ∈ s.ilk.joined then s.ilk.joined else s.ilk.joined ++ [peer]
                                              mismatch := s.ilk.mismatch.filter (fun k => decide (k ≠ peer)) } }
        let all := (domPeers s).all (fun k => decide (k ∈ s.ilk.joined))
        if domFormed s then showDomain s true
        else if all then bumpCap (showDomain s true) (handle (showDomain s true) 4 0)
        else showDomain s false
      else
        let new := decide (peer ∉ s.ilk.mismatch)
        let s := if peer ∈ s.ilk.joined then peerLeft s peer else s
        let s := { s with ilk := { s.ilk with mismatch := if new then s.ilk.mismatch ++ [peer] else s.ilk.mismatch } }
        let s := showDomain s (domFormed s)
        if new then raise s 11 0 5 else s
/-- HEARTBEAT. -/
def execHeartbeat (port peer : Nat) (cfg : Word) (skew : Nat) (s : State) : Host.Outcome State Fault Refusal :=
  .next (reconsider (heartbeat s port peer cfg skew))
/-- LINK_LOST: training lost for 10 µs, or four heartbeats missed (R584). -/
def execLinkLost (port : Nat) (s : State) : Host.Outcome State Fault Refusal := .next (dropLink s port)

/-! ### Training (R569, R661) -/

/-- The highest version within both ranges. -/
def agreed (a b : Nat × Nat) : Option Nat :=
  ([0x20, 0x11, 0x10] : List Nat).find? (fun v => decide (Nat.max a.1 b.1 ≤ v ∧ v ≤ Nat.min a.2 b.2))
/-- Lanes of a port that no spare slice serves. -/
def deadLanes (s : State) (port : Nat) : List Nat :=
  [0, 1].filter (fun k => decide (laneSt s (4 + port / 2) (port % 2 * 2 + k) = some 1))
/-- PORT_TRAINING: a port that is enabled trains with the range of its peer; one whose link is up retrains at its version. Repaired
lanes carry traffic again. -/
def portTraining (s : State) (port lo hi : Nat) : State :=
  if !bit (rg s ILK_ILK_CFG port 0) 23 then s
  else
    let up := (linkPeer s port).isSome
    let dead := deadLanes s port
    let bad := (s.ilk.bad.filter (fun k => decide (k / 2 ≠ port))) ++ dead.map (fun k => 2 * port + k)
    let ver := if up then some (linkVer s port) else agreed (tgetD (0, 0) s.ilk.range port) (lo, hi)
    match ver with
    | none => raise (setLinkStat s port false 0 0) 11 port 0
    | some v =>
      if dead.length = 2 ∨ (dead ≠ [] ∧ v < 0x20) then (if up then dropLink s port else s)
      else
        let s := touchPort { s with ilk := { s.ilk with bad := bad } } port
        let s := if up then s else resetCredits s port v
        setLinkStat s port true (3 - (dead.map (fun k => 2 ^ k)).sum) v
/-- PORT_TRAINING. -/
def execPortTraining (port lo hi : Nat) (s : State) : Host.Outcome State Fault Refusal := .next (portTraining s port lo hi)

end Sys2Proof.Machine
end

