-- ==== Sys2Proof/Machine/Matrix.lean ====
section
/-! DEFINITION. The meanings of the matrix engine's commands (03 R70-R100): a tile starts, a row drains, a verdict falls,
REPAIR_CNT decays. -/

namespace Sys2Proof.Machine

open Sys2Proof

/-! ### TILE_INSTRUCTION -/

/-- Tiles that hold a Long Register bank of a cluster (R81). -/
def banksHeld (s : State) (c : Nat) : Nat := ((clu s c).tiles.filter (fun t => !t.done)).length
/-- Take the head of the matrix stream. -/
def popMatrix (s : State) (c : Nat) : State := setClu s c { clu s c with mxq := (clu s c).mxq.tail }
/-- A tile instruction is skipped (R76, R201). -/
def skipTile (s : State) (c : Nat) (i : Issued) (reason : Nat) : State :=
  let s := raise (satRg s MXE_SKIP_COUNT c 0 1) 16 c 6
  skipRec s i.job reason 1 (clHandle s c) i.off (tileTag i.words) (tileItems i.words) (some c)
/-- Does the tile instruction read an output that has still to drain (R80)? -/
def tileWaits (s : State) (c : Nat) (ws : List Word) : Bool :=
  let reads := tileReads ws (cherry s c)
  waitsDrain s c reads (clu s c).mxIssued
/-- TILE_INSTRUCTION: the head of the matrix stream of cluster `c` starts, when a bank of each half is free and what it
reads has drained. -/
def tileStep (s : State) (c : Nat) (faults : List CellFault) : State :=
  match (clu s c).mxq with
  | .instr i serial :: _ =>
    match job? s i.job with
    | none => s
    | some x =>
      match tileBad s x c i.words with
      | some r => afterEngine (skipTile (popMatrix s c) c i r) c
      | none =>
        if (halves s c).any (fun h => decide (banksHeld s h ≥ 2)) || tileWaits s c i.words then s
        else startTile (popMatrix s c) c i.job i serial faults
  | _ => s
/-- TILE_INSTRUCTION. -/
def execTileInstruction (c : Nat) (faults : List CellFault) (s : State) : Host.Outcome State Fault Refusal :=
  .next (tileStep s c faults)

/-! ### DRAIN_ROW (R82-R89) -/

/-- A partial in the layout of R53. -/
def partialNat (fmt eref : Nat) (l : LSum) : Nat :=
  fmt * 2 ^ 124 + eref * 2 ^ 115 + b2n l.fe * 2 ^ 99 + b2n l.nf * 2 ^ 98 + b2n l.win * 2 ^ 97 + b2n l.lsat * 2 ^ 96 +
    wrapN 96 l.v
/-- What the drain makes of one sum: memory bits, whether it counts as a saturation, whether its bias left the range. -/
structure DrainOut where
  bits : Nat
  sat : Bool
  ls : Bool
  deriving DecidableEq, Repr

/-- FMT of a tile's partials. -/
def tileFmt (ws : List Word) : Nat := partFmt (fmtA ws) (fmtB ws)
/-- The rescale record of column `j` of half `h`, group columns in complex mode (R57, R87, R96). -/
def tileRecord (s : State) (p c : Nat) (ws : List Word) (h j : Nat) : Rescale :=
  if tileRscl ws then
    Rescale.ofWords (leWords 4 (unitRead s p c (halfBase h + addr24 ws 11 + 16 * j) 16))
  else Rescale.id
/-- Element `e` of a drained row (two elements for each complex column). -/
def drainElem (s : State) (p c : Nat) (t : Tile) (l : LSum) (e : Nat) : DrainOut :=
  let ws := t.ins.words
  if tileOut ws = 7 then ⟨partialNat (tileFmt ws) t.eref l, false, false⟩
  else
    let rec_ := tileRecord s p c ws t.half (if t.cplx then e / 2 else e)
    let (b, sat, ls) := finalConv (fmtOut ws) (tileAct ws) rec_ (!t.cplx) (tileFmt ws) t.eref l.v
    ⟨b, sat || ls || l.lsat, ls⟩
/-- The outputs of row `r` of a tile. -/
def drainRowOut (s : State) (p c : Nat) (t : Tile) (r : Nat) : List DrainOut :=
  let row := t.rows.getD r []
  (List.range row.length).map (fun e => drainElem s p c t (row.getD e { v := 0 }) e)
/-- The items that the suspect outputs of row `r` mark, by ITEM_AXIS (R89). `bad` tells which elements are suspect. -/
def suspectItems (t : Tile) (r : Nat) (bad : List Bool) : List Nat :=
  let ws := t.ins.words
  let b := fld (wd ws 13) 15 0
  let hit := (List.range bad.length).filter (fun e => bad.getD e false)
  if hit = [] then [] else
  match fld (wd ws 0) 7 6 with
  | 1 => [b + r]
  | 2 => (hit.map (fun e => b + halfCols ws * t.half + (if t.cplx then e / 2 else e))).eraseDups
  | _ => [b]
/-- Marks of row `r` (R40, R43, R48, R51, R58, R89). -/
def markRow (s : State) (c : Nat) (t : Tile) (r : Nat) (outs : List DrainOut) : State :=
  let row := t.rows.getD r []
  let j := t.ins.job
  let flag (e : Nat) : Bool :=
    let l := row.getD e { v := 0 }
    let o := outs.getD e ⟨0, false, false⟩
    l.lsat || l.win || l.nf || o.sat || o.ls
  let s := blame s j 3 (suspectItems t r (row.map LSum.nf))
  let s := markItems s j 1 (suspectItems t r ((List.range row.length).map flag)) (some c)
  if t.rows.any (fun q => q.any LSum.fe) then markItems s j 2 (tileItems t.ins.words) (some c) else s
/-- The bytes of a drained row. -/
def rowBytes (t : Tile) (outs : List DrainOut) : List Byte :=
  outs.flatMap (fun o => natLe (fmtOut t.ins.words).bytes o.bits)
/-- Write a row to scratchpad under the firewall (R89); data of an earlier mismatch that it covers is gone. -/
def storeRow (s : State) (p c : Nat) (t : Tile) (r : Nat) (outs : List DrainOut) : State :=
  let (a, n) := outRow t.ins.words (cherry s c) t.half r
  let bad := deniedLines s p c a n
  let lead := leadOf s c
  let s := setClu s lead { clu s lead with bad := (clu s lead).bad.filter (fun q => !decide (a ≤ q.1 ∧ q.1 + q.2 ≤ a + n)) }
  let s := unitWrite s p c a (rowBytes t outs)
  unitDeny s t.ins.job p c bad true (tileItems t.ins.words)
/-- The column mask of a rounded strip or of strip `part` of a row of `n` partials (R117). -/
def colMask (part : Option Nat) (n : Nat) : BitVec 128 :=
  match part with
  | none => BitVec.ofNat 128 (2 ^ n - 1)
  | some q => BitVec.ofNat 128 (2 ^ (2 * Nat.min 64 (n - 64 * (q / 2))) - 1)
/-- Lanes of strip `part` of a row: rounded elements, or the words of its partials as a register pair lays them out
(R103, R117). -/
def stripLanes (t : Tile) (outs : List DrainOut) (part : Option Nat) : List Word :=
  match part with
  | none => (List.range 128).map (fun e => match outs[e]? with | some o => laneOfMem (fmtOut t.ins.words) o.bits | none => 0)
  | some q => (List.range 128).map (fun e => match outs[64 * (q / 2) + e / 2]? with
      | some o => w32 (o.bits / 2 ^ (32 * (e % 2 + 2 * (q % 2))))
      | none => 0)
/-- The entry of one strip. -/
def stripEnt (t : Tile) (outs : List DrainOut) (step : Nat) : FtqEnt :=
  let ws := t.ins.words
  let part := if tileOut ws = 7 then some (step % 4) else none
  { tag := tileTag ws, row := if tileOut ws = 7 then step / 4 else step, part := part.getD 0, type := tileOut ws
    colmask := colMask part outs.length, last := decide (step + 1 = t.steps), tile := t.id
    verdict := .pending [t.id], lanes := stripLanes t outs part }
/-- Put strips into the queue until the row ends or no entry is free (R82, R117); the count of strips that went. -/
def pushStrips (t : Tile) (outs : List DrainOut) : Nat → Nat → List FtqEnt → List FtqEnt × Nat
  | 0, step, q => (q, step)
  | n + 1, step, q => if q.length ≥ 8 then (q, step) else pushStrips t outs n (step + 1) (q ++ [stripEnt t outs step])
/-- Replace the first tile of a cluster that has still to drain. -/
def setDraining (s : State) (c : Nat) (t : Tile) : State :=
  setClu s c { clu s c with tiles := updFirst (fun u => !u.done) (fun _ => t) (clu s c).tiles }
/-- The end of a tile's drain: TILE_COUNT, and SATCTR in one addition (R64, R98). -/
def drainEnd (s : State) (c p : Nat) (t : Tile) : State :=
  let s := wrapRg s MXE_TILE_COUNT c 0 1
  if tileOut t.ins.words = 7 ∨ t.sats = 0 then s
  else match job? s t.ins.job with
    | none => s
    | some x => match jobObj s x (fld (wd t.ins.words 12) 15 0) with
      | some o => hwUpdate s p o (clHandle s c) false (w32 t.sats)
      | none => s
/-- One row of the oldest tile of cluster `c` that has still to drain. -/
def drainStep (s : State) (c : Nat) : State :=
  match (clu s c).tiles.find? (fun t => !t.done) with
  | none => s
  | some t =>
    let ws := t.ins.words
    let p := ownerOf s 16 c
    let r := t.rowsDone
    let empty := decide (t.rows.getD r [] = [])
    if tileDest ws ∧ !empty ∧ (clu s c).ftq.length ≥ 8 then wrapRg s VXE_FTQ_HOLD c 0 1
    else
      let outs := drainRowOut s p c t r
      let fresh := decide (t.drained = r) || decide (t.drained % 4 = 0)
      let s := if !fresh then s
        else
          let s := markRow s c t r outs
          let s := if outs.any DrainOut.ls then raise s 16 c 1 else s
          let rb := rsclRange ws (cherry s c) t.half
          if r = 0 ∧ tileRscl ws then unitDeny s t.ins.job p c (deniedLines s p c rb.1 rb.2) false (tileItems ws) else s
      let n := (outs.filter DrainOut.sat).length
      let sats := if fresh then t.sats + n else t.sats
      let left := if t.steps = tileM ws then 1 else 4 - t.drained % 4
      let s := if empty then setDraining s c { t with drained := t.drained + left }
        else if tileDest ws then
          let (q, k) := pushStrips t outs left t.drained (clu s c).ftq
          let s := setClu s c { clu s c with ftq := q }
          setDraining s c { t with drained := k, sats := sats }
        else setDraining (storeRow s p c t r outs) c { t with drained := t.drained + 1, sats := sats }
      let u := { t with drained := t.drained + left, sats := sats }
      if u.done ∧ ((clu s c).tiles.find? (fun v => decide (v.id = t.id))).any Tile.done then drainEnd s c p u else s
/-- DRAIN_ROW. -/
def execDrainRow (c : Nat) (s : State) : Host.Outcome State Fault Refusal := .next (afterEngine (drainStep s c) c)

/-! ### CHECKSUM_VERDICT (R91-R95) -/

/-- A sum in the 104 bits of a checksum register. -/
def cs104 (x : Int) : Int := wrapS 104 x
/-- The bank value of a visible sum. -/
def bankVal (t : Tile) (r j part : Nat) : Int :=
  ((t.rows.getD r []).getD (if t.cplx then 2 * j + part else j) { v := 0 }).v
/-- What faults outside M × N add to a column or a row of the bank. -/
def outsideSum (t : Tile) (col : Bool) (n part : Nat) : Int :=
  (t.outside.map (fun f => match f.site with
    | .cell a b =>
      let (r, j, im) := faultSum t.cplx a b
      if (if col then j else r) = n ∧ b2n im = part then f.delta else 0
    | _ => 0)).sum
/-- Parts of a tile's sums: one, or real and imaginary. -/
def tileParts (t : Tile) : List Nat := if t.cplx then [0, 1] else [0]
/-- Columns of a part whose sum is unequal. -/
def badCols (t : Tile) (part : Nat) : List Nat :=
  (List.range (halfCols t.ins.words)).filter (fun j =>
    decide (cs104 (((List.range t.rows.length).map (fun r => bankVal t r j part)).sum + outsideSum t true j part) ≠
      cs104 ((t.csRow.getD part []).getD j 0)))
/-- Rows of a part whose sum is unequal. -/
def badRows (t : Tile) (part : Nat) : List Nat :=
  (List.range (halfCols t.ins.words)).filter (fun r =>
    decide (cs104 (((List.range ((t.rows.getD r []).length / (tileParts t).length)).map
        (fun j => bankVal t r j part)).sum + outsideSum t false r part) ≠ cs104 ((t.csCol.getD part []).getD r 0)))
/-- Lowest of a list, 0x80 for none. -/
def lowIdx (l : List Nat) : Nat := l.foldl Nat.min 0x80
/-- FAULT_LOC of a mismatch (R99). -/
def faultLoc (t : Tile) : Word :=
  let rows := ((tileParts t).flatMap (badRows t)).eraseDups
  let cols := ((tileParts t).flatMap (badCols t)).eraseDups
  let mis (q : Nat) : Nat := b2n (t.cplx && decide (badRows t q ≠ [] ∨ badCols t q ≠ []))
  w32 (2 ^ 31 + b2n t.cplx * 2 ^ 30 + mis 1 * 2 ^ 29 + mis 0 * 2 ^ 28 + lowIdx rows * 2 ^ 16 + lowIdx cols * 2 ^ 8 +
    Nat.min 15 rows.length * 16 + Nat.min 15 cols.length)
/-- Is the comparison skipped (R48, R51)? -/
def csumSkipped (t : Tile) : Bool := t.rows.any (fun r => r.any (fun l => l.lsat || l.win))
/-- Does the comparison find a mismatch? -/
def mismatched (t : Tile) : Bool := (tileParts t).any (fun q => decide (badRows t q ≠ [] ∨ badCols t q ≠ []))
/-- What a verdict makes of a state that waits for tile `id` (R734). -/
def VState.arrive (v : VState) (id : Nat) (bad : Bool) : VState :=
  match v with
  | .mismatch => .mismatch
  | .pending l => if id ∈ l then (if bad then .mismatch else .pending (l.filter (fun i => decide (i ≠ id)))) else .pending l
/-- A verdict reaches the queue and the registers of one vector engine. -/
def arriveAt (s : State) (id : Nat) (bad : Bool) (h : Nat) : State :=
  let x := clu s h
  let up (e : Nat × Option VState) : List (Nat × Option VState) :=
    match e.2 with
    | none => []
    | some v => match v.arrive id bad with | .pending [] => [] | w => [(e.1, some w)]
  setClu s h { x with ftq := x.ftq.map (fun e => { e with verdict := e.verdict.arrive id bad }), vst := x.vst.flatMap up }
/-- Items that a dependent names: its own, or every open item of the job. -/
def Dep.idxs (d : Dep) (x : Job) : List Nat := if d.all then x.open else d.items
/-- Fail what depends on a mismatched tile (R92, R93, R120). -/
def failDeps (s : State) (c : Nat) (t : Tile) : State :=
  match job? s t.ins.job with
  | none => s
  | some x =>
    let idxs := tileItems t.ins.words ++ t.deps.flatMap (fun d => d.idxs x)
    markItems (blame s t.ins.job 2 idxs) t.ins.job 2 idxs (some c)
/-- What a mismatch does (R92, R94, R95). -/
def onMismatch (s : State) (c : Nat) (t : Tile) : State :=
  let loc := faultLoc t
  let clear := !bit (rg s (16 * 4096 + HDR_EVT) c 0) 0
  let s := if clear then setRg (setRg s MXE_FAULT_LOC c 0 loc) MXE_FAULT_TAG c 0 (w32 (tileTag t.ins.words)) else s
  let (slot, gen, p, n) := match job? s t.ins.job with
    | some x => (x.slot, x.gen, x.part, x.fresh (tileItems t.ins.words ++ t.deps.flatMap (fun d => d.idxs x)))
    | none => (0, 0, ownerOf s 16 c, 0)
  let s := failDeps s c t
  let s := raise s 16 c 0
  let s := logErr s 0x1C 0 0 p (clHandle s c) (w32 (c * 256 + slot)) (w32 gen) loc (w32 (n * 2 ^ 16 + tileTag t.ins.words))
  let s := satFld s MXE_REPAIR_CNT c 0 7 0
  let s := setClu s c { clu s c with decayAt := s.tmu.ticks }
  let lead := leadOf s c
  let s := setClu s lead { clu s lead with
    bad := (clu s lead).bad ++ outRanges t.ins.words (cherry s c) t.half 0 }
  let limit := fld (rg s MXE_REPAIR_LIMIT c 0) 7 0
  if limit ≠ 0 ∧ fld (rg s MXE_REPAIR_CNT c 0) 7 0 ≥ limit then
    let s := raise s 16 c 7
    if s.units.leaving.any (fun e => decide (e.1 = c)) then s
    else { s with units := { s.units with leaving := s.units.leaving ++ [(c, 1)] } }
  else s
/-- The verdict of the oldest tile of cluster `c`, once it has drained. -/
def verdictStep (s : State) (c : Nat) : State :=
  match (clu s c).tiles with
  | [] => s
  | t :: rest =>
    if !t.done then s
    else
      let s := setClu s c { clu s c with tiles := rest }
      let skip := csumSkipped t
      let bad := !skip && mismatched t
      let s := if skip then satRg s MXE_CSUM_SKIP c 0 1 else s
      let s := (halves s c).foldl (fun s h => arriveAt s t.id bad h) s
      if bad then onMismatch s c t else s
/-- CHECKSUM_VERDICT. -/
def execChecksumVerdict (c : Nat) (s : State) : Host.Outcome State Fault Refusal :=
  .next (afterEngine (verdictStep s c) c)

/-- REPAIR_DECAY: a period without a mismatch has passed (R95). -/
def execRepairDecay (c : Nat) (s : State) : Host.Outcome State Fault Refusal :=
  .next (
    let d := (rg s MXE_REPAIR_DECAY c 0).toNat
    let n := fld (rg s MXE_REPAIR_CNT c 0) 7 0
    if d = 0 ∨ n = 0 ∨ !passed s (clu s c).decayAt (d * 1000000) then s
    else setClu (setRg s MXE_REPAIR_CNT c 0 (w32 (n - 1))) c { clu s c with decayAt := s.tmu.ticks })

end Sys2Proof.Machine
end

