-- ==== Sys2Proof/Machine/Rotor.lean ====
section
/-! DEFINITION. The self-test rotor (21 R614-R620). -/

namespace Sys2Proof.Machine

open Sys2Proof

/-- Books of a physical cluster. -/
def rotOf (s : State) (c : Nat) : Rot := tgetD {} s.safe.rot c
/-- Replace them. -/
def setRot (s : State) (c : Nat) (r : Rot) : State := { s with safe := { s.safe with rot := tsetD {} s.safe.rot c r } }
/-- The clusters that a slice on `c` tests: both of a joined pair (R614). -/
def sliceOf (s : State) (c : Nat) : List Nat := if cherry s c then [c / 2 * 2, c / 2 * 2 + 1] else [c]
/-- S of R614 in ns: 150 µs at divider 4. -/
def sliceNs (s : State) (c : Nat) : Nat := 150000 * (match logOf s c with | some l => divOf s l | none => 4) / 4
/-- Is a cluster one that takes slices: in service, or waiting for one to return (23 R662)? -/
def takesSlices (s : State) (c : Nat) : Bool :=
  decide (c < Config.clusters) && (!decide (c ∈ s.units.out) || (rotOf s c).returning)
/-- Nanoseconds since a cluster's latest passing slice. -/
def sincePass (s : State) (c : Nat) : Nat := sinceNs s (rotOf s c).passAt
/-- The RADIO or SAFETY job, or the edge job, on a cluster. -/
def jobThere (s : State) (c : Nat) : Option Job := (clu s c).job.bind (job? s)
/-- Time until the next floor window on a logical cluster; none without one. A window of partition 0 that opens now is the one that the
slice may run in, and not the next (R615, R616). -/
def nextFloor (s : State) (l : Nat) : Option Nat :=
  (((List.range 64).filter (fun w => (floorWin s l w).isSome)).map (fun w =>
    if untilWindow s l w = 0 ∧ (floorWin s l w).map (fun x => x.1) = some 0 then floorPeriod s l else untilWindow s l w)).min?
/-- Does a floor window on the cluster start before a slice that begins now ends? -/
def floorSoon (s : State) (c S : Nat) : Bool :=
  if (rotOf s c).handed.isSome then false
  else match logOf s c with
    | some l => decide (floorMode s l ≠ 0) && (match nextFloor s l with | some t => decide (t < S) | none => false)
    | none => false
/-- Is a floor window of partition 0 open on the cluster? -/
def testWindow (s : State) (c : Nat) : Bool :=
  match logOf s c with
  | some l => decide (floorMode s l ≠ 0) && (List.range 64).any (fun w => inWindow s l w &&
      (match floorWin s l w with | some (q, _, _) => decide (q = 0) | none => false))
  | none => false
/-- ROTOR_SLICE on cluster `c`: at an opportunity of R615 the slice starts, or an edge job is asked to yield for it. -/
def rotorSlice (s : State) (c : Nat) : State :=
  let cs := sliceOf s c
  let S := sliceNs s c
  let busy := cs.any (fun k => match jobThere s k with | some x => isRS s x.part | none => false)
  let soon := cs.any (fun k => floorSoon s k S)
  if !cs.all (fun k => takesSlices s k && domOn s k && domOn s (18 + k) && !decide (k ∈ s.units.testing)) || busy then s
  else if testWindow s c && soon then satRg s SYS_ROT_DEFER 0 c 1
  else if testWindow s c || (cs.any (fun k => decide (4000000 ≤ sincePass s k + 1850000 + S)) && !soon) then
    if cs.any (fun k => (clu s k).job.isSome) then
      reconsider { s with units := { s.units with wanting := (s.units.wanting ++ cs).eraseDups } }
    else startSlice s cs
  else s
/-- ROTOR_SLICE. -/
def execRotorSlice (c : Nat) (s : State) : Host.Outcome State Fault Refusal := .next (rotorSlice s c)
/-- A cluster has passed: its due time moves on, its index may return, and one that waited for its slice is a spare (R617, 23 R662). -/
def slicePass (s : State) (c : Nat) : State :=
  let r := rotOf s c
  let s := satRg s SYS_ROT_PASS 0 c 1
  let s := setRot s c { r with passAt := s.tmu.ticks, passNs := nowNs s, untested := false, ran := [], back := r.handed.isSome, returning := false }
  if r.returning then
    serviceRec { s with units := { s.units with out := s.units.out.filter (fun k => decide (k ≠ c)), spares := s.units.spares ++ [c] } }
      2 1 0 c 6 0xFF 0xFF
  else s
/-- A cluster has failed: it leaves at the next slot boundary, and what ran on it since the slice before is marked failed (R619). -/
def sliceFail (s : State) (c : Nat) : State :=
  let r := rotOf s c
  let s := raise (satRg s SYS_ROT_FAIL_CNT 0 c 1) 0 0 14
  let s := logErr s 0x18 1 0 0 (w32 c) (w32 (r.passNs % 1000000000)) (w32 (r.passNs / 1000000000)) 0 0
  let s := r.ran.foldl (fun s q => match job? s q.1 with
    | some x => if x.part = q.2 then markItems s q.1 2 x.open none else s
    | none => s) s
  let s := ((r.ran.map (fun q => q.2)).eraseDups).foldl (fun s p => trigger s p 1) s
  if r.returning then s else { s with units := { s.units with leaving := s.units.leaving ++ [(c, 2)] } }
/-- ROTOR_SLICE_END: the slice that runs on `c` ends after S; `pass` says how `c` did, and a joined partner passes. -/
def rotorSliceEnd (s : State) (c : Nat) (pass : Bool) : State :=
  match (rotOf s c).start with
  | none => s
  | some t =>
    if c ∉ s.units.testing ∨ passed s t (sliceNs s c) = false then s
    else
      let cs := (sliceOf s c).filter (fun k => decide (k ∈ s.units.testing))
      let s := { s with units := { s.units with testing := s.units.testing.filter (fun k => !decide (k ∈ cs)) } }
      let s := cs.foldl (fun s k => setRot s k { rotOf s k with start := none }) s
      let s := (cs.filter (fun k => decide (k ≠ c))).foldl slicePass s
      reconsider (if pass then slicePass s c else sliceFail s c)
/-- ROTOR_SLICE_END. -/
def execRotorSliceEnd (c : Nat) (pass : Bool) (s : State) : Host.Outcome State Fault Refusal := .next (rotorSliceEnd s c pass)
/-- Spares that may take over work: free, and passed within the last 4 ms (R617, R620). -/
def readySpares (s : State) : List Nat :=
  (List.range Config.clusters).filter (fun k => decide (k ∈ s.units.spares) && !decide (k ∈ s.units.testing) && (clu s k).job.isNone &&
    !(rotOf s k).untested && decide (sincePass s k ≤ 4000000))
/-- One logical index moves to a spare. -/
def handOne (s : State) (q : Nat × Nat) : State :=
  match logOf s q.1 with
  | none => s
  | some l =>
    let s := setRot s q.1 { rotOf s q.1 with handed := some (l, q.2), back := false }
    let s := setMap { s with units := { s.units with spares := s.units.spares.filter (fun k => decide (k ≠ q.2)) } } l (some q.2)
    raise (logErr (bumpRemap (partPairs s) l) 0x18 3 0 0 (w32 q.1) (w32 q.2) 0 0 0) 0 0 16
/-- HANDOVER of cluster `c`: its slice has not started by due − 1,350 µs − S; it and a joined partner move to spares, or neither does. -/
def handOver (s : State) (c : Nat) : State :=
  let cs := sliceOf s c
  let late (k : Nat) : Bool := decide (4000000 ≤ sincePass s k + 1350000 + sliceNs s k)
  let able (k : Nat) : Bool := (List.range 16).any (fun l => decide (physOf s l = some k)) && (rotOf s k).handed.isNone &&
    (rotOf s k).start.isNone && !s.units.leaving.any (fun q => decide (q.1 = k)) &&
    !s.safe.rot.any (fun e => decide (e.2.handed.map (fun h => h.2) = some k))
  let sp := readySpares s
  if !cs.any late || !cs.all able || decide (sp.length < cs.length) then s
  else reconsider ((cs.zip sp).foldl handOne s)
/-- HANDOVER. -/
def execHandover (c : Nat) (s : State) : Host.Outcome State Fault Refusal := .next (handOver s c)
/-- ROTOR_LATE: cluster `c` passes its due time untested (R618). -/
def rotorLate (s : State) (c : Nat) : State :=
  let r := rotOf s c
  if !takesSlices s c || r.untested || r.returning || decide (sincePass s c < 4000000) then s
  else
    let s := raise (logErr (setRot s c { r with untested := true }) 0x18 2 0 0 (w32 c) 0 0 0 0) 0 0 15
    match logOf s c with
    | some l => (floorParts s l).foldl (fun s p => trigger s p 2) s
    | none => s
/-- ROTOR_LATE. -/
def execRotorLate (c : Nat) (s : State) : Host.Outcome State Fault Refusal := .next (rotorLate s c)

end Sys2Proof.Machine
end

