-- ==== Sys2Proof/Machine/Security.lean ====
section
/-! DEFINITION. Critical commands (22 R643-R652, 23 R657 R662 R664, 20 R594 R600): partitions, firmware, keys, fuses, repair,
recording, attestation, debug and sessions. -/

namespace Sys2Proof.Machine

open Sys2Proof

/-- A critical command at the head of partition 0's descriptors. -/
def critNext (s : State) (type : Nat) (ok : List Word → Bool) (f : List Word → State → Nat × Word × Word × State) :
    Host.Outcome State Fault Refusal := .next (critical s type ok f)
/-- Completed with OK. -/
def okay (s : State) : Nat × Word × Word × State := (0, 0, 0, s)
/-- FAILED 0x01. -/
def failed (s : State) : Nat × Word × Word × State := (1, 0, 0, s)
/-- REFUSED 0x03. -/
def refused (s : State) : Nat × Word × Word × State := (3, 0, 0, s)

/-! ### Partitions (23 R664) -/

/-- Give or take the page of a partition's host interface. -/
def hifOwner (s : State) (i p : Nat) : State := setRg s (7 * 4096 + HDR_OWNER) i 0 (w32 p)
/-- A slice lies within the partition's object blocks (08 R240, R241). -/
def sliceOk (s : State) (p : Nat) (q : Nat × Nat) : Bool :=
  decide (q.1 + q.2 ≤ Config.objects) &&
    (decide (q.2 = 0) || (List.range ((q.1 + q.2 - 1) / 64 + 1 - q.1 / 64)).all (fun k => decide (objOwner s (q.1 / 64 * 64 + 64 * k) = some p)))
/-- The slices that the parameter block names. -/
def slicesOf (blk : List Byte) : List (Nat × Nat) :=
  (List.range 16).map (fun l => (leNat ((blk.drop (8 * l)).take 4), leNat ((blk.drop (8 * l + 4)).take 4)))
/-- Class of a code of PART_CREATE. -/
def classOf (k : Nat) : PClass := match k with | 1 => .radio | 2 => .safety | _ => .edge
/-- The capability records that show a partition's slices are replaced (00 R24, R27). -/
def bumpSlices (s : State) (l : List (Nat × Nat)) : State :=
  let s := (List.range 16).foldl (fun s k => if (l.getD k (0, 0)).2 = 0 then s else bumpCap (bumpCap s (handle s 1 k)) (handle s 2 (k / 2))) s
  bumpCap s (handle s 3 0)
/-- Injection at the creation of a SAFETY partition (21 R621, R622): a failure that no unit's leaving mends keeps it in the safe state. -/
def startSafety (s : State) (p : Nat) (bad : Option (Nat × Nat)) : State :=
  let (ok, s) := inject s p bad
  if ok then s
  else
    let s := setRg s SYS_SAF_STAT 0 p (setFld (rg s SYS_SAF_STAT 0 p ||| bitW 31) 27 24 6)
    { s with
      disp := { s.disp with resetting := s.disp.resetting ++ [p] }
      safe := { s.safe with resets := s.safe.resets ++ [{ part := p, full := false, trig := 6, since := s.tmu.ticks, inj := true }] } }
/-- A trace that a replay partition names: offset and size in partition 0's region, PARAMS[1-4] (assumption log); size 0 for none. -/
def traceOf (d : List Word) : Nat × Nat := (addr64 (param d 1) (param d 2), addr64 (param d 3) (param d 4))
/-- PART_CREATE's own checks and effect. -/
def createPart (bad : Option (Nat × Nat)) (d : List Word) (s : State) : Nat × Word × Word × State :=
  let w := param d 0
  let p := fld w 4 0
  let cls := classOf (fld w 31 30)
  let l := slicesOf (pblk s d)
  let tr := traceOf d
  let used := s.disp.parts.any (fun e => match e.2 with | some x => decide (x.vf = fld w 28 24 ∧ e.1 ≠ 0) | none => false)
  let noTrace := decide (tr.2 ≠ 0) && (s.trace.replay.isSome || match partRegion s 0 with
    | some r => decide (tr.1 % 4096 ≠ 0 ∨ r.2.1 < tr.1 + tr.2)
    | none => true)
  if (part? s p).isSome ∨ used = true ∨ partRegion s p = none ∨ l.any (fun q => !sliceOk s p q) = true ∨ noTrace = true then refused s
  else
    let x : Part := { cls := cls, vf := fld w 28 24, requireSig := bit w 29 && decide (cls = .edge), slices := l }
    let s := bumpSlices (hifOwner { s with disp := { s.disp with parts := tsetD none s.disp.parts p (some x) } } p p) l
    let s := if tr.2 = 0 then s
      else setRec s { s.trace with replay := some { part := p, base := (match partRegion s 0 with | some r => r.1 | none => 0) + tr.1, size := tr.2 } }
    okay (if cls = .safety then startSafety s p bad else s)
/-- PART_CREATE. -/
def execPartCreate (failedChecker : Option (Nat × Nat)) (s : State) : Host.Outcome State Fault Refusal :=
  critNext s 0x50 (fun d => decide (fld (param d 0) 31 30 ≠ 0 ∧ fld (param d 0) 28 24 ≠ 0 ∧ fld (param d 0) 4 0 ≠ 0 ∧ 128 ≤ (wd d 7).toNat))
    (createPart failedChecker)
/-- The pods of a partition are disabled: EN clears, and their handles leave with the books (07 R227). -/
def clearPods (s : State) (p : Nat) : State :=
  let mine := (List.range Config.pods).filter (fun n => let c := podCfg s n; c.1 && decide (c.2.2.1 = p))
  let s := mine.foldl (fun s n =>
    let s := setRg s PODQ_POD_CFG 0 n (rg s PODQ_POD_CFG 0 n &&& 0x7FFFFFFF)
    setPod s n {}) s
  let s := setOverflow s p []
  setRg (setRg (setRg s PODQ_PART_TOTAL 0 p 0) PODQ_PART_INPODS 0 p 0) PODQ_PART_HELD 0 p 0
/-- The radio and fronthaul books of a partition's cells. -/
def clearCells (s : State) (p : Nat) : State :=
  let cs := cellsOfPart s p
  let s := { s with radio := { s.radio with
    ul := s.radio.ul.filter (fun u => decide (u.part ≠ p))
    dl := s.radio.dl.filter (fun u => decide (u.part ≠ p))
    rx := s.radio.rx.filter (fun u => decide (u.part ≠ p))
    passes := s.radio.passes.filter (fun u => decide (u.part ≠ p)) } }
  cs.foldl (fun s c => setCell ((heldSlots s c).foldl (fun s m => dropSlot s c m) s) c {}) s
/-- The host-interface books of a partition. -/
def clearHost (s : State) (p : Nat) : State :=
  { s with host := { s.host with
    picked := tsetD [] s.host.picked p []
    barWait := s.host.barWait.filter (fun q => decide (q.1 ≠ p))
    staged := tsetD [] s.host.staged p []
    rxbufs := tsetD [] s.host.rxbufs p []
    rxWait := tsetD [] s.host.rxWait p [] } }
/-- What PART_DESTROY does to partition `p`: a FULL reset, then the releases of R664. -/
def destroyPart (s : State) (p : Nat) : State :=
  let s := match s.trace.run with | some r => if r.part = p then recEnd s 3 else s | none => s
  let s := beginReset s p true 0
  let s := match s.safe.resets.find? (fun r => decide (r.part = p)) with | some r => endReset s r | none => s
  let s := releaseGens { s with img := { s.img with gens := s.img.gens.map (fun g => if g.part = p then { g with current := false } else g) } }
  let s := { s with disp := { s.disp with
    tpls := s.disp.tpls.filter (fun e => decide (e.1 / 256 ≠ p))
    tplTodo := s.disp.tplTodo.filter (fun t => decide (t.part ≠ p))
    tplLast := s.disp.tplLast.filter (fun e => decide (e.1 / 256 ≠ p)) } }
  let s := ((liveCtxs s).filter (fun i => decide (fld (ctxWord s i 4) 29 25 = p))).foldl releaseCtx s
  let s := { s with sec := { s.sec with keys := s.sec.keys.filter (fun k => !decide (k.cls = 2 ∧ k.part = p)) } }
  let l := match part? s p with | some x => x.slices | none => []
  let s := clearHost (clearCells (clearPods s p) p) p
  let s := { s with safe := { s.safe with trig := s.safe.trig.filter (fun q => decide (q.1 ≠ p)) } }
  let s := match s.trace.replay with | some r => if r.part = p then setRec s { s.trace with replay := none } else s | none => s
  bumpSlices (hifOwner { s with disp := { s.disp with parts := tsetD none s.disp.parts p none } } p 0) l
/-- PART_DESTROY: refused for partition 0 and for one that does not exist. -/
def execPartDestroy (s : State) : Host.Outcome State Fault Refusal :=
  critNext s 0x51 (fun _ => true) (fun d s =>
    let p := fld (param d 0) 4 0
    if p = 0 ∨ (part? s p).isNone then refused s else okay (destroyPart s p))

/-! ### Firmware (22 R637-R639, 23 R657) -/

/-- Bytes of boot flash. -/
def flashRead (s : State) (a n : Nat) : List Byte := mread 0xFF s.mem.flash a n
/-- A word of boot flash. -/
def flashWord (s : State) (a : Nat) : Word := mword 0xFF s.mem.flash a
/-- Where a boot copy begins. -/
def copyBase (k : Nat) : Nat := k * 0x1000000
/-- Where the runtime firmware set of a copy begins: right after its stage-1 body, with a header of the same layout (assumption log). -/
def setBase (s : State) (k : Nat) : Nat := copyBase k + 0x200 + (flashWord s (copyBase k + 0x10)).toNat
/-- SHA-384 of header bytes 0x000-0x09F and the body. -/
def bootDigest (s : State) (a : Nat) : List Byte :=
  sha384 (flashRead s a 0xA0 ++ flashRead s (a + 0x200) (flashWord s (a + 0x10)).toNat)
/-- SVN of the header at `a`. -/
def bootSvn (s : State) (a : Nat) : Nat := (flashWord s (a + 8)).toNat
/-- The checks of R638 on the header at `a`, whose body has at most `lim` bytes and whose SVN is at least `svn`: the code of the first
that fails, or 0. -/
def judgeBoot (s : State) (a lim svn : Nat) : Nat :=
  let n := (flashWord s (a + 0x10)).toNat
  let k := fld (flashWord s (a + 0x0C)) 1 0
  let x := flashRead s (a + 0x40) 48
  let y := flashRead s (a + 0x70) 48
  if flashWord s a ≠ 0x42314B41 ∨ flashWord s (a + 4) ≠ 1 ∨ lim < n ∨ n ≤ (flashWord s (a + 0x14)).toNat then 2
  else if s.sec.fuses.revoke / 2 ^ k % 2 = 1 ∨ sha384 (x ++ y) ≠ natBe 48 (Config.pkHash k) then 3
  else if bootSvn s a < svn ∨ 64 < bootSvn s a then 4
  else if ecdsaOk (bytesBe x) (bytesBe y) (bootDigest s a) (bytesBe (flashRead s (a + 0xA0) 48)) (bytesBe (flashRead s (a + 0xD0) 48)) then 0
  else 5
/-- Bytes that a firmware set of copy `k` may have: the copy ends after 16,320 KiB. -/
def setRoom (s : State) (k : Nat) : Nat := copyBase k + 0xFF0000 - (setBase s k + 0x200)
/-- FW_ACTIVATE. -/
def execFwActivate (s : State) : Host.Outcome State Fault Refusal :=
  critNext s 0x52 (fun _ => true) (fun d s =>
    let k := fld (param d 0) 0 0
    let a := setBase s k
    if judgeBoot s a (setRoom s k) s.sec.fuses.svnFw ≠ 0 then failed s
    else okay { s with sec := { s.sec with fwNext := some (k, bootSvn s a, bytesBe (bootDigest s a)) } })

/-! ### Keys (22 R649) -/

/-- MR5 takes up a key: KEY_ID, class and partition. -/
def extendKey (s : State) (k : ImgKey) : State := extendMr s 5 (sha384 (natLe 8 k.id ++ wordsLe [w32 k.cls, w32 k.part]))
/-- KEY_LOAD's own checks and effect. -/
def keyLoad (d : List Word) (s : State) : Nat × Word × Word × State :=
  let w := param d 0
  let b := pblk s d
  let x := bytesBe (b.take 48)
  let y := bytesBe ((b.drop 48).take 48)
  let c := fld w 3 0
  let p := if c = 2 then fld w 12 8 else 0
  let k : ImgKey := ⟨leNat (keyIdOf x y), c, bit w 4, p, x, y⟩
  if !onCurve x y || (decide (c = 2) && (bit w 4 || (part? s p).isNone || decide (pclass s p ≠ .edge))) then refused s
  else match s.sec.keys.find? (fun q => decide (q.id = k.id)) with
    | some q => if q = k then okay s else refused s
    | none =>
      if 64 ≤ s.sec.keys.length then refused s
      else okay (extendKey { s with sec := { s.sec with keys := s.sec.keys ++ [k] } } k)
/-- KEY_LOAD. -/
def execKeyLoad (s : State) : Host.Outcome State Fault Refusal :=
  critNext s 0x53 (fun d => decide ((fld (param d 0) 3 0 = 1 ∨ fld (param d 0) 3 0 = 2) ∧ 96 ≤ (wd d 7).toNat)) keyLoad
/-- KEY_UNLOAD: a key that is not in the table, such as the Ubiawick image key, cannot be unloaded. -/
def execKeyUnload (s : State) : Host.Outcome State Fault Refusal :=
  critNext s 0x54 (fun _ => true) (fun d s =>
    match s.sec.keys.find? (fun q => decide (q.id = addr64 (param d 0) (param d 1))) with
    | none => refused s
    | some k => okay (extendKey { s with sec := { s.sec with keys := s.sec.keys.filter (fun q => decide (q.id ≠ k.id)) } } k))

/-! ### Fuses (22 R635, R650) -/

/-- The present value of a field of FUSE_PROG; CMD_ROOT as its bits. -/
def fuseVal (f : Fuses) (code : Nat) : Nat :=
  match code with
  | 1 => f.revoke | 2 => f.svnBoot | 3 => f.svnFw | 4 => f.cmdRoot.getD 0 | 5 => f.epoch | _ => f.life
/-- Replace it. -/
def fuseSet (f : Fuses) (code v : Nat) : Fuses :=
  match code with
  | 1 => { f with revoke := v }
  | 2 => { f with svnBoot := v }
  | 3 => { f with svnFw := v }
  | 4 => { f with cmdRoot := if v = 0 then none else some v }
  | 5 => { f with epoch := v }
  | _ => { f with life := v }
/-- The target of a FUSE_PROG as the value that its field would have. -/
def fuseTarget (s : State) (d : List Word) : Nat :=
  match (param d 0).toNat with
  | 1 => let r := s.sec.fuses.revoke; let i := (param d 1).toNat; if r / 2 ^ i % 2 = 1 then r else r + 2 ^ i
  | 4 => bytesBe ((pblk s d).take 48)
  | _ => (param d 1).toNat
/-- Is the target at or below the present value, so that nothing is to be programmed? -/
def fuseDone (s : State) (d : List Word) : Bool :=
  let code := (param d 0).toNat
  if code = 4 then decide (fuseTarget s d = 0) else decide (fuseTarget s d ≤ fuseVal s.sec.fuses code)
/-- The refusals of R650. -/
def fuseRefused (s : State) (d : List Word) : Bool :=
  let f := s.sec.fuses
  match (param d 0).toNat with
  | 1 => decide (fuseTarget s d = 15 ∨ (param d 1).toNat = s.sec.keyIdx)
  | 2 => decide (s.sec.svnStage < fuseTarget s d)
  | 3 => decide (s.sec.fwSvn < fuseTarget s d)
  | 4 => decide (f.life ≠ 0) || f.cmdRoot.isSome
  | 6 => decide (fuseTarget s d = 1) && f.cmdRoot.isNone
  | _ => false
/-- Twelve free words as one number (log 2). -/
def freeBits (s : State) : Nat × State :=
  ((List.range 12).foldl (fun v k => v * 2 ^ 32 + (Config.freeWord (s.freeCtr + k)).toNat) 0, { s with freeCtr := s.freeCtr + 12 })
/-- What a field holds when the value read back is wrong: some of the bits are not blown, and which ones is a free value (log 2). -/
def fuseWrong (s : State) (code old target : Nat) : Nat × State :=
  let (r, s) := freeBits s
  if code = 4 then ((r &&& target) % target, s)
  else if code = 1 then (old, s)
  else (old + r % (target - old), s)
/-- FUSE_PROG's own checks and effect; `bad` says that the value read back is wrong. -/
def fuseProg (bad : Bool) (d : List Word) (s : State) : Nat × Word × Word × State :=
  let code := (param d 0).toNat
  let old := fuseVal s.sec.fuses code
  let target := fuseTarget s d
  if fuseDone s d then okay s
  else if fuseRefused s d then refused s
  else
    let (v, s) := if bad then fuseWrong s code old target else (target, s)
    let s := { s with sec := { s.sec with fuses := fuseSet s.sec.fuses code v } }
    let s := if v = old then s else raise (extendMr s 7 (sha384 (wordsLe [w32 code] ++ natLe 48 v))) 2 0 3
    if bad then failed s else okay s
/-- FUSE_PROG. -/
def execFuseProg (readBackBad : Bool) (s : State) : Host.Outcome State Fault Refusal :=
  critNext s 0x55 (fun d =>
    let t := (param d 1).toNat
    match (param d 0).toNat with
    | 1 => decide (t ≤ 3)
    | 2 | 3 | 5 => decide (t ≤ 64)
    | 4 => decide (48 ≤ (wd d 7).toNat)
    | 6 => decide (t ≤ 2)
    | _ => false) (fuseProg readBackBad)

/-! ### Repair (23 R662) -/

/-- KIND, quad and instance of a REPAIR. -/
def repairUnit (d : List Word) : Nat × Nat × Nat := (fld (param d 0) 31 28, fld (param d 0) 15 8, fld (param d 0) 7 0)
/-- Instances of a KIND; lanes of a quad. -/
def instCount (kind : Nat) : Nat := if kind = 1 then Config.clusters else if kind = 9 then 4 else pageInsts (codeOf kind)
/-- KIND, ACTION, quad and instance are in range. -/
def repairOk (d : List Word) : Bool :=
  let (k, q, i) := repairUnit d
  decide (1 ≤ k ∧ k ≤ 9 ∧ fld (param d 0) 27 26 ≠ 3 ∧ i < instCount k) && (decide (k ≠ 9) || decide (q < 20))
/-- Carry out a REPAIR at the head of partition 0's descriptors when it has one of the ACTIONs `acts`. -/
def repair (s : State) (acts : List Nat) (f : State → Nat × Nat × Nat → Nat × Word × Word × State) : State :=
  match headDesc s 0 with
  | none => s
  | some d => if dtype d = 0x56 ∧ fld (param d 0) 27 26 ∉ acts then s else critical s 0x56 repairOk (fun d s => f s (repairUnit d))
/-- Kind 0-3 of a quad in the order of R662, and its number within the kind. -/
def quadOf (q : Nat) : Nat × Nat := if q < 4 then (0, q) else if q < 8 then (1, q - 4) else if q < 16 then (2, q - 8) else (3, q - 16)
/-- Take a unit out: it leaves at the next slot boundary; a lane is switched to its quad's spare slice at once (R659). -/
def takeOut (s : State) (u : Nat × Nat × Nat) : State :=
  let (k, q, i) := u
  if k = 1 then
    let s := setRot s i { rotOf s i with returning := false }
    if i ∈ s.units.out then s else { s with units := { s.units with leaving := s.units.leaving ++ [(i, 6)] } }
  else if k = 9 then laneFault s (quadOf q).1 (quadOf q).2 i 6
  else if (codeOf k, i) ∈ s.units.engOut then
    { s with units := { s.units with engBack := s.units.engBack.filter (fun x => !decide (x.1 = codeOf k ∧ x.2.1 = i)) } }
  else { s with units := { s.units with engLeaving := s.units.engLeaving ++ [(codeOf k, i, 6)] } }
/-- TAKE_OUT_OF_SERVICE; an ACTION that is reserved completes with this row. -/
def execTakeOutOfService (s : State) : Host.Outcome State Fault Refusal :=
  .next (repair s [0, 3] (fun s u => okay (takeOut s u)))
/-- Blow bit `i` of a mask. -/
def blow (m i : Nat) : Nat := m ||| 2 ^ i
/-- Fuse a unit out; none when the lane entry of its quad already holds another lane. -/
def fuseUnit (f : Fuses) (u : Nat × Nat × Nat) : Option Fuses :=
  let (k, q, i) := u
  match k with
  | 1 => some { f with repCl := blow f.repCl i }
  | 2 => some { f with repLdd := blow f.repLdd i }
  | 3 => some { f with repBeq := blow f.repBeq i }
  | 4 => some { f with repEng := blow f.repEng i }
  | 5 => some { f with repEng := blow f.repEng (4 + i) }
  | 6 => some { f with repEng := blow f.repEng (6 + i) }
  | 7 => some { f with repEng := blow f.repEng (8 + i) }
  | 8 => some { f with repEng := blow f.repEng (12 + i) }
  | _ =>
    let e := tgetD 0 f.repLane q
    if e = 0 ∨ e = i + 1 then some { f with repLane := tsetD 0 f.repLane q (i + 1) } else none
/-- TAKE_OUT_AND_FUSE. -/
def execTakeOutAndFuse (s : State) : Host.Outcome State Fault Refusal :=
  .next (repair s [1] (fun s u => match fuseUnit s.sec.fuses u with
    | none => refused s
    | some f => okay (takeOut { s with sec := { s.sec with fuses := f } } u)))
/-- A lane leaves its spare slice, or serves again. -/
def laneBack (s : State) (q i : Nat) : State :=
  match laneSt s q i with
  | none => s
  | some _ =>
    let s := { s with fh := { s.fh with lanes := s.fh.lanes.filter (fun e => !decide (e.1 = q ∧ e.2.1 = i)) } }
    let s := if (quadOf q).1 = 1 then
        let k := 2 * (2 * (quadOf q).2 + i / 2) + i % 2
        { s with ilk := { s.ilk with bad := s.ilk.bad.filter (fun x => decide (x ≠ k)) } }
      else s
    serviceRec s 2 9 q i 6 0xFF 0xFF
/-- RETURN_TO_SERVICE: refused for what is fused; a cluster waits for a passing slice of the rotor. -/
def execReturnToService (s : State) : Host.Outcome State Fault Refusal :=
  .next (repair s [2] (fun s u =>
    let (k, q, i) := u
    let fused := if k = 9 then decide (tgetD 0 s.sec.fuses.repLane q = i + 1) else fusedOut s k i
    if fused then refused s
    else if k = 9 then okay (laneBack s q i)
    else if k = 1 then okay (if i ∈ s.units.out then setRot s i { rotOf s i with returning := true } else s)
    else if (codeOf k, i) ∉ s.units.engOut then okay s
    else okay { s with units := { s.units with engBack := s.units.engBack.filter (fun x => !decide (x.1 = codeOf k ∧ x.2.1 = i)) ++ [(codeOf k, i, 6)] } }))

/-! ### Recording (20 R594, R600) -/

/-- Parameters of REC_START (assumption log): PART and MODE in PARAMS[0] [4:0] and [8], RING_OFF, RING_SIZE, CELLS, CKPT_ADDR as an
offset in partition 0's region, CKPT_COUNT. -/
def recParams (d : List Word) : Nat × Bool × Nat × Nat × List Nat × Nat × Nat :=
  (fld (param d 0) 4 0, bit (param d 0) 8, addr64 (param d 1) (param d 2), addr64 (param d 3) (param d 4),
    (List.range 96).filter (fun c => bit (param d (5 + c / 32)) (c % 32)), addr64 (param d 8) (param d 9), (param d 10).toNat)
/-- The checkpoint list: entries of two words, bit 31 of the first for contexts. -/
def recRanges (s : State) (a n : Nat) : List (Bool × Nat × Nat) :=
  (List.range n).map (fun k => let w := extWord s (a + 8 * k); (bit w 31, fld w 30 0, (extWord s (a + 8 * k + 4)).toNat))
/-- REC_START's own checks and effect. -/
def startRec (d : List Word) (s : State) : Nat × Word × Word × State :=
  let (p, wrap, off, size, cells, ck, n) := recParams d
  match partRegion s 0, partRegion s p with
  | some r0, some rp =>
    let l := recRanges s (r0.1 + ck) n
    let good (q : Bool × Nat × Nat) : Bool :=
      if q.1 then decide (q.2.1 + q.2.2 ≤ 262144) else decide ((q.2.1 + q.2.2) * 4096 ≤ rp.2.1)
    if s.trace.run.isSome ∨ (part? s p).isNone ∨ r0.2.1 < off + size ∨ r0.2.1 < ck + 8 * n ∨ l.all good = false then refused s
    else okay (setRec s { s.trace with run := some { part := p, base := r0.1 + off, size := size, wrap := wrap, cells := cells, ranges := l } })
  | _, _ => refused s
/-- REC_START. -/
def execRecStart (s : State) : Host.Outcome State Fault Refusal :=
  critNext s 0x57 (fun d =>
    let (p, _, off, size, _, _, n) := recParams d
    decide (p ≠ 0 ∧ off % 4096 = 0 ∧ size % 4096 = 0 ∧ 0x4000000 ≤ size ∧ size ≤ 0x1000000000 ∧ n ≤ 64)) startRec
/-- REC_STOP: refused when no recording runs. -/
def execRecStop (s : State) : Host.Outcome State Fault Refusal :=
  critNext s 0x58 (fun _ => true) (fun _ s => if s.trace.run.isNone then refused s else okay (recEnd s 0))

/-! ### Attestation, debug, sessions (22 R642, R648, R652) -/

/-- The part of the report that is signed: bytes 0x000-0x22F. -/
def report (s : State) (nonce : List Byte) : List Byte :=
  let f := s.sec.fuses
  let dbg := s.disp.parts.any (fun e => match e.2 with | some x => x.debug | none => false)
  wordsLe [0x54524B41, 1] ++ deviceId s ++
    wordsLe [w32 (f.life * 2 ^ 30 + s.sec.copy * 2 ^ 29 + b2n dbg * 2 ^ 28), w32 (f.epoch * 2 ^ 16 + f.svnFw * 2 ^ 8 + f.svnBoot), timeSW s, timeNsW s] ++
    nonce ++ (List.range 8).flatMap (mrBytes s) ++ pointBytes (pubKey s.sec.aliasKey)
/-- The certificates that follow it: the alias certificate, and the DeviceID certificate. -/
def certs (s : State) : List Byte :=
  Config.cert s.sec.devKey (pubKey s.sec.aliasKey) ++
    (if s.sec.fuses.life = 2 then Config.cert s.sec.devKey (pubKey s.sec.devKey) else flashRead s 0x1FFF000 1024)
/-- ATTEST's effect; NONCE is PARAMS[0-11], the output buffer PARAMS[12-13], its length PARAMS[14] (assumption log). -/
def attest (d : List Word) (s : State) : Nat × Word × Word × State :=
  let body := report s (wordsLe ((List.range 12).map (param d)))
  let k := Config.nonce s.freeCtr % (bpN - 1) + 1
  let (r, g) := ecdsaSign s.sec.aliasKey (sha384 body) k
  okay (hostWrite { s with freeCtr := s.freeCtr + 1 } (addr64 (param d 12) (param d 13)) (body ++ natBe 48 r ++ natBe 48 g ++ certs s))
/-- ATTEST; it waits while the device may not write host memory. -/
def execAttest (s : State) : Host.Outcome State Fault Refusal :=
  if mayWriteHost s 0 then
    critNext s 0x59 (fun d => decide (4096 ≤ (param d 14).toNat ∧ addr64 (param d 12) (param d 13) ≠ 0)) attest
  else .next s
/-- DEBUG_PART: refused for partition 0, for SAFETY partitions and for one that does not exist. -/
def execDebugPart (s : State) : Host.Outcome State Fault Refusal :=
  critNext s 0x5A (fun _ => true) (fun d s =>
    let p := fld (param d 0) 4 0
    match part? s p with
    | none => refused s
    | some x =>
      if p = 0 ∨ x.cls = .safety then refused s
      else if x.debug then okay s
      else
        let s := { s with disp := { s.disp with parts := tsetD none s.disp.parts p (some { x with debug := true }) } }
        okay (raise (extendMr s 6 (sha384 (wordLe (w32 p)))) 2 0 4))
/-- A new session: CMD_SESSION is drawn, and the accepted counter is 0 (R646). -/
def newSession (s : State) : State :=
  let (w, s) := freeW s
  { s with sec := { s.sec with session := w, ctr := 0 } }
/-- SESSION. -/
def execSession (s : State) : Host.Outcome State Fault Refusal := critNext s 0x5B (fun _ => true) (fun _ s => okay (newSession s))
/-- AUTH_HOLD_END: a second after AUTH_HOLD came into force it lifts (R647). -/
def execAuthHoldEnd (s : State) : Host.Outcome State Fault Refusal :=
  .next (match s.sec.hold with
    | some t => if passed s t 1000000000 then { s with sec := { s.sec with hold := none } } else s
    | none => s)

end Sys2Proof.Machine
end

