-- ==== Sys2Proof/Machine/Replay.lean ====
section
/-! DEFINITION. Replay (20 R601-R603): records of a trace take effect in a replay partition. -/

namespace Sys2Proof.Machine

open Sys2Proof

/-! ### START and CHECKPOINT, as they stand in the trace (R596, R597, R601) -/

/-- Type and body of the record at offset `o` of a trace at `base`, and the bytes that it takes; a body continues in the records that
follow it with bit 0 of their first word set. -/
def traceRec (s : State) (base : Nat) : Nat → Nat → Nat × List Byte × Nat
  | 0, _ => (0, [], 0)
  | f + 1, o =>
    let h := extWord s (base + o)
    let n := 16 * fld h 15 0
    let b := extRead s (base + o + 20) (n - 20)
    let more := bit (extWord s (base + o + n + 16)) 0 && decide (fld (extWord s (base + o + n)) 31 24 = fld h 31 24)
    if n < 32 then (0, [], 0)
    else if more then let (_, c, m) := traceRec s base f (o + n); (fld h 31 24, b ++ c, n + m)
    else (fld h 31 24, b, n)
/-- Word `k` of a body. -/
def bodyW (b : List Byte) (k : Nat) : Word := leWord ((b.drop (4 * k)).take 4)
/-- Every image that START names is registered in its slot with the same IMAGE_ID. -/
def imagesMatch (s : State) (p : Nat) (b : List Byte) : Bool :=
  (List.range (bodyW b 2).toNat).all (fun k =>
    let slot := (bodyW b (3 + 3 * k)).toNat
    s.img.gens.any (fun g => g.current && decide (g.part = p ∧ g.slot = slot ∧ gword s g 0x20 = bodyW b (4 + 3 * k) ∧
      gword s g 0x24 = bodyW b (5 + 3 * k))))
/-- The RWS values of START come into force, those of the recorded partition's host page in the replay partition's. -/
def commitStart (s : State) (p : Nat) (b : List Byte) : State :=
  let k0 := 3 + 3 * (bodyW b 2).toNat
  (List.range (bodyW b k0).toNat).foldl (fun s k =>
    let a := (bodyW b (k0 + 1 + 3 * k)).toNat
    let c := a / 0x100000
    let i := if c = 7 then p else a / 0x1000 % 256
    applyEntry s .grid (rkey (c * 4096 + a % 4096) i (bodyW b (k0 + 2 + 3 * k)).toNat, bodyW b (k0 + 3 + 3 * k))) s
/-- One CHECKPOINT is restored: into contexts, or into the partition's region. -/
def restoreRange (s : State) (p : Nat) (b : List Byte) : State :=
  let u := (bodyW b 1).toNat
  let n := (bodyW b 2).toNat
  if bodyW b 0 = 0 then
    match partRegion s p with
    | some r => (extWrite s (handle s 3 0) (r.1 + u * 4096) ((b.drop 12).take (n * 4096))).1
    | none => s
  else (extWrite s (handle s 3 0) (ctxAddr s u 0) ((b.drop 12).take (n * 65536))).1
/-- The CHECKPOINT records from offset `o` on, and how many records they are. -/
def restoreAll (s : State) (p base : Nat) : Nat → Nat → Nat → State × Nat
  | 0, _, k => (s, k)
  | f + 1, o, k =>
    let (ty, b, n) := traceRec s base 65536 o
    if ty = 2 then restoreAll (restoreRange s p b) p base f (o + n) (k + ceilDiv b.length 1048540) else (s, k)
/-- Replay starts, if it has not: the images match, the checkpoint is restored, the RWS values are committed. -/
def replayBegin (s : State) (r : Replay) : Option (State × Replay) :=
  if r.begun then some (s, r)
  else
    let (ty, b, n) := traceRec s r.base 65536 0
    if ty ≠ 1 ∨ bodyW b 0 ≠ 1 ∨ imagesMatch s r.part b = false then none
    else
      let (s, k) := restoreAll (commitStart s r.part b) r.part r.base 65 n (ceilDiv b.length 1048540)
      some (s, { r with begun := true, last := k - 1 })

/-! ### Records (R602) -/

/-- Stage-1 input: a section that was accepted. -/
def replaySection (s : State) (a slot sym prb0 n ant : Nat) (payload : List Byte) : State :=
  let y : RxSect := ⟨a, ant, slot, sym, 0, prb0, n, false, (aUl s a).1, (aUl s a).2, payload⟩
  { s with fh := { s.fh with sects := s.fh.sects ++ [y] } }
/-- One antenna's grid from its bytes: 16-bit I and Q of each subcarrier. -/
def gridVals (bs : List Byte) : Tab (Int × Int) :=
  (List.range (bs.length / 4)).foldl (fun t k => tsetD (0, 0) t k (sgn 16 (leNat ((bs.drop (4 * k)).take 2)), sgn 16 (leNat ((bs.drop (4 * k + 2)).take 2)))) []
/-- Stage-2 input: the grids of a converter cell's symbol, antenna by antenna, and the antennas erased. -/
def replayGrid (s : State) (c slot sym : Nat) (grid : List Byte) (erased : List Nat) : State :=
  let prbs := match (cellOf s c).cfg with | some x => x.prbs | none => 0
  (List.range (rxAnts s c)).foldl (fun s a =>
    putGrid s { cell := c, slot := slot, sym := sym, ant := a, vals := gridVals ((grid.drop (a * prbs * 48)).take (prbs * 48))
                erased := if a ∈ erased then List.range prbs else [] }) s
/-- The template of partition `p` that starts an entry of a slot with these arguments, as far as ARG_SLOT leaves them: its words. -/
def tplFor (s : State) (p entry slot : Nat) (args : List Word) : Option (List Word) :=
  ((s.disp.tpls.filter (fun e => decide (e.1 / 256 = p))).filterMap (fun e => e.2.map (fun t => t.words))).find? (fun ws =>
    decide (fld (wd ws 4) 31 26 = slot ∧ fld (wd ws 4) 15 0 = entry) &&
      (List.range 4).all (fun k => bit (wd ws 12) k || decide (wd ws (8 + k) = wd args k)))
/-- JOBSTART: a job that a DESC record brought is named by it; otherwise a template is instantiated, without a judgement. -/
def replayStart (s : State) (p entry slot unit deadline : Nat) (args : List Word) : State :=
  let named := s.disp.jobs.any (fun e => match e.2 with
    | some x => decide (x.part = p ∧ x.slot = slot ∧ x.entry = entry ∧ x.args = args)
    | none => false)
  match s.img.gens.find? (fun g => g.current && decide (g.part = p ∧ g.slot = slot)), tplFor s p entry slot args with
  | some g, some ws =>
    if named ∨ entryCount g ≤ entry then s
    else match bindEntry s g entry args with
      | none => s
      | some (_, b, s) =>
        let (lv, k, cols) := entryUnit s g entry
        let n := ((List.range 4).find? (fun i => bit (wd ws 12) i)).map (fun i => (wd args i).toNat)
        let x : Job :=
          { part := p, slot := slot, gen := g.gen, entry := entry, cookieLo := wd ws 1, cookieHi := wd ws 2, ring := dring ws
            inst := some (n.getD 0), args := args, deadline := deadline, nitems := fld (wd ws 7) 28 16, scrKib := fld (wd ws 7) 13 0
            budget := b, level := lv }
        let l := fld (wd ws 6) 31 28
        let w := fld (wd ws 6) 27 22
        match placeFloor s x lv k cols l w with
        | some us => enqueue s { x with units := us, win := some (l, w) }
        | none => match hintGroup (w32 unit) k with
          | [] => s
          | us => enqueue s { x with units := us }
  | _, _ => s
/-- A DECISION record (R592): 0 misfit, 5 DEADLINE cause and 6 late request wait for the row that takes the choice; an abort, an expiry
and a rejection are carried out. `job` is the job's, wait's object's or descriptor's number here. -/
def replayDecision (s : State) (r : Replay) (choice job value : Nat) : State :=
  match choice with
  | 1 => match job? s job with
    | some x => if x.part ≠ r.part then s
        else if value = 3 then deadlineAct s job x
        else reconsider (abortJob (schedRec s 2 x) job true true)
    | none => s
  | 2 => match s.sync.waits.find? (fun w => decide (w.id = value ∧ w.obj = job ∧ w.part = r.part)) with
    | some w => expireEntry s w
    | none => (List.range Config.copyEngines).foldl (fun s e => match podCur s e with
        | some d => if d.ins.job = job ∧ d.serial = value ∧ d.podWait.isSome ∧ d.part = r.part then podsChanged (podExpire s e d) else s
        | none => s) s
  | 3 | 4 => match headDesc s r.part with
    | some d => if dtype d = 1 ∧ dseq d = job then dropDesc (rejectJob s r.part d value) r.part else s
    | none => s
  | _ => setRec s { s.trace with replay := some { r with forced := r.forced ++ [(choice, job, value)] } }
/-- What a record does. -/
def replayOne (s : State) (r : Replay) (x : TraceRec) : State :=
  match x with
  | .recorded a slot sym prb0 n ant ok payload => if ok then replaySection s a slot sym prb0 n ant payload else s
  | .convGrid c slot sym grid erased => replayGrid s c slot sym grid erased
  | .desc ws =>
    screenAll { s with host := { s.host with picked := tsetD [] s.host.picked r.part (tgetD [] s.host.picked r.part ++ [ws]) } } r.part
  | .hostRead a bs => setRec s { s.trace with replay := some { r with reads := mwrite 0 r.reads a bs } }
  | .commit pg off sel v => if ownerOf s pg.code pg.inst = r.part then applyEntry s .grid (rkey (pg.code * 4096 + off) pg.inst sel, v) else s
  | .time k v => setRec s { s.trace with replay := some { r with clock := (k, v) } }
  | .remote l off bs => match physOf s l with
    | some c => nsWrite s c off bs
    | none => s
  | .remoteObj o v => if objOwner s o = some r.part then evalObj (objPut s o v (handle s 3 0)) o else s
  | .decision c j v => replayDecision s r c j v
  | .jobStart entry slot _ unit deadline args => replayStart s r.part entry slot unit deadline args
  | .priorWrite a bs => (extWrite s (handle s 3 0) a bs).1
  | .gap _ | .stop _ => setRec s { s.trace with replay := some { r with ended := true } }
/-- REPLAY_RECORD: the next record of the trace, whose content the command carries. -/
def replayRecord (s : State) (x : TraceRec) : State :=
  match s.trace.replay with
  | none => s
  | some r =>
    if r.ended then s
    else match replayBegin s r with
      | none => s
      | some (s, r) =>
        let r := { r with last := r.last + 1 }
        reconsider (replayOne (setRec s { s.trace with replay := some r }) r x)
/-- REPLAY_RECORD. -/
def execReplayRecord (x : TraceRec) (s : State) : Host.Outcome State Fault Refusal := .next (replayRecord s x)
/-- Has job `j` waited for REPLAY_STALL ms? -/
def replayStalled (s : State) (j : Nat) : Bool :=
  let ms := (rg s SYS_REPLAY_STALL 0 0).toNat
  (coresOf s j).any (fun c => s.sync.waits.any (fun w => decide (w.who = .core c) && passed s w.arrived (ms * 1000000))) ||
    (List.range Config.copyEngines).any (fun e => match podCur s e with
      | some d => decide (d.ins.job = j) && (match d.podWait with | some t => passed s t (ms * 1000000) | none => false)
      | none => false)
/-- REPLAY_DIVERGE: job `j` of the replay partition waits and no record is left that could satisfy it (R603). -/
def execReplayDiverge (j : Nat) (s : State) : Host.Outcome State Fault Refusal :=
  .next (match s.trace.replay, job? s j with
    | some r, some x =>
      if x.part ≠ r.part ∨ r.ended ∨ !r.begun ∨ !replayStalled s j then s
      else raise (setRg (setRec s { s.trace with replay := some { r with ended := true } }) SYS_REPLAY_STAT 0 0 (w32 r.last)) 0 0 13
    | _, _ => s)

end Sys2Proof.Machine
end

