-- ==== Sys2Proof/Machine/Time.lean ====
section
/-! DEFINITION. The time unit's commands (16 R495 R501 R505-R509 R737): rate, phase, HOLD, TIME_SET, the watchdog and the end of a
slew. -/

namespace Sys2Proof.Machine

open Sys2Proof

/-- A TIME record of the trace (20 R597): 0 FREQ_ADJ, 1 PHASE_ADJ, 2 TIME_SET, 3 free run begins, 4 free run ends; and a value. -/
def timeRec (s : State) (kind : Nat) (v : Int) : State :=
  match s.trace.run with
  | some r => recordW s r.part 8 [w32 kind, w32 (wrapN 32 v), w32 (wrapN 32 (v / 2 ^ 32))]
  | none => s
/-- Free run begins, unless it has already (R508, R737): a slew stops with its remainder. -/
def enterFreeRun (s : State) (cause : Nat) : State :=
  if s.tmu.freeRun then s
  else raise (timeRec { s with tmu := { s.tmu with freeRun := true, cause := cause, slewing := false } } 3 cause) 3 0 2
/-- May a write end free run: HOLD is clear, and no reference is being waited for (R509)? -/
def mayEnd (s : State) : Bool := !bit (rg s TMU_TMU_CTL 0 0) 31 && s.pwr.holdAt.isNone
/-- Free run ends, with the last FREQ_ADJ, and what is left in PHASE_LEFT slews (R509). -/
def endFreeRun (s : State) : State :=
  timeRec { s with tmu := { s.tmu with freeRun := false, rate := freqReg s, slewing := decide (s.tmu.phaseLeft ≠ 0), servoT0 := s.tmu.ticks } } 4 0
/-- After a servo write: free run ends, or the write waits, or it comes into force (R505, R737). -/
def servoWrite (s : State) : State :=
  let s := { s with tmu := { s.tmu with servoT0 := s.tmu.ticks } }
  if s.tmu.freeRun then (if mayEnd s then endFreeRun s else s)
  else { s with tmu := { s.tmu with rate := freqReg s, slewing := decide (s.tmu.phaseLeft ≠ 0) } }
/-- A number held within the bound of R505. -/
def clampRate (v : Int) : Int := max (-rateMax) (min rateMax v)
/-- A write to FREQ_ADJ. -/
def freqWrite (s : State) (v : Word) : State :=
  let r := clampRate v.toInt
  let s := setRg s TMU_FREQ_ADJ 0 0 (BitVec.ofInt 32 r)
  let s := if r = v.toInt then s else raise s 3 0 3
  servoWrite (timeRec s 0 r)
/-- A write to PHASE_ADJ: it replaces the slew in progress. -/
def phaseWrite (s : State) (v : Word) : State :=
  servoWrite (timeRec { s with tmu := { s.tmu with phaseLeft := v.toInt * 2 ^ 40 } } 1 v.toInt)
/-- A write to TMU_CTL (R508). -/
def ctlWrite (s : State) (v : Word) : State :=
  let s := setRg s TMU_TMU_CTL 0 0 (v &&& 0x8000FFFF)
  let s := { s with tmu := { s.tmu with servoT0 := s.tmu.ticks } }
  if bit v 31 then enterFreeRun s 2 else s
/-- TX_QUIET (R506). -/
def txQuiet (s : State) : Bool :=
  !s.radio.cells.any (fun e => cellBusy s e.1) && !(List.range 8).any (fun k => linkEn s (8 + k)) && !s.fh.pa.any (fun e => e.2)
/-- Add to an instant in ns. -/
def shiftNs (t : Nat) (d : Int) : Nat := ((t : Int) + d).toNat
/-- The time becomes `t`, in units of 2^-40 ns: deadlines and floor windows move with it, and a slew is cancelled (R507). -/
def stepTime (s : State) (t : Nat) : State :=
  let d : Int := ((t / 2 ^ 40 : Nat) : Int) - (nowNs s : Int)
  let s := { s with
    tmu := { s.tmu with time := t, slewing := false, phaseLeft := 0 }
    disp := { s.disp with
      floorShift := s.disp.floorShift + d
      jobs := s.disp.jobs.map (fun e => (e.1, e.2.map (fun x => { x with deadline := shiftNs x.deadline d }))) } }
  syncBooks s
/-- TIME_SET as SET_S_LO, SET_S_HI and SET_NS give it, in ns. -/
def setNs (s : State) : Nat :=
  ((rg s TMU_SET_S_LO 0 0).toNat + fld (rg s TMU_SET_S_HI 0 0) 15 0 * 2 ^ 32) * 1000000000 + (rg s TMU_SET_NS 0 0).toNat
/-- GO of TIME_SET: the time steps, or the step is refused (R506). -/
def timeSetGo (s : State) : State :=
  if txQuiet s then stepTime (timeRec s 2 (setNs s)) (setNs s * 2 ^ 40)
  else raise (logErr s 0x17 4 0 0 0 (rg s TMU_SET_NS 0 0) (rg s TMU_SET_S_LO 0 0) (w32 (fld (rg s TMU_SET_S_HI 0 0) 15 0)) 0) 3 0 1
/-- A write by partition `p` to a register of the time unit's page. -/
def tmuWrite (s : State) (p o : Nat) (f : State → State) : State :=
  let (ok, s) := pageGate s (hostUnit s p) p 3 0 o
  if ok then f s else s
/-- FREQ_ADJ. -/
def execFreqAdj (p : Nat) (v : Word) (s : State) : Host.Outcome State Fault Refusal := .next (tmuWrite s p 0x50 (fun s => freqWrite s v))
/-- PHASE_ADJ. -/
def execPhaseAdj (p : Nat) (v : Word) (s : State) : Host.Outcome State Fault Refusal := .next (tmuWrite s p 0x54 (fun s => phaseWrite s v))
/-- TMU_CTL. -/
def execTmuCtl (p : Nat) (v : Word) (s : State) : Host.Outcome State Fault Refusal := .next (tmuWrite s p 0x5C (fun s => ctlWrite s v))
/-- TIME_SET. -/
def execTimeSet (p : Nat) (s : State) : Host.Outcome State Fault Refusal := .next (tmuWrite s p 0x70 timeSetGo)
/-- SERVO_TIMEOUT: no servo write for as long as TMU_CTL says (R508). -/
def execServoTimeout (s : State) : Host.Outcome State Fault Refusal :=
  let n := fld (rg s TMU_TMU_CTL 0 0) 15 0
  .next (if n ≠ 0 ∧ !s.tmu.freeRun ∧ passed s s.tmu.servoT0 (n * 1000000) then enterFreeRun s 1 else s)
/-- SLEW_END: PHASE_LEFT has reached 0 (R505). -/
def execSlewEnd (s : State) : Host.Outcome State Fault Refusal :=
  .next (if s.tmu.slewing ∧ s.tmu.phaseLeft = 0 then { s with tmu := { s.tmu with slewing := false } } else s)

end Sys2Proof.Machine
end

