-- ==== Sys2Proof/Machine/Reads.lean ====
section
/-! DEFINITION. Reading a register (00 R16, 25 R693-R705 R710 R712, and the register tables of the chapters): the values that the
state holds elsewhere than in the register file, the snapshot's copy (23 R668), the rights (R699) and the reads with a side effect
(R698). Every sub-field is laid out as the register's field map says. -/

namespace Sys2Proof.Machine

open Sys2Proof

/-- A word from fields: value and lowest bit. -/
def word (l : List (Nat × Nat)) : Word := w32 ((l.map (fun f => f.1 * 2 ^ f.2)).sum)
/-- The entry of a list of registers and values. -/
def pick (l : List (Nat × Word)) (r : Nat) : Option Word := (l.find? (fun e => decide (e.1 = r))).map (fun e => e.2)
/-- A bit mask of indices below `n`. -/
def maskOf (n : Nat) (f : Nat → Bool) : Nat := ((List.range n).map (fun i => b2n (f i) * 2 ^ i)).sum
/-- A count held to a field of `w` bits. -/
def upTo (w n : Nat) : Nat := Nat.min (2 ^ w - 1) n
/-- A register of another page under the same selector. -/
def rsel (s : State) (c i o : Nat) : Nat := match regRow? c i o with | some x => selIdx s x c i | none => 0

/-! ### The header (R701-R705, R712) -/

/-- PAGE_CAP (R703): every page captures EVT_COUNT. -/
def pageCap (c i : Nat) : Word :=
  word [(b2n ((regRowsOf c).any (fun x => decide (x.acc = .rws) && (!x.inst0 || decide (i = 0)))), 31), (1, 30), (b2n (fixedOwner c), 29),
        (pageInsts c, 16)]
/-- PAGE_STAT (R705). -/
def pageStat (s : State) (c i : Nat) : Word :=
  word [(b2n (pageOn s c i), 31), (b2n (evtOn s c i), 30), (b2n (pageShadow s c i ≠ [] ∨ (c = 0 ∧ s.units.pairTodo ≠ [])), 29),
        (b2n s.pg.snap.isSome, 28), (if fixedOwner c then 0 else (logOf s i).getD 0xFF, 16)]
/-- COMMIT_STAT (R712). -/
def commitStat (s : State) (c i : Nat) : Word :=
  let x := commitOf s c i
  let w := rg s (c * 4096 + HDR_COMMIT_STAT) i 0
  setFld (setFld w 31 31 (b2n (x.requested || !x.todo.isEmpty || x.held))) 29 29 (b2n x.held)
/-- A register of the header. -/
def hdrVal (s : State) (c i o : Nat) : Word :=
  (pick [(HDR_PAGE_ID, word [(1, 31), (c, 8), (i, 0)]), (HDR_PAGE_VER, 0x100), (HDR_PAGE_CAP, pageCap c i), (HDR_PAGE_STAT, pageStat s c i),
         (HDR_COMMIT_STAT, commitStat s c i)] o).getD (rg s (c * 4096 + o) i 0)

/-! ### Cluster pages -/

/-- CLV_STAT (05 R166): the upper core of a joined pair shows HALTED. -/
def clvStat (s : State) (c : Nat) : Word :=
  let v := (clu s c).clv
  word [(b2n ((clu s c).job.isNone || v.ended || decide (leadOf s c ≠ c)), 31), (b2n v.shadow.isSome, 30), (v.reps.length, 28),
        (v.rotBase.toNat, 23), (v.stall, 20)] ||| (v.cst &&& 0xF7)
/-- FTE_STAT (07 R234): descriptors in flight, gate markers in the two streams, and run slots held. -/
def engStat (s : State) (e : Nat) : Word :=
  let x := engOf s e
  let gates (q : List StreamEnt) : Nat := (q.filter (fun k => match k with | .gate _ => true | .instr .. => false)).length
  let busy (l : List (Nat × Nat)) : Nat := (l.filter (fun r => !slotFree s r)).length
  let m := if e < 18 then gates (clu s e).mxq else 0
  let v := if e < 18 then gates (clu s e).vxq else 0
  word [(x.q.length, 22), (m, 17), (v, 12), (busy x.dram, 8), (busy x.chip, 4)]

/-! ### Shared units -/

/-- A field of the captured wait graph (08 R264). -/
def wgWord (s : State) (f : WgEnt → Word) : Word :=
  match s.sync.wg[(rg s SYU_WG_SEL 0 0).toNat % 1024]? with | some e => f e | none => 0
/-- SYU page. -/
def syuVal (s : State) (r : Nat) : Option Word :=
  pick [(SYU_OBJ_VAL, objVal s (fld (rg s SYU_OBJ_SEL 0 0) 13 0)), (SYU_WAITERS, word [(s.sync.high, 16), (s.sync.waits.length, 0)]),
        (SYU_WG_STAT, word [(b2n s.sync.hold, 31), (b2n s.sync.source, 30), (s.sync.wg.length, 0)]),
        (SYU_WG_WAITER, wgWord s WgEnt.waiter), (SYU_WG_OBJ, wgWord s WgEnt.obj), (SYU_WG_OPERAND, wgWord s WgEnt.operand),
        (SYU_WG_VALUE, wgWord s WgEnt.value), (SYU_WG_LEFT, wgWord s WgEnt.left), (SYU_WG_LASTW, wgWord s WgEnt.lastw)] r
/-- Blocks of contexts that a partition owns (14 R435). -/
def ctxBlocks (s : State) (p : Nat) : Nat := ((List.range 256).filter (fun b => decide (ctxOwner s (b * 1024) = some p))).length
/-- CTX_FREE of a partition (14 R452). -/
def ctxFree (s : State) (p : Nat) : Nat := 1024 * ctxBlocks s p - tgetD 0 s.cxs.active p
/-- CXS page; `p` is the partition selected. -/
def cxsVal (s : State) (r p : Nat) : Option Word :=
  pick [(CXS_AGE_NOW, ageNow s), (CXS_CTX_ACTIVE, w32 (tgetD 0 s.cxs.active p)), (CXS_CTX_FREE, w32 (ctxFree s p)),
        (CXS_SECT_HELD, word [((s.cxs.sects.filter (fun x => decide (x.part = p) && sectPinned s x.ctx x.n)).length, 16), (sectHeld s p, 0)]),
        (CXS_SECT_FREE, w32 (8192 - s.cxs.sects.length))] r
/-- PODQ page; `n` is the pod selected. -/
def podVal (s : State) (r n : Nat) : Option Word :=
  pick [(PODQ_POD_STAT, word [((podOf s n).q.length, 16), ((podOf s n).high, 0)])] r

/-! ### Radio -/

/-- CELL_STAT (11 R378). -/
def cellStat (s : State) (c : Nat) : Word :=
  let x := cellOf s c
  word [(b2n (beqEn s c && (beqHot s c || x.engaged.isSome)), 31), (b2n (x.saff.isNone && x.reset.isNone && x.learnedOff.isNone), 30),
        (x.lastCause, 26), (x.bank, 25), (b2n x.reqSeen, 24)]
/-- UNIT_STAT (11 R351): cells and load in units of 0.1 % of 2,048 complex MACs at 983.04 MHz. -/
def beqStat (s : State) (u : Nat) : Word :=
  word [(((List.range Config.cells).filter (fun c => beqEn s c && decide (beqUnit s c = u))).length, 16),
        (Nat.min 1000 (beqLoad s u * 1000 / 2013265920000), 0)]
/-- LDD_STAT: the iteration that a pass held by the decoder is in, by the time since it started (R406). -/
def lddStat (s : State) (d : Nat) : Word :=
  let it := match tgetD none s.radio.runs d with
    | none => 0
    | some (a, t) => Nat.min 16 (sinceNs s t / Nat.max 1 (lddNs (ceilDiv (passE a) 2)) + 1)
  word [(b2n (lddIn s d), 31), (b2n (decide (d ∈ lddReserved s)), 30), (it, 0)]
/-- LDD pages. -/
def lddVal (s : State) (i r sel : Nat) : Option Word :=
  pick [(LDD_LDD_STAT, lddStat s i), (LDD_POOL_STAT, word [((lddAvail s).length, 16), (upTo 16 s.radio.passes.length, 0)]),
        (LDD_HQ_USED, w32 (hqUsed s sel).length), (LDD_HQ_FREE, w32 (hqEntries s sel - (hqUsed s sel).length))] r
/-- ENG_STAT (R695): the work of a command is done within it, so none is queued. -/
def engState (s : State) (c i : Nat) : Word := word [(b2n (!decide ((c, i) ∈ s.units.engOut)), 31), (b2n (decide ((c, i) ∈ s.units.parked)), 30)]
/-- Does a port type use FEC (15 R456)? -/
def usesFec (s : State) (i : Nat) : Bool :=
  match qmode s (i / 4) with | 0 | 1 | 2 => true | 3 => decide (fld (rg s FHP_PORT_CFG (i / 4 * 4) 0) 27 26 ≠ 0) | _ => false
/-- FHP pages. -/
def fhpVal (s : State) (i r : Nat) : Option Word :=
  pick [(FHP_PORT_STAT, word [(b2n (portUp s i), 31), (b2n (portUp s i && usesFec s i), 30)]), (FHP_FB_FREE, w32 (fbFree s i)),
        (FHP_FB_HELD, word [(fbUsed s i true, 16), (fbUsed s i false, 0)])] r
/-- LINK_STAT: the lanes in sync are those of an enabled link that no fault has taken out, by their place in the link. -/
def linkStat (s : State) (l : Nat) : Word :=
  let x := linkSt s l
  let f := fld (rg s JCL_LINK_CFG 0 l) 25 22
  let lane (k : Nat) : Bool :=
    let g := f + k
    linkEn s l && decide (k < (linkShape s l).1) && decide (laneSt s (quadNo 2 (l / 8 * 4 + g / 4)) (g % 4) ≠ some 1)
  word [(b2n x.aligned, 31), (b2n x.sysref, 30), (x.lat % 2 ^ 14, 16), (maskOf 16 lane, 0)]
/-- AGC_STAT. -/
def agcStat (s : State) (g : Nat) : Word :=
  let x := agcOf s g
  word [(b2n x.frozen, 31), (b2n (decide (x.prach ≠ 0)), 30), (x.gain, 20), (wrapN 4 x.pending, 16), (upTo 16 x.clipLast, 0)]

/-! ### Time, host interface, memory -/

/-- TMU_STAT (16 R514). -/
def tmuStat (s : State) : Word :=
  word [(b2n s.tmu.freeRun, 31), (b2n (s.tmu.slewing && decide (s.tmu.phaseLeft ≠ 0)), 30), (b2n (txQuiet s), 29), (s.tmu.cause, 27)]
/-- TMU page. -/
def tmuVal (s : State) (r : Nat) : Option Word :=
  pick [(TMU_TIME_NS, timeNsW s), (TMU_TIME_FRAC, w32 s.tmu.latchFrac), (TMU_TIME_S_LO, w32 s.tmu.latchS),
        (TMU_TIME_S_HI, w32 (s.tmu.latchS / 2 ^ 32 % 65536)), (TMU_PHASE_LEFT, w32 (wrapN 32 (s.tmu.phaseLeft.tdiv (2 ^ 40)))),
        (TMU_TMU_STAT, tmuStat s), (TMU_FRAME_CNT, w32 (frameCnt s)), (TMU_TSQ_STAT, w32 s.tmu.tsq.length),
        (TMU_TSQ_TAG, match s.tmu.tsq with | [] => 0 | e :: _ => word [(1, 31), (e.1, 16), (e.2.1 % 65536, 0)]),
        (TMU_TSQ_STAMP, match s.tmu.tsq with | [] => 0 | e :: _ => e.2.2)] r
/-- HIF pages; `q` is the ring selected. -/
def hifVal (s : State) (i r q : Nat) : Option Word :=
  pick [(HIF_CQ_TAIL, w32 (ring s i q).tail), (HIF_WIN_HEAD, w32 (tgetD 0 s.host.expect i)), (HIF_STAGE_STAT, w32 (staged s i).length)] r
/-- MEM pages; `b` is the bucket selected. -/
def memVal (s : State) (r b : Nat) : Option Word :=
  pick [(MEM_TOK_ADDED, (bucket s b).added), (MEM_TOK_SPENT, (bucket s b).spent), (MEM_TOK_LOST, (bucket s b).lost),
        (MEM_TOK_LEVEL, w32 (upTo 16 (bucket s b).level))] r

/-! ### SYS, SEC, PWC -/

/-- REC_STAT (20 R606). -/
def recStat (s : State) : Word :=
  let t := s.trace
  let p := match t.run, t.replay with | some r, _ => r.part | none, some r => r.part | none, none => 0
  word [(b2n t.run.isSome, 31), (b2n (t.replay.any (fun r => !r.ended)), 30), (b2n t.wrapped, 29), (p, 0)]
/-- ROT_STAT of a physical cluster (21 R633). -/
def rotStat (s : State) (c : Nat) : Word :=
  let x := rotOf s c
  word [(b2n x.untested, 31), (b2n x.handed.isSome, 30), (upTo 24 (sincePass s c / 1000), 0)]
/-- A PEND word (R710), of the pages that partition `p` may see. -/
def pendWord (s : State) (p c : Nat) : Word :=
  w32 (maskOf (pageInsts c) (fun i => pageExists s c i && evtOn s c i && (decide (p = 0) || decide (ownerOf s c i = p))))
/-- SYS page; `sel` is the register's selector. -/
def sysVal (s : State) (p r sel : Nat) : Option Word :=
  if 0x300 ≤ r ∧ r ≤ 0x378 then some (pendWord s p ((r - 0x300) / 4))
  else
    pick [(SYS_SPILL_STAT, w32 (ceilDiv (spillQueued s) 1024)), (SYS_REC_STAT, recStat s),
          (SYS_REC_RSEQ, w32 (match s.trace.run, s.trace.replay with
            | none, some r => r.last | _, _ => s.trace.seq - s.trace.staged.length - 1)),
          (SYS_REC_BYTES_LO, w32 s.trace.written), (SYS_REC_BYTES_HI, w32 (s.trace.written / 2 ^ 32 % 256)), (SYS_ROT_STAT, rotStat s sel),
          (SYS_SNAP_STAT, setFld (rg s SYS_SNAP_STAT 0 0) 31 31 (b2n s.pg.snap.isSome)), (SYS_ERR_HELD, w32 s.pg.ering.length),
          (SYS_PRST_STAT, w32 (maskOf 32 (fun q => decide (q ∈ s.disp.resetting)))),
          (SYS_FW_STAT, word [(b2n (s.sec.fwNext.isSome || fwWaits s), 31), (s.sec.fwCopy, 30), (s.sec.fwSvn, 0)]),
          (SYS_REP_STAT, w32 (maskOf 18 (fun c => decide (c ∈ s.units.out))))] r
/-- SEC_STAT (22 R653). -/
def secStat (s : State) : Word :=
  let f := s.sec.fuses
  word [(f.life, 30), (s.sec.copy, 29), (b2n (s.disp.parts.any (fun e => e.2.any Part.debug)), 28), (b2n (authHold s), 27), (b2n s.sec.spi, 26),
        (s.sec.codeA, 20), (s.sec.codeB, 16), (f.svnFw, 8), (f.svnBoot, 0)]
/-- SEC page. -/
def secVal (s : State) (r : Nat) : Option Word :=
  let m := rg s SEC_MR_SEL 0 0
  pick [(SEC_SEC_STAT, secStat s), (SEC_DEVICE_ID_LO, leWord ((deviceId s).take 4)), (SEC_DEVICE_ID_HI, leWord ((deviceId s).drop 4)),
        (SEC_CMD_SESSION, s.sec.session), (SEC_CMD_CTR, s.sec.ctr),
        (SEC_KEY_STAT, word [(s.sec.fuses.epoch, 24), (s.sec.fuses.revoke, 8), (s.sec.keys.length, 0)]),
        (SEC_MR_WORD, if fld m 3 0 < 12 then leWord ((mrBytes s (fld m 6 4)).drop (4 * fld m 3 0)) else 0),
        (SEC_DBG_PARTS, w32 (maskOf 32 (fun p => (part? s p).any Part.debug)))] r
/-- REF_STAT (24 R691). -/
def refStat (s : State) : Word :=
  let h := match s.pwr.holdAt with | some t => upTo 16 (sinceNs s t / 1000000000) | none => 0
  word [(b2n (ready s && s.pwr.holdAt.isNone), 31), (b2n s.pwr.holdAt.isSome, 30), (s.pwr.refUse, 28), (b2n (refValid s 0), 27),
        (b2n (refValid s 1), 26), (b2n (refValid s 2), 25), (b2n s.pwr.fsel, 24), (h, 0)]

/-- CAP_ACTIVE: a CAPPED cluster is below its DIV (24 R691). -/
def capActive (s : State) : Bool :=
  (List.range 16).any (fun l => bit (rg s PWC_CLK_CFG 0 l) 31 && (physOf s l).isSome && decide (fld (rg s PWC_CLK_CFG 0 l) 3 0 < divOf s l))

/-! ### A read -/

/-- The value of a block's own register. -/
def blockVal (s : State) (p c i o : Nat) : Word :=
  let r := c * 4096 + o
  let sel := rsel s c i o
  let stored := rg s r i sel
  (match c with
    | 0 => sysVal s p r sel
    | 1 => pick [(PWC_REF_STAT, refStat s), (PWC_PWC_STAT, setFld stored 30 30 (b2n (capActive s)))] r
    | 2 => secVal s r
    | 3 => tmuVal s r
    | 4 => syuVal s r
    | 5 => podVal s r sel
    | 6 => cxsVal s r sel
    | 7 => hifVal s i r sel
    | 8 => memVal s r sel
    | 9 => fhpVal s i r
    | 10 => pick [(JCL_LINK_STAT, linkStat s sel), (JCL_AGC_STAT, agcStat s sel)] r
    | 11 => none
    | 17 => pick [(VXE_FTQ_STAT, w32 (clu s i).ftq.length)] r
    | 18 => pick [(CLV_CLV_STAT, clvStat s i), (CLV_CLV_PC, w32 (clu s i).clv.pc)] r
    | 19 => pick [(FTE_FTE_STAT, engStat s i)] r
    | 20 => pick [(CPE_FTE_STAT, engStat s (18 + i))] r
    | 24 => lddVal s i r sel
    | 25 | 26 | 27 | 28 => if o = 0x40 then some (engState s c i) else none
    | 30 => pick [(BEQ_UNIT_STAT, beqStat s i), (BEQ_CELL_STAT, cellStat s sel)] r
    | _ => none).getD stored
/-- The value that a register shows: a captured one that of the snapshot while it is held (R668), an RWS one its shadow, a
register that can only be written zero (R16). -/
def regVal (s : State) (p c i o : Nat) : Word :=
  let r := c * 4096 + o
  if c = 0 ∧ 0x300 ≤ o ∧ o ≤ 0x378 then pendWord s p ((o - 0x300) / 4)
  else
    match regRow? c i o with
    | none => 0
    | some x =>
      if o ≥ 0x40 ∧ !pageOn s c i then 0
      else
        match x.snap, s.pg.snap with
        | true, some t => tget regReset t (rkey r i (selIdx s x c i))
        | _, _ =>
          match x.acc with
          | .wo | .w1s => 0
          | .rws => shadow s r i (selIdx s x c i)
          | _ => if o < 0x40 then hdrVal s c i o else blockVal s p c i o
/-- May partition `p` read offset `o` of a page (R699, R710)? -/
def mayRead (s : State) (p c i o : Nat) : Bool :=
  decide (p = 0) || decide (p = ownerOf s c i) || decide (o < 0xC) || decide (o = HDR_OWNER) ||
    (decide (c = 0) && decide (0x300 ≤ o) && decide (o ≤ 0x378))
/-- What a read does besides (R698): TIME_NS latches (16 R495), TSQ_STAMP removes the head entry (R501); a READ of an object
changes nothing (08 R253). -/
def readEffect (s : State) (c o : Nat) : State :=
  if c * 4096 + o = TMU_TIME_NS then
    { s with tmu := { s.tmu with latchS := nowNs s / 1000000000, latchFrac := s.tmu.time % 2 ^ 40 / 2 ^ 24 } }
  else if c * 4096 + o = TMU_TSQ_STAMP then { s with tmu := { s.tmu with tsq := s.tmu.tsq.tail } }
  else s
/-- A read by partition `p` of the aligned word at offset `o` of page (c, i). -/
def readReg (s : State) (p c i o : Nat) : Word × State :=
  if !responds s c || !pageExists s c i then (0, s)
  else if !mayRead s p c i o then (0, deny s 3 p (hostUnit s p) (barOff c i o) false)
  else (regVal s p c i o, readEffect s c o)
/-- A read whose answer goes to the requester. -/
def readAndReply (s : State) (p c i o : Nat) : State :=
  let (v, s) := readReg s p c i o
  emit s (.reply v)

/-- TIME_NS: a read by partition `p`. -/
def execTimeNs (p : Nat) (s : State) : Host.Outcome State Fault Refusal := .next (readAndReply s p 3 0 0x40)
/-- TSQ_STAMP: a read by partition `p`. -/
def execTsqStamp (p : Nat) (s : State) : Host.Outcome State Fault Refusal := .next (readAndReply s p 3 0 0xA0)
/-- OBJ_VAL: a read by partition `p`. -/
def execObjVal (p : Nat) (s : State) : Host.Outcome State Fault Refusal := .next (readAndReply s p 4 0 0x4C)

end Sys2Proof.Machine
end

