-- ==== Sys2Proof/Machine/Pages.lean ====
section
/-! DEFINITION. The rows of the register pages (25), the snapshot and its audits (07 R233 R234, 23 R668), the error ring's way to the
host (23 R666), the flash window (23 R658), and every other register write (00 R15-R18, 25 R697). -/

namespace Sys2Proof.Machine

open Sys2Proof

/-! ### Snapshot and audits -/

/-- Is the register behind a key captured by a snapshot? -/
def isSnap (k : Nat) : Bool :=
  let (r, i, _) := keyReg k
  match regRow? (r / 4096) i (r % 4096) with | some x => x.snap | none => false
/-- Captured registers whose value the register file does not hold. -/
def liveSnaps (s : State) : List (Nat × Word) :=
  s.pod.pods.map (fun e => (rkey PODQ_POD_STAT 0 e.1, (podVal s PODQ_POD_STAT e.1).getD 0)) ++
  [(rkey SYU_WAITERS 0 0, (syuVal s SYU_WAITERS).getD 0), (rkey SYS_REC_BYTES_LO 0 0, w32 s.trace.written)] ++
  s.mem.buckets.flatMap (fun e =>
    [(rkey MEM_TOK_ADDED 0 e.1, e.2.added), (rkey MEM_TOK_SPENT 0 e.1, e.2.spent), (rkey MEM_TOK_LOST 0 e.1, e.2.lost)])
/-- The copy of every captured register. -/
def capture (s : State) : Tab Word :=
  (liveSnaps s).foldl (fun t e => tset regReset t e.1 e.2) (s.pg.regs.filter (fun e => isSnap e.1))
/-- Books that do not balance: the event of their page, and a record of type 0x1A (R731). -/
def booksOut (s : State) (reason c i b p lowest : Nat) (expected found : Word) : State :=
  raise (logErr s 0x1A reason 0 p (w32 (c * 256 + i)) (w32 lowest) expected found 0) c i b
/-- Pod books of every partition (07 R227, R234). -/
def auditPods (s : State) : State :=
  if s.pod.transit then setRg s PODQ_AUDIT 0 0 0
  else
    let t (r p : Nat) : Word := rg s r 0 p
    match (List.range 32).find? (fun p => decide (t PODQ_PART_TOTAL p ≠ t PODQ_PART_INPODS p + t PODQ_PART_HELD p)) with
    | none => setRg s PODQ_AUDIT 0 0 0xC0000000
    | some p =>
      booksOut (setRg s PODQ_AUDIT 0 0 (word [(1, 31), (p, 0)])) 1 5 0 0 p p (t PODQ_PART_TOTAL p) (t PODQ_PART_INPODS p + t PODQ_PART_HELD p)
/-- Books of a copy engine (07 R233). -/
def auditEngine (s : State) (e : Nat) : State :=
  let (c, i) := engPage e
  let t (r : Nat) : Word := rg s (c * 4096 + r % 4096) i 0
  let due := t FTE_DESC_ISSUED - t FTE_DESC_DONE - t FTE_DESC_SKIPPED
  let now := w32 (engOf s e).q.length
  if due = now then s else booksOut s 2 c i 2 0 0 due now
/-- Books of the HARQ pool (13 R424). -/
def auditHarq (s : State) : State :=
  match (List.range 32).find? (fun p => decide (hqEntries s p < (hqUsed s p).length)) with
  | none => s
  | some p => booksOut s 3 24 0 3 p p (w32 (hqEntries s p)) (w32 (hqUsed s p).length)
/-- Books of the context store (14 R452): contexts by partition, then sectors. -/
def auditCtx (s : State) : State :=
  let held := ((List.range 32).map (sectHeld s)).sum
  match (List.range 32).find? (fun p => decide (tgetD 0 s.cxs.active p + ctxFree s p ≠ 1024 * ctxBlocks s p)) with
  | some p =>
    booksOut (setRg s CXS_AUDIT 0 0 (word [(1, 31), (p, 0)])) 4 6 0 3 p p (w32 (1024 * ctxBlocks s p)) (w32 (tgetD 0 s.cxs.active p + ctxFree s p))
  | none =>
    if 8192 - s.cxs.sects.length + held = 8192 then setRg s CXS_AUDIT 0 0 0xC0000000
    else booksOut (setRg s CXS_AUDIT 0 0 (word [(1, 31)])) 4 6 0 3 0 0 8192 (w32 (8192 - s.cxs.sects.length + held))
/-- Books of a fronthaul port (15 R473). -/
def auditPort (s : State) (i : Nat) : State :=
  let n := fbUsed s i false + fbUsed s i true
  if fbFree s i + n = fbQuota s i then s else booksOut s 5 9 i 3 0 i (w32 (fbQuota s i)) (w32 (fbFree s i + n))
/-- Credits of a link that has been quiet for 1 µs (19 R577). -/
def auditLink (s : State) (port : Nat) : State :=
  if !passed s (tgetD 0 s.ilk.active port) 1000 then s
  else
    match (List.range 4).find? (fun ch =>
      decide (rg s ILK_CR_OUT port ch ≠ 0 ∨ rg s ILK_CR_AVAIL port ch ≠ rg s ILK_CR_LIMIT port ch)) with
    | none => s
    | some ch => booksOut s 6 11 port 3 0 ch (rg s ILK_CR_LIMIT port ch) (rg s ILK_CR_AVAIL port ch + rg s ILK_CR_OUT port ch)
/-- Token buckets (18 R560): those of the fabric are looked at first. -/
def auditTokens (s : State) : State :=
  match ((List.range 32).map (fun p => 256 + p) ++ List.range 33).find? (fun b => !bucketOk (bucket s b)) with
  | none => setRg s MEM_TOK_AUDIT 0 0 0x80000000
  | some b =>
    booksOut (setRg s MEM_TOK_AUDIT 0 0 (w32 (b % 256))) 7 8 0 4 0 (b % 256) (bucket s b).added
      ((bucket s b).spent + (bucket s b).lost + w32 (bucket s b).level)
/-- Every audit of a snapshot. -/
def audits (s : State) : State :=
  let s := (List.range Config.copyEngines).foldl auditEngine (auditPods s)
  let s := (List.range 16).foldl auditPort (auditCtx (auditHarq s))
  auditTokens ((List.range 8).foldl auditLink s)
/-- The audits' own registers go into the copy as the audits leave them. -/
def withAudits (s : State) (t : Tab Word) : Tab Word :=
  [PODQ_AUDIT, MEM_TOK_AUDIT].foldl (fun t r => tset regReset t (rkey r 0 0) (rg s r 0 0)) t
/-- What every snapshot does besides the copy: the wait graph (08 R263), its time and count, the audits, and high-water marks
that start again. -/
def snapped (s : State) : State :=
  let s := if s.sync.hold then s else captureWg s false
  let w := rg s SYS_SNAP_STAT 0 0
  let s := setRg (setRg s SYS_SNAP_TIME_NS 0 0 (timeNsW s)) SYS_SNAP_TIME_S 0 0 (timeSW s)
  let s := audits (setRg s SYS_SNAP_STAT 0 0 (setFld w 15 0 (fld w 15 0 + 1)))
  let s := setRg (setRg s PXC_QUEUE_PEAK 0 0 0) PXC_QUEUE_PEAK 1 0 0
  { s with
    pg := { s.pg with snapAt := s.tmu.ticks }
    sync := { s.sync with high := s.sync.waits.length }
    pod := { s.pod with pods := s.pod.pods.map (fun e => (e.1, { e.2 with high := e.2.q.length })) } }
/-- TAKE: the copy is made and held. -/
def takeSnapshot (s : State) : State :=
  let t := capture s
  let s := snapped s
  { s with pg := { s.pg with snap := some (withAudits s t) } }
/-- A write to SNAPSHOT. A TAKE while the firmware switches or restarts waits (R657, R688), as the bit that is set. -/
def snapshotWrite (s : State) (v : Word) : State :=
  let s := if bit v 1 then { s with pg := { s.pg with snap := none } } else s
  if !bit v 0 then s
  else if fwWaits s then setRg s SYS_SNAPSHOT 0 0 1
  else takeSnapshot s
/-- A TAKE that waited is carried out. -/
def snapTick (s : State) : State :=
  if bit (rg s SYS_SNAPSHOT 0 0) 0 = true ∧ fwWaits s = false then takeSnapshot (setRg s SYS_SNAPSHOT 0 0 0) else s
/-- A register write by partition `p` that the page lets through. -/
def gated (s : State) (p c i o : Nat) (f : State → State) : State :=
  let (ok, s) := pageGate s (hostUnit s p) p c i o
  if ok then f s else s
/-- TAKE, by partition `p`. -/
def execTake (p : Nat) (s : State) : Host.Outcome State Fault Refusal := .next (gated s p 0 0 0x200 (fun s => snapshotWrite s 1))
/-- RELEASE, by partition `p`. -/
def execRelease (p : Nat) (s : State) : Host.Outcome State Fault Refusal := .next (gated s p 0 0 0x200 (fun s => snapshotWrite s 2))
/-- AUTOMATIC_SNAPSHOT: SNAP_PERIOD ms since the latest snapshot, while none is held and the firmware runs. It does not hold its copy. -/
def execAutomaticSnapshot (s : State) : Host.Outcome State Fault Refusal :=
  let ms := fld (rg s SYS_SNAP_PERIOD 0 0) 15 0
  .next (if ready s ∧ ms ≠ 0 ∧ s.pg.snap.isNone ∧ fwWaits s = false ∧ passed s s.pg.snapAt (ms * 1000000) = true then snapped s else s)
/-- SCAN_TICK (17 R524), with what the safe state, resets and a TAKE that waited do at one. -/
def execScanTick (s : State) : Host.Outcome State Fault Refusal := .next (snapTick (resetTick (safeTick (scanTick s))))

/-! ### The error ring (23 R666) -/

/-- Entries of the host ring. -/
def errSize (s : State) : Nat := 2 ^ fld (rg s SYS_ERR_CFG 0 0) 28 24
/-- Has the host ring room? Like a completion ring it keeps one entry free. -/
def errRoom (s : State) : Bool :=
  bit (rg s SYS_ERR_CFG 0 0) 31 && mayWriteHost s 0 &&
    decide (((rg s SYS_ERR_TAIL 0 0).toNat + 1) % errSize s ≠ (rg s SYS_ERR_HEAD 0 0).toNat % errSize s)
/-- The words of a record. -/
def errWords (r : ErrRec) : List Word := [r.hdr, r.w1, r.w2, r.w3, r.w4, r.w5, r.timeS, r.timeNs]
/-- Once space has freed, the records lost are reported. -/
def reportLost (s : State) : State :=
  if s.pg.dropped = 0 ∨ Config.errRing ≤ s.pg.ering.length then s
  else
    let n := s.pg.dropped
    logErr { s with pg := { s.pg with dropped := 0 } } 0x1A 0xFF 0 0 0 (w32 n) 0 0 0
/-- Copy up to `n` records, the oldest first. -/
def copyErr (s : State) : Nat → State
  | 0 => s
  | n + 1 =>
    match s.pg.ering with
    | [] => s
    | r :: rest =>
      if !errRoom s then s
      else
        let t := (rg s SYS_ERR_TAIL 0 0).toNat
        let a := addr64 (rg s SYS_ERR_BASE_LO 0 0) (rg s SYS_ERR_BASE_HI 0 0) + t % errSize s * 32
        let s := hostWrite s a (wordsLe (errWords r))
        let s := setRg s SYS_ERR_TAIL 0 0 (w32 ((t + 1) % errSize s))
        copyErr (reportLost { s with pg := { s.pg with ering := rest } }) n
/-- The firmware restarts, and the copying of records waits (24 R688); while it only switches, it goes on (R657). -/
def fwRestarts (s : State) : Bool := fwWaits s && (match s.sec.fwBusy with | some (_, ns) => decide (20000 < ns) | none => false)
/-- ERR_RING_COPY. -/
def execErrRingCopy (s : State) : Host.Outcome State Fault Refusal :=
  .next (if ready s ∧ fwRestarts s = false then copyErr s s.pg.ering.length else s)
/-- ERR_HEAD, by partition `p`. -/
def execErrHead (p : Nat) (v : Word) (s : State) : Host.Outcome State Fault Refusal :=
  .next (gated s p 0 0 0x220 (fun s => setRg s SYS_ERR_HEAD 0 0 v))

/-! ### The flash window (23 R658) -/

/-- Do `n` bytes from flash address `a` touch the boot copy that holds the running set, or the certificate sector? -/
def flashShut (s : State) (a n : Nat) : Bool :=
  overlap a n (copyBase s.sec.fwCopy) (16320 * 1024) || overlap a n 0x1FF0000 0x10000
/-- FL_STAT after a write or erase. -/
def flashStat (s : State) (refused : Bool) : State := setRg s SYS_FL_STAT 0 0 (word [(b2n refused, 30)])
/-- Replace bytes of the flash. -/
def flashPut (s : State) (a : Nat) (bs : List Byte) : State := { s with mem := { s.mem with flash := mwrite 0xFF s.mem.flash a bs } }
/-- A write to FL_DATA: programming clears bits; FL_ADDR advances. -/
def flashData (s : State) (v : Word) : State :=
  let a := (rg s SYS_FL_ADDR 0 0).toNat
  let no := flashShut s a 4
  let s := if no then s else flashPut s a (List.zipWith (· &&& ·) (mread 0xFF s.mem.flash a 4) (wordLe v))
  flashStat (setRg s SYS_FL_ADDR 0 0 (w32 (a + 4))) no
/-- Drop the entries of `n` bytes from `a`. -/
def flashWipe (a n : Nat) (m : Mem) : Mem := m.filter (fun c => !decide (a ≤ c.1 ∧ c.1 < a + n))
/-- ERASE of the 64 KiB sector at FL_ADDR. -/
def flashErase (s : State) : State :=
  let a := (rg s SYS_FL_ADDR 0 0).toNat / 65536 * 65536
  let no := flashShut s a 65536
  flashStat (if no then s else { s with mem := { s.mem with flash := flashWipe a 65536 s.mem.flash } }) no
/-- FL_DATA, by partition `p`. -/
def execFlData (p : Nat) (v : Word) (s : State) : Host.Outcome State Fault Refusal := .next (gated s p 0 0 0x244 (fun s => flashData s v))
/-- ERASE, by partition `p`. -/
def execErase (p : Nat) (s : State) : Host.Outcome State Fault Refusal := .next (gated s p 0 0 0x248 flashErase)

/-! ### The header's rows (R706-R713) -/

/-- EVT_FORCE (R707). -/
def forceEvt (s : State) (c i : Nat) (v : Word) : State := setEvt s c i (v &&& w32 (evtMask c i))
/-- PAGE_CTL (R704, R708). -/
def writePageCtl (s : State) (c i : Nat) (v : Word) : State :=
  afterWrite (setRg s (c * 4096 + HDR_PAGE_CTL) i 0 (v &&& 3)) c i
/-- EVT_EN (R708). -/
def writeEvtEn (s : State) (c i : Nat) (v : Word) : State :=
  afterWrite (setRg s (c * 4096 + HDR_EVT_EN) i 0 (v &&& w32 (evtMask c i))) c i
/-- GO of COMMIT (R711). -/
def commitGo (s : State) (c i : Nat) : State := setCommit s c i { commitOf s c i with requested := true }
/-- DISCARD of COMMIT: the shadow becomes the values in force, and a commit not yet judged is withdrawn (R711). -/
def commitDiscard (s : State) (c i : Nat) : State :=
  let mine (k : Nat) : Bool := let (r, j, _) := keyReg k; decide (r / 4096 = c ∧ j = i)
  let s := { s with pg := { s.pg with shadow := s.pg.shadow.filter (fun e => !mine e.1) } }
  let s := if c = 0 ∧ (commitOf s c i).held = false then { s with units := { s.units with pairTodo := [] } } else s
  setCommit s c i { commitOf s c i with requested := false }
/-- A write to COMMIT. -/
def writeCommit (s : State) (c i : Nat) (v : Word) : State :=
  if bit v 1 then commitDiscard s c i else if bit v 0 then commitGo s c i else s
/-- A write to OWNER by partition `p` (R713). -/
def writeOwner (s : State) (p c i : Nat) (v : Word) : State :=
  if p ≠ 0 ∨ fixedOwner c = true then deny s 3 p (hostUnit s p) (barOff c i HDR_OWNER) true
  else setRg s (c * 4096 + HDR_OWNER) i 0 (v &&& 0x1F)
/-- EVT: a write by partition `p` that meets events raised in the same cycle. -/
def execEvt (p : Nat) (pg : Page) (v setSame : Word) (s : State) : Host.Outcome State Fault Refusal :=
  let (ok, s) := pageGate s (hostUnit s p) p pg.code pg.inst HDR_EVT
  let set := setSame &&& w32 (evtMask pg.code pg.inst)
  .next (if ok then writeEvt s pg.code pg.inst v set
    else (List.range 32).foldl (fun s b => if bit set b then raise s pg.code pg.inst b else s) s)
/-- EVT_FORCE. -/
def execEvtForce (p : Nat) (pg : Page) (v : Word) (s : State) : Host.Outcome State Fault Refusal :=
  .next (gated s p pg.code pg.inst HDR_EVT_FORCE (fun s => forceEvt s pg.code pg.inst v))
/-- PAGE_CTL. -/
def execPageCtl (p : Nat) (pg : Page) (v : Word) (s : State) : Host.Outcome State Fault Refusal :=
  .next (gated s p pg.code pg.inst HDR_PAGE_CTL (fun s => writePageCtl s pg.code pg.inst v))
/-- COMMIT. -/
def execCommit (p : Nat) (pg : Page) (s : State) : Host.Outcome State Fault Refusal :=
  .next (gated s p pg.code pg.inst HDR_COMMIT (fun s => commitGo s pg.code pg.inst))
/-- DISCARD. -/
def execDiscard (p : Nat) (pg : Page) (s : State) : Host.Outcome State Fault Refusal :=
  .next (gated s p pg.code pg.inst HDR_COMMIT (fun s => commitDiscard s pg.code pg.inst))
/-- OWNER. -/
def execOwner (p : Nat) (pg : Page) (v : Word) (s : State) : Host.Outcome State Fault Refusal :=
  .next (gated s p pg.code pg.inst HDR_OWNER (fun s => writeOwner s p pg.code pg.inst v))

/-! ### Objects through the SYU page (08 R260) -/

/-- An operation on the object that OBJ_SEL selects, then the dispatcher's choice. -/
def selObj (s : State) (op : Nat) (v : Word) : State :=
  reconsider (objOp s op (fld (rg s SYU_OBJ_SEL 0 0) 13 0) v (hostHandle s) .nothing).2
/-- OBJ_WRITE, by partition `p`. -/
def execObjWrite (p : Nat) (v : Word) (s : State) : Host.Outcome State Fault Refusal := .next (gated s p 4 0 0x50 (fun s => selObj s 1 v))
/-- OBJ_ADD, by partition `p`. -/
def execObjAdd (p : Nat) (v : Word) (s : State) : Host.Outcome State Fault Refusal := .next (gated s p 4 0 0x54 (fun s => selObj s 4 v))

/-! ### Every other register write -/

/-- Writes of the host interface page that R541 ignores: a ring's base and size while it is enabled, and RXBUF_SIZE while a buffer
is posted. Enabling a ring starts it at its first entry. -/
def hifWrite (s : State) (i o : Nat) (v : Word) : State :=
  let q := fld (rg s HIF_CQ_SEL i 0) 1 0
  let w := rg s HIF_CQ_CFG i q
  if o = 0x40 then offerWrite s i v
  else if o = 0x54 ∨ o = 0x58 then (if bit w 31 then s else plainWrite s 7 i o v)
  else if o = 0x5C then
    let s := plainWrite s 7 i o (if bit w 31 then setFld v 28 24 (fld w 28 24) else v)
    if !bit w 31 && bit v 31 then pumpStaged (setRg (setRing s i q {}) HIF_CQ_HEAD i q 0) i else s
  else if o = 0x60 then pumpStaged (setRg s HIF_CQ_HEAD i q v) i
  else if o = 0x74 then (if tgetD [] s.host.rxbufs i = [] then plainWrite s 7 i o v else s)
  else plainWrite s 7 i o v
/-- SYS page. -/
def sysWrite (s : State) (o : Nat) (v : Word) : State :=
  if o = 0x200 then snapshotWrite s v
  else if o = 0x1C8 then (if bit v 0 then safeEnter s (fld (rg s SYS_SAF_SEL 0 0) 4 0) 6 none else s)
  else if o = 0x230 then (if bit v 31 then partResetGo s (fld v 4 0) else s)
  else if o = 0x244 then flashData s v
  else if o = 0x248 then (if bit v 0 then flashErase s else s)
  else plainWrite s 0 0 o v
/-- TMU page. -/
def timeWrite (s : State) (o : Nat) (v : Word) : State :=
  if o = 0x50 then freqWrite s v
  else if o = 0x54 then phaseWrite s v
  else if o = 0x5C then ctlWrite s v
  else if o = 0x70 then (if bit v 0 then timeSetGo s else s)
  else plainWrite s 3 0 o v
/-- SYU page: a 1 to HOLD lets the capture go (08 R265). -/
def syuWrite (s : State) (o : Nat) (v : Word) : State :=
  if o = 0x50 then selObj s 1 v
  else if o = 0x54 then selObj s 4 v
  else if o = 0x5C then (if bit v 31 then { s with sync := { s.sync with hold := false } } else s)
  else plainWrite s 4 0 o v
/-- A write of `v` by partition `p` to offset `o` of page (c, i), which has let it through. -/
def regWrite (s : State) (p c i o : Nat) (v : Word) : State :=
  if o = HDR_EVT then writeEvt s c i v 0
  else if o = HDR_EVT_EN then writeEvtEn s c i v
  else if o = HDR_EVT_FORCE then forceEvt s c i v
  else if o = HDR_PAGE_CTL then writePageCtl s c i v
  else if o = HDR_COMMIT then writeCommit s c i v
  else if o = HDR_OWNER then writeOwner s p c i v
  else match c with
    | 0 => sysWrite s o v
    | 3 => timeWrite s o v
    | 4 => syuWrite s o v
    | 7 => hifWrite s i o v
    | _ => plainWrite s c i o v
/-- Page code, instance and offset of a BAR0 offset (R693). -/
def barPage (offset : Nat) : Nat × Nat × Nat := (offset / 0x100000 % 64, offset / 0x1000 % 256, offset % 4096)
/-- A write to BAR0 or, from 0x0400_0000 on, to the 32 KiB of BAR2 (R517, R697): a write to a register that is not aligned or lacks a byte
is discarded and logged, and one to a window takes the bytes that are enabled when its tokens allow. -/
def barAccess (s : State) (p offset : Nat) (v : Word) (byteEn : BitVec 4) : State :=
  let u := hostUnit s p
  if (part? s p).isNone then s
  else if 0x4000000 ≤ offset then
    let a := offset - 0x4000000
    if a % 4 ≠ 0 ∨ byteEn ≠ 0xF ∨ 0x8000 ≤ a then deny s 3 p u offset true
    else { s with host := { s.host with barWait := s.host.barWait ++ [(p, a, v)] } }
  else
    let (c, i, o) := barPage offset
    if offset % 4 ≠ 0 ∨ byteEn ≠ 0xF then (if responds s c then deny s 3 p u offset true else s)
    else gated s p c i o (fun s => regWrite s p c i o v)
/-- REGISTER_WRITE. -/
def execRegisterWrite (p offset : Nat) (v : Word) (byteEn : BitVec 4) (s : State) : Host.Outcome State Fault Refusal :=
  .next (barAccess s p offset v byteEn)

/-! ### The sideband (R714, R715) -/

/-- May the sideband write this register? -/
def sbMayWrite (s : State) (c i o : Nat) : Bool :=
  (decide (c = 1 ∧ i = 0) && (decide (o = 0x48) || decide (o = HDR_COMMIT))) ||
    ((decide (o = HDR_EVT) || decide (o = HDR_EVT_EN) || decide (o = HDR_PAGE_CTL)) && decide (ownerOf s c i = 0))
/-- SIDEBAND_ACCESS: a transaction with a PEC error or of the wrong length is ignored; a read is answered. -/
def execSidebandAccess (offset : Nat) (write : Option Word) (pecOk : Bool) (s : State) : Host.Outcome State Fault Refusal :=
  let (c, i, o) := barPage offset
  .next (if !pecOk then s
    else match write with
      | none =>
        if offset % 4 ≠ 0 ∨ 0x4000000 ≤ offset then emit (deny s 3 0 (hostHandle s) offset false) (.reply 0) else readAndReply s 0 c i o
      | some v =>
        if offset % 4 ≠ 0 ∨ 0x4000000 ≤ offset ∨ !sbMayWrite s c i o then
          (if responds s c then deny s 3 0 (hostHandle s) offset true else s)
        else gated s 0 c i o (fun s => regWrite s 0 c i o v))

end Sys2Proof.Machine
end

