-- ==== Sys2Proof/Machine/Power.lean ====
section
/-! DEFINITION. References, frequency steps, power domains, resets and start-up (24), the regulator and the supplies (26 R723-R727),
the test access port (22 R651), and the external memory's upkeep (18 R544-R548). -/

namespace Sys2Proof.Machine

open Sys2Proof

/-! ### References (24 R671-R675) -/

/-- Replace the power controller's state. -/
def setPwr (s : State) (x : Pwr) : State := { s with pwr := x }
/-- Is the reference in use one that has been lost? -/
def useLost (s : State) : Bool := decide (s.pwr.refUse ∈ s.pwr.refLost) || (decide (s.pwr.refUse = 2) && decide (0 ∈ s.pwr.refLost))
/-- A reference is lost; when it is the one in use, ROOT enters holdover and the time unit free run (R674, 16 R508). -/
def loseRef (s : State) (r : Nat) : State :=
  if 2 < r ∨ r ∈ s.pwr.refLost then s
  else
    let s := setPwr s { s.pwr with refLost := r :: s.pwr.refLost }
    if useLost s ∧ s.pwr.holdAt.isNone then
      enterFreeRun (raise (setPwr s { s.pwr with holdAt := some s.tmu.ticks }) 1 0 0) 3
    else s
/-- REF_LOSS of reference `r`. -/
def execRefLoss (r : Nat) (s : State) : Host.Outcome State Fault Refusal := .next (loseRef s r)
/-- A lost reference has returned: when it is the one in use, ROOT starts to lock to it again (R675). -/
def returnRef (s : State) (r : Nat) : State :=
  if r ∉ s.pwr.refLost then s
  else
    let s := setPwr s { s.pwr with refLost := s.pwr.refLost.filter (fun k => decide (k ≠ r)) }
    if s.pwr.holdAt.isSome ∧ s.pwr.locking.isNone ∧ !useLost s then setPwr s { s.pwr with locking := some s.pwr.refUse } else s
/-- REF_RETURN of reference `r`. -/
def execRefReturn (r : Nat) (s : State) : Host.Outcome State Fault Refusal := .next (returnRef s r)
/-- REF_SWITCH: ROOT has locked to the reference that a commit or a return named (R673, R675). -/
def execRefSwitch (s : State) : Host.Outcome State Fault Refusal :=
  .next (match s.pwr.locking with
    | none => s
    | some r =>
      if refValid s r then raise (setPwr s { s.pwr with refUse := r, holdAt := none, locking := none }) 1 0 1 else s)

/-! ### Capping (24 R680, R681) -/

/-- The next slower and the next faster divider. -/
def slower (d : Nat) : Nat := match d with | 4 => 5 | 5 => 6 | _ => 8
/-- The next faster divider. -/
def faster (d : Nat) : Nat := match d with | 8 => 6 | 6 => 5 | _ => 4
/-- CAPPED logical clusters that can still step: slower than now, or faster. -/
def stepable (s : State) (down : Bool) : List Nat :=
  (List.range 16).filter (fun l =>
    let w := rg s PWC_CLK_CFG 0 l
    bit w 31 && (physOf s l).isSome && if down then decide (divAsked s l < fld w 7 4) else decide (fld w 3 0 < divAsked s l))
/-- Of those, the one of highest estimated power for a step down, of lowest for a step up; ties go to the lowest index. -/
def stepChoice (s : State) (down : Bool) (power : List Nat) : Option Nat :=
  (stepable s down).foldl (fun b l => match b with
    | none => some l
    | some m =>
      let p := power.getD l 0
      let q := power.getD m 0
      if (if down then decide (q < p) else decide (p < q)) then some l else some m) none
/-- Command a step on logical cluster `l`. -/
def commandStep (s : State) (l : Nat) (down : Bool) : State :=
  let d := if down then slower (divAsked s l) else faster (divAsked s l)
  let s := setPwr s { s.pwr with divNext := tsetD none s.pwr.divNext l (if d = divOf s l then none else some d) }
  askVolts (wrapRg s PWC_STEP_CNT 0 0 1)
/-- The hottest sensor and its reading. -/
def hottest (temps : List Int) : Nat × Int :=
  let m := temps.foldl max (temps.headD 0)
  (temps.idxOf m, m)
/-- The sensors of one interval: TJ_STAT, TJ_LIMIT when the hottest reaches it, and THERMTRIP_N at 120 °C (R681). -/
def readSensors (s : State) (temps : List Int) : State :=
  let (k, t) := hottest temps
  let lim : Int := (fld (rg s PWC_PWR_CAP 0 0) 23 16 : Nat) * 8
  let was := sgn 16 (fld (rg s PWC_TJ_STAT 0 0) 15 0)
  let s := setRg s PWC_TJ_STAT 0 0 (word [(k % 16, 28), (wrapN 16 t, 0)])
  let s := if lim ≤ t ∧ was < lim then raise s 1 0 3 else s
  if 960 ≤ t ∧ !s.pwr.tripped then emit (setPwr s { s.pwr with tripped := true }) (.pin 2 0 false) else s
/-- One interval of capping, while PWR_CAP.EN is 1. -/
def capInterval (s : State) (est : Nat) (temps : List Int) (power : List Nat) : State :=
  let w := rg s PWC_PWR_CAP 0 0
  if !bit w 31 then setPwr s { s.pwr with overRun := 0, underRun := 0 }
  else
    let s := setRg s PWC_PWR_EST 0 0 (w32 (upTo 16 est))
    let cap := fld w 15 0 * 10
    let lim : Int := (fld w 23 16 : Nat) * 8
    let hot := decide (cap < est) || decide (lim ≤ (hottest temps).2)
    let under := decide (est * 100 < cap * 95) && temps.all (fun t => decide (t < lim - 40))
    let o := if hot then s.pwr.overRun + 1 else 0
    let u := if under then s.pwr.underRun + 1 else 0
    let s := setPwr s { s.pwr with overRun := o, underRun := u }
    if 4 ≤ o then (match stepChoice s true power with | some l => commandStep s l true | none => raise s 1 0 4)
    else if 8 ≤ u ∧ u % 8 = 0 then (match stepChoice s false power with | some l => commandStep s l false | none => s)
    else s
/-- POWER_CAP_INTERVAL: the estimate in 0.1 W, the sensors in 0.125 °C, and the estimated power of each logical cluster. -/
def execPowerCapInterval (est : Nat) (temps : List Int) (clusterPower : List Nat) (s : State) : Host.Outcome State Fault Refusal :=
  let s := readSensors s temps
  .next (if ready s then capInterval s est temps clusterPower else s)
/-- AVS_ACKNOWLEDGE: the regulator has settled at the voltage asked for (26 R723). -/
def execAvsAcknowledge (mv : Nat) (s : State) : Host.Outcome State Fault Refusal :=
  .next (if s.pwr.avsAsk = some mv then setPwr s { s.pwr with avsMv := mv, avsAsk := none } else s)

/-! ### Power domains (24 R682-R686) -/

/-- Does a cluster's domain 0-35 (`sram` false) or 36-53 want to be on? A spare is powered from 20 µs before its slice to the end of it. -/
def clusterWants (s : State) (c : Nat) (sram : Bool) : Bool :=
  let due := decide (c ∈ s.units.testing) || decide (4000000 ≤ sincePass s c + 1870000 + sliceNs s c)
  if c ∈ s.units.out then !sram && (rotOf s c).returning
  else if c ∈ s.units.spares && (logOf s c).isNone then !sram && due
  else true
/-- Does an engine want its domain on: in service, or about to return? -/
def engineWants (s : State) (c i : Nat) : Bool :=
  !decide ((c, i) ∈ s.units.engOut) || s.units.engBack.any (fun q => decide (q.1 = c ∧ q.2.1 = i))
/-- The condition of R682 under which a domain is on. -/
def wantOn (s : State) (d : Nat) : Bool :=
  if d < 18 then clusterWants s d false
  else if d < 36 then clusterWants s (d - 18) false
  else if d < 54 then clusterWants s (d - 36) true
  else if d < 83 then (domEngines d).any (fun q => engineWants s q.1 q.2)
  else if d < 87 then engineWants s 30 (d - 83) && (List.range Config.cells).any (fun c => beqEn s c && decide (beqUnit s c = d - 83))
  else if d < 95 then decide (s.mem.usable ≠ 0)
  else if d < 99 then decide (qmode s (d - 95) ≠ 5)
  else if d < 103 then [0, 1].any (fun k => bit (rg s ILK_ILK_CFG (2 * (d - 99) + k) 0) 23)
  else if d < 111 then (List.range 4).any (fun k => !(laneLinks s (d - 103) k).isEmpty)
  else (List.range 384).any (fun g => bit (rg s MEM_GRAN_CFG 0 g) 31)
/-- Power-up time of a domain in ns (R682). -/
def powerNs (d : Nat) : Nat := if 36 ≤ d ∧ d < 54 then 92000 else if d < 87 then 20000 else if d = 111 then 246000 else 1000000
/-- Replace a field of a domain's DOM_STAT. -/
def setDom (s : State) (d hi lo v : Nat) : State := setRg s PWC_DOM_STAT 0 d (setFld (rg s PWC_DOM_STAT 0 d) hi lo v)
/-- The SRAM of a domain that goes off loses its contents; its power-up zeroes it (R684). -/
def loseSram (s : State) (d : Nat) : State :=
  if 36 ≤ d ∧ d < 54 then
    let x := clu s (d - 36)
    setClu s (d - 36) { x with sp := {}, xm := {}, ym := {}, ic := [], lastPart := 0 }
  else if d = 111 then { s with mem := { s.mem with site := s.mem.site.filter (fun c => decide (384 * 65536 ≤ c.1)) } }
  else s
/-- DOMAIN_SWITCH: the lowest domain that waits is switched, 2 µs after the switching before it (R684). -/
def execDomainSwitch (s : State) : Host.Outcome State Fault Refusal :=
  let up (d : Nat) : Bool := domOn s d || (tgetD none s.pwr.powering d).isSome
  let free := match s.pwr.switched with | some t => passed s t 2000 | none => true
  .next (match (List.range 112).find? (fun d => wantOn s d != up d) with
    | none => s
    | some d =>
      if !ready s || !free then s
      else if wantOn s d then
        setPwr (setDom s d 29 29 1) { s.pwr with powering := tsetD none s.pwr.powering d (some s.tmu.ticks), switched := some s.tmu.ticks }
      else
        let s := loseSram (setDom (setDom s d 31 31 0) d 29 29 0) d
        setPwr s { s.pwr with powering := tsetD none s.pwr.powering d none, switched := some s.tmu.ticks })
/-- POWER_UP of domain `d`: its power-up time has passed (R684). -/
def execPowerUp (d : Nat) (s : State) : Host.Outcome State Fault Refusal :=
  .next (match tgetD none s.pwr.powering d with
    | none => s
    | some t =>
      if !passed s t (powerNs d) then s
      else
        let w := rg s PWC_DOM_STAT 0 d
        let s := setRg s PWC_DOM_STAT 0 d (setFld (setFld (setFld w 29 29 0) 31 31 1) 15 0 (fld w 15 0 + 1))
        setPwr s { s.pwr with powering := tsetD none s.pwr.powering d none })

/-! ### Power-on (24 R687 R689, 26 R720 R727) -/

/-- The device without power, but for what keeps its contents: fuses and flash; the commands that wait, what has been sent, host memory
and the model's own counter are not the device's. Outputs that were driven are released. -/
def powerLost (s : State) : State :=
  let pas := s.fh.pa.filterMap (fun e => if e.2 then some (Output.pin 0 e.1 false) else none)
  let out := (if s.pg.alert then [Output.sbAlert false] else []) ++ (if s.pwr.tripped then [Output.pin 2 0 true] else []) ++ pas ++ s.out
  { State.reset with
    pending := s.pending
    freeCtr := s.freeCtr
    out := out
    mem := { State.reset.mem with host := s.mem.host, flash := s.mem.flash }
    sec := { State.reset.sec with fuses := s.sec.fuses } }
/-- Start-up stops at step `k` of R689. -/
def bootStop (s : State) (k : Nat) : State := setRg s PWC_PWC_STAT 0 0 (w32 k)
/-- Straps (26 R720), and the first request to the regulator. -/
def straps (s : State) (testMode fselHigh : Bool) (sbAddr : Nat) : State :=
  let s := setPwr s { s.pwr with fsel := fselHigh, sbAddr := sbAddr % 4, testMode := testMode, avsMv := avsNeed 4 }
  setRg s PWC_RST_CAUSE 0 0 (word [(b2n testMode, 31)])
/-- Boot ROM (22 R637, R638, R640, R641): the copies are judged, the DeviceID key is derived and MR0 is extended. -/
def bootRom (s : State) (flashAnswers xspi : Bool) : Bool × State :=
  let code (k : Nat) : Nat := if flashAnswers then judgeBoot s (copyBase k) 0x200000 s.sec.fuses.svnBoot else 1
  let a := code 0
  let b := if a = 0 then 0 else code 1
  let k := if a = 0 then 0 else 1
  let s := newSession { s with sec := { s.sec with
    codeA := a, codeB := b, spi := flashAnswers && !xspi, devKey := keyFrom (hmac (udsBytes s) (ascii "AK7840 DeviceID")) } }
  if a ≠ 0 ∧ b ≠ 0 then (false, s)
  else
    let s := { s with sec := { s.sec with copy := k, keyIdx := fld (flashWord s (copyBase k + 0x0C)) 1 0, svnStage := bootSvn s (copyBase k) } }
    (true, extendMr s 0 (bootDigest s (copyBase k)))
/-- Stage 1 (22 R639-R641): the firmware set is verified, MR1 and MR2 are extended, and the alias key is derived. -/
def stageOne (s : State) : Bool × State :=
  let k := s.sec.copy
  let a := setBase s k
  if judgeBoot s a (setRoom s k) s.sec.fuses.svnFw ≠ 0 then (false, s)
  else
    let s := extendMr (extendMr s 1 (bootDigest s a)) 2 (sha384 (fuseState s))
    let cdi0 := hmac (udsBytes s) (mrBytes s 0)
    let cdi1 := hmac cdi0 (mrBytes s 1 ++ mrBytes s 2)
    (true, { s with sec := { s.sec with fwCopy := k, fwSvn := bootSvn s a, aliasKey := keyFrom (hmac cdi1 (ascii "AK7840 Alias")) } })
/-- Fused repair (23 R662): clusters in ascending physical index, then engines, then lanes. -/
def fusedRepair (s : State) : State :=
  let s := (List.range 18).foldl (fun s c => if fusedOut s 1 c then leaveCluster s c 11 else s) s
  let s := [(24, 16), (30, 4), (25, 4), (26, 2), (27, 2), (28, 4), (29, 2)].foldl (fun s q =>
    (List.range q.2).foldl (fun s i => if fusedOut s (kindOf q.1) i then dropEngine s q.1 i 11 else s) s) s
  (List.range 20).foldl (fun s q =>
    let e := tgetD 0 s.sec.fuses.repLane q
    if e = 0 then s else serviceRec (setLane s q (e - 1) 0 11) 3 9 q (e - 1) 11 0xFF 0xFF) s
/-- DRAM training and initialisation (18 R543-R545): every line reads zero; a failure of step `step` is shown by group `group`. -/
def trainDram (s : State) (density : Nat) (twoRanks : Bool) (step group : Nat) : Bool × State :=
  if step ≠ 0 ∨ density = 0 ∨ 4 < density then
    (false, setRg s MEM_MEMC_STAT (group % 8) 0 (word [(1, 30), (step % 16, 26)]))
  else
    let s := (List.range 8).foldl (fun s g => setRg s MEM_MEMC_STAT g 0 (word [(1, 31), (15, 22)])) s
    let s := setRg (setRg s MEM_MEM_CFG 0 0 (word [(density, 28), (b2n twoRanks, 27)])) MEM_USABLE_MIB 0 0 (w32 (density * 28672))
    (true, { s with mem := { s.mem with ext := [], ue := [], usable := density * 28672 * 1048576 } })
/-- The rotor slices of start-up pass, and so does the injection (21 R615, R621). -/
def firstSlices (s : State) : State :=
  let s := ((List.range 18).filter (fun c => !decide (c ∈ s.units.out))).foldl (fun s c => satRg s SYS_ROT_PASS 0 c 1) s
  setRg s SYS_INJ_STAT 0 0 0x80000000
/-- Every domain stands as R682 wants it. -/
def setDomains (s : State) : State :=
  (List.range 112).foldl (fun s d => if wantOn s d then setRg s PWC_DOM_STAT 0 d 0x80000001 else s) s
/-- Start-up (R689) from the device without power; `failStep` is a step of R689, from 1, that fails from outside, 0 for none. -/
def startUp (s : State) (density : Nat) (twoRanks flashAnswers xspi : Bool) (failStep memStep memGroup : Nat) : State :=
  if failStep = 1 then bootStop s 1
  else
    let (ok, s) := bootRom s flashAnswers xspi
    let s := { s with host := { s.host with linkUp := decide (failStep ≠ 3) } }
    if failStep = 2 ∨ !ok then bootStop s 2
    else if failStep = 3 then bootStop s 3
    else
      let (ok, s) := stageOne s
      if failStep = 4 ∨ !ok then bootStop s 4
      else if failStep = 5 then bootStop s 5
      else
        let s := fusedRepair s
        let (ok, s) := if failStep = 6 ∧ memStep = 0 then (false, s) else trainDram s density twoRanks memStep memGroup
        if !ok then bootStop s 6
        else if failStep = 7 then bootStop s 7
        else
          let s := firstSlices s
          if failStep = 8 then bootStop s 8 else setRg (setDomains s) PWC_PWC_STAT 0 0 0x80000000
/-- POWER_ON_RESET: PORST_N has been low for 1 µs or longer and is released with the rails and EXT_REF stable. With TEST_MODE strapped
high the device does not boot (22 R651). -/
def execPowerOnReset (testMode fselHigh : Bool) (sbAddr density : Nat) (twoRanks flashAnswers xspi : Bool)
    (failStep memStep memGroup : Nat) (s : State) : Host.Outcome State Fault Refusal :=
  let s := straps (powerLost s) testMode fselHigh sbAddr
  .next (if testMode then s else startUp s density twoRanks flashAnswers xspi failStep memStep memGroup)
/-- SUPPLY_MONITOR: VDD_CORE or VDD_SRAM has been too low for 1 µs; POWER_ON_RESET follows once it has recovered (26 R727). -/
def execSupplyMonitor (s : State) : Host.Outcome State Fault Refusal := .next (powerLost s)
/-- WDT_RESTART: the firmware restarts, for 50 ms (24 R688). -/
def execWdtRestart (s : State) : Host.Outcome State Fault Refusal :=
  .next (if !ready s then s
    else
      let s := { s with sec := { s.sec with fwBusy := some (s.tmu.ticks, 50000000) } }
      raise (satFld s PWC_RST_CAUSE 0 0 15 0) 1 0 2)

/-! ### Test access port (22 R651, IEEE 1149.1) -/

/-- Next state of the TAP controller: 0 Test-Logic-Reset, 1 Run-Test/Idle, 2-8 Select-DR-Scan to Update-DR, 9-15 Select-IR-Scan to
Update-IR, in the order Select, Capture, Shift, Exit1, Pause, Exit2, Update. -/
def tapNext (n : Nat) (tms : Bool) : Nat :=
  match n, tms with
  | 0, true => 0 | 0, false => 1 | 1, true => 2 | 1, false => 1
  | 2, true => 9 | 2, false => 3 | 3, true => 5 | 3, false => 4 | 4, true => 5 | 4, false => 4 | 5, true => 8 | 5, false => 6
  | 6, true => 7 | 6, false => 6 | 7, true => 8 | 7, false => 4 | 8, true => 2 | 8, false => 1
  | 9, true => 0 | 9, false => 10 | 10, true => 12 | 10, false => 11 | 11, true => 12 | 11, false => 11 | 12, true => 15 | 12, false => 13
  | 13, true => 14 | 13, false => 13 | 14, true => 15 | 14, false => 11 | _, true => 2 | _, false => 1
/-- The instruction that shifted bits spell: all ones is BYPASS; in a normal boot one that drives pins is not offered and acts as BYPASS. -/
def tapInstr (s : State) (bits : List Bool) : Nat :=
  let k := if bits.all id then 1 else Config.irDecode bits
  if 3 ≤ k ∧ !s.pwr.testMode then 1 else k
/-- What Capture-DR loads. -/
def tapCapture (s : State) : List Bool × State :=
  match s.pwr.tapIr with
  | 0 => ((List.range 32).map (fun i => Config.idcode.getLsbD i), s)
  | 1 => ([false], s)
  | _ => (Config.boundaryScan s.freeCtr, { s with freeCtr := s.freeCtr + 1 })
/-- One TCK cycle: the action of the present state, then the move. -/
def tapClock (s : State) (tms tdi : Bool) : State :=
  let n := s.pwr.tap
  let s :=
    if n = 3 then let (l, s) := tapCapture s; setPwr s { s.pwr with tapSh := l }
    else if n = 10 then setPwr s { s.pwr with tapSh := [true, false] ++ Config.irCapture }
    else if n = 4 ∨ n = 11 then
      emit (setPwr s { s.pwr with tapSh := s.pwr.tapSh.tail ++ [tdi] }) (.pin 6 0 (s.pwr.tapSh.headD tdi))
    else if n = 15 then setPwr s { s.pwr with tapIr := tapInstr s s.pwr.tapSh }
    else s
  let m := tapNext n tms
  setPwr s { s.pwr with tap := m, tapIr := if m = 0 then 0 else s.pwr.tapIr }
/-- TEST_ACCESS_PORT: a rising edge of TCK. -/
def execTestAccessPort (tms tdi : Bool) (s : State) : Host.Outcome State Fault Refusal := .next (tapClock s tms tdi)
/-- TEST_ACCESS_RESET: TRST_N low resets the TAP controller alone (24 R687). -/
def execTestAccessReset (s : State) : Host.Outcome State Fault Refusal := .next (setPwr s { s.pwr with tap := 0, tapIr := 0, tapSh := [] })

/-! ### External memory's upkeep (18 R544-R548) -/

/-- SCRUB_VISIT of the line at `line` * 64, with what the read finds; it is charged to no partition. -/
def execScrubVisit (line : Nat) (ecc : Ecc) (s : State) : Host.Outcome State Fault Refusal :=
  .next (if bit (rg s MEM_SCRUB_PERIOD 0 0) 31 ∨ s.mem.usable ≤ line * 64 then s
    else match ecc with
      | .clean => if line ∈ s.mem.ue then memUE s 3 (line * 64) 0 else s
      | .corrected => if line ∈ s.mem.ue then memUE s 3 (line * 64) 0 else memCE s (line * 64)
      | .uncorrectable => memUE { s with mem := { s.mem with ue := if line ∈ s.mem.ue then s.mem.ue else line :: s.mem.ue } } 3 (line * 64) 0)
/-- ZQ_CALIBRATION of group `g`: no traffic waits, and no register shows it (R546). -/
def execZqCalibration (_g : Nat) (s : State) : Host.Outcome State Fault Refusal := .next s
/-- DQS_OSC_READ of channel `ch`: a correction within range, or a tracking failure (R546). -/
def execDqsOscRead (ch : Nat) (inRange : Bool) (s : State) : Host.Outcome State Fault Refusal :=
  let g := ch / 4
  let b := 22 + ch % 4
  .next (if 32 ≤ ch ∨ bit (rg s MEM_MEMC_STAT g 0) 31 = false then s
    else
      let s := setRg s MEM_MEMC_STAT g 0 (setFld (rg s MEM_MEMC_STAT g 0) b b (b2n inRange))
      if inRange then s else raise (logErr s 0x16 2 0 0 0 0 (w32 ch) 0 0) 8 g 2)
/-- REFRESH of channel `ch`: it follows the rate that the dies report, which TEMP shows; what they report the command does not say: a
free value (log 2). -/
def execRefresh (ch : Nat) (s : State) : Host.Outcome State Fault Refusal :=
  .next (if 32 ≤ ch ∨ bit (rg s MEM_MEMC_STAT (ch / 4) 0) 31 = false then s
    else
      let (w, s) := freeW s
      setRg s MEM_TEMP (ch / 4) 0 (w &&& 0xF00))

end Sys2Proof.Machine
end

