-- ==== Sys2Proof/Machine/SyncRows.lean ====
section
/-! DEFINITION. The meanings of the operations on synchronisation objects (08 R242-R260). A change that lets a job become
ready, or a member stop, is followed by the dispatcher's choice (09 R269). -/

namespace Sys2Proof.Machine

open Sys2Proof

/-- One operation of table R242, then the dispatcher's choice. -/
def syncStep (s : State) (op : Nat) (q : SyncReq) (same : SameCycle) : State := reconsider (syncDo s op q same)

/-- READ (R242). -/
def execSyncRead (q : SyncReq) (s : State) : Host.Outcome State Fault Refusal :=
  .next (syncStep s 0 q .nothing)
/-- WRITE (R242, R254). -/
def execSyncWrite (q : SyncReq) (same : SameCycle) (s : State) : Host.Outcome State Fault Refusal :=
  .next (syncStep s 1 q same)
/-- SET (R242). -/
def execSyncSet (q : SyncReq) (s : State) : Host.Outcome State Fault Refusal :=
  .next (syncStep s 2 q .nothing)
/-- CLEAR (R242, R254). -/
def execSyncClear (q : SyncReq) (same : SameCycle) (s : State) : Host.Outcome State Fault Refusal :=
  .next (syncStep s 3 q same)
/-- ADD (R243). -/
def execSyncAdd (q : SyncReq) (s : State) : Host.Outcome State Fault Refusal :=
  .next (syncStep s 4 q .nothing)
/-- WAIT_NZ (R242, R251). -/
def execWaitNz (q : SyncReq) (s : State) : Host.Outcome State Fault Refusal :=
  .next (syncStep s 5 q .nothing)
/-- WAIT_Z. -/
def execWaitZ (q : SyncReq) (s : State) : Host.Outcome State Fault Refusal :=
  .next (syncStep s 6 q .nothing)
/-- WAIT_GE. -/
def execWaitGe (q : SyncReq) (s : State) : Host.Outcome State Fault Refusal :=
  .next (syncStep s 7 q .nothing)
/-- ACQUIRE (R242, R252). -/
def execAcquire (q : SyncReq) (s : State) : Host.Outcome State Fault Refusal :=
  .next (syncStep s 8 q .nothing)
/-- TRY_ACQUIRE. -/
def execTryAcquire (q : SyncReq) (s : State) : Host.Outcome State Fault Refusal :=
  .next (syncStep s 9 q .nothing)
/-- REGISTER (R246, R247). -/
def execRegister (q : SyncReq) (s : State) : Host.Outcome State Fault Refusal :=
  .next (syncStep s 10 q .nothing)
/-- WAKE_CAUSE (R246). -/
def execWakeCause (q : SyncReq) (s : State) : Host.Outcome State Fault Refusal :=
  .next (syncStep s 11 q .nothing)
/-- WAIT_EXPIRE: the limit of waiter entry `id` has passed (R248, R249). -/
def execWaitExpire (id : Nat) (s : State) : Host.Outcome State Fault Refusal := .next (reconsider (expireWait s id))

end Sys2Proof.Machine
end

