-- ==== Sys2Proof/Machine/VecCore.lean ====
section
/-! DEFINITION. How one vector instruction is carried out (04 R101-R122, R733, R734): its fields, the checks of R109, its
operands, its destination, the finished-tile queue and the verdict states. -/

namespace Sys2Proof.Machine

open Sys2Proof

/-! ### Fields (R105, R106) -/

/-- TYPE as its code. -/
def vTypeCode (ws : List Word) : Nat := fld (wd ws 0) 23 20
/-- TYPE; the checks come before any use. -/
def vType (ws : List Word) : OutFmt := (outFmt? (vTypeCode ws)).getD .int32
/-- VD, VA, VB, VC. -/
def vD (ws : List Word) : Nat := fld (wd ws 0) 19 15
/-- VA. -/
def vA (ws : List Word) : Nat := fld (wd ws 0) 14 10
/-- VB. -/
def vB (ws : List Word) : Nat := fld (wd ws 0) 9 5
/-- VC. -/
def vC (ws : List Word) : Nat := fld (wd ws 0) 4 0
/-- SB. -/
def vSB (ws : List Word) : Bool := bit (wd ws 1) 31
/-- SC. -/
def vSC (ws : List Word) : Bool := bit (wd ws 1) 30
/-- QA. -/
def vQA (ws : List Word) : Bool := bit (wd ws 1) 29
/-- POP. -/
def vPop (ws : List Word) : Bool := bit (wd ws 1) 28
/-- MASK. -/
def vMask (ws : List Word) : Nat := fld (wd ws 1) 27 25
/-- SAT. -/
def vSat (ws : List Word) : Bool := bit (wd ws 1) 24
/-- STEPS. -/
def vSteps (ws : List Word) : Nat := fld (wd ws 1) 23 21
/-- IMM. -/
def vImm (ws : List Word) : Nat := fld (wd ws 1) 15 0
/-- ADDR. -/
def vAddr (ws : List Word) : Nat := addr24 ws 2
/-- Is an opcode one of table R107? -/
def vKnown (op : Nat) : Bool :=
  decide ((0x80 ≤ op ∧ op ≤ 0x8D) ∨ op = 0x90 ∨ op = 0x91 ∨ (0x98 ≤ op ∧ op ≤ 0x9B) ∨ op = 0xA0 ∨
    (0xA8 ≤ op ∧ op ≤ 0xAA) ∨ (0xB0 ≤ op ∧ op ≤ 0xB3) ∨ (0xB8 ≤ op ∧ op ≤ 0xBB))
/-- Does the instruction read the queue's head? -/
def vReadsQ (ws : List Word) : Bool := vQA ws || decide (opcodeOf ws = 0xB2)

/-! ### Registers (R101-R104) -/

/-- All lanes. -/
def allLanes : BitVec 128 := BitVec.allOnes 128
/-- The lanes of Vn. -/
def Cluster.vreg (x : Cluster) (n : Nat) : List Word :=
  let l := tgetD [] x.v n
  (List.range 128).map (fun i => l.getD i 0)
/-- VMn; VM0 reads all ones. -/
def Cluster.vmask (x : Cluster) (n : Nat) : BitVec 128 := if n = 0 then allLanes else tgetD 0 x.vm n
/-- The tags of the register pair that holds Vn. -/
def Cluster.vtags (x : Cluster) (n : Nat) : List WTag :=
  let l := tgetD [] x.tags (n / 2)
  (List.range 64).map (fun i => l.getD i {})
/-- The verdict state of a register (R734): V0-V31, then VM0-VM7 from 32. -/
def Cluster.vstate (x : Cluster) (k : Nat) : Option VState := if k = 32 then none else tgetD none x.vst k
/-- Set it. -/
def Cluster.setVstate (x : Cluster) (k : Nat) (v : Option VState) : Cluster :=
  { x with vst := tsetD none x.vst k (match v with | some (.pending []) => none | w => w) }
/-- Write the enabled lanes of Vn with a verdict state; the tags of its pair are cleared (R104). -/
def Cluster.setV (x : Cluster) (n : Nat) (mask : BitVec 128) (ls : List Word) (st : Option VState) : Cluster :=
  let old := x.vreg n
  let new := (List.range 128).map (fun i => if mask.getLsbD i then ls.getD i 0 else old.getD i 0)
  ({ x with v := tsetD [] x.v n new, tags := tsetD [] x.tags (n / 2) [] }).setVstate n st
/-- Write the enabled bits of VMn; writes to VM0 are ignored. -/
def Cluster.setVM (x : Cluster) (n : Nat) (mask v : BitVec 128) (st : Option VState) : Cluster :=
  if n = 0 then x
  else ({ x with vm := tsetD 0 x.vm n ((x.vmask n &&& ~~~mask) ||| (v &&& mask)) }).setVstate (32 + n) st
/-- Wide sum of lane pair `p` of the pair at Vn (R103). -/
def Cluster.wide (x : Cluster) (n p : Nat) : Nat :=
  let a := x.vreg n
  let b := x.vreg (n + 1)
  (a.getD (2 * p) 0).toNat + (a.getD (2 * p + 1) 0).toNat * 2 ^ 32 + (b.getD (2 * p) 0).toNat * 2 ^ 64 +
    (b.getD (2 * p + 1) 0).toNat * 2 ^ 96
/-- Write wide sums with their tags into the pair at Vn; `on` tells the enabled lane pairs. -/
def Cluster.setWide (x : Cluster) (n : Nat) (on : Nat → Bool) (vals : List Nat) (tags : List WTag) (st : Option VState) :
    Cluster :=
  let a := x.vreg n
  let b := x.vreg (n + 1)
  let old := x.vtags n
  let lane (base i : Nat) (r : List Word) : Word :=
    if on (i / 2) then w32 (vals.getD (i / 2) 0 / 2 ^ (32 * (base + i % 2))) else r.getD i 0
  let x := { x with
    v := tsetD [] (tsetD [] x.v n ((List.range 128).map (fun i => lane 0 i a))) (n + 1)
      ((List.range 128).map (fun i => lane 2 i b))
    tags := tsetD [] x.tags (n / 2) ((List.range 64).map (fun p => if on p then tags.getD p {} else old.getD p {})) }
  (x.setVstate n st).setVstate (n + 1) st

/-! ### Verdict states -/

/-- The worse of two states (R734). -/
def worse (a b : Option VState) : Option VState :=
  match a, b with
  | none, v => v
  | v, none => v
  | some .mismatch, _ | _, some .mismatch => some .mismatch
  | some (.pending l), some (.pending m) => some (.pending (l ++ m).eraseDups)
/-- Of several. -/
def worst (l : List (Option VState)) : Option VState := l.foldl worse none
/-- The state of the mask register that enables lanes. -/
def maskState (x : Cluster) (ws : List Word) : Option VState := x.vstate (32 + vMask ws)

/-! ### Operands -/

/-- The head of the queue. -/
def ftqHead (x : Cluster) : Option FtqEnt := x.ftq.head?
/-- The lanes of a strip, zero outside its mask (R118). -/
def stripRead (e : FtqEnt) : List Word := (List.range 128).map (fun i => if e.colmask.getLsbD i then e.lanes.getD i 0 else 0)
/-- VA, or the row at the head of the queue, with its verdict state. -/
def opA (x : Cluster) (ws : List Word) : List Word × Option VState :=
  if vQA ws then match ftqHead x with | some e => (stripRead e, some e.verdict) | none => ([], none)
  else (x.vreg (vA ws), x.vstate (vA ws))
/-- VB, or the scalar captured at issue (R110). -/
def opB (x : Cluster) (i : Issued) : List Word × Option VState :=
  if vSB i.words then (List.replicate 128 i.scalar, none) else (x.vreg (vB i.words), x.vstate (vB i.words))
/-- VC, or the scalar. -/
def opC (x : Cluster) (i : Issued) : List Word × Option VState :=
  if vSC i.words then (List.replicate 128 i.scalar, none) else (x.vreg (vC i.words), x.vstate (vC i.words))
/-- The lanes that MASK enables. -/
def vOn (x : Cluster) (ws : List Word) : BitVec 128 := x.vmask (vMask ws)

/-! ### The checks (R109, R733, R176) -/

/-- The five types that arithmetic accepts. -/
def vArith (t : OutFmt) : Bool := t.isInt || decide (t = .bf16 ∨ t = .fp32)
/-- Does an opcode accept a TYPE (R733)? -/
def vTypeOk (op : Nat) (t : OutFmt) : Bool :=
  if op ≤ 0x91 then vArith t
  else if op ≤ 0x9B then decide (t = .bf16 ∨ t = .fp32)
  else if op = 0xAA then vArith t
  else if op = 0xB2 then true
  else if op = 0xB8 ∨ op = 0xBA ∨ op = 0xBB then decide (t = .part)
  else decide (t ≠ .part)
/-- Bytes that an instruction reads or writes at ADDR. -/
def vExtent (ws : List Word) : Option (Nat × Nat) :=
  match opcodeOf ws with
  | 0xB0 | 0xB1 => some (vAddr ws, 128 * (vType ws).bytes)
  | 0xB9 => some (vAddr ws + 16 * fld (wd ws 1) 11 0, 1024)
  | 0xBA | 0xBB => some (vAddr ws, 2048)
  | _ => none
/-- Wide-sum register rules: even pairs, quads at multiples of 4. -/
def vRegsBad (ws : List Word) : Bool :=
  match opcodeOf ws with
  | 0xB8 => decide (vD ws % 2 ≠ 0 ∨ vA ws % 2 ≠ 0 ∨ vB ws % 2 ≠ 0)
  | 0xB9 => decide (vD ws % 2 ≠ 0 ∨ vA ws % 2 ≠ 0)
  | 0xBA => decide (vD ws % 4 ≠ 0)
  | 0xBB => decide (vA ws % 4 ≠ 0)
  | 0xB2 => decide (vTypeCode ws = 7 ∧ vD ws % 4 ≠ 0)
  | _ => false
/-- Do the tags of the two addends differ in FMT or EREF (R55)? -/
def vTagsDiffer (x : Cluster) (ws : List Word) : Bool :=
  let a := x.vtags (vA ws)
  let b := x.vtags (vB ws)
  let on := vOn x ws
  (List.range 64).any (fun p => on.getLsbD (2 * p) &&
    decide ((a.getD p {}).fmt ≠ (b.getD p {}).fmt ∨ (a.getD p {}).eref ≠ (b.getD p {}).eref))
/-- Why a vector instruction is inconsistent, but for the queue's state. -/
def vecBad (s : State) (x : Job) (c : Nat) (ws : List Word) : Option Nat :=
  let op := opcodeOf ws
  let k := clu s c
  firstCode [
    (1, !vKnown op || (outFmt? (vTypeCode ws)).isNone || decide (fld (wd ws 4) 31 30 = 3) ||
      (decide (op = 0x90) && decide (vImm ws % 8 ≥ 6)) || (decide (op = 0xAA) && decide (vImm ws % 4 = 3)) ||
      (decide (op = 0xA0) && (outFmt? (vImm ws % 16)).isNone) || (decide (op = 0xB9) && decide (vImm ws / 4096 ≥ 5))),
    (2, match vExtent ws with | some (a, n) => decide (a + n > nsSize s c) | none => false),
    (3, (vSB ws && vSC ws) || (vPop ws && !vQA ws) || (decide (op = 0xAA) == decide (vSteps ws = 0)) ||
      !vTypeOk op (vType ws) || (decide (op = 0xA0) && decide (outFmt? (vImm ws % 16) = some .part)) || vRegsBad ws ||
      (vQA ws && vecWide ws) || (decide (op = 0xB8) && vTagsDiffer k ws)),
    (7, decide (op = 0xB9) && (jobObj s x (fld (wd ws 3) 31 16)).isNone),
    (8, itemsOut x (vecItems ws))]

/-! ### One instruction -/

/-- What an instruction does: it completes with the state of what it read, waits, or finds the queue's state against it. -/
inductive VRes where
  | done (s : State) (src : Option VState)
  | wait
  | skip (reason : Nat)

/-- Is a tile instruction that goes to the queue still to drain (R109)? -/
def queueComing (s : State) (c : Nat) : Bool :=
  (clu s c).tiles.any (fun t => tileDest t.ins.words && !t.done) ||
    (clu s (leadOf s c)).mxq.any (fun e => match e with | .instr i _ => tileDest i.words | .gate _ => false)
/-- Take the head of the vector stream. -/
def popVector (s : State) (c : Nat) : State :=
  let x := clu s c
  setClu s c { x with vxq := x.vxq.tail, vxDone := x.vxDone + 1 }
/-- A vector instruction is skipped (R109, R201). -/
def skipVector (s : State) (c : Nat) (i : Issued) (reason : Nat) : State :=
  let s := raise (satRg s VXE_SKIP_COUNT c 0 1) 17 c 0
  skipRec s i.job reason 2 (clHandle s c) i.off (fld (wd i.words 3) 15 0) (vecItems i.words) (some c)
/-- Items named by an instruction follow the verdicts of what it read (R120, R734). -/
def followVerdict (s : State) (c j : Nat) (src : Option VState) (items : List Nat) (all : Bool) : State :=
  match src with
  | none => s
  | some .mismatch =>
    let idxs := if all then (match job? s j with | some x => x.open | none => []) else items
    markItems (blame s j 2 idxs) j 2 idxs (some c)
  | some (.pending l) => if l = [] ∨ (items = [] ∧ !all) then s else addDep s c l { items := items, all := all }
/-- **One vector instruction** with opcode `op` at the head of the vector stream of cluster `c`; one with a reserved opcode is
skipped by whichever vector command meets it (log 9). -/
def vecStep (s : State) (c op : Nat) (body : Issued → Job → Cluster → State → VRes) : State :=
  match (clu s c).vxq with
  | .instr i _ :: _ =>
    match job? s i.job with
    | none => s
    | some x =>
      let ws := i.words
      if opcodeOf ws ≠ op ∧ vKnown (opcodeOf ws) then s
      else match vecBad s x c ws with
        | some r => afterEngine (skipVector (popVector s c) c i r) c
        | none =>
          if vReadsQ ws ∧ (clu s c).ftq = [] then
            (if queueComing s c then s else afterEngine (skipVector (popVector s c) c i 0x0B) c)
          else match body i x (clu s c) s with
            | .wait => s
            | .skip r => afterEngine (skipVector (popVector s c) c i r) c
            | .done s src =>
              let s := followVerdict s c i.job src (vecItems ws) (decide (op = 0xB3))
              let n := if vPop ws then (if op = 0xB2 ∧ vTypeCode ws = 7 then 4 else 1) else 0
              let s := setClu s c { clu s c with ftq := (clu s c).ftq.drop n }
              afterEngine (popVector s c) c
  | _ => s
/-- An instruction that writes one V register from its operands, lane by lane. `f` takes the values of lane `i`. -/
def vecMap (s : State) (c op : Nat) (useB useC : Bool) (f : List Word → Word → Word → Word → Word) : State :=
  vecStep s c op (fun i _ x s =>
    let ws := i.words
    let (a, sa) := opA x ws
    let (b, sb) := opB x i
    let (d, sd) := opC x i
    let ls := (List.range 128).map (fun n => f ws (a.getD n 0) (if useB then b.getD n 0 else 0) (if useC then d.getD n 0 else 0))
    let src := worst [sa, if useB then sb else none, if useC then sd else none, maskState x ws]
    .done (setClu s c (x.setV (vD ws) (vOn x ws) ls src)) src)

end Sys2Proof.Machine
end

