-- ==== Sys2Proof/Machine/Vector.lean ====
section
/-! DEFINITION. The meanings of the vector engine's instructions (04 R107-R126, R733) and of the misfit decision (02
R66-R69). -/

namespace Sys2Proof.Machine

open Sys2Proof

/-! ### Arithmetic (R106, R107) -/

/-- What names an operation and its operands to the free bits of a NaN (log 2). -/
def nanKey (op : Nat) (a b d : Word) : Nat := op * 2 ^ 96 + a.toNat * 2 ^ 64 + b.toNat * 2 ^ 32 + d.toNat
/-- An arithmetic lane: integers exactly and then to TYPE, floating values rounded once. -/
def arithLane (op : Nat) (fi : Int → Int → Int → Int) (ff : OutFmt → Nat → Word → Word → Word → Word) (ws : List Word)
    (a b d : Word) : Word :=
  let t := vType ws
  if t.isInt then intLane t (vSat ws) (fi a.toInt b.toInt d.toInt) else ff t (nanKey op a b d) a b d
/-- VADD. -/
def execVadd (c : Nat) (s : State) : Host.Outcome State Fault Refusal :=
  .next (vecMap s c 0x80 true false (arithLane 0x80 (fun x y _ => x + y)
    (fun t k a b _ => fadd t k (laneVal t a) (laneVal t b))))
/-- VSUB. -/
def execVsub (c : Nat) (s : State) : Host.Outcome State Fault Refusal :=
  .next (vecMap s c 0x81 true false (arithLane 0x81 (fun x y _ => x - y)
    (fun t k a b _ => fadd t k (laneVal t a) (fvNeg (laneVal t b)))))
/-- VMUL. -/
def execVmul (c : Nat) (s : State) : Host.Outcome State Fault Refusal :=
  .next (vecMap s c 0x82 true false (arithLane 0x82 (fun x y _ => x * y)
    (fun t k a b _ => fmul t k (laneVal t a) (laneVal t b))))
/-- VFMA, rounded once. -/
def execVfma (c : Nat) (s : State) : Host.Outcome State Fault Refusal :=
  .next (vecMap s c 0x83 true true (arithLane 0x83 (fun x y z => x * y + z)
    (fun t k a b d => ffma t k (laneVal t a) (laneVal t b) (laneVal t d))))
/-- VMIN. -/
def execVmin (c : Nat) (s : State) : Host.Outcome State Fault Refusal :=
  .next (vecMap s c 0x84 true false (arithLane 0x84 (fun x y _ => min x y)
    (fun t k a b _ => fminmax t k false a b)))
/-- VMAX. -/
def execVmax (c : Nat) (s : State) : Host.Outcome State Fault Refusal :=
  .next (vecMap s c 0x85 true false (arithLane 0x85 (fun x y _ => max x y)
    (fun t k a b _ => fminmax t k true a b)))
/-- VABS. -/
def execVabs (c : Nat) (s : State) : Host.Outcome State Fault Refusal :=
  .next (vecMap s c 0x86 false false (arithLane 0x86 (fun x _ _ => x.natAbs)
    (fun t k a _ _ => roundLane t k (a &&& 0x7FFFFFFF))))
/-- VNEG. -/
def execVneg (c : Nat) (s : State) : Host.Outcome State Fault Refusal :=
  .next (vecMap s c 0x87 false false (arithLane 0x87 (fun x _ _ => -x)
    (fun t k a _ _ => roundLane t k (a ^^^ 0x80000000))))

/-! ### Logic and shifts: each acts on the 32-bit lane (R733) -/

/-- VAND. -/
def execVand (c : Nat) (s : State) : Host.Outcome State Fault Refusal :=
  .next (vecMap s c 0x88 true false (fun _ a b _ => a &&& b))
/-- VOR. -/
def execVor (c : Nat) (s : State) : Host.Outcome State Fault Refusal :=
  .next (vecMap s c 0x89 true false (fun _ a b _ => a ||| b))
/-- VXOR. -/
def execVxor (c : Nat) (s : State) : Host.Outcome State Fault Refusal :=
  .next (vecMap s c 0x8A true false (fun _ a b _ => a ^^^ b))
/-- VSHL by IMM[4:0]. -/
def execVshl (c : Nat) (s : State) : Host.Outcome State Fault Refusal :=
  .next (vecMap s c 0x8B false false (fun ws a _ _ => a <<< (vImm ws % 32)))
/-- VSHRA. -/
def execVshra (c : Nat) (s : State) : Host.Outcome State Fault Refusal :=
  .next (vecMap s c 0x8C false false (fun ws a _ _ => a.sshiftRight (vImm ws % 32)))
/-- VSHRL. -/
def execVshrl (c : Nat) (s : State) : Host.Outcome State Fault Refusal :=
  .next (vecMap s c 0x8D false false (fun ws a _ _ => a >>> (vImm ws % 32)))

/-! ### Compare and select -/

/-- The condition of IMM[2:0] on two lanes: a NaN is unordered (R107). -/
def cmpLane (t : OutFmt) (cond : Nat) (a b : Word) : Bool :=
  if t.isInt then (condHolds cond a.toInt b.toInt).getD false
  else
    let u := laneVal t a
    let v := laneVal t b
    match cond with
    | 0 => fvEq u v
    | 1 => !fvEq u v
    | 2 => fvLt false u v
    | 3 => fvEq u v || fvLt false v u
    | 4 => fvLt false v u
    | _ => fvEq u v || fvLt false u v
/-- VCMP into the mask register VD[2:0]. -/
def execVcmp (c : Nat) (s : State) : Host.Outcome State Fault Refusal :=
  .next (vecStep s c 0x90 (fun i _ x s =>
    let ws := i.words
    let (a, sa) := opA x ws
    let (b, sb) := opB x i
    let bits := (List.range 128).foldl (fun (m : BitVec 128) n =>
      if cmpLane (vType ws) (vImm ws % 8) (a.getD n 0) (b.getD n 0) then m ||| BitVec.ofNat 128 (2 ^ n) else m) 0
    let src := worst [sa, sb, maskState x ws]
    .done (setClu s c (x.setVM (vD ws % 8) (vOn x ws) bits src)) src))
/-- VSEL: VA where the mask register VC[2:0] is 1, otherwise VB. -/
def execVsel (c : Nat) (s : State) : Host.Outcome State Fault Refusal :=
  .next (vecStep s c 0x91 (fun i _ x s =>
    let ws := i.words
    let (a, sa) := opA x ws
    let (b, sb) := opB x i
    let m := x.vmask (vC ws % 8)
    let ls := (List.range 128).map (fun n => if m.getLsbD n then a.getD n 0 else b.getD n 0)
    let src := worst [sa, sb, x.vstate (32 + vC ws % 8), maskState x ws]
    .done (setClu s c (x.setV (vD ws) (vOn x ws) ls src)) src))

/-! ### Transcendental functions and division (R115, R116) -/

/-- A function of FP32 on a lane; BF16 computes in FP32 and rounds once. -/
def trans (op : Nat) (f : Word → Word) (ws : List Word) (a : Word) : Word :=
  match vType ws with
  | .bf16 => bf16OfFp32 (nanKey op a 0 0) (f a)
  | _ => f a
/-- VEXP2. -/
def execVexp2 (c : Nat) (s : State) : Host.Outcome State Fault Refusal :=
  .next (vecMap s c 0x98 false false (fun ws a _ _ => trans 0x98 vexp2Lane ws a))
/-- VRCP. -/
def execVrcp (c : Nat) (s : State) : Host.Outcome State Fault Refusal :=
  .next (vecMap s c 0x99 false false (fun ws a _ _ => trans 0x99 vrcpLane ws a))
/-- VRSQ. -/
def execVrsq (c : Nat) (s : State) : Host.Outcome State Fault Refusal :=
  .next (vecMap s c 0x9A false false (fun ws a _ _ => trans 0x9A vrsqLane ws a))
/-- VDIV. -/
def execVdiv (c : Nat) (s : State) : Host.Outcome State Fault Refusal :=
  .next (vecMap s c 0x9B true false (fun ws a b _ =>
    fdiv (vType ws) (nanKey 0x9B a b 0) (laneVal (vType ws) a) (laneVal (vType ws) b)))
/-- VCVT from TYPE to the type in IMM[3:0]. -/
def execVcvt (c : Nat) (s : State) : Host.Outcome State Fault Refusal :=
  .next (vecMap s c 0xA0 false false (fun ws a _ _ => vcvtLane (vType ws) ((outFmt? (vImm ws % 16)).getD .int32) a))

/-! ### Shuffles and reductions (R112-R114) -/

/-- VSHUF: lane VB[c] mod 128. -/
def execVshuf (c : Nat) (s : State) : Host.Outcome State Fault Refusal :=
  .next (vecStep s c 0xA8 (fun i _ x s =>
    let ws := i.words
    let (a, sa) := opA x ws
    let (b, sb) := opB x i
    let ls := (List.range 128).map (fun n => a.getD ((b.getD n 0).toNat % 128) 0)
    let src := worst [sa, sb, maskState x ws]
    .done (setClu s c (x.setV (vD ws) (vOn x ws) ls src)) src))
/-- VBFLY: lane i takes lane i XOR IMM[6:0]. -/
def execVbfly (c : Nat) (s : State) : Host.Outcome State Fault Refusal :=
  .next (vecStep s c 0xA9 (fun i _ x s =>
    let ws := i.words
    let (a, sa) := opA x ws
    let ls := (List.range 128).map (fun n => a.getD (n ^^^ (vImm ws % 128)) 0)
    let src := worst [sa, maskState x ws]
    .done (setClu s c (x.setV (vD ws) (vOn x ws) ls src)) src))
/-- The identity of a reduction (R113). -/
def redIdentity (t : OutFmt) (op : Nat) : Word :=
  match op with
  | 0 => 0
  | 1 => if t.isInt then w32 (wrapN 32 (smin t.ibits)) else infLane t true
  | _ => if t.isInt then w32 (wrapN 32 (smax t.ibits)) else infLane t false
/-- One combination; the lower-numbered lane's value comes first. A BF16 reduction computes in FP32 (R107). -/
def redLane (ws : List Word) (op : Nat) (a b : Word) : Word :=
  match op with
  | 0 => arithLane 0xAA (fun x y _ => x + y) (fun _ k a b _ => fadd .fp32 k (laneVal .fp32 a) (laneVal .fp32 b)) ws a b 0
  | 1 => arithLane 0xAA (fun x y _ => max x y) (fun _ k a b _ => fminmax .fp32 k true a b) ws a b 0
  | _ => arithLane 0xAA (fun x y _ => min x y) (fun _ k a b _ => fminmax .fp32 k false a b) ws a b 0
/-- Steps `t` and on of the tree (R112). -/
def redSteps (ws : List Word) (op : Nat) : Nat → Nat → List Word → List Word
  | 0, _, l => l
  | n + 1, t, l =>
    redSteps ws op n (t + 1) ((List.range 128).map (fun i =>
      let j := i ^^^ 2 ^ t
      redLane ws op (l.getD (Nat.min i j) 0) (l.getD (Nat.max i j) 0)))
/-- VRED: every lane of a group receives the group's result, disabled lanes as well; BF16 is rounded once, at the end. -/
def execVred (c : Nat) (s : State) : Host.Outcome State Fault Refusal :=
  .next (vecStep s c 0xAA (fun i _ x s =>
    let ws := i.words
    let (a, sa) := opA x ws
    let op := vImm ws % 4
    let on := vOn x ws
    let l := (List.range 128).map (fun n => if on.getLsbD n then a.getD n 0 else redIdentity (vType ws) op)
    let src := worst [sa, maskState x ws]
    let ls := (redSteps ws op (vSteps ws) 0 l).map (fun w => roundLane (vType ws) (nanKey 0xAA w 0 0) w)
    .done (setClu s c (x.setV (vD ws) allLanes ls src)) src))

/-! ### Loads, stores, the queue (R107, R108, R111, R118, R124) -/

/-- Does a load wait for tile instructions issued before it (R108)? -/
def loadWaits (s : State) (c : Nat) (i : Issued) (a n : Nat) : Bool :=
  waitsDrain s c [(a, n)] i.mxAt ||
    (clu s (leadOf s c)).mxq.any (fun e => match e with
      | .instr t serial => decide (serial < i.mxAt) &&
          (halfList (cherry s c)).any (fun h => rangesMeet [(a, n)] (outRanges t.words (cherry s c) h 0))
      | .gate _ => false)
/-- The verdict state that a load takes from the tiles that wrote what it reads (R734). -/
def loadState (s : State) (c : Nat) (x : Cluster) (ws : List Word) (a n : Nat) : Option VState :=
  worse (match readsTiles s c [(a, n)] with | [] => none | l => some (.pending l)) (maskState x ws)
/-- VLD. -/
def execVld (c : Nat) (s : State) : Host.Outcome State Fault Refusal :=
  .next (vecStep s c 0xB0 (fun i _ x s =>
    let ws := i.words
    let t := vType ws
    let a := vAddr ws
    let n := 128 * t.bytes
    if loadWaits s c i a n then .wait
    else
      let p := ownerOf s 17 c
      let bs := unitRead s p c a n
      let ls := (List.range 128).map (fun k => laneOfMem t (leNat ((bs.drop (k * t.bytes)).take t.bytes)))
      let src := loadState s c x ws a n
      let s := setClu s c (x.setV (vD ws) (vOn x ws) ls src)
      .done (unitDeny s i.job p c (deniedLines s p c a n) false (vecItems ws)) src))
/-- The enabled lanes of a store as pieces: offset and bytes. -/
def storePieces (size : Nat) (on : Nat → Bool) (els : List Nat) : List (Nat × List Byte) :=
  (List.range els.length).filterMap (fun k => if on k then some (k * size, natLe size (els.getD k 0)) else none)
/-- Store pieces at `a`. -/
def storeAt (s : State) (p c a : Nat) (ps : List (Nat × List Byte)) : State :=
  ps.foldl (fun s q => unitWrite s p c (a + q.1) q.2) s
/-- VST: the enabled lanes of VA, or of the queue's head inside its column mask. -/
def execVst (c : Nat) (s : State) : Host.Outcome State Fault Refusal :=
  .next (vecStep s c 0xB1 (fun i _ x s =>
    let ws := i.words
    let t := vType ws
    let (a, sa) := opA x ws
    let cm := if vQA ws then (match ftqHead x with | some e => e.colmask | none => 0) else allLanes
    let on := vOn x ws &&& cm
    let p := ownerOf s 17 c
    let bad := deniedLines s p c (vAddr ws) (128 * t.bytes)
    let s := storeAt s p c (vAddr ws) (storePieces t.bytes on.getLsbD (a.map (memOfLane t)))
    .done (unitDeny s i.job p c bad true (vecItems ws)) (worse sa (maskState x ws))))
/-- A partial's 128 bits as a wide sum: VALUE sign-extended, and the tag (R124). -/
def widePartial (n : Nat) : Nat × WTag :=
  (wrapN 128 (sgn 96 (n % 2 ^ 96)),
    { fmt := n / 2 ^ 124 % 16, eref := n / 2 ^ 115 % 512, fe := decide (n / 2 ^ 99 % 2 = 1),
      nf := decide (n / 2 ^ 98 % 2 = 1), win := decide (n / 2 ^ 97 % 2 = 1), lsat := decide (n / 2 ^ 96 % 2 = 1) })
/-- Put the 128 partials of a row into the quad at Vn. -/
def setQuad (x : Cluster) (n : Nat) (on : BitVec 128) (ps : List Nat) (st : Option VState) : Cluster :=
  let w := ps.map widePartial
  let f (k : Nat) : Bool := on.getLsbD (2 * k)
  let x := x.setWide n f ((w.take 64).map (fun e => e.1)) ((w.take 64).map (fun e => e.2)) st
  x.setWide (n + 2) f ((w.drop 64).map (fun e => e.1)) ((w.drop 64).map (fun e => e.2)) st
/-- An entry with nothing in it. -/
def noEnt : FtqEnt := ⟨0, 0, 0, 0, 0, false, 0, .mismatch, []⟩
/-- The partials of four strips. -/
def stripPartials (es : List FtqEnt) : List Nat :=
  (List.range 128).map (fun k =>
    let lo := stripRead (es.getD (2 * (k / 64)) noEnt)
    let hi := stripRead (es.getD (2 * (k / 64) + 1) noEnt)
    let q := 2 * (k % 64)
    (lo.getD q 0).toNat + (lo.getD (q + 1) 0).toNat * 2 ^ 32 + (hi.getD q 0).toNat * 2 ^ 64 +
      (hi.getD (q + 1) 0).toNat * 2 ^ 96)
/-- VPOP: the queue's head to VD; TYPE 0x7 takes the four strips of a row of partials. -/
def execVpop (c : Nat) (s : State) : Host.Outcome State Fault Refusal :=
  .next (vecStep s c 0xB2 (fun i _ x s =>
    let ws := i.words
    match x.ftq with
    | [] => .wait
    | e :: _ =>
      if vTypeCode ws = 7 then
        if e.type ≠ 7 ∨ e.part ≠ 0 then .skip 0x0B
        else if x.ftq.length < 4 then .wait
        else
          let es := x.ftq.take 4
          let src := worst (es.map (fun e => some e.verdict) ++ [maskState x ws])
          .done (setClu s c (setQuad x (vD ws) (vOn x ws) (stripPartials es) src)) src
      else
        let src := worse (some e.verdict) (maskState x ws)
        .done (setClu s c (x.setV (vD ws) (vOn x ws) (stripRead e) src)) src))
/-- VTOS: lane 0 of VA to the return queue of the core; it waits while that is full (R111). -/
def execVtos (c : Nat) (s : State) : Host.Outcome State Fault Refusal :=
  .next (vecStep s c 0xB3 (fun i _ x s =>
    let (a, sa) := opA x i.words
    let lead := leadOf s c
    let k := (clu s lead).clv
    if k.retq.length ≥ 4 then .wait
    else
      let s := setClv s lead { k with retq := k.retq ++ [a.getD 0 0] }
      .done (if k.retq = [] then raiseIrq s lead 0 else s) sa))

/-! ### Wide sums (R124-R126) -/

/-- Lane pairs that MASK enables: by the mask bit of their even lane. -/
def pairOn (x : Cluster) (ws : List Word) (p : Nat) : Bool := (vOn x ws).getLsbD (2 * p)
/-- VPADD, modulo 2^128, the flags ORed. -/
def execVpadd (c : Nat) (s : State) : Host.Outcome State Fault Refusal :=
  .next (vecStep s c 0xB8 (fun i _ x s =>
    let ws := i.words
    let ta := x.vtags (vA ws)
    let tb := x.vtags (vB ws)
    let vals := (List.range 64).map (fun p => (x.wide (vA ws) p + x.wide (vB ws) p) % 2 ^ 128)
    let tags := (List.range 64).map (fun p =>
      let a := ta.getD p {}
      let b := tb.getD p {}
      { a with fe := a.fe || b.fe, nf := a.nf || b.nf, win := a.win || b.win, lsat := a.lsat || b.lsat })
    let src := worst [x.vstate (vA ws), x.vstate (vA ws + 1), x.vstate (vB ws), x.vstate (vB ws + 1), maskState x ws]
    .done (setClu s c (x.setWide (vD ws) (pairOn x ws) vals tags src)) src))
/-- The items that suspect lane pairs mark by ITEM_AXIS. -/
def pairItems (ws : List Word) (ps : List Nat) : List Nat :=
  let b := fld (wd ws 4) 15 0
  if ps = [] then [] else
  match fld (wd ws 4) 31 30 with
  | 1 => [b]
  | 2 => ps.map (fun p => b + p)
  | _ => []
/-- What VPCVT makes of lane pair `p`: the lane, whether it counts as a saturation, whether a range check fired. -/
def pcvtPair (s : State) (p c : Nat) (x : Cluster) (ws : List Word) (n : Nat) : Word × Bool × Bool :=
  let t := (x.vtags (vA ws)).getD n {}
  let r := Rescale.ofWords (leWords 4 (unitRead s p c (vAddr ws + 16 * (vImm ws % 4096 + n)) 16))
  let (v, l1) := clamp96 (sgn 128 (x.wide (vA ws) n))
  let (b, sat, l2) := finalConv (vType ws) (vImm ws / 4096) r true t.fmt t.eref v
  (laneOfMem (vType ws) b, sat || l1 || l2 || t.lsat, l1 || l2)
/-- VPCVT. -/
def execVpcvt (c : Nat) (s : State) : Host.Outcome State Fault Refusal :=
  .next (vecStep s c 0xB9 (fun i y x s =>
    let ws := i.words
    let p := ownerOf s 17 c
    let tags := x.vtags (vA ws)
    let tag (n : Nat) : WTag := tags.getD n {}
    let on := (List.range 64).filter (pairOn x ws)
    let good := on.filter (fun n => decide ((tag n).fmt < 7))
    let outs := (List.range 64).map (fun n => if n ∈ good then pcvtPair s p c x ws n else (0, false, false))
    let out (n : Nat) : Word × Bool × Bool := outs.getD n (0, false, false)
    let ls := (List.range 128).map (fun k => if k % 2 = 0 then (out (k / 2)).1 else 0)
    let src := worst [x.vstate (vA ws), x.vstate (vA ws + 1), maskState x ws]
    let ext := (vAddr ws + 16 * (vImm ws % 4096), 1024)
    let s := setClu s c (x.setV (vD ws) (vOn x ws) ls src)
    let s := unitDeny s i.job p c (deniedLines s p c ext.1 ext.2) false (vecItems ws)
    let s := if good.any (fun n => (out n).2.2) then raise s 16 c 1 else s
    let s := blame s i.job 3 (pairItems ws (good.filter (fun n => (tag n).nf)))
    let s := markItems s i.job 1 (pairItems ws (good.filter (fun n =>
      (tag n).nf || (tag n).win || (tag n).lsat || (out n).2.1))) (some c)
    let s := markItems s i.job 2 (if good.any (fun n => (tag n).fe) then vecItems ws else []) (some c)
    let s := markItems s i.job 2 (pairItems ws (on.filter (fun n => decide ((tag n).fmt ≥ 7)))) (some c)
    let k := (good.filter (fun n => (out n).2.1)).length
    let s := match jobObj s y (fld (wd ws 3) 31 16) with
      | some o => if k = 0 then s else hwUpdate s p o (clHandle s c) false (w32 k)
      | none => s
    .done s src))
/-- VPLD: a row of 128 partials into a quad. -/
def execVpld (c : Nat) (s : State) : Host.Outcome State Fault Refusal :=
  .next (vecStep s c 0xBA (fun i _ x s =>
    let ws := i.words
    let a := vAddr ws
    if loadWaits s c i a 2048 then .wait
    else
      let p := ownerOf s 17 c
      let bs := unitRead s p c a 2048
      let ps := (List.range 128).map (fun k => leNat ((bs.drop (16 * k)).take 16))
      let src := loadState s c x ws a 2048
      let s := setClu s c (setQuad x (vD ws) (vOn x ws) ps src)
      .done (unitDeny s i.job p c (deniedLines s p c a 2048) false (vecItems ws)) src))
/-- A wide sum in the layout of R53 after the range check of R56, and whether that fired. -/
def widePack (v : Nat) (t : WTag) : Nat × Bool :=
  let (x, o) := clamp96 (sgn 128 v)
  (partialNat t.fmt t.eref { v := x, lsat := t.lsat || o, win := t.win, nf := t.nf, fe := t.fe }, o)
/-- VPST: the quad at VA as 128 partials. -/
def execVpst (c : Nat) (s : State) : Host.Outcome State Fault Refusal :=
  .next (vecStep s c 0xBB (fun i _ x s =>
    let ws := i.words
    let outs := (List.range 128).map (fun k =>
      let n := vA ws + 2 * (k / 64)
      widePack (x.wide n (k % 64)) ((x.vtags n).getD (k % 64) {}))
    let on (k : Nat) : Bool := pairOn x ws (k % 64)
    let hit := (List.range 128).filter (fun k => on k && (outs.getD k (0, false)).2)
    let p := ownerOf s 17 c
    let bad := deniedLines s p c (vAddr ws) 2048
    let s := storeAt s p c (vAddr ws) (storePieces 16 on (outs.map (fun e => e.1)))
    let s := unitDeny s i.job p c bad true (vecItems ws)
    let s := if hit = [] then s
      else markItems (raise s 16 c 1) i.job 1 (pairItems ws ((hit.map (fun k => k % 64)).eraseDups)) (some c)
    .done s (worst [x.vstate (vA ws), x.vstate (vA ws + 1), x.vstate (vA ws + 2), x.vstate (vA ws + 3), maskState x ws])))

/-! ### MISFIT_DECISION (02 R66-R69) -/

/-- Has every part of the layer instance of counter index `ctr` drained in the job's unit? -/
def layerDrained (s : State) (x : Job) (ctr : Nat) : Bool :=
  (physUnits s x).all (fun h =>
    (clu s h).tiles.all (fun t => t.done || decide (fld (wd t.ins.words 12) 15 0 ≠ ctr)) &&
    (clu s h).mxq.all (fun e => match e with | .instr i _ => decide (fld (wd i.words 12) 15 0 ≠ ctr) | .gate _ => true))
/-- MISFIT_DECISION: the lead core of layer `layer` compares the counter at index `ctr` of its slice with SAT_LIMIT; `item`
is the item of the allocation. A replay takes the recorded choice: 0 re-run, 1 fallback, 2 the outputs stand (20 R602). -/
def execMisfitDecision (c layer ctr item : Nat) (s : State) : Host.Outcome State Fault Refusal :=
  .next (match running s c with
    | none => s
    | some (j, y, g) =>
      match sect? g 9, jobObj s y ctr with
      | some sc, some o =>
        let rec_ (i : Nat) : Word := gword s g (sc.off + 32 * layer + 4 * i)
        if sc.size < 32 * (layer + 1) ∨ !layerDrained s y ctr ∨ (objVal s o).toNat ≤ (rec_ 0).toNat then s
        else
          let need := acycNs ((rec_ 2).toNat + (rec_ 3).toNat) (match logOf s c with | some l => divOf s l | none => 4)
          let able := bit (rec_ 1) 0 && decide ((layer, ctr) ∉ y.reran ∧ nowNs s + need ≤ y.deadline)
          let live := if able then 0 else if isRS s y.part then 1 else 2
          match (if replaying s y.part then forced s 0 j else some live) with
          | none => s
          | some k =>
            let s := decision (raise (forcedMet s 0 j) 16 c 5) y.part 0 j k y.ran
            if k = 0 then evalObj (objPut (modJob s j (fun y => { y with reran := y.reran ++ [(layer, ctr)] })) o 0 (clHandle s c)) o
            else if k = 1 then modJob s j (fun y => { y.blame 1 s.tmu.ticks [item] with misfits := y.misfits ++ [item] })
            else markItems s j 1 [item] (some c)
      | _, _ => s)

end Sys2Proof.Machine
end

