-- ==== Sys2Proof/Machine/Dispatch.lean ====
section
/-! DEFINITION. Which meaning each command has: one arm per constructor of Instr. -/

namespace Sys2Proof.Machine

open Sys2Proof

/-- What a command does to everything but the queue of commands. -/
def exec (i : Instr) (s : State) : Host.Outcome State Fault Refusal :=
  match i with
  | .add c f => Sys2Proof.Machine.execAdd c f s
  | .sub c f => Sys2Proof.Machine.execSub c f s
  | .and c f => Sys2Proof.Machine.execAnd c f s
  | .or c f => Sys2Proof.Machine.execOr c f s
  | .xor c f => Sys2Proof.Machine.execXor c f s
  | .shl c f => Sys2Proof.Machine.execShl c f s
  | .shra c f => Sys2Proof.Machine.execShra c f s
  | .shrl c f => Sys2Proof.Machine.execShrl c f s
  | .min c f => Sys2Proof.Machine.execMin c f s
  | .max c f => Sys2Proof.Machine.execMax c f s
  | .sel c f => Sys2Proof.Machine.execSel c f s
  | .mov c f => Sys2Proof.Machine.execMov c f s
  | .mova c f => Sys2Proof.Machine.execMova c f s
  | .clra c f => Sys2Proof.Machine.execClra c f s
  | .setrot c f => Sys2Proof.Machine.execSetrot c f s
  | .rdcst c f => Sys2Proof.Machine.execRdcst c f s
  | .wrcst c f => Sys2Proof.Machine.execWrcst c f s
  | .addi c f => Sys2Proof.Machine.execAddi c f s
  | .movi c f => Sys2Proof.Machine.execMovi c f s
  | .movhi c f => Sys2Proof.Machine.execMovhi c f s
  | .mac c f => Sys2Proof.Machine.execMac c f s
  | .msu c f => Sys2Proof.Machine.execMsu c f s
  | .mpy c f => Sys2Proof.Machine.execMpy c f s
  | .ftap c f => Sys2Proof.Machine.execFtap c f s
  | .ldx c f => Sys2Proof.Machine.execLdx c f s
  | .ldy c f => Sys2Proof.Machine.execLdy c f s
  | .stx c f => Sys2Proof.Machine.execStx c f s
  | .sty c f => Sys2Proof.Machine.execSty c f s
  | .setp c f => Sys2Proof.Machine.execSetp c f s
  | .br c off => Sys2Proof.Machine.execBr c off s
  | .brc c cond sa off => Sys2Proof.Machine.execBrc c cond sa off s
  | .call c off => Sys2Proof.Machine.execCall c off s
  | .ret c => Sys2Proof.Machine.execRet c s
  | .rep c f => Sys2Proof.Machine.execRep c f s
  | .issue c f => Sys2Proof.Machine.execIssue c f s
  | .rdq c sd => Sys2Proof.Machine.execRdq c sd s
  | .yieldPoint c idx => Sys2Proof.Machine.execYieldPoint c idx s
  | .rti c => Sys2Proof.Machine.execRti c s
  | .endJob c => Sys2Proof.Machine.execEndJob c s
  | .repAbort c => Sys2Proof.Machine.execRepAbort c s
  | .yieldLate c => Sys2Proof.Machine.execYieldLate c s
  | .interruptEntry c => Sys2Proof.Machine.execInterruptEntry c s
  | .lineFill c off ecc => Sys2Proof.Machine.execLineFill c off ecc s
  | .tileInstruction c faults => Sys2Proof.Machine.execTileInstruction c faults s
  | .drainRow c => Sys2Proof.Machine.execDrainRow c s
  | .checksumVerdict c => Sys2Proof.Machine.execChecksumVerdict c s
  | .repairDecay c => Sys2Proof.Machine.execRepairDecay c s
  | .vadd c => Sys2Proof.Machine.execVadd c s
  | .vsub c => Sys2Proof.Machine.execVsub c s
  | .vmul c => Sys2Proof.Machine.execVmul c s
  | .vfma c => Sys2Proof.Machine.execVfma c s
  | .vmin c => Sys2Proof.Machine.execVmin c s
  | .vmax c => Sys2Proof.Machine.execVmax c s
  | .vabs c => Sys2Proof.Machine.execVabs c s
  | .vneg c => Sys2Proof.Machine.execVneg c s
  | .vand c => Sys2Proof.Machine.execVand c s
  | .vor c => Sys2Proof.Machine.execVor c s
  | .vxor c => Sys2Proof.Machine.execVxor c s
  | .vshl c => Sys2Proof.Machine.execVshl c s
  | .vshra c => Sys2Proof.Machine.execVshra c s
  | .vshrl c => Sys2Proof.Machine.execVshrl c s
  | .vcmp c => Sys2Proof.Machine.execVcmp c s
  | .vsel c => Sys2Proof.Machine.execVsel c s
  | .vexp2 c => Sys2Proof.Machine.execVexp2 c s
  | .vrcp c => Sys2Proof.Machine.execVrcp c s
  | .vrsq c => Sys2Proof.Machine.execVrsq c s
  | .vdiv c => Sys2Proof.Machine.execVdiv c s
  | .vcvt c => Sys2Proof.Machine.execVcvt c s
  | .vshuf c => Sys2Proof.Machine.execVshuf c s
  | .vbfly c => Sys2Proof.Machine.execVbfly c s
  | .vred c => Sys2Proof.Machine.execVred c s
  | .vld c => Sys2Proof.Machine.execVld c s
  | .vst c => Sys2Proof.Machine.execVst c s
  | .vpop c => Sys2Proof.Machine.execVpop c s
  | .vtos c => Sys2Proof.Machine.execVtos c s
  | .vpadd c => Sys2Proof.Machine.execVpadd c s
  | .vpcvt c => Sys2Proof.Machine.execVpcvt c s
  | .vpld c => Sys2Proof.Machine.execVpld c s
  | .vpst c => Sys2Proof.Machine.execVpst c s
  | .misfitDecision c layer ctr item => Sys2Proof.Machine.execMisfitDecision c layer ctr item s
  | .copy e => Sys2Proof.Machine.execCopy e s
  | .fill e => Sys2Proof.Machine.execFill e s
  | .halo e => Sys2Proof.Machine.execHalo e s
  | .copyRun e ecc => Sys2Proof.Machine.execCopyRun e ecc s
  | .descComplete e => Sys2Proof.Machine.execDescComplete e s
  | .push e => Sys2Proof.Machine.execPush e s
  | .pop e => Sys2Proof.Machine.execPop e s
  | .move e => Sys2Proof.Machine.execMove e s
  | .podWaitExpire e => Sys2Proof.Machine.execPodWaitExpire e s
  | .returnOverflowDrain p => Sys2Proof.Machine.execReturnOverflowDrain p s
  | .syncRead q => Sys2Proof.Machine.execSyncRead q s
  | .syncWrite q same => Sys2Proof.Machine.execSyncWrite q same s
  | .syncSet q => Sys2Proof.Machine.execSyncSet q s
  | .syncClear q same => Sys2Proof.Machine.execSyncClear q same s
  | .syncAdd q => Sys2Proof.Machine.execSyncAdd q s
  | .waitNz q => Sys2Proof.Machine.execWaitNz q s
  | .waitZ q => Sys2Proof.Machine.execWaitZ q s
  | .waitGe q => Sys2Proof.Machine.execWaitGe q s
  | .acquire q => Sys2Proof.Machine.execAcquire q s
  | .tryAcquire q => Sys2Proof.Machine.execTryAcquire q s
  | .register q => Sys2Proof.Machine.execRegister q s
  | .wakeCause q => Sys2Proof.Machine.execWakeCause q s
  | .waitExpire id => Sys2Proof.Machine.execWaitExpire id s
  | .scanTick => Sys2Proof.Machine.execScanTick s
  | .job p => Sys2Proof.Machine.execJob p s
  | .jobStart l => Sys2Proof.Machine.execJobStart l s
  | .spillComplete => Sys2Proof.Machine.execSpillComplete s
  | .restoreComplete => Sys2Proof.Machine.execRestoreComplete s
  | .floorGuard l w => Sys2Proof.Machine.execFloorGuard l w s
  | .floorWindowStart l w => Sys2Proof.Machine.execFloorWindowStart l w s
  | .floorWindowEnd l w => Sys2Proof.Machine.execFloorWindowEnd l w s
  | .deadlineExpire j => Sys2Proof.Machine.execDeadlineExpire j s
  | .slotBoundary cell => Sys2Proof.Machine.execSlotBoundary cell s
  | .slotTimer p => Sys2Proof.Machine.execSlotTimer p s
  | .frameBoundary => Sys2Proof.Machine.execFrameBoundary s
  | .deviceGridBoundary => Sys2Proof.Machine.execDeviceGridBoundary s
  | .paramRequest p cell => Sys2Proof.Machine.execParamRequest p cell s
  | .configRequest p cell cfg => Sys2Proof.Machine.execConfigRequest p cell cfg s
  | .startRequest p cell => Sys2Proof.Machine.execStartRequest p cell s
  | .stopRequest p cell => Sys2Proof.Machine.execStopRequest p cell s
  | .dlTtiRequest p cell slot pdus => Sys2Proof.Machine.execDlTtiRequest p cell slot pdus s
  | .ulTtiRequest p cell slot pdus => Sys2Proof.Machine.execUlTtiRequest p cell slot pdus s
  | .ulDciRequest p cell slot n => Sys2Proof.Machine.execUlDciRequest p cell slot n s
  | .txDataRequest p cell slot payloads => Sys2Proof.Machine.execTxDataRequest p cell slot payloads s
  | .frameReceive port f => Sys2Proof.Machine.execFrameReceive port f s
  | .frameTransmit port rawNs => Sys2Proof.Machine.execFrameTransmit port rawNs s
  | .decompress assoc slot sym => Sys2Proof.Machine.execDecompress assoc slot sym s
  | .cplaneSend assoc downlink slot sym sections => Sys2Proof.Machine.execCplaneSend assoc downlink slot sym sections s
  | .uplaneSend assoc ant slot sym => Sys2Proof.Machine.execUplaneSend assoc ant slot sym s
  | .linkDown port => Sys2Proof.Machine.execLinkDown port s
  | .laneFault kind quad lane cause => Sys2Proof.Machine.execLaneFault kind quad lane cause s
  | .multiblock link lane slot sym bad => Sys2Proof.Machine.execMultiblock link lane slot sym bad s
  | .linkLoss link => Sys2Proof.Machine.execLinkLoss link s
  | .sysrefEdge link inPlace lat => Sys2Proof.Machine.execSysrefEdge link inPlace lat s
  | .fftSymbol link ant slot sym samples => Sys2Proof.Machine.execFftSymbol link ant slot sym samples s
  | .ifftSymbol link ant slot sym bins first last => Sys2Proof.Machine.execIfftSymbol link ant slot sym bins first last s
  | .prachFrontEnd ffe cell occ ant samples => Sys2Proof.Machine.execPrachFrontEnd ffe cell occ ant samples s
  | .energyDetect g cell power slots => Sys2Proof.Machine.execEnergyDetect g cell power slots s
  | .agcEvaluate g peak meanPower clipped slot sym => Sys2Proof.Machine.execAgcEvaluate g peak meanPower clipped slot sym s
  | .agcFreeze g slotEnd => Sys2Proof.Machine.execAgcFreeze g slotEnd s
  | .paEnAssert g => Sys2Proof.Machine.execPaEnAssert g s
  | .paEnDeassert g => Sys2Proof.Machine.execPaEnDeassert g s
  | .prachCorrelate u cell slot occ missing => Sys2Proof.Machine.execPrachCorrelate u cell slot occ missing s
  | .beqAllocation cell slot pdu residueFail => Sys2Proof.Machine.execBeqAllocation cell slot pdu residueFail s
  | .pathSelect cell slot pdu job item handles => Sys2Proof.Machine.execPathSelect cell slot pdu job item handles s
  | .rateRecovery cell slot pdu cb => Sys2Proof.Machine.execRateRecovery cell slot pdu cb s
  | .harqCombine cell slot pdu cb => Sys2Proof.Machine.execHarqCombine cell slot pdu cb s
  | .ldpcPass d checkFail => Sys2Proof.Machine.execLdpcPass d checkFail s
  | .decLate d => Sys2Proof.Machine.execDecLate d s
  | .crcCheck cell slot pdu => Sys2Proof.Machine.execCrcCheck cell slot pdu s
  | .batchDeliver cell slot => Sys2Proof.Machine.execBatchDeliver cell slot s
  | .turboDecode u cell slot pdu cb => Sys2Proof.Machine.execTurboDecode u cell slot pdu cb s
  | .polarDecode u cell slot pdu => Sys2Proof.Machine.execPolarDecode u cell slot pdu s
  | .polarEncode u cell slot pdu => Sys2Proof.Machine.execPolarEncode u cell slot pdu s
  | .segmentation cell slot pdu => Sys2Proof.Machine.execSegmentation cell slot pdu s
  | .ldpcEncode u cell slot pdu cb => Sys2Proof.Machine.execLdpcEncode u cell slot pdu cb s
  | .rateMatching cell slot pdu cb => Sys2Proof.Machine.execRateMatching cell slot pdu cb s
  | .modulationMapping cell slot pdu => Sys2Proof.Machine.execModulationMapping cell slot pdu s
  | .compression assoc ant slot sym prbs => Sys2Proof.Machine.execCompression assoc ant slot sym prbs s
  | .contextUpdate e => Sys2Proof.Machine.execContextUpdate e s
  | .ageSweep => Sys2Proof.Machine.execAgeSweep s
  | .ctxCreate p => Sys2Proof.Machine.execCtxCreate p s
  | .ctxRelease p => Sys2Proof.Machine.execCtxRelease p s
  | .ctxRead p => Sys2Proof.Machine.execCtxRead p s
  | .harqRel p => Sys2Proof.Machine.execHarqRel p s
  | .tplReg p => Sys2Proof.Machine.execTplReg p s
  | .tplDel p => Sys2Proof.Machine.execTplDel p s
  | .imageReg p => Sys2Proof.Machine.execImageReg p s
  | .imageRel p => Sys2Proof.Machine.execImageRel p s
  | .unitQuery p => Sys2Proof.Machine.execUnitQuery p s
  | .rxbuf p => Sys2Proof.Machine.execRxbuf p s
  | .excTx p => Sys2Proof.Machine.execExcTx p s
  | .cqTimer p r => Sys2Proof.Machine.execCqTimer p r s
  | .cqHead p r v => Sys2Proof.Machine.execCqHead p r v s
  | .protoOffer p v => Sys2Proof.Machine.execProtoOffer p v s
  | .functionLevelReset fn => Sys2Proof.Machine.execFunctionLevelReset fn s
  | .pcieConventionalReset hot => Sys2Proof.Machine.execPcieConventionalReset hot s
  | .partCreate failedChecker => Sys2Proof.Machine.execPartCreate failedChecker s
  | .partDestroy => Sys2Proof.Machine.execPartDestroy s
  | .partReset p target => Sys2Proof.Machine.execPartReset p target s
  | .fwActivate => Sys2Proof.Machine.execFwActivate s
  | .keyLoad => Sys2Proof.Machine.execKeyLoad s
  | .keyUnload => Sys2Proof.Machine.execKeyUnload s
  | .fuseProg readBackBad => Sys2Proof.Machine.execFuseProg readBackBad s
  | .takeOutOfService => Sys2Proof.Machine.execTakeOutOfService s
  | .takeOutAndFuse => Sys2Proof.Machine.execTakeOutAndFuse s
  | .returnToService => Sys2Proof.Machine.execReturnToService s
  | .recStart => Sys2Proof.Machine.execRecStart s
  | .recStop => Sys2Proof.Machine.execRecStop s
  | .attest => Sys2Proof.Machine.execAttest s
  | .debugPart => Sys2Proof.Machine.execDebugPart s
  | .session => Sys2Proof.Machine.execSession s
  | .authHoldEnd => Sys2Proof.Machine.execAuthHoldEnd s
  | .replayRecord r => Sys2Proof.Machine.execReplayRecord r s
  | .replayDiverge j => Sys2Proof.Machine.execReplayDiverge j s
  | .rotorSlice c => Sys2Proof.Machine.execRotorSlice c s
  | .rotorSliceEnd c pass => Sys2Proof.Machine.execRotorSliceEnd c pass s
  | .handover c => Sys2Proof.Machine.execHandover c s
  | .rotorLate c => Sys2Proof.Machine.execRotorLate c s
  | .enter p target failedChecker => Sys2Proof.Machine.execEnter p target failedChecker s
  | .freqAdj p v => Sys2Proof.Machine.execFreqAdj p v s
  | .phaseAdj p v => Sys2Proof.Machine.execPhaseAdj p v s
  | .tmuCtl p v => Sys2Proof.Machine.execTmuCtl p v s
  | .timeSet p => Sys2Proof.Machine.execTimeSet p s
  | .timeNs p => Sys2Proof.Machine.execTimeNs p s
  | .tsqStamp p => Sys2Proof.Machine.execTsqStamp p s
  | .servoTimeout => Sys2Proof.Machine.execServoTimeout s
  | .slewEnd => Sys2Proof.Machine.execSlewEnd s
  | .refLoss r => Sys2Proof.Machine.execRefLoss r s
  | .refReturn r => Sys2Proof.Machine.execRefReturn r s
  | .scrubVisit line ecc => Sys2Proof.Machine.execScrubVisit line ecc s
  | .zqCalibration g => Sys2Proof.Machine.execZqCalibration g s
  | .dqsOscRead ch inRange => Sys2Proof.Machine.execDqsOscRead ch inRange s
  | .flitReceive port ch crcOk lane body => Sys2Proof.Machine.execFlitReceive port ch crcOk lane body s
  | .heartbeat port peer cfg skewNs => Sys2Proof.Machine.execHeartbeat port peer cfg skewNs s
  | .linkLost port => Sys2Proof.Machine.execLinkLost port s
  | .portTraining port peerMin peerMax => Sys2Proof.Machine.execPortTraining port peerMin peerMax s
  | .powerCapInterval est temps clusterPower => Sys2Proof.Machine.execPowerCapInterval est temps clusterPower s
  | .domainSwitch => Sys2Proof.Machine.execDomainSwitch s
  | .avsAcknowledge mv => Sys2Proof.Machine.execAvsAcknowledge mv s
  | .powerOnReset testMode fselHigh sbAddr density twoRanks flashAnswers xspi failStep memStep memGroup => Sys2Proof.Machine.execPowerOnReset testMode fselHigh sbAddr density twoRanks flashAnswers xspi failStep memStep memGroup s
  | .supplyMonitor => Sys2Proof.Machine.execSupplyMonitor s
  | .testAccessReset => Sys2Proof.Machine.execTestAccessReset s
  | .wdtRestart => Sys2Proof.Machine.execWdtRestart s
  | .errRingCopy => Sys2Proof.Machine.execErrRingCopy s
  | .errHead p v => Sys2Proof.Machine.execErrHead p v s
  | .take p => Sys2Proof.Machine.execTake p s
  | .release p => Sys2Proof.Machine.execRelease p s
  | .automaticSnapshot => Sys2Proof.Machine.execAutomaticSnapshot s
  | .commit p pg => Sys2Proof.Machine.execCommit p pg s
  | .discard p pg => Sys2Proof.Machine.execDiscard p pg s
  | .evt p pg v setSame => Sys2Proof.Machine.execEvt p pg v setSame s
  | .evtForce p pg v => Sys2Proof.Machine.execEvtForce p pg v s
  | .pageCtl p pg v => Sys2Proof.Machine.execPageCtl p pg v s
  | .owner p pg v => Sys2Proof.Machine.execOwner p pg v s
  | .objWrite p v => Sys2Proof.Machine.execObjWrite p v s
  | .objAdd p v => Sys2Proof.Machine.execObjAdd p v s
  | .objVal p => Sys2Proof.Machine.execObjVal p s
  | .flData p v => Sys2Proof.Machine.execFlData p v s
  | .erase p => Sys2Proof.Machine.execErase p s
  | .registerWrite p offset v byteEn => Sys2Proof.Machine.execRegisterWrite p offset v byteEn s
  | .sidebandAccess offset write pecOk => Sys2Proof.Machine.execSidebandAccess offset write pecOk s
  | .linkUp port => Sys2Proof.Machine.execLinkUp port s
  | .linkRetraining => Sys2Proof.Machine.execLinkRetraining s
  | .refSwitch => Sys2Proof.Machine.execRefSwitch s
  | .powerUp d => Sys2Proof.Machine.execPowerUp d s
  | .refresh ch => Sys2Proof.Machine.execRefresh ch s
  | .testAccessPort tms tdi => Sys2Proof.Machine.execTestAccessPort tms tdi s
  | .fapi p cell msgType => Sys2Proof.Machine.execFapi p cell msgType s
  | .configurationRequest fn busMaster => Sys2Proof.Machine.execConfigurationRequest fn busMaster s

end Sys2Proof.Machine
end

