-- ==== Sys2Proof/Safety.lean ====
section
/-! DEFINITION. What counts as a safe run, and the terms in which the statements speak: no step stops, the memories keep their
canonical form, and what each kind of command may touch. -/

namespace Sys2Proof

open Sys2Proof.Machine

/-- The step that the state takes answers a next state. -/
def StepSafe (s : State) : Prop := ∃ t, step s = .next t

/-- The memories outside the clusters keep the canonical form. -/
def memsCanonical (s : State) : Bool :=
  Memory.wf 0 s.mem.ext && Memory.wf 0 s.mem.site && Memory.wf 0 s.mem.dwm && Memory.wf 0 s.mem.fhb &&
    Memory.wf 0 s.mem.host && Memory.wf 0xFF s.mem.flash

/-- Every cluster's memories keep the canonical form. -/
def clusterMemsCanonical (s : State) : Bool :=
  s.cl.all (fun e => e.2.xm.wf && e.2.ym.wf && e.2.sp.wf)

/-- What every step keeps: the memories of the device and of the clusters are in canonical form, and the error ring and the time-stamp queue
hold no more than their capacity (23 R665, 16 R498). -/
def Inv (s : State) : Prop :=
  memsCanonical s = true ∧ clusterMemsCanonical s = true ∧ s.pg.ering.length ≤ Config.errRing ∧ s.tmu.tsq.length ≤ 64

/-! ### Registers -/

/-- Register `r` of instance `i` under selector `sel` is the one written: every other register, shadow value and field of the
pages is as before, and it holds `v`. -/
def OneReg (s t : State) (r i sel : Nat) (v : Word) : Prop := t.pg = (setRg s r i sel v).pg

/-! ### The Clove core (05) -/

/-- The core of cluster `c` is about to execute an instruction of `len` bytes of job `j`: it leads its unit and runs the job, does
not wait in the sync unit, its outermost repeat block has a-cycles left (R152), and the words lie in a CODE section and in the
instruction cache (R163, R185). -/
def CloveReady (s : State) (c len j : Nat) (y : Job) (g : Gen) : Prop :=
  running s c = some (j, y, g) ∧ syncWaiting s c = false ∧
    ((clu s c).clv.reps = [] ∨ (clu s c).clv.repCycles < Config.repMax) ∧
    inCode g (clu s c).clv.pc len = true ∧ cached s c y (clu s c).clv.pc = true ∧
    cached s c y ((clu s c).clv.pc + len - 4) = true

/-- The core once the loads of the instruction before have landed (R145, R146). -/
def landed (s : State) (c : Nat) : Clv := { Clv.commit (clu s c).clv (clu s c).clv.loads with loads := [] }

/-- Where a core goes after an instruction of `len` bytes that is no branch: to the next word; out of the delay slots to the
branch's target (R145); at the end of a repeat block's body to its start, or out of the block (R148), with ROT_BASE lowered by 1
at the end of an iteration when ROT is set (R153). `k` is the core before, `q` after. -/
def Sequential (k q : Clv) (len : Nat) : Prop :=
  (k.delay = none → k.reps = [] → q.pc = k.pc + len ∧ q.delay = none ∧ q.reps = [] ∧ q.rotBase = k.rotBase) ∧
  (∀ n t, k.delay = some (n, t) → q.reps = k.reps ∧ q.rotBase = k.rotBase ∧
    (1 < n → q.pc = k.pc + len ∧ q.delay = some (n - 1, t)) ∧ (n ≤ 1 → q.pc = t.getD (k.pc + len) ∧ q.delay = none)) ∧
  (∀ l r, k.delay = none → k.reps = l :: r → q.delay = none ∧
    (k.pc + len ≠ l.stop → q.pc = k.pc + len ∧ q.reps = l :: r ∧ q.rotBase = k.rotBase) ∧
    (k.pc + len = l.stop → 1 < l.left → q.pc = l.start ∧ q.reps = { l with left := l.left - 1 } :: r ∧
      q.rotBase = if l.rot then k.rotBase - 1 else k.rotBase) ∧
    (k.pc + len = l.stop → l.left ≤ 1 → r = [] → q.pc = k.pc + len ∧ q.reps = [] ∧
      q.rotBase = if l.rot then k.rotBase - 1 else k.rotBase))

/-- A branch that goes to `target`, or nowhere else: two delay slots follow (R145). -/
def Branches (k q : Clv) (target : Option Nat) : Prop :=
  q.pc = k.pc + 4 ∧ q.delay = some (2, target) ∧ q.reps = k.reps ∧ q.rotBase = k.rotBase

/-- What an instruction of the core that takes `n` a-cycles leaves alone: everything but its cluster, which becomes `x` but for the
core and the order of the cache's lines, HOLD_PEAK of its page, and the run time of its job. -/
def CloveFrame (s t : State) (c n j : Nat) (x : Cluster) : Prop :=
  t = { s with cl := t.cl, pg := t.pg, disp := t.disp } ∧
    (∀ d, d ≠ c → clu t d = clu s d) ∧ clu t c = { x with clv := (clu t c).clv, ic := (clu t c).ic } ∧
    (t.pg = s.pg ∨ ∃ v, OneReg s t CLV_HOLD_PEAK c 0 v) ∧ t.disp = { s.disp with jobs := t.disp.jobs } ∧
    ∀ i, job? t i = if i = j then (job? s j).map (fun y => { y with ran := y.ran + n }) else job? s i

/-- An instruction of the core has completed: the cluster is `x` but for the core, whose registers are those of `k` but for the
program counter, its delay slots, the repeat nest with ROT_BASE, the counts of a-cycles, and the loads that land next. -/
def CloveDone (s t : State) (c n j : Nat) (x : Cluster) (k : Clv) (loads : List (LoadDest × Word)) : Prop :=
  CloveFrame s t c n j x ∧
    (clu t c).clv = { k with pc := (clu t c).clv.pc, delay := (clu t c).clv.delay, reps := (clu t c).clv.reps,
                             repCycles := (clu t c).clv.repCycles, rotBase := (clu t c).clv.rotBase,
                             holdoff := (clu t c).clv.holdoff, sinceYield := k.sinceYield + n, loads := loads, stall := 0 }

/-- An instruction that is no branch has completed and goes on. -/
def CloveNext (s t : State) (c len n j : Nat) (x : Cluster) (k : Clv) (loads : List (LoadDest × Word)) : Prop :=
  CloveDone s t c n j x k loads ∧ Sequential k (clu t c).clv len

/-- A pointer may be used for an access of `n` bytes (R133, R137). -/
def PtrOk (p : Ptr) (n : Nat) : Prop :=
  (p.len = 0 ∨ p.mod.toInt.natAbs ≤ p.len.toNat ∧ p.len.toNat % n = 0) ∧ p.adr.toNat % n = 0

/-! ### The engines of a cluster (03, 04) -/

/-- Nobody has asked the job of cluster `c` to yield, so that what the engines do is followed by no yield. -/
def noYield (s : State) (c : Nat) : Prop :=
  ∀ j y, (clu s (leadOf s c)).job = some j → job? s j = some y → y.phase ≠ .yielding

/-- A consistent vector instruction of opcode `op` stands at the head of the vector stream of cluster `c`; what it may read waits for
no verdict (R734), and the row at the head of the queue, where it reads one, has passed. -/
def VecReady (s : State) (c op : Nat) (i : Issued) (x : Job) : Prop :=
  (∃ n q, (clu s c).vxq = .instr i n :: q) ∧ job? s i.job = some x ∧ opcodeOf i.words = op ∧ vecBad s x c i.words = none ∧
    noYield s c ∧ (∀ k, tgetD none (clu s c).vst k = none) ∧
    (vReadsQ i.words = true → ∃ e r, (clu s c).ftq = e :: r ∧ e.verdict = .pending [])

/-- A vector instruction has completed: it leaves the stream, POP releases the row that it read, and `x` is the cluster but for that
and for the verdict states, which are all clear. -/
def VecDone (s t : State) (c : Nat) (i : Issued) (x : Cluster) : Prop :=
  t = { s with cl := t.cl } ∧ (∀ d, d ≠ c → clu t d = clu s d) ∧ (∀ k, tgetD none (clu t c).vst k = none) ∧
    clu t c = { x with vxq := (clu s c).vxq.tail, vxDone := (clu s c).vxDone + 1, vst := (clu t c).vst,
                       ftq := if vPop i.words then (clu s c).ftq.tail else (clu s c).ftq }

/-- Lane `k` of VA, or of the row at the head of the queue inside its column mask (R106, R118). -/
def laneA (x : Cluster) (ws : List Word) (k : Nat) : Word :=
  if vQA ws then (match x.ftq with | e :: _ => if e.colmask.getLsbD k then e.lanes.getD k 0 else 0 | [] => 0)
  else (tgetD [] x.v (vA ws)).getD k 0
/-- Lane `k` of VB, or the scalar captured at issue (R110). -/
def laneB (x : Cluster) (i : Issued) (k : Nat) : Word :=
  if vSB i.words then i.scalar else (tgetD [] x.v (vB i.words)).getD k 0
/-- Lane `k` of VC, or the scalar. -/
def laneC (x : Cluster) (i : Issued) (k : Nat) : Word :=
  if vSC i.words then i.scalar else (tgetD [] x.v (vC i.words)).getD k 0
/-- Bit `k` of mask register `n`; VM0 reads all ones (R101). -/
def maskBit (x : Cluster) (n k : Nat) : Bool := decide (n = 0) || (tgetD 0 x.vm n).getLsbD k

/-- The enabled lanes of VD hold `f`; the other lanes and registers are as before; the tags of VD's pair are clear, the others as
before (R104, R106). -/
def WritesVD (x y : Cluster) (ws : List Word) (f : Nat → Word) : Prop :=
  y = { x with v := y.v, tags := y.tags } ∧ (∀ n, n ≠ vD ws → tgetD [] y.v n = tgetD [] x.v n) ∧
    (∀ k, k < 128 → (tgetD [] y.v (vD ws)).getD k 0 = if maskBit x (vMask ws) k then f k else (tgetD [] x.v (vD ws)).getD k 0) ∧
    ∀ n, tgetD [] y.tags n = if n = vD ws / 2 then [] else tgetD [] x.tags n

/-- An integer result of `n` bits in its lane: wrapped, or clamped with SAT, and sign-extended (R102, R106). -/
def intResult (n : Nat) (sat : Bool) (x : Int) : Word :=
  if sat then BitVec.ofInt 32 (max (-(2 ^ (n - 1) : Nat)) (min ((2 ^ (n - 1) : Nat) - 1) x)) else (BitVec.ofInt n x).signExtend 32
/-- Width of the integer TYPE of a vector instruction (R75): none for the others. -/
def intWidth (ws : List Word) : Option Nat := [8, 16, 32][vTypeCode ws]?

/-! ### Arithmetic of the core, as R138 to R140 give it -/

/-- A scalar result: kept inside the 32-bit range; outside it clamped with SAT, wrapped without, and VS (bit 0) set. -/
def scalarResult (sat : Bool) (x : Int) : Word × Word :=
  if -2147483648 ≤ x ∧ x ≤ 2147483647 then (BitVec.ofInt 32 x, 0)
  else (if sat then (if x < 0 then 0x80000000 else 0x7FFFFFFF) else BitVec.ofInt 32 x, 1)

/-- An accumulator result: V32 (bit 1) outside the 32-bit range, clamped with SAT; V40 (bit 2) outside the 40-bit range. -/
def accumulatorResult (sat : Bool) (x : Int) : BitVec 40 × Word :=
  if -2147483648 ≤ x ∧ x ≤ 2147483647 then (BitVec.ofInt 40 x, 0)
  else if sat then (if x < 0 then BitVec.ofInt 40 (-2147483648) else BitVec.ofInt 40 2147483647, 2)
  else (BitVec.ofInt 40 x, if -549755813888 ≤ x ∧ x ≤ 549755813887 then 2 else 6)

/-- Bits [31:16] of an accumulator, rounded to nearest with ties away from zero. -/
def roundedHigh (a : BitVec 40) : Int :=
  if 0 ≤ a.toInt then (a.toInt + 32768) / 65536 else -((-a.toInt + 32768) / 65536)

/-- What MOVA writes. -/
def movaValue (sat : Bool) (a : BitVec 40) : Word :=
  if sat then BitVec.ofInt 32 (max (-32768) (min 32767 (roundedHigh a)))
  else (BitVec.ofInt 16 (roundedHigh a)).signExtend 32

/-- The product of the low halves of two registers, doubled with FRAC. -/
def product (frac : Bool) (a b : Word) : Int :=
  (a.setWidth 16).toInt * (b.setWidth 16).toInt * (if frac then 2 else 1)

/-- Two bytes of the core's X or Y memory, sign-extended; four bytes as a word. -/
def halfWord (f : Nat → Byte) (a : Nat) : Word := (f (a + 1) ++ f a : BitVec 16).signExtend 32
/-- Four bytes, the least significant first. -/
def fullWord (f : Nat → Byte) (a : Nat) : Word := (f (a + 3) ++ f (a + 2) ++ f (a + 1) ++ f a : BitVec 32)

end Sys2Proof
end

