-- ==== Sys2Proof/Certificates/Slice0/Obligations.lean ====
section
/-! DEFINITION. The statements for the provers, one definition each; OBLIGATIONS.json lists them. -/

open Sys2Proof Sys2Proof.Machine

/-! ### The Clove core (05) -/

/-- Format R and format I instructions that write a register: the instruction, the register's place, and the value and sticky flags
that R139, R142 and R144 give, for a core `k`. -/
def Sys2Proof.aluRows (c : Nat) (f : RFmt) (i : IFmt) (k : Clv) : List (Instr × LoadDest × Word × Word) :=
  let d := k.reg f.wd f.sd
  let a := k.reg f.wa f.sa
  let b := k.reg f.wb f.sb
  let r := k.dest f.wd f.sd
  let n := b.toNat % 32
  let e := LoadDest.s i.sd.toNat
  [(.add c f, r, scalarResult f.sat (a.toInt + b.toInt)), (.sub c f, r, scalarResult f.sat (a.toInt - b.toInt)),
   (.and c f, r, a &&& b, 0), (.or c f, r, a ||| b, 0), (.xor c f, r, a ^^^ b, 0),
   (.shl c f, r, scalarResult f.sat (a.toInt * 2 ^ n)), (.shra c f, r, a.sshiftRight n, 0), (.shrl c f, r, a >>> n, 0),
   (.min c f, r, BitVec.ofInt 32 (min a.toInt b.toInt), 0), (.max c f, r, BitVec.ofInt 32 (max a.toInt b.toInt), 0),
   (.sel c f, r, if d = 0 then b else a, 0), (.mov c f, r, a, 0),
   (.mova c f, r, movaValue f.sat (if f.sa.getLsbD 0 then k.acc1 else k.acc0), 0), (.rdcst c f, r, k.cst, 0),
   (.addi c i, e, scalarResult i.sat ((k.sreg i.sa.toNat).toInt + i.imm.toInt)),
   (.movi c i, e, i.imm.signExtend 32, 0),
   (.movhi c i, e, i.imm ++ (k.sreg i.sd.toNat).setWidth 16, 0)]

/-- Every register-writing instruction of formats R and I completes in one a-cycle with the register and the sticky flags that its
rule gives, read from the registers as they were before the loads of the instruction before landed; every other register,
accumulator, pointer and memory is as those loads left it, and the core goes on. -/
def Sys2Proof.AluInstructionsWriteOneRegister : Prop :=
  ∀ (s : State) (c j : Nat) (y : Job) (g : Gen) (f : RFmt) (i : IFmt), CloveReady s c 4 j y g →
    ∀ e ∈ aluRows c f i (clu s c).clv, ∃ t, exec e.1 s = .next t ∧
      CloveNext s t c 4 1 j (clu s c) { (landed s c).put e.2.1 e.2.2.1 with cst := (landed s c).cst ||| e.2.2.2 } []

/-- The instructions that change one other register of the core `q`, reading the core `k`: CLRA, SETROT, WRCST, SETP, RDQ. Each comes
with what it needs to be consistent: WRCST an IEN inside IEN_ALLOWED (word 3 of the entry), RDQ a value in the return queue. -/
def Sys2Proof.coreRows (s : State) (c : Nat) (y : Job) (g : Gen) (f : RFmt) (p : PFmt) (sd : BitVec 5) (k q : Clv) :
    List (Instr × Prop × Clv) :=
  let v := k.reg f.wa f.sa
  let a := k.sreg p.src.toNat
  let ptr := q.ptr p.yBank p.ptr.toNat
  let set (x : Ptr) : Clv := q.setPtr p.yBank p.ptr.toNat x
  [(.clra c f, True, if f.sa.getLsbD 0 then { q with acc1 := 0 } else { q with acc0 := 0 }),
   (.setrot c f, True, { q with rotBase := v.setWidth 5 }),
   (.wrcst c f, v.extractLsb' 4 4 &&& ~~~((entryWord s g y.entry 3).extractLsb' 8 4) = 0, { q with cst := v &&& 0xF7 }),
   (.setp c { p with field := 0 }, True, set { ptr with adr := a.setWidth 17, base := a.setWidth 17 }),
   (.setp c { p with field := 1 }, True, set { ptr with mod := a.setWidth 16 }),
   (.setp c { p with field := 2 }, True, set { ptr with len := a.setWidth 17 }),
   (.rdq c sd, k.retq ≠ [], { q.put (.s sd.toNat) (k.retq.headD 0) with retq := k.retq.tail })]

/-- CLRA, SETROT, WRCST, SETP and RDQ complete in one a-cycle and change the register that their rule names, and nothing else. -/
def Sys2Proof.CoreRegisterInstructions : Prop :=
  ∀ (s : State) (c j : Nat) (y : Job) (g : Gen) (f : RFmt) (p : PFmt) (sd : BitVec 5), CloveReady s c 4 j y g →
    ∀ e ∈ coreRows s c y g f p sd (clu s c).clv (landed s c), e.2.1 →
      ∃ t, exec e.1 s = .next t ∧ CloveNext s t c 4 1 j (clu s c) e.2.2 []

/-- A register-writing instruction of formats R and I, CLRA, SETROT, WRCST, SETP and RDQ each complete in one a-cycle and change the register that their
rule names, as `AluInstructionsWriteOneRegister` and `CoreRegisterInstructions` say. -/
def Obligations.CoreInstructionsWriteTheirRegister : Prop := AluInstructionsWriteOneRegister ∧ CoreRegisterInstructions

/-- A core after the pointer of a parallel load has moved (R143). -/
def Sys2Proof.afterMove (k : Clv) (y : Bool) (m : XYMove) : Clv :=
  let p := k.ptr y m.ptr.toNat
  if m.en then k.setPtr y m.ptr.toNat (p.step (if m.byMod then p.mod.toInt else 2)) else k

/-- MAC, MSU and MPY write the accumulator with the exact product of the low halves added, subtracted or alone, clamped and flagged
by SAT; their parallel loads move their pointers and land after the load-use slot. -/
def Sys2Proof.MultiplyAccumulatesExactly : Prop :=
  ∀ (s : State) (c j : Nat) (y : Job) (g : Gen) (f : MFmt), CloveReady s c 4 j y g →
    let k := (clu s c).clv
    (f.xm.en = true → PtrOk (k.ptr false f.xm.ptr.toNat) 2) → (f.ym.en = true → PtrOk (k.ptr true f.ym.ptr.toNat) 2) →
    let a := (if f.ad then k.acc1 else k.acc0).toInt
    let m := product f.frac (k.sreg f.sa.toNat) (k.sreg f.sb.toNat)
    let q := afterMove (afterMove (landed s c) false f.xm) true f.ym
    let loads : List (LoadDest × Word) :=
      (if f.xm.en then [(.s f.xm.dest.toNat, halfWord (xByte s c) (k.ptr false f.xm.ptr.toNat).adr.toNat)] else []) ++
      (if f.ym.en then [(.s (f.ym.dest.toNat + 4), halfWord (clu s c).ym.get (k.ptr true f.ym.ptr.toNat).adr.toNat)] else [])
    ∀ e ∈ [(Instr.mac c f, a + m), (Instr.msu c f, a - m), (Instr.mpy c f, m)],
      ∃ t, exec e.1 s = .next t ∧ CloveNext s t c 4 1 j (clu s c)
        { q.setAcc f.ad (accumulatorResult f.sat e.2).1 with cst := (landed s c).cst ||| (accumulatorResult f.sat e.2).2 } loads

/-- FTAP adds x × c to its accumulator, writes x two bytes further on, and moves X's pointer back by 2 and Y's by its modifier; of X
memory the two bytes of that write alone change. -/
def Sys2Proof.FilterTapMovesDelayLine : Prop :=
  ∀ (s : State) (c j : Nat) (y : Job) (g : Gen) (f : TFmt), CloveReady s c 4 j y g →
    let k := (clu s c).clv
    let px := k.ptr false f.px.toNat
    let py := k.ptr true f.py.toNat
    let w := (px.moved 2).toNat
    PtrOk px 2 → PtrOk py 2 → w % 2 = 0 → w + 2 ≤ 0x1FFC0 →
    let x := halfWord (xByte s c) px.adr.toNat
    let r := accumulatorResult f.sat
      ((if f.ad then k.acc1 else k.acc0).toInt + product f.frac x (halfWord (clu s c).ym.get py.adr.toNat))
    let q := ((landed s c).setPtr false f.px.toNat (px.step (-2))).setPtr true f.py.toNat (py.step py.mod.toInt)
    ∃ t, exec (.ftap c f) s = .next t ∧
      CloveNext s t c 4 1 j { clu s c with xm := (clu t c).xm } { q.setAcc f.ad r.1 with cst := (landed s c).cst ||| r.2 } [] ∧
      (clu t c).xm.undef = (clu s c).xm.undef ∧
      ∀ b, (clu t c).xm.get b = if b = w then x.setWidth 8 else if b = w + 1 then (x >>> 8).setWidth 8 else (clu s c).xm.get b

/-- MAC, MSU, MPY and FTAP: `MultiplyAccumulatesExactly` and `FilterTapMovesDelayLine`.
Choices of the model: log 22. -/
def Obligations.AccumulatorInstructionsAreExact : Prop := MultiplyAccumulatesExactly ∧ FilterTapMovesDelayLine

/-- A byte source of X or Y memory as the core of cluster `c` reads it. -/
def Sys2Proof.coreByte (s : State) (c : Nat) (y : Bool) : Nat → Byte := if y then (clu s c).ym.get else xByte s c

/-- LDX and LDY move the pointer at once; the value, a word or a sign-extended halfword, lands after the load-use slot, in which the
register still holds what it held (R146). -/
def Sys2Proof.LoadsLandAfterTheirSlot : Prop :=
  ∀ (s : State) (c j : Nat) (y : Job) (g : Gen) (f : LSFmt), CloveReady s c 4 j y g →
    ∀ e ∈ [(Instr.ldx c f, false), (Instr.ldy c f, true)],
      let k := (clu s c).clv
      let p := k.ptr e.2 f.ptr.toNat
      let v := if f.w32 then fullWord (coreByte s c e.2) p.adr.toNat else halfWord (coreByte s c e.2) p.adr.toNat
      PtrOk p (if f.w32 then 4 else 2) →
      ∃ t, exec e.1 s = .next t ∧
        CloveNext s t c 4 1 j (clu s c) ((landed s c).setPtr e.2 f.ptr.toNat (if f.post then p.step p.mod.toInt else p))
          [(k.dest f.wbank f.reg, v)] ∧
        (f.wbank = false → (clu t c).clv.sreg f.reg.toNat = (landed s c).sreg f.reg.toNat ∧ (landed t c).sreg f.reg.toNat = v)

/-- STX and STY store the low half or the whole of the register and move the pointer; of the memory the bytes stored alone change. -/
def Sys2Proof.StoresChangeTheirBytesAlone : Prop :=
  ∀ (s : State) (c j : Nat) (y : Job) (g : Gen) (f : LSFmt), CloveReady s c 4 j y g →
    ∀ e ∈ [(Instr.stx c f, false), (Instr.sty c f, true)],
      let k := (clu s c).clv
      let p := k.ptr e.2 f.ptr.toNat
      let n := if f.w32 then 4 else 2
      let v := k.reg f.wbank f.reg
      let mem (u : State) : Ram := if e.2 then (clu u c).ym else (clu u c).xm
      PtrOk p n → (e.2 = false → p.adr.toNat + n ≤ 0x1FFC0) →
      ∃ t, exec e.1 s = .next t ∧
        CloveNext s t c 4 1 j (if e.2 then { clu s c with ym := (clu t c).ym } else { clu s c with xm := (clu t c).xm })
          ((landed s c).setPtr e.2 f.ptr.toNat (if f.post then p.step p.mod.toInt else p)) [] ∧
        (mem t).undef = (mem s).undef ∧
        ∀ b, (mem t).get b = if p.adr.toNat ≤ b ∧ b < p.adr.toNat + n then (v >>> (8 * (b - p.adr.toNat))).setWidth 8
          else (mem s).get b

/-- LDX, LDY, STX and STY: `LoadsLandAfterTheirSlot` and `StoresChangeTheirBytesAlone`. -/
def Obligations.CoreLoadsAndStores : Prop := LoadsLandAfterTheirSlot ∧ StoresChangeTheirBytesAlone

/-- The conditions of BRC on the sign of a register. -/
def Sys2Proof.brcHolds (cond : Nat) (a : Int) : Prop :=
  cond = 0 ∧ a = 0 ∨ cond = 1 ∧ a ≠ 0 ∨ cond = 2 ∧ a < 0 ∨ cond = 3 ∧ 0 ≤ a ∨ cond = 4 ∧ 0 < a ∨ cond = 5 ∧ a ≤ 0

/-- Outside a delay slot BR, BRC, CALL and RET are followed by two delay slots, after which the core goes on at the target: a word
offset from the branch, or the return address, the word after the CALL's delay slots (log 19). BRC goes nowhere else when its
condition fails. -/
def Obligations.BranchesTakeTwoDelaySlots : Prop :=
  ∀ (s : State) (c j : Nat) (y : Job) (g : Gen), CloveReady s c 4 j y g → (clu s c).clv.delay = none →
    let k := (clu s c).clv
    let q := landed s c
    let goal (off : Int) : Nat := ((k.pc : Int) + 4 * off).toNat
    let ends (i : Instr) (r : Clv) (target : Option Nat) : Prop :=
      ∃ t, exec i s = .next t ∧ CloveDone s t c 1 j (clu s c) r [] ∧ Branches r (clu t c).clv target
    (∀ off, ends (.br c off) q (some (goal off.toInt))) ∧
    (∀ (cond : BitVec 3) sa off, cond.toNat < 6 →
      (brcHolds cond.toNat (k.sreg sa.toNat).toInt → ends (.brc c cond sa off) q (some (goal off.toInt))) ∧
      (¬ brcHolds cond.toNat (k.sreg sa.toNat).toInt → ends (.brc c cond sa off) q none)) ∧
    (∀ off, k.calls.length < 8 → ends (.call c off) { q with calls := (k.pc + 12) :: k.calls } (some (goal off.toInt))) ∧
    (∀ a r, k.calls = a :: r → ends (.ret c) { q with calls := r } (some a))

/-- A consistent REP (R149) with COUNT 0 skips its body; with another COUNT the core enters the block at the word after it, the body's
lines locked in the cache when the block is outermost (R148, R150). REP takes two a-cycles. -/
def Sys2Proof.RepeatBlocksStart : Prop :=
  ∀ (s : State) (c j : Nat) (y : Job) (g : Gen) (f : RepFmt), CloveReady s c 8 j y g →
    let k := (clu s c).clv
    let n := f.lenM1.toNat + 1
    let count := if f.csrc then (k.sreg (f.count.toNat % 32)).toNat else f.count.toNat
    let inBody (off : Nat) : Prop := k.pc + 8 ≤ off ∧ off < k.pc + 8 + 4 * n ∧ off < g.len
    k.delay = none → k.reps.length < 3 → f.span ≠ 0 → bodyBad s g n (k.pc + 8) = false →
    (k.reps = [] → count * f.span.toNat ≤ 4096 ∧ ∀ off, inBody off → cached s c y off = true) →
    (∀ l r, k.reps = l :: r → count * f.span.toNat ≤ l.span ∧ l.stop ≠ k.pc + 8) →
    (f.rot = true → ∀ l ∈ k.reps, l.rot = false) →
    ∃ t, exec (.rep c f) s = .next t ∧ CloveDone s t c 2 j (clu s c) (landed s c) [] ∧
      (count = 0 → Sequential (landed s c) (clu t c).clv (8 + 4 * n)) ∧
      (count ≠ 0 → (clu t c).clv.pc = k.pc + 8 ∧ (clu t c).clv.delay = none ∧ (clu t c).clv.rotBase = k.rotBase ∧
        (clu t c).clv.reps = ⟨k.pc + 8, k.pc + 8 + 4 * n, count, f.span.toNat, f.rot⟩ :: k.reps ∧
        (k.reps = [] → ∀ off, inBody off → ∃ l ∈ (clu t c).ic, l.part = y.part ∧ l.slot = y.slot ∧ l.gen = y.gen ∧
          l.line = off / 256 ∧ l.rep = true))

/-- Every item of a job is marked failed. -/
def Sys2Proof.allFailed (t : State) (j : Nat) (y : Job) : Prop :=
  ∃ y', job? t j = some y' ∧ ∀ i, i < y.nitems → 2 ≤ tgetD 0 y'.marks i

/-- The record of R201 for a skip of job `y`: appended to the error ring while it has room. -/
def Sys2Proof.skipLogged (s t : State) (y : Job) (reason source : Nat) (unit : Word) (off : Nat) : Prop :=
  s.pg.ering.length < 16384 → ∃ r, t.pg.ering = s.pg.ering ++ [r] ∧ r.hdr = recHdr 0x11 reason source y.part ∧ r.w1 = unit ∧
    r.w2 = w32 y.slot ∧ r.w3 = w32 y.gen ∧ r.w4 = w32 off

/-- An outermost block that has run REP_MAX a-cycles is abandoned: the core goes on after its last word, REP_ABORT and INSTR_SKIP are
set, the skip is counted and logged with REASON 0x06, and every item of the job fails (R152, R164). -/
def Sys2Proof.RepAbortLeavesTheBlock : Prop :=
  ∀ (s : State) (c j : Nat) (y : Job) (g : Gen) (l : RepLvl), running s c = some (j, y, g) →
    (clu s c).clv.reps.getLast? = some l → 4096 ≤ (clu s c).clv.repCycles →
    ∃ t, exec (.repAbort c) s = .next t ∧ (clu t c).clv.pc = l.stop ∧ (clu t c).clv.reps = [] ∧
      (∀ e ∈ (clu t c).ic, e.rep = false) ∧ (∀ d, d ≠ c → clu t d = clu s d) ∧
      bit (rg t (18 * 4096 + HDR_EVT) c 0) 0 = true ∧ bit (rg t (18 * 4096 + HDR_EVT) c 0) 1 = true ∧
      rg t CLV_SKIP_COUNT c 0 = satAdd (rg s CLV_SKIP_COUNT c 0) 1 ∧ allFailed t j y ∧
      skipLogged s t y 6 0 (clHandle s c) (l.start - 8) ∧ t.mem = s.mem

/-- REP and the bound on its a-cycles: `RepeatBlocksStart` and `RepAbortLeavesTheBlock`. -/
def Obligations.RepeatBlocksRunOrAreAbandoned : Prop := RepeatBlocksStart ∧ RepAbortLeavesTheBlock

/-- Inconsistent instructions of R163 and their REASON: a branch in a delay slot; a reserved COND or field; CALL and RET beyond the call
stack; RTI outside a handler; QUEUE code 3; WRCST of an enable outside IEN_ALLOWED. -/
def Sys2Proof.skipRows (s : State) (c : Nat) (y : Job) (g : Gen) (f : RFmt) (k : Clv) : List (Instr × Prop × Nat) :=
  let slot := k.delay ≠ none
  [(.br c 0, slot, 3), (.ret c, slot, 3), (.call c 0, slot, 3), (.brc c 0 0 0, slot, 3), (.brc c 6 0 0, True, 1),
   (.brc c 7 0 0, True, 1), (.ret c, k.delay = none ∧ k.calls = [], 0x0A),
   (.call c 0, k.delay = none ∧ 8 ≤ k.calls.length, 0x0A), (.rti c, k.shadow = none, 0x0A),
   (.wrcst c f, (k.reg f.wa f.sa).extractLsb' 4 4 &&& ~~~((entryWord s g y.entry 3).extractLsb' 8 4) ≠ 0, 0x0E),
   (.setp c ⟨false, 0, 3, 0⟩, True, 1), (.setp c ⟨true, 0, 3, 0⟩, True, 1), (.issue c ⟨3, false, 0, 0, 0, false⟩, True, 1),
   (.ldx c ⟨true, 0, false, 0, false⟩, (k.ptr false 0).adr.toNat % 4 ≠ 0, 4),
   (.sty c ⟨false, 0, false, 0, false⟩, (k.ptr true 0).adr.toNat % 2 ≠ 0, 4),
   (.stx c ⟨false, 0, false, 0, false⟩, (k.ptr false 0).len = 0 ∧ (k.ptr false 0).adr.toNat % 2 = 0 ∧
     0x1FFC0 ≤ (k.ptr false 0).adr.toNat, 2)]

/-- Instruction `i` of job `j` on the core of cluster `c` is passed over in one a-cycle with none of its effect: INSTR_SKIP is set, the skip is
counted and logged with its REASON, and every item of the job is marked failed, while the job goes on (R164). -/
def Sys2Proof.PassedOver (s : State) (c j : Nat) (y : Job) (i : Instr) (reason : Nat) : Prop :=
  ∃ t k, exec i s = .next t ∧ k.delay = (clu s c).clv.delay ∧ k.reps = (clu s c).clv.reps ∧ k.pc = (clu s c).clv.pc ∧
    Sequential k (clu t c).clv 4 ∧ (∀ n, (clu t c).clv.sreg n = (landed s c).sreg n) ∧
    (∀ n, tgetD 0 (clu t c).clv.w n = tgetD 0 (landed s c).w n) ∧ (clu t c).clv.acc0 = (clu s c).clv.acc0 ∧
    (clu t c).clv.acc1 = (clu s c).clv.acc1 ∧ (clu t c).clv.px = (clu s c).clv.px ∧ (clu t c).clv.py = (clu s c).clv.py ∧
    (clu t c).clv.cst = (clu s c).clv.cst ∧ (clu t c).clv.calls = (clu s c).clv.calls ∧
    (clu t c).xm = (clu s c).xm ∧ (clu t c).ym = (clu s c).ym ∧ (clu t c).sp = (clu s c).sp ∧ t.mem = s.mem ∧
    bit (rg t (18 * 4096 + HDR_EVT) c 0) 0 = true ∧ rg t CLV_SKIP_COUNT c 0 = satAdd (rg s CLV_SKIP_COUNT c 0) 1 ∧
    allFailed t j y ∧ skipLogged s t y reason 0 (clHandle s c) (clu s c).clv.pc

/-- An inconsistent instruction is passed over, as `PassedOver` says (R164).
Choices of the model: log 11, 20. -/
def Obligations.InconsistentInstructionsAreSkipped : Prop :=
  ∀ (s : State) (c j : Nat) (y : Job) (g : Gen) (f : RFmt), CloveReady s c 4 j y g →
    ∀ e ∈ skipRows s c y g f (clu s c).clv, e.2.1 → PassedOver s c j y e.1 e.2.2

/-- Does a circular pointer break a condition of R137 for accesses of `width` bytes? -/
def Sys2Proof.breaksCircle (p : Ptr) (width : Nat) : Prop :=
  p.len ≠ 0 ∧ (p.len.toNat < p.mod.toInt.natAbs ∨ p.len.toNat % width ≠ 0)

/-- A pointer with length 0 moves without bound; a circular one inside its range stays in it, its length added or subtracted once. A load,
store, parallel load or FTAP whose circular pointer has a modifier of greater magnitude than its length, or a length that is no multiple
of the access width, is passed over with REASON 0x04 and the pointers stay (`PassedOver`). SETP takes any value, and address and base
together (R137). -/
def Obligations.CircularPointersFollowTheirRange : Prop :=
  (∀ (p : Ptr) (d : Int), let a := (p.adr.toNat : Int) + d
    (p.len = 0 → p.moved d = BitVec.ofInt 17 a) ∧
    (p.len ≠ 0 → d.natAbs ≤ p.len.toNat → p.base.toNat + p.len.toNat ≤ 0x20000 →
      p.base.toNat ≤ p.adr.toNat → p.adr.toNat < p.base.toNat + p.len.toNat →
      p.base.toNat ≤ (p.moved d).toNat ∧ (p.moved d).toNat < p.base.toNat + p.len.toNat ∧
      ((p.moved d).toNat : Int) = if a < p.base.toNat then a + p.len.toNat else if (p.base.toNat : Int) + p.len.toNat ≤ a then a - p.len.toNat else a)) ∧
  ∀ (s : State) (c j : Nat) (y : Job) (g : Gen) (l : LSFmt) (m : MFmt) (f : TFmt) (p : PFmt), CloveReady s c 4 j y g →
    let ptr (yb : Bool) (i : BitVec 2) : Ptr := (clu s c).clv.ptr yb i.toNat
    let n := if l.w32 then 4 else 2
    (breaksCircle (ptr false l.ptr) n → ∀ i ∈ [Instr.ldx c l, .stx c l], PassedOver s c j y i 4) ∧
    (breaksCircle (ptr true l.ptr) n → ∀ i ∈ [Instr.ldy c l, .sty c l], PassedOver s c j y i 4) ∧
    (m.xm.en = true ∧ breaksCircle (ptr false m.xm.ptr) 2 ∨ m.ym.en = true ∧ breaksCircle (ptr true m.ym.ptr) 2 →
      ∀ i ∈ [Instr.mac c m, .msu c m, .mpy c m], PassedOver s c j y i 4) ∧
    (breaksCircle (ptr false f.px) 2 ∨ breaksCircle (ptr true f.py) 2 → PassedOver s c j y (.ftap c f) 4) ∧
    let q := landed s c
    let v := (clu s c).clv.sreg p.src.toNat
    let x := q.ptr p.yBank p.ptr.toNat
    ∀ e ∈ [(0, { x with adr := v.setWidth 17, base := v.setWidth 17 }), (1, { x with mod := v.setWidth 16 }), (2, { x with len := v.setWidth 17 })],
      ∃ t, exec (.setp c { p with field := e.1 }) s = .next t ∧ CloveNext s t c 4 1 j (clu s c) (q.setPtr p.yBank p.ptr.toNat e.2) []

/-- The descriptor that ISSUE reads: words of X memory from the pointer, one of them replaced when PEN is set (R159). -/
def Sys2Proof.issuedWords (s : State) (c : Nat) (f : IssFmt) (n : Nat) : List Word :=
  let a := ((clu s c).clv.ptr false f.px.toNat).adr.toNat
  (List.range n).map (fun i => if f.pen = true ∧ i = f.pword.toNat then (clu s c).clv.sreg f.patch.toNat
    else fullWord (xByte s c) (a + 4 * i))

/-- ISSUE appends the descriptor to the queue that it names, with the scalar captured for it, while the queue has room: the matrix
stream, the vector stream (counted in ISSUE_COUNT), or the cluster's fetch engine. It changes no memory and takes one a-cycle.
Choices of the model: log 25, 26. -/
def Obligations.IssueFillsItsQueue : Prop :=
  ∀ (s : State) (c j : Nat) (y : Job) (g : Gen) (f : IssFmt), CloveReady s c 4 j y g → f.eng = false →
    let k := (clu s c).clv
    let a := (k.ptr false f.px.toNat).adr.toNat
    let ok (t : State) (ws : List Word) (i : Issued) : Prop :=
      i.words = ws ∧ i.scalar = k.sreg (fld (wd ws 1) 20 16) ∧ i.off = k.pc ∧ i.job = j ∧
        Sequential (landed s c) (clu t c).clv 4 ∧ (clu t c).xm = (clu s c).xm ∧ (clu t c).ym = (clu s c).ym ∧
        (clu t c).sp = (clu s c).sp ∧ (clu t c).clv.s = (landed s c).s ∧ t.mem = s.mem ∧ t.sync = s.sync
    (f.queue = 0 → a % 64 = 0 → streamDepth (clu s c).mxq < 16 → ∃ t i, exec (.issue c f) s = .next t ∧
      ok t (issuedWords s c f 16) i ∧ (clu t c).mxq = (clu s c).mxq ++ [.instr i (clu s c).mxIssued] ∧
      (clu t c).mxIssued = (clu s c).mxIssued + 1 ∧ t.eng = s.eng ∧ (clu t c).vxq = (clu s c).vxq) ∧
    (f.queue = 1 → a % 32 = 0 → streamDepth (clu s c).vxq < 32 → ∃ t i, exec (.issue c f) s = .next t ∧
      ok t (issuedWords s c f 8) i ∧ (clu t c).vxq = (clu s c).vxq ++ [.instr i (clu s c).vxIssued] ∧
      rg t VXE_ISSUE_COUNT c 0 = rg s VXE_ISSUE_COUNT c 0 + 1 ∧ t.eng = s.eng ∧ (clu t c).mxq = (clu s c).mxq) ∧
    (f.queue = 2 → a % 64 = 0 → (tgetD {} s.eng c).q.length < 16 → gateDepth (clu s c).mxq < 16 →
      (∀ h ∈ halves s c, gateDepth (clu s h).vxq < 16) → ∃ t i, exec (.issue c f) s = .next t ∧
      ok t (issuedWords s c f 16) i ∧
      (tgetD {} t.eng c).q = (tgetD {} s.eng c).q ++ [{ ins := i, serial := (tgetD {} s.eng c).issued }] ∧
      ∀ e, e ≠ c → tgetD {} t.eng e = tgetD {} s.eng e)

/-- A YIELD that the yield table names and nobody has asked for is passed in one a-cycle and starts the count of R192 again. RTI restores
the saved pc and CST and leaves the handler. -/
def Sys2Proof.YieldPassesAndRtiReturns : Prop :=
  ∀ (s : State) (c j : Nat) (y : Job) (g : Gen), CloveReady s c 4 j y g → y.phase = .running →
    (∀ (idx : BitVec 16) off, yieldEntry? s g idx.toNat = some off → (gword s g off).toNat = (clu s c).clv.pc →
      (clu s c).clv.yieldReq = false → ∃ t w, exec (.yieldPoint c idx) s = .next t ∧
        CloveNext s t c 4 1 j (clu s c) { landed s c with sinceYield := 0, lateLogged := false, atYield := none, waitYield := w } []) ∧
    (∀ pc cst, (clu s c).clv.shadow = some (pc, cst) → ∃ t, exec (.rti c) s = .next t ∧
      CloveDone s t c 1 j (clu s c) { landed s c with cst := cst, shadow := none } [] ∧ (clu t c).clv.pc = pc ∧
      (clu t c).clv.delay = none)

/-- An enabled pending interrupt is taken at an instruction boundary: the source first in the order FAULT, SLOT, WAKE, RETQ is cleared,
pc and CST are saved, the enables are cleared and the core goes on at the handler (R155, R156). A yield point that is late is
recorded once and the job goes on (R192). -/
def Sys2Proof.InterruptsEnterTheirHandler : Prop :=
  ∀ (s : State) (c j : Nat) (y : Job) (g : Gen), running s c = some (j, y, g) →
    let k := (clu s c).clv
    (∀ i h, i < 4 → k.shadow = none → k.delay = none → k.loads = [] → k.reps = [] → k.stall ≠ 5 →
      k.irq.getLsbD (3 - i) = true → bit k.cst (7 - i) = true →
      (∀ i', i' < i → ¬ (k.irq.getLsbD (3 - i') = true ∧ bit k.cst (7 - i') = true)) → handler? s g y.entry i = some h →
      ∃ t, exec (.interruptEntry c) s = .next t ∧ t = { s with cl := t.cl } ∧ (∀ d, d ≠ c → clu t d = clu s d) ∧
        clu t c = { clu s c with
          clv := { k with shadow := some (k.pc, k.cst), cst := k.cst &&& 0xFFFFFF0F, pc := h, stall := 0, holdoff := 0,
                          irq := k.irq &&& ~~~(1#4 <<< (3 - i)) } }) ∧
    (yieldGap s g < k.sinceYield → k.lateLogged = false → s.pg.ering.length < 16384 →
      ∃ t, exec (.yieldLate c) s = .next t ∧ skipLogged s t y 0x0F 0 (clHandle s c) k.pc ∧ (clu t c).clv.lateLogged = true ∧
        (clu t c).clv.pc = k.pc ∧ (∀ i, job? t i = job? s i) ∧ ∀ r i sel, rg t r i sel = rg s r i sel)

/-- END of a member whose work is done ends its code: what is left in its finished-tile queues is discarded, the job ends with its last
member, and the dispatcher chooses again (R122, R269). A line fill that meets no error and has tokens brings its line into the cache
and lets the stalled core go on (R185). -/
def Sys2Proof.EndsAndLineFillsComplete : Prop :=
  ∀ (s : State) (c j : Nat) (y : Job) (g : Gen),
    (CloveReady s c 4 j y g → outstanding s c j = false → ∃ u, exec (.endJob c) s = .next (reconsider u) ∧
      (clu u c).clv.ended = true ∧ (∀ h ∈ halves s c, (clu u h).ftq = []) ∧
      ((∀ m ∈ members s y, m ≠ c → (clu s m).clv.ended = true) → job? u j = none) ∧
      (∀ m ∈ members s y, m ≠ c → (clu s m).clv.ended = false → ∃ y', job? u j = some y' ∧ y'.ran = y.ran + 1)) ∧
    (∀ off, running s c = some (j, y, g) → (clu s c).clv.stall = 5 → off / 256 * 256 < g.len →
      8 ≤ (bucket s y.part).level → (∀ l, l ∈ s.mem.ue → ¬ (g.base + off / 256 * 256 < l * 64 + 64 ∧
        l * 64 < g.base + off / 256 * 256 + 256)) →
      ∃ t, exec (.lineFill c off .clean) s = .next t ∧ cached t c y off = true ∧ (clu t c).clv.stall = 0 ∧
        (clu t c).clv.pc = (clu s c).clv.pc ∧ (clu t c).clv.s = (clu s c).clv.s)

/-- YIELD, RTI, an interrupt taken, a late yield point, END and a line fill: `YieldPassesAndRtiReturns`, `InterruptsEnterTheirHandler` and
`EndsAndLineFillsComplete`.
Choices of the model: log 7, 8, 24, 28, 49. -/
def Obligations.YieldsInterruptsAndEnds : Prop := YieldPassesAndRtiReturns ∧ InterruptsEnterTheirHandler ∧ EndsAndLineFillsComplete

/-! ### The matrix engine (03) -/

/-- Element `k` of a row of INT8 or INT16 elements that starts at byte `a` of the namespace of cluster `c`. -/
def Sys2Proof.intElem (s : State) (c : Nat) (int16 : Bool) (a k : Nat) : Int :=
  if int16 then (nsByte s c (a + 2 * k + 1) ++ nsByte s c (a + 2 * k) : BitVec 16).toInt else (nsByte s c (a + k)).toInt

/-- A consistent INT8 or INT16 tile instruction at the head of the matrix stream of a cluster that is in no joined pair starts as soon
as a bank is free and what it reads has drained and may be read: it leaves the stream and holds, for every row of A and column of
B, the exact sum of the products; nothing drains or is marked yet (R47, R70, R80, R84).
Choices of the model: log 37. -/
def Obligations.TileInstructionsComputeExactSums : Prop :=
  ∀ (s : State) (c n : Nat) (i : Issued) (q : List StreamEnt) (x : Job) (wide : Bool),
    (clu s c).mxq = .instr i n :: q → job? s i.job = some x → cherry s c = false → tileBad s x c i.words = none →
    fmtA i.words = (if wide then .int16 else .int8) → banksHeld s c < 2 → tileWaits s c i.words = false →
    (∀ r ∈ tileReads i.words false, deniedLines s (ownerOf s 16 c) c r.1 r.2 = []) →
    ∃ t tile, exec (.tileInstruction c []) s = .next t ∧ t = { s with cl := t.cl } ∧ (∀ d, d ≠ c → clu t d = clu s d) ∧
      clu t c = { clu s c with mxq := q, tiles := (clu t c).tiles } ∧
      (∃ old, (clu t c).tiles = old ++ [tile] ∧
        old.map (fun u => { u with deps := [] }) = (clu s c).tiles.map (fun u => { u with deps := [] })) ∧
      tile.ins = i ∧ tile.drained = 0 ∧ csumSkipped tile = false ∧ tile.rows.length = tileM i.words ∧
      ∀ r k, r < tileM i.words → k < tileN i.words →
        bankVal tile r k 0 = ((List.range (tileK i.words)).map (fun e =>
          intElem s c wide (aRow i.words r).1 e * intElem s c wide (bCol i.words 0 k).1 e)).sum

/-- A tile that no fault struck never mismatches, in any format; a fault that changes one sum of a real tile is found, and names its
row and its column (R90, R91, R94). -/
def Obligations.ChecksumsFindASingleFault : Prop :=
  ∀ (i : Issued) (n eref : Nat) (as bs : List (List El)),
    as.length ≤ halfCols i.words → bs.length ≤ halfCols i.words →
    (csumSkipped (mkTile i n 0 eref as bs []) = false → mismatched (mkTile i n 0 eref as bs []) = false) ∧
    (tileCplx i.words = false → ∀ r k (d : Int), r < as.length → k < bs.length → ¬ (2 ^ 96 : Int) ∣ d →
      let t := mkTile i n 0 eref as bs [⟨.cell r k, false, d⟩]
      csumSkipped t = false → mismatched t = true ∧ badRows t 0 = [r] ∧ badCols t 0 = [k])

/-- Everything of a tile's sums is free of flags. -/
def Sys2Proof.plainSums (t : Tile) : Prop :=
  ∀ row ∈ t.rows, ∀ l ∈ row, l.lsat = false ∧ l.win = false ∧ l.nf = false ∧ l.fe = false

/-- A row of a tile for the scratchpad is converted, written at its place and nowhere else, and the next row follows; the last one
counts the tile in TILE_COUNT. The row carries no flag and may be written (R84, R85, R89, R98). -/
def Obligations.RowsDrainToTheScratchpad : Prop :=
  ∀ (s : State) (c : Nat) (t : Tile) (x : Job), (clu s c).tiles.find? (fun u => !u.done) = some t →
    (clu s c).tiles.find? (fun u => decide (u.id = t.id)) = some t → cherry s c = false → noYield s c →
    twf (fun _ => none) s.disp.jobs = true → job? s t.ins.job = some x → tileDest t.ins.words = false → t.half = 0 → t.sats = 0 →
    plainSums t →
    let ws := t.ins.words
    let p := ownerOf s 16 c
    let outs := drainRowOut s p c t t.drained
    let bs := rowBytes t outs
    let a := (outRow ws false 0 t.drained).1
    t.rows.getD t.drained [] ≠ [] → bs ≠ [] → (∀ o ∈ outs, o.sat = false ∧ o.ls = false) → a + bs.length ≤ Config.spadBytes →
    deniedLines s p c a bs.length = [] → deniedLines s p c a (outRow ws false 0 t.drained).2 = [] →
    (tileRscl ws = true → deniedLines s p c (rsclRange ws false 0).1 (rsclRange ws false 0).2 = []) →
    ∃ u, exec (.drainRow c) s = .next u ∧ u = { s with cl := u.cl, pg := u.pg } ∧
      (∀ d, d ≠ c → clu u d = clu s d) ∧
      clu u c = { clu s c with sp := (clu u c).sp, tiles := (clu u c).tiles, bad := (clu u c).bad } ∧
      (clu u c).tiles = updFirst (fun v => !v.done) (fun _ => { t with drained := t.drained + 1 }) (clu s c).tiles ∧
      (∀ b, (clu u c).sp.get b = if a ≤ b ∧ b < a + bs.length then bs.getD (b - a) 0 else (clu s c).sp.get b) ∧
      (t.drained + 1 ≠ tileM ws → u.pg = s.pg) ∧
      (t.drained + 1 = tileM ws → OneReg s u MXE_TILE_COUNT c 0 (rg s MXE_TILE_COUNT c 0 + 1))

/-- A verdict takes its tile away. Equal sums leave everything else but the verdicts that wait for the tile; unequal sums set ARRAY_FAULT,
FAULT_LOC and FAULT_TAG, count in REPAIR_CNT, fail the items of the tile and of what depends on it, and are recorded with type 0x1C;
at REPAIR_LIMIT they set REPAIR_REQ and the cluster is to leave service (R91 to R95). REPAIR_CNT falls by 1 after REPAIR_DECAY ms.
Choices of the model: log 32. -/
def Obligations.VerdictsFailWhatDependsOnAFault : Prop :=
  ∀ (s : State) (c : Nat),
    (∀ (t : Tile) (rest : List Tile) (x : Job), (clu s c).tiles = t :: rest → t.done = true → csumSkipped t = false →
      cherry s c = false → noYield s c → job? s t.ins.job = some x →
      (mismatched t = false → tasc 0 (clu s c).vst = true →
        ∃ u, exec (.checksumVerdict c) s = .next u ∧ u = { s with cl := u.cl } ∧ (∀ d, d ≠ c → clu u d = clu s d) ∧
          clu u c = { clu s c with tiles := rest, vst := (clu u c).vst,
                                   ftq := (clu s c).ftq.map (fun e => { e with verdict := e.verdict.arrive t.id false }) } ∧
          ∀ n, tgetD none (clu u c).vst n = match tgetD none (clu s c).vst n with
            | some v => if v.arrive t.id false = .pending [] then none else some (v.arrive t.id false)
            | none => none) ∧
      (mismatched t = true → bit (rg s (16 * 4096 + HDR_EVT) c 0) 0 = false →
        ∃ u y, exec (.checksumVerdict c) s = .next u ∧ (clu u c).tiles = rest ∧ rg u MXE_FAULT_LOC c 0 = faultLoc t ∧
          rg u MXE_FAULT_TAG c 0 = w32 (tileTag t.ins.words) ∧ bit (rg u (16 * 4096 + HDR_EVT) c 0) 0 = true ∧
          fld (rg u MXE_REPAIR_CNT c 0) 7 0 = Nat.min 255 (fld (rg s MXE_REPAIR_CNT c 0) 7 0 + 1) ∧
          job? u t.ins.job = some y ∧ (∀ n ∈ tileItems t.ins.words, n < x.nitems → 2 ≤ tgetD 0 y.marks n) ∧
          (∀ d ∈ t.deps, ∀ n ∈ d.idxs x, n < x.nitems → 2 ≤ tgetD 0 y.marks n) ∧
          (s.pg.ering.length < 16384 → ∃ r, u.pg.ering = s.pg.ering ++ [r] ∧ r.hdr = recHdr 0x1C 0 0 x.part ∧
            r.w1 = clHandle s c ∧ r.w4 = faultLoc t) ∧
          (fld (rg s MXE_REPAIR_LIMIT c 0) 7 0 ≠ 0 →
            fld (rg s MXE_REPAIR_LIMIT c 0) 7 0 ≤ Nat.min 255 (fld (rg s MXE_REPAIR_CNT c 0) 7 0 + 1) →
            bit (rg u (16 * 4096 + HDR_EVT) c 0) 7 = true ∧ ∃ e ∈ u.units.leaving, e.1 = c) ∧
          (clu u c).sp = (clu s c).sp ∧ u.mem = s.mem)) ∧
    (∀ n, n = fld (rg s MXE_REPAIR_CNT c 0) 7 0 → 0 < n → rg s MXE_REPAIR_DECAY c 0 ≠ 0 → passed s (clu s c).decayAt ((rg s MXE_REPAIR_DECAY c 0).toNat * 1000000) = true →
      ∃ u, exec (.repairDecay c) s = .next u ∧ OneReg s u MXE_REPAIR_CNT c 0 (w32 (n - 1)) ∧ u = { s with cl := u.cl, pg := u.pg } ∧
        (∀ d, d ≠ c → clu u d = clu s d) ∧ clu u c = { clu s c with decayAt := s.tmu.ticks })

/-! ### The vector engine (04) -/

/-- Vector instructions that write VD lane by lane: the instruction, its opcode, whether its TYPE must be an integer of `n` bits for
this row, and the value of lane `k`. -/
def Sys2Proof.laneRows (c n : Nat) (i : Issued) (x : Cluster) : List (Instr × Nat × Bool × (Nat → Word)) :=
  let ws := i.words
  let a (k : Nat) : Int := (laneA x ws k).toInt
  let b (k : Nat) : Int := (laneB x i k).toInt
  let d (k : Nat) : Int := (laneC x i k).toInt
  let r (v : Int) : Word := intResult n (vSat ws) v
  let sh := vImm ws % 32
  [(.vadd c, 0x80, true, fun k => r (a k + b k)), (.vsub c, 0x81, true, fun k => r (a k - b k)),
   (.vmul c, 0x82, true, fun k => r (a k * b k)), (.vfma c, 0x83, true, fun k => r (a k * b k + d k)),
   (.vmin c, 0x84, true, fun k => r (min (a k) (b k))), (.vmax c, 0x85, true, fun k => r (max (a k) (b k))),
   (.vabs c, 0x86, true, fun k => r |a k|), (.vneg c, 0x87, true, fun k => r (-a k)),
   (.vand c, 0x88, false, fun k => laneA x ws k &&& laneB x i k), (.vor c, 0x89, false, fun k => laneA x ws k ||| laneB x i k),
   (.vxor c, 0x8A, false, fun k => laneA x ws k ^^^ laneB x i k), (.vshl c, 0x8B, false, fun k => laneA x ws k <<< sh),
   (.vshra c, 0x8C, false, fun k => (laneA x ws k).sshiftRight sh), (.vshrl c, 0x8D, false, fun k => laneA x ws k >>> sh),
   (.vsel c, 0x91, false, fun k => if maskBit x (vC ws % 8) k then laneA x ws k else laneB x i k),
   (.vshuf c, 0xA8, false, fun k => laneA x ws ((laneB x i k).toNat % 128)),
   (.vbfly c, 0xA9, false, fun k => laneA x ws (k ^^^ (vImm ws % 128)))]

/-- Integer arithmetic (exact, then wrapped or clamped to TYPE), logic, shifts, selection and permutation complete with the value of
each enabled lane as their rule gives it, and change nothing else. -/
def Obligations.VectorInstructionsWriteEnabledLanes : Prop :=
  ∀ (s : State) (c n : Nat) (i : Issued) (x : Job), ∀ e ∈ laneRows c n i (clu s c), VecReady s c e.2.1 i x →
    (e.2.2.1 = true → intWidth i.words = some n) →
    ∃ t y, exec e.1 s = .next t ∧ WritesVD (clu s c) y i.words e.2.2.2 ∧ VecDone s t c i y

/-- A comparison of integers (R107): 0 EQ, 1 NE, 2 LT, 3 GE, 4 GT, 5 LE. -/
def Sys2Proof.intCompare (cond : Nat) (a b : Int) : Bool :=
  [decide (a = b), decide (a ≠ b), decide (a < b), decide (b ≤ a), decide (b < a), decide (a ≤ b)].getD cond false

/-- Is a lane of FP32 a NaN? -/
def Sys2Proof.isNaN32 (w : Word) : Bool := decide (w.toNat / 2 ^ 23 % 256 = 255 ∧ w.toNat % 2 ^ 23 ≠ 0)

/-- VCMP writes the enabled bits of the mask register VD[2:0], and VM0 not at all: integers compare as signed values; of FP32 values a
NaN is unordered, and the two zeros are equal (R101, R107). -/
def Sys2Proof.VcmpWritesAMaskRegister : Prop :=
  ∀ (s : State) (c : Nat) (i : Issued) (x : Job), VecReady s c 0x90 i x →
    let q := clu s c
    let ws := i.words
    let m := vD ws % 8
    ∃ t y, exec (.vcmp c) s = .next t ∧ VecDone s t c i y ∧ y = { q with vm := y.vm } ∧ (m = 0 → y.vm = q.vm) ∧
      (∀ n, n ≠ m → tgetD 0 y.vm n = tgetD 0 q.vm n) ∧
      ∀ k, m ≠ 0 → k < 128 →
        (maskBit q (vMask ws) k = false → maskBit y m k = maskBit q m k) ∧
        (maskBit q (vMask ws) k = true → ∀ n, intWidth ws = some n →
          maskBit y m k = intCompare (vImm ws % 8) (laneA q ws k).toInt (laneB q i k).toInt) ∧
        (maskBit q (vMask ws) k = true → vTypeCode ws = 6 →
          (isNaN32 (laneA q ws k) = true ∨ isNaN32 (laneB q i k) = true → maskBit y m k = decide (vImm ws % 8 = 1)) ∧
          (laneA q ws k = 0 → laneB q i k = 0x80000000 → maskBit y m k = decide (vImm ws % 8 ∈ [0, 3, 5])))

/-- Special cases of VEXP2, VRCP, VRSQ and VDIV on FP32 lanes (R115, R116): operands and result. -/
def Sys2Proof.specialRows : List (Nat × Word × Word × Word) :=
  let inf : Word := 0x7F800000
  let ninf : Word := 0xFF800000
  let nz : Word := 0x80000000
  [(0x98, 0, 0, 0x3F800000), (0x98, nz, 0, 0x3F800000), (0x98, inf, 0, inf), (0x98, ninf, 0, 0), (0x98, 0x43000000, 0, inf),
   (0x98, 0xC3160000, 0, 0), (0x98, 0x40400000, 0, 0x41000000), (0x99, 0, 0, inf), (0x99, nz, 0, ninf), (0x99, inf, 0, 0),
   (0x99, ninf, 0, nz), (0x9A, 0, 0, inf), (0x9A, nz, 0, inf), (0x9A, inf, 0, 0), (0x9B, 0x3F800000, 0, inf), (0x9B, 0xBF800000, 0, ninf), (0x9B, 0, inf, 0),
   (0x9B, 0x3F800000, 0x40400000, 0x3EAAAAAB), (0x9B, inf, 0xC0000000, ninf)]

/-- The four functions of FP32 complete, whatever their lanes hold, and write VD; the special cases of their tables give the values of
those tables: among them the NaN cases, a NaN of any kind and the square root of a negative value. -/
def Sys2Proof.VectorFunctionsFollowTheirTables : Prop :=
  ∀ (s : State) (c : Nat) (i : Issued) (x : Job),
    ∀ e ∈ [(Instr.vexp2 c, 0x98), (.vrcp c, 0x99), (.vrsq c, 0x9A), (.vdiv c, 0x9B)], VecReady s c e.2 i x →
      ∃ t y, ∃ f : Nat → Word, exec e.1 s = .next t ∧ VecDone s t c i y ∧ WritesVD (clu s c) y i.words f ∧
        ∀ k, k < 128 → vTypeCode i.words = 6 →
          (∀ r ∈ specialRows, r.1 = e.2 → laneA (clu s c) i.words k = r.2.1 →
            (e.2 = 0x9B → laneB (clu s c) i k = r.2.2.1) → f k = r.2.2.2) ∧
          (isNaN32 (laneA (clu s c) i.words k) = true → isNaN32 (f k) = true) ∧
          (e.2 = 0x9A → (laneA (clu s c) i.words k).toInt < 0 → laneA (clu s c) i.words k ≠ 0x80000000 → isNaN32 (f k) = true)

/-- VRED: after STEPS steps every lane of an aligned group of 2^STEPS lanes holds the same bits, whatever the TYPE and the operation;
an integer sum that wraps is the sum over the group's enabled lanes (R112, R113). -/
def Sys2Proof.VredGivesOneResultPerGroup : Prop :=
  ∀ (s : State) (c : Nat) (i : Issued) (x : Job), VecReady s c 0xAA i x →
    let q := clu s c
    let ws := i.words
    ∃ t y, ∃ f : Nat → Word, exec (.vred c) s = .next t ∧ VecDone s t c i y ∧ y = { q with v := y.v, tags := y.tags } ∧
      (∀ n, n ≠ vD ws → tgetD [] y.v n = tgetD [] q.v n) ∧ (∀ k, k < 128 → (tgetD [] y.v (vD ws)).getD k 0 = f k) ∧
      (∀ n, tgetD [] y.tags n = if n = vD ws / 2 then [] else tgetD [] q.tags n) ∧
      (∀ k l, k < 128 → l < 128 → k / 2 ^ vSteps ws = l / 2 ^ vSteps ws → f k = f l) ∧
      (∀ n, intWidth ws = some n → vSat ws = false → vImm ws % 4 = 0 → ∀ k, k < 128 →
        f k = intResult n false ((List.range (2 ^ vSteps ws)).map (fun d =>
          let l := k / 2 ^ vSteps ws * 2 ^ vSteps ws + d
          if maskBit q (vMask ws) l then (laneA q ws l).toInt else 0)).sum)

/-- The functions, VCMP and VRED: `VectorFunctionsFollowTheirTables`, `VcmpWritesAMaskRegister` and `VredGivesOneResultPerGroup`.
Choices of the model: log 2. -/
def Obligations.FunctionsComparisonsAndReductions : Prop :=
  VectorFunctionsFollowTheirTables ∧ VcmpWritesAMaskRegister ∧ VredGivesOneResultPerGroup

/-- Bytes of one element of a TYPE in memory (R102). -/
def Sys2Proof.elemBytes (ty : Nat) : Nat := [1, 2, 4, 1, 1, 2, 4].getD ty 0
/-- A lane loaded from the bytes of an element: integers sign-extended, FP8 as it is, BF16 in the high half (R102). -/
def Sys2Proof.loadedLane (ty : Nat) (f : Nat → Byte) : Word :=
  [(f 0).signExtend 32, halfWord f 0, fullWord f 0, (f 0).setWidth 32, (f 0).setWidth 32, (f 1 ++ f 0 : BitVec 16) ++ (0 : BitVec 16),
   fullWord f 0].getD ty 0
/-- Byte `d` of a lane as an element of a TYPE. -/
def Sys2Proof.storedByte (ty d : Nat) (w : Word) : Byte := (w >>> (8 * d + if ty = 5 then 16 else 0)).setWidth 8

/-- VLD writes the enabled lanes of VD from 128 elements at ADDR; VST stores the enabled lanes of VA, or of the row at the head of the
queue inside its column mask, and no other byte changes. The cluster is in no joined pair, no tile is still to write what VLD
reads, and the lines may be reached (R102, R107, R108).
Choices of the model: log 39. -/
def Obligations.VldAndVstMoveLanes : Prop :=
  ∀ (s : State) (c : Nat) (i : Issued) (x : Job), cherry s c = false →
    let ws := i.words
    let a := vAddr ws
    let ty := vTypeCode ws
    let z := elemBytes ty
    deniedLines s (ownerOf s 17 c) c a (128 * z) = [] →
    (VecReady s c 0xB0 i x → loadWaits s c i a (128 * z) = false → readsTiles s c [(a, 128 * z)] = [] →
      ∃ t y, exec (.vld c) s = .next t ∧ VecDone s t c i y ∧
        WritesVD (clu s c) y ws (fun k => loadedLane ty (fun d => (clu s c).sp.get (a + z * k + d)))) ∧
    (VecReady s c 0xB1 i x → ∃ t y, exec (.vst c) s = .next t ∧ VecDone s t c i y ∧ y = { clu s c with sp := y.sp } ∧
      ∀ b, y.sp.get b =
        let k := (b - a) / z
        if a ≤ b ∧ k < 128 ∧ maskBit (clu s c) (vMask ws) k = true ∧
            (vQA ws = true → ∃ e ∈ (clu s c).ftq.head?, e.colmask.getLsbD k = true) then
          storedByte ty ((b - a) % z) (laneA (clu s c) ws k)
        else (clu s c).sp.get b)

/-- The wide sums of `m` register pairs from Vd on, with their tags, after a write: sum `k` stands in lane pair `k % 64` of pair
`k / 64`; the enabled ones are new, the others and the other registers as before (R103, R104). -/
def Sys2Proof.WritesWide (x y : Cluster) (ws : List Word) (m : Nat) (v : Nat → Nat) (g : Nat → WTag) : Prop :=
  y = { x with v := y.v, tags := y.tags } ∧
    (∀ r, r < vD ws ∨ vD ws + 2 * m ≤ r → tgetD [] y.v r = tgetD [] x.v r) ∧
    (∀ r, r < vD ws / 2 ∨ vD ws / 2 + m ≤ r → tgetD [] y.tags r = tgetD [] x.tags r) ∧
    ∀ k, k < 64 * m →
      let n := vD ws + 2 * (k / 64)
      let on := maskBit x (vMask ws) (2 * (k % 64))
      y.wide n (k % 64) = (if on then v k else x.wide n (k % 64)) ∧
        (y.vtags n).getD (k % 64) {} = (if on then g k else (x.vtags n).getD (k % 64) {})

/-- A partial of R53 in memory: the wide sum, sign-extended to 128 bits, and its tag. -/
def Sys2Proof.partialSum (n : Nat) : Nat := if n % 2 ^ 96 < 2 ^ 95 then n % 2 ^ 96 else n % 2 ^ 96 + (2 ^ 128 - 2 ^ 96)
/-- Its tag. -/
def Sys2Proof.partialTag (n : Nat) : WTag :=
  ⟨n / 2 ^ 124 % 16, n / 2 ^ 115 % 512, n.testBit 99, n.testBit 98, n.testBit 97, n.testBit 96⟩
/-- The 16 bytes of a wide sum inside the 96-bit range, as a number. -/
def Sys2Proof.partialOf (v : Nat) (g : WTag) : Nat :=
  g.fmt * 2 ^ 124 + g.eref * 2 ^ 115 + (if g.fe then 2 ^ 99 else 0) + (if g.nf then 2 ^ 98 else 0) + (if g.win then 2 ^ 97 else 0) +
    (if g.lsat then 2 ^ 96 else 0) + v % 2 ^ 96

/-- VPADD adds wide sums modulo 2^128 and joins their flags; VPLD loads 128 partials into four registers; VPST stores the enabled sums
of four registers as partials, when all are inside the 96-bit range (R53, R56, R124 to R126).
Choices of the model: log 39, 40. -/
def Obligations.WideSumsAddLoadAndStore : Prop :=
  ∀ (s : State) (c : Nat) (i : Issued) (x : Job), cherry s c = false →
    let q := clu s c
    let ws := i.words
    let a := vAddr ws
    let tag (n k : Nat) : WTag := (q.vtags n).getD k {}
    (VecReady s c 0xB8 i x → ∃ t y, exec (.vpadd c) s = .next t ∧ VecDone s t c i y ∧
      WritesWide q y ws 1 (fun k => (q.wide (vA ws) k + q.wide (vB ws) k) % 2 ^ 128) (fun k =>
        let g := tag (vA ws) k
        let h := tag (vB ws) k
        ⟨g.fmt, g.eref, g.fe || h.fe, g.nf || h.nf, g.win || h.win, g.lsat || h.lsat⟩)) ∧
    (deniedLines s (ownerOf s 17 c) c a 2048 = [] →
      (VecReady s c 0xBA i x → loadWaits s c i a 2048 = false → readsTiles s c [(a, 2048)] = [] →
        let n (k : Nat) : Nat := leNat ((List.range 16).map (fun d => q.sp.get (a + 16 * k + d)))
        ∃ t y, exec (.vpld c) s = .next t ∧ VecDone s t c i y ∧
          WritesWide q y ws 2 (fun k => partialSum (n k)) (fun k => partialTag (n k))) ∧
      (VecReady s c 0xBB i x →
        let wide (k : Nat) : Nat := q.wide (vA ws + 2 * (k / 64)) (k % 64)
        let on (k : Nat) : Bool := maskBit q (vMask ws) (2 * (k % 64))
        (∀ k, k < 128 → on k = true → wide k < 2 ^ 95 ∨ 2 ^ 128 - 2 ^ 95 ≤ wide k) →
        ∃ t y, exec (.vpst c) s = .next t ∧ VecDone s t c i y ∧ y = { q with sp := y.sp } ∧
          ∀ b, y.sp.get b =
            let k := (b - a) / 16
            if a ≤ b ∧ k < 128 ∧ on k = true then
              BitVec.ofNat 8 (partialOf (wide k) (tag (vA ws + 2 * (k / 64)) (k % 64)) / 256 ^ ((b - a) % 16))
            else q.sp.get b))

/-- VCVT between integers clamps, and a conversion to the same TYPE copies; VPCVT converts the enabled wide sums, here of plain tags and
inside the range, into the even lanes of VD and clears the odd ones. VPOP takes the row at the head of the queue into VD, or the
four strips of a row of partials into four registers; VTOS appends lane 0 of VA to the return queue of the core, raising RETQ when
that was empty (R59, R107, R111, R118, R125).
Choices of the model: log 39, 40, 42. -/
def Obligations.ConversionsAndQueueInstructions : Prop :=
  ∀ (s : State) (c : Nat) (i : Issued) (x : Job),
    let q := clu s c
    let ws := i.words
    let p := ownerOf s 17 c
    (VecReady s c 0xA0 i x → ∃ t y, ∃ f : Nat → Word, exec (.vcvt c) s = .next t ∧ VecDone s t c i y ∧ WritesVD q y ws f ∧
      ∀ k, k < 128 → (vImm ws % 16 = vTypeCode ws → f k = laneA q ws k) ∧
        ∀ m, vImm ws % 16 ≠ vTypeCode ws → (intWidth ws).isSome → [8, 16, 32][vImm ws % 16]? = some m →
          f k = intResult m true (laneA q ws k).toInt) ∧
    (VecReady s c 0xB9 i x → deniedLines s p c (vAddr ws + 16 * (vImm ws % 4096)) 1024 = [] →
      (∀ k, k < 64 → maskBit q (vMask ws) (2 * k) = true →
        (∃ m e, m < 7 ∧ (q.vtags (vA ws)).getD k {} = ⟨m, e, false, false, false, false⟩) ∧
        (pcvtPair s p c q ws k).2 = (false, false)) →
      ∃ t y, exec (.vpcvt c) s = .next t ∧ VecDone s t c i y ∧
        WritesVD q y ws (fun k => if k % 2 = 0 then (pcvtPair s p c q ws (k / 2)).1 else 0)) ∧
    (∀ e r, VecReady s c 0xB2 i x → q.ftq = e :: r → vTypeCode ws ≠ 7 → ∃ t y, exec (.vpop c) s = .next t ∧ VecDone s t c i y ∧
      WritesVD q y ws (fun k => if e.colmask.getLsbD k then e.lanes.getD k 0 else 0)) ∧
    (∀ r e0 e1 e2 e3, VecReady s c 0xB2 i x → vTypeCode ws = 7 → q.ftq = e0 :: e1 :: e2 :: e3 :: r → e0.type = 7 → e0.part = 0 →
      (∀ e ∈ [e1, e2, e3], e.verdict = .pending []) →
      ∃ t y, exec (.vpop c) s = .next t ∧ (∀ d, d ≠ c → clu t d = clu s d) ∧ (clu t c).v = y.v ∧ (clu t c).tags = y.tags ∧
        (clu t c).vxq = q.vxq.tail ∧ (clu t c).ftq = (if vPop ws then r else q.ftq) ∧
        let n (k : Nat) : Nat := (stripPartials [e0, e1, e2, e3]).getD k 0
        WritesWide q y ws 2 (fun k => partialSum (n k)) (fun k => partialTag (n k))) ∧
    (VecReady s c 0xB3 i x → cherry s c = false → q.clv.retq.length < 4 → ∃ t y, exec (.vtos c) s = .next t ∧ VecDone s t c i y ∧
      y = { q with clv := { q.clv with retq := q.clv.retq ++ [laneA q ws 0],
                                       irq := if q.clv.retq = [] ∧ q.clv.ended = false then q.clv.irq ||| 1 else q.clv.irq } })

/-- The lead core compares the misfit counter of a drained layer with its limit. Up to the limit nothing happens. Beyond it the first
choice is a re-run, with the counter back at 0, where the record allows it and the deadline leaves the time; otherwise a RADIO or
SAFETY item falls back, and any other item is marked suspect (R66 to R69). Nobody waits on an object.
Choices of the model: log 133. -/
def Obligations.MisfitDecisionChooses : Prop :=
  ∀ (s : State) (c layer ctr item j : Nat) (y : Job) (g : Gen) (sc : Sect) (o l : Nat), running s c = some (j, y, g) →
    sect? g 9 = some sc → 32 * (layer + 1) ≤ sc.size → jobObj s y ctr = some o → layerDrained s y ctr = true → logOf s c = some l →
    replaying s y.part = false → s.sync.waits = [] →
    let w (k : Nat) : Word := gword s g (sc.off + 32 * layer + 4 * k)
    let rerun : Prop := bit (w 1) 0 = true ∧ (layer, ctr) ∉ y.reran ∧
      nowNs s + acycNs ((w 2).toNat + (w 3).toNat) (divOf s l) ≤ y.deadline
    (objVal s o ≤ w 0 → exec (.misfitDecision c layer ctr item) s = .next s) ∧
    (w 0 < objVal s o → ∃ t z, exec (.misfitDecision c layer ctr item) s = .next t ∧ job? t j = some z ∧
      t = { s with pg := t.pg, out := t.out, trace := t.trace, disp := { s.disp with jobs := t.disp.jobs },
                   sync := { s.sync with objs := t.sync.objs, lastw := t.sync.lastw } } ∧
      (∀ i, i ≠ j → job? t i = job? s i) ∧ (∀ i, i ≠ o → objVal t i = objVal s i) ∧
      bit (rg t (16 * 4096 + HDR_EVT) c 0) 5 = true ∧
      (rerun → objVal t o = 0 ∧ z.reran = y.reran ++ [(layer, ctr)] ∧ z.marks = y.marks ∧ z.misfits = y.misfits) ∧
      (¬ rerun → objVal t o = objVal s o ∧ z.reran = y.reran ∧
        (isRS s y.part = true → z.misfits = y.misfits ++ [item] ∧ z.marks = y.marks) ∧
        (isRS s y.part = false → z.misfits = y.misfits ∧ (item < y.nitems → 1 ≤ tgetD 0 z.marks item))))

/-! ### Copy engines and pods (07) -/

/-- A counter of copy engine `e` at an offset of R235. -/
def Sys2Proof.engReg (s : State) (e off : Nat) : Word := rg s ((engPage e).1 * 4096 + off) (engPage e).2 0
/-- Queue `q` with every descriptor numbered as `d` changed by `f`. -/
def Sys2Proof.stepped (q : List CopyDesc) (d : CopyDesc) (f : CopyDesc → CopyDesc) : List CopyDesc :=
  q.map (fun x => if x.serial = d.serial then f x else x)

/-- The next descriptor of an engine is taken up by the row of its opcode: a consistent one whose hazards and AFTER bits are met is made
ready to run, a HALO beyond the grid's edge is made to pass in silence, and an inconsistent one is skipped, recorded with SOURCE
3, its items failed (R200 to R203, R213, R217, R219, R230).
Choices of the model: log 11, 58. -/
def Obligations.CopyDescriptorsAreTakenUp : Prop :=
  ∀ (s : State) (e : Nat) (pre : List CopyDesc) (d : CopyDesc) (x : Job),
    nextDesc [] (engOf s e).q = some (pre, d) → job? s d.ins.job = some x →
    let ws := d.ins.words
    let p := engPart s e x
    let taken (t : State) (f : CopyDesc → CopyDesc) : Prop := t = { s with eng := t.eng } ∧
      (∀ k, k ≠ e → engOf t k = engOf s k) ∧ engOf t e = { engOf s e with q := stepped (engOf s e).q d f }
    ∀ i ∈ [(Instr.copy e, 0x20), (.fill e, 0x21), (.halo e, 0x22)], opcodeOf ws = i.2 →
      (∀ src dst, copyBad s e x ws = none → spaceBase s e x ws (copyDstSp ws) (wd ws 3) (wd ws 4) = some dst →
        (if i.2 = 0x21 then src = (0, 0) else spaceBase s e x ws (copySrcSp ws) (wd ws 1) (wd ws 2) = some src) →
        hazard pre ((if i.2 = 0x21 then [] else (srcRanges ws src.2).map (fun r => (src.1, r))) ++ writesOf { d with dst := dst }) = false →
        afterMet s e d = true → ∃ t, exec i.1 s = .next t ∧ taken t (fun q =>
          { q with started := true, src := src, dst := dst, part := p, units := physUnits s x, gen := (x.part, x.slot, x.gen) })) ∧
      (copyBad s e x ws = none → copyDstSp ws = 9 → haloUnit s e x ws = none →
        ∃ t, exec i.1 s = .next t ∧ taken t (fun q => { q with started := true, silent := true })) ∧
      (∀ r, copyBad s e x ws = some r → r ≠ 0x1C → ∃ t y, exec i.1 s = .next t ∧ job? t d.ins.job = some y ∧
        (engOf t e).q = stepped (engOf s e).q d (fun q => { q with started := true, skipped := true }) ∧
        (∀ n ∈ copyItems ws, n < x.nitems → 2 ≤ tgetD 0 y.marks n) ∧ skipLogged s t x r 3 (engUnit s e) d.ins.off ∧
        bit (engReg t e HDR_EVT) 0 = true ∧ t.mem = s.mem ∧ t.pod = s.pod ∧ t.sync = s.sync)

/-- A byte of a resolved space: 0 the unit's namespace, 1 X and 2 Y of the engine's cluster, 5 the site buffer, 6 decoder memory, 7 the
fronthaul buffers. -/
def Sys2Proof.spaceByte (s : State) (e : Nat) (units : List Nat) (key a : Nat) : Byte :=
  match key with
  | 0 => unitByte s units a
  | 1 => (clu s e).xm.get a
  | 2 => (clu s e).ym.get a
  | 5 => mget 0 s.mem.site a
  | 6 => mget 0 s.mem.dwm a
  | _ => mget 0 s.mem.fhb a

/-- A run of a COPY or FILL without conversion puts each of its bytes at its place in the destination rows and changes no other byte of
any memory; it takes a slot and is counted as a DRAM or an on-chip run. Both ends may be reached, the line is sound, a slot is
free and the tokens suffice (R211, R214, R215, R558). -/
def Sys2Proof.CopyRunsMoveTheirBytes : Prop :=
  ∀ (s : State) (e : Nat) (d : CopyDesc) (ecc : Ecc) (a n lin pl : Nat), e < 26 → cherry s e = false → runDesc s e = some d →
    nextRun d = (a, n, lin, pl) → 0 < n →
    let ws := d.ins.words
    let fill := isFill ws
    let dram : Prop := fill = false ∧ d.src.1 = 4
    let place (i : Nat) : Nat := d.dst.2 + pl * (wd ws 10).toNat + (lin + i) / copyRow ws * (wd ws 8).toNat + (lin + i) % copyRow ws
    let val (i : Nat) : Byte := if fill then (wd ws 1 >>> (8 * ((d.pos + i) % 4))).setWidth 8
      else (bytesAt s e d.units d.src.1 a n).getD i 0
    isStaged ws = false → copyAfterM ws = false → d.dst.1 ∈ [0, 1, 2, 5, 6, 7] → d.src.1 ∈ [0, 1, 2, 4, 5, 6, 7] → d.units.Nodup →
    copyRow ws ≤ (wd ws 8).toNat ∨ copyRows ws = 1 → 0 < copyRow ws →
    (fill = false → ecc = .clean ∧ admitAt s d.part d.units d.src.1 a n false = true ∧
      (d.src.1 = 4 → ∀ l ∈ linesOf a n, l ∉ s.mem.ue)) →
    (∀ i, i < n → admitAt s d.part d.units d.dst.1 (place i) 1 true = true) →
    (dram → ((engOf s e).dram.filter (fun r => !slotFree s r)).length < 4) →
    (¬ dram → ((engOf s e).chip.filter (fun r => !slotFree s r)).length < 8) →
    (match runBucket s e d a (place 0) with | none => True | some b => ceilDiv n 64 ≤ (bucket s b).level) →
    ∃ t, exec (.copyRun e ecc) s = .next t ∧ t = { s with eng := t.eng, cl := t.cl, mem := t.mem, pg := t.pg } ∧
      (∀ i, i < n → spaceByte t e d.units d.dst.1 (place i) = val i) ∧
      (∀ k b, k ∈ [0, 1, 2, 5, 6, 7] → k ≠ d.dst.1 ∨ (∀ i, i < n → place i ≠ b) → spaceByte t e d.units k b = spaceByte s e d.units k b) ∧
      (∀ c, clu t c = { clu s c with xm := (clu t c).xm, ym := (clu t c).ym, sp := (clu t c).sp, bad := (clu t c).bad }) ∧
      t.mem.ext = s.mem.ext ∧ t.mem.host = s.mem.host ∧ t.mem.flash = s.mem.flash ∧
      (engOf t e).q = stepped (engOf s e).q d (fun q => { q with
        runs := q.runs + 1, staged := [], lastRun := (s.tmu.ticks, if fill = false ∧ d.src.1 = 4 then 180 else 40),
        range := if d.pos + n = rangeLen ws then d.range + 1 else d.range,
        pos := if d.pos + n = rangeLen ws then 0 else d.pos + n }) ∧
      (dram → engReg t e 0x050 = engReg s e 0x050 + 1 ∧ engReg t e 0x054 = engReg s e 0x054) ∧
      (¬ dram → engReg t e 0x054 = engReg s e 0x054 + 1 ∧ engReg t e 0x050 = engReg s e 0x050)

/-- The head of an engine's queue, once it is done, leaves it: it is counted in DESC_DONE, or in DESC_SKIPPED; its gate markers leave the
streams of the cluster; and its signal adds 1 to its object or sets it, which nobody waits on here. The dispatcher then looks at
its units again (R216, R218, R221, R244). -/
def Sys2Proof.DescriptorsCompleteInOrder : Prop :=
  ∀ (s : State) (e : Nat) (d : CopyDesc) (r : List CopyDesc) (x : Job), e < 26 → (engOf s e).q = d :: r → descDone s e d = true →
    job? s d.ins.job = some x → (e < 18 → cherry s e = false ∧ noYield s e) → s.sync.waits = [] →
    let w := if isPod d.ins.words then wd d.ins.words 5 else wd d.ins.words 12
    let marker (m : StreamEnt) : Bool := !decide (m = .gate d.serial)
    (d.silent = true ∨ fld w 31 28 = 0 ∨
      ∃ o, fld w 31 28 < 3 ∧ jobObj s x (fld w 15 0) = some o ∧ objOwner s o = some (engPart s e x)) →
    ∃ u, exec (.descComplete e) s = .next (reconsider u) ∧ u = { s with eng := u.eng, cl := u.cl, pg := u.pg, sync := u.sync, out := u.out } ∧
      engOf u e = { engOf s e with q := r } ∧ (∀ k, k ≠ e → engOf u k = engOf s k) ∧
      engReg u e 0x048 = engReg s e 0x048 + (if d.skipped then 0 else 1) ∧
      engReg u e 0x04C = engReg s e 0x04C + (if d.skipped then 1 else 0) ∧
      (∀ c, c ≠ e ∨ 18 ≤ e → clu u c = clu s c) ∧
      (e < 18 → clu u e = { clu s e with mxq := (clu s e).mxq.filter marker, vxq := (clu s e).vxq.filter marker }) ∧
      (d.silent = true ∨ fld w 31 28 = 0 → u.sync = s.sync) ∧
      (∀ o, d.silent = false → jobObj s x (fld w 15 0) = some o →
        (fld w 31 28 = 1 → objVal u o = satAdd (objVal s o) 1) ∧ (fld w 31 28 = 2 → objVal u o = 1) ∧
        ∀ k, k ≠ o → objVal u k = objVal s k)

/-- A run moves its bytes, and descriptors complete: `CopyRunsMoveTheirBytes` and `DescriptorsCompleteInOrder`.
Choices of the model: log 52, 133. -/
def Obligations.CopyEnginesMoveAndComplete : Prop := CopyRunsMoveTheirBytes ∧ DescriptorsCompleteInOrder

/-- A consistent pod descriptor of opcode `op` is the next one of engine `e`, nothing earlier in the queue writes its HBUF, and no
engine waits on a pod. -/
def Sys2Proof.PodReady (s : State) (e op : Nat) (d : CopyDesc) (x : Job) : Prop :=
  (∃ pre, nextDesc [] (engOf s e).q = some (pre, d) ∧ hazard pre [(if e < 18 then 1 else 0, (podBuf d.ins.words, 16))] = false) ∧
    opcodeOf d.ins.words = op ∧ job? s d.ins.job = some x ∧ x.part < 32 ∧ podBad s e x d = none ∧ (∀ k, podCur s k = none) ∧
    (∀ q ∈ (engOf s e).q, q.serial = d.serial → q = d) ∧ d.started = false ∧ d.acted = false ∧ d.skipped = false ∧ d.silent = false ∧
    d.podHandle = none ∧ d.examined = (0, 0)

/-- Engine `e`'s descriptor `d` has become one that has been carried out, or that waits since now; other engines are as before. -/
def Sys2Proof.podStands (s t : State) (e : Nat) (d : CopyDesc) (acted : Bool) : Prop :=
  (∀ k, k ≠ e → engOf t k = engOf s k) ∧ ∃ y, (engOf t e).q = stepped (engOf s e).q d (fun _ => y) ∧ y.ins = d.ins ∧
    y.serial = d.serial ∧ y.started = true ∧ y.acted = acted ∧ y.podHandle = none ∧
    y.podWait = if acted then none else some s.tmu.ticks

/-- A handle stands at HBUF: in the X memory of the engine's cluster, or, for a shared engine, in the scratchpad of the job's first
cluster; no other byte of that memory has changed. -/
def Sys2Proof.handleAt (s t : State) (e : Nat) (units : List Nat) (a : Nat) (h : BitVec 128) : Prop :=
  let put (m : Ram) (b : Nat) : Byte := if a ≤ b ∧ b < a + 16 then (h >>> (8 * (b - a))).setWidth 8 else m.get b
  (e < 18 → (∀ c, c ≠ e → clu t c = clu s c) ∧ clu t e = { clu s e with xm := (clu t e).xm } ∧
    ∀ b, (clu t e).xm.get b = put (clu s e).xm b) ∧
  (18 ≤ e → ∀ c r, units = c :: r → a + 16 ≤ Config.spadBytes → (∀ k, k ≠ c → k ≠ leadOf s c → clu t k = clu s k) ∧
    ∀ b, (clu t c).sp.get b = put (clu s c).sp b)

/-- The partition's books balance as before (R227). -/
def Sys2Proof.sameBalance (s t : State) (p : Nat) : Prop :=
  rg t PODQ_PART_TOTAL 0 p - rg t PODQ_PART_INPODS 0 p - rg t PODQ_PART_HELD 0 p =
    rg s PODQ_PART_TOTAL 0 p - rg s PODQ_PART_INPODS 0 p - rg s PODQ_PART_HELD 0 p

/-- PUSH appends the handle at HBUF to a pod with room, POP writes the head of its pod to HBUF, MOVE passes it from pod to pod; the books
of the partition and the job's list of held handles follow, and a hole stays outside both. With nothing to take, or no room, the
descriptor waits (R222 to R228). -/
def Sys2Proof.PodsPassHandles : Prop :=
  ∀ (s : State) (e : Nat) (d : CopyDesc) (x : Job),
    let ws := d.ins.words
    let p := engPart s e x
    let units := physUnits s x
    let frame (t : State) : Prop :=
      t = { s with eng := t.eng, pod := t.pod, pg := t.pg, cl := t.cl, disp := { s.disp with jobs := t.disp.jobs } } ∧
        (∀ j, j ≠ d.ins.job → job? t j = job? s j) ∧ sameBalance s t p
    (PodReady s e 0x30 d x → let h := readHandle s e { d with units := units }
      (podTakes s (podDst ws) p = true → ∃ t, exec (.push e) s = .next t ∧ frame t ∧ podStands s t e d true ∧ t.cl = s.cl ∧
        t.pod = (podPut s (podDst ws) h).pod ∧
        t.pg = (if hHole h then s else if podNew ws then book (book s PODQ_PART_TOTAL p 1) PODQ_PART_INPODS p 1
          else book (book s PODQ_PART_HELD p (-1)) PODQ_PART_INPODS p 1).pg ∧
        job? t d.ins.job = some (if hHole h ∨ podNew ws = true then x else { x with held := delFirst (fun q => hSame q.h h) x.held })) ∧
      (podTakes s (podDst ws) p = false → ∃ t, exec (.push e) s = .next t ∧ t = { s with eng := t.eng } ∧ podStands s t e d false)) ∧
    (PodReady s e 0x31 d x → (podOf s (podSrc ws)).q = [] →
      ∃ t, exec (.pop e) s = .next t ∧ t = { s with eng := t.eng } ∧ podStands s t e d false) ∧
    (∀ h r, (podOf s (podSrc ws)).q = h :: r → (podChk ws = true → hOld (podMin ws) h = false) →
      let popped := setPod s (podSrc ws) { podOf s (podSrc ws) with q := r }
      (PodReady s e 0x31 d x → ∃ t, exec (.pop e) s = .next t ∧ frame t ∧ podStands s t e d true ∧ t.pod = popped.pod ∧
        handleAt s t e units (podBuf ws) h ∧
        t.pg = (if hHole h then s else if podFree ws then book (book s PODQ_PART_TOTAL p (-1)) PODQ_PART_INPODS p (-1)
          else book (book s PODQ_PART_INPODS p (-1)) PODQ_PART_HELD p 1).pg ∧
        job? t d.ins.job = some (if hHole h ∨ podFree ws = true then x else { x with held := x.held ++ [⟨h, podSrc ws⟩] })) ∧
      (PodReady s e 0x32 d x → podTakes popped (podDst ws) p = true → ∃ t, exec (.move e) s = .next t ∧ frame t ∧
        podStands s t e d true ∧ t.pod = (podPut popped (podDst ws) h).pod ∧ t.cl = s.cl ∧ job? t d.ins.job = some x ∧
        rg t PODQ_PART_TOTAL 0 p = rg s PODQ_PART_TOTAL 0 p ∧ rg t PODQ_PART_HELD 0 p = rg s PODQ_PART_HELD 0 p))

/-- A pod wait whose limit has passed: a POP, or the pop half of a MOVE, gets a hole at HBUF and is counted in POP_EXPIRE; a PUSH, or the
push half, sends its handle with FAILED set to the RETURN pod of its destination, here with room, and is counted in PUSH_EXPIRE. A
handle in the return overflow goes to the first RETURN pod that can take it (R224, R736). -/
def Sys2Proof.PodWaitsEnd : Prop :=
  ∀ (s : State),
    (∀ (e t0 : Nat) (d : CopyDesc), podCur s e = some d → (∀ k, k ≠ e → podCur s k = none) → d.part < 32 → d.podWait = some t0 →
      passed s t0 (wd d.ins.words 2).toNat = true → replaying s d.part = false → d.skipped = false → d.silent = false →
      (∀ q ∈ (engOf s e).q, q.serial = d.serial → q = d) →
      (∀ q ∈ (engOf s e).q, q.serial ≠ d.serial → isPod q.ins.words = true → q.started = false ∨ allStarted q = true) →
      let ws := d.ins.words
      let seen (t : State) (hi lo : Nat) : Prop := podStands s t e d true ∧ bit (rg t (5 * 4096 + HDR_EVT) 0 0) 1 = true ∧
        fld (rg t PODQ_PART_EXPIRE 0 d.part) hi lo = Nat.min 65535 (fld (rg s PODQ_PART_EXPIRE 0 d.part) hi lo + 1) ∧
        sameBalance s t d.part ∧ t.mem = s.mem
      (opcodeOf ws ≠ 0x30 → d.podHandle = none → ∃ t, exec (.podWaitExpire e) s = .next t ∧ seen t 15 0 ∧ t.pod = s.pod ∧
        handleAt s t e d.units (podBuf ws) (BitVec.ofNat 128 (podMin ws * 2 ^ 32 + 2 ^ 31 + 2 ^ 27 + 0xFFFFFF))) ∧
      (opcodeOf ws = 0x30 ∨ d.podHandle.isSome → let h := (d.podHandle.map (fun q => q.1)).getD d.handle
        let ret := fld (rg s PODQ_POD_CFG 0 (podDst ws)) 8 0
        podTakes s ret d.part = true → ∃ t, exec (.podWaitExpire e) s = .next t ∧ seen t 31 16 ∧ t.cl = s.cl ∧
          t.pod = (podPut s ret (h ||| 0x40000000)).pod)) ∧
    (∀ (p : Nat) (a b : List (BitVec 128 × Nat)) (q : BitVec 128 × Nat), (∀ k, podCur s k = none) → overflow s p = a ++ q :: b →
      (∀ r ∈ a, podTakes s r.2 p = false) → podTakes s q.2 p = true →
      ∃ t, exec (.returnOverflowDrain p) s = .next t ∧ t = { s with pod := t.pod } ∧ overflow t p = a ++ b ∧
        (∀ k, k ≠ p → overflow t k = overflow s k) ∧ podOf t q.2 = ⟨(podOf s q.2).q ++ [q.1],
          Nat.max (podOf s q.2).high ((podOf s q.2).q.length + 1), (podOf s q.2).pushes + 1⟩ ∧
        ∀ k, k ≠ q.2 → podOf t k = podOf s k)

/-- PUSH, POP, MOVE, and the ends of their waits: `PodsPassHandles` and `PodWaitsEnd`.
Choices of the model: log 57. -/
def Obligations.PodsPassHandlesAndEndWaits : Prop := PodsPassHandles ∧ PodWaitsEnd

/-! ### Synchronisation objects (08) -/

/-- No cell has object `o` as its Saffron object (R627), so that a WRITE of it has no further effect. -/
def Sys2Proof.noSaff (s : State) (o : Nat) : Prop :=
  ∀ n, n < Config.cells → bit (rg s SYS_SAFF_CFG 0 n) 31 = false ∨ fld (rg s SYS_SAFF_CFG 0 n) 13 0 ≠ o

/-- The core of cluster `c` is about to execute a SYNC that names object `o`, which its partition owns; it is not the SYNC of a wait
that ended while a handler ran. -/
def Sys2Proof.SyncReady (s : State) (c j : Nat) (y : Job) (g : Gen) (sa : BitVec 5) (o : Nat) : Prop :=
  CloveReady s c 4 j y g ∧ ((clu s c).clv.shadow = none → (clu s c).clv.waitDone = none) ∧
    ((clu s c).clv.sreg sa.toNat).toNat < 2 ^ 17 ∧ jobObj s y ((clu s c).clv.sreg sa.toNat).toNat = some o ∧
    objOwner s o = some y.part ∧ noSaff s o

/-- Operations that complete at once for value `a` of the object and operand `v`: the instruction, its condition, the new value, what SD
receives, and whether it ends a wait (R242, R246). -/
def Sys2Proof.objRows (q : SyncReq) (a v : Word) : List (Instr × Prop × Word × Option Word × Bool) :=
  [(.syncRead q, True, a, some a, false), (.syncWrite q .nothing, True, v, none, false), (.syncSet q, True, 1, none, false),
   (.syncClear q .nothing, True, 0, none, false), (.syncAdd q, a.toNat + v.toNat < 2 ^ 32, a + v, none, false),
   (.tryAcquire q, True, if v ≤ a then a - v else a, some (if v ≤ a then 1 else 0), false),
   (.waitNz q, a ≠ 0, a, some 0, true), (.waitZ q, a = 0, a, some 0, true), (.waitGe q, v ≤ a, a, some 0, true),
   (.acquire q, v ≤ a, a - v, some 0, true)]

/-- SYNC on a core while nobody waits: an operation that does not wait, and a wait whose condition holds, act on the object and on SD and
nothing else; a wait whose condition fails takes an entry of the waiter table and stalls the core with 6. REGISTER goes on, and
raises WAKE when its condition holds; WAKE_CAUSE frees a known outcome (R242, R245, R246, R256). The dispatcher then looks at its
units again. -/
def Sys2Proof.CoreSynchronisation : Prop :=
  ∀ (s : State) (c j o : Nat) (y : Job) (g : Gen) (sa sb sd sl : BitVec 5) (cont : Bool), SyncReady s c j y g sa o →
    s.sync.waits = [] →
    let q := SyncReq.core c sa sb sd sl cont
    let k := (clu s c).clv
    let v := k.sreg sb.toNat
    let a := objVal s o
    let goesOn (u : State) (r : Clv) : Prop := CloveNext { s with sync := u.sync } u c 4 1 j (clu s c) r []
    let entry (who : Waiter) (op : Nat) : WaitEnt := ⟨s.sync.nextId, who, op, o, v, s.tmu.ticks, (k.sreg sl.toNat).toNat, cont, y.part,
      clHandle s c, k.pc, sd.toNat⟩
    (∀ e ∈ objRows q a v, e.2.1 → (e.2.2.2.2 = true → k.sreg sl.toNat ≠ 0) →
      ∃ u, exec e.1 s = .next (reconsider u) ∧ objVal u o = e.2.2.1 ∧ (∀ n, n ≠ o → objVal u n = objVal s n) ∧ u.sync.waits = [] ∧
        let r := match e.2.2.2.1 with | some x => (landed s c).setS sd.toNat x | none => landed s c
        goesOn u (if e.2.2.2.2 then { r with waitYield := none } else r)) ∧
    (k.sreg sl.toNat ≠ 0 → ∀ e ∈ [(Instr.waitNz q, 5, a = 0), (.waitZ q, 6, a ≠ 0), (.waitGe q, 7, a < v), (.acquire q, 8, a < v)], e.2.2 →
      ∃ u, exec e.1 s = .next (reconsider u) ∧ u = { s with sync := u.sync, cl := u.cl } ∧
        u.sync = { s.sync with waits := [entry (.core c) e.2.1], nextId := s.sync.nextId + 1, high := Nat.max s.sync.high 1 } ∧
        (∀ n, n ≠ c → clu u n = clu s n) ∧
        clu u c = { clu s c with clv := { landed s c with stall := 6 }, ic := (clu u c).ic }) ∧
    (k.sreg sl.toNat ≠ 0 → y.regDone = none →
      (a < v → ∃ u, exec (.register q) s = .next (reconsider u) ∧ u.sync.waits = [entry (.reg j) 10] ∧ goesOn u (landed s c)) ∧
      (v ≤ a → ∃ u z, exec (.register q) s = .next (reconsider u) ∧ u.sync.waits = [] ∧ job? u j = some z ∧ z.regDone = some 0 ∧
        (clu u c).clv.irq.getLsbD 1 = true ∧ ∀ n, objVal u n = objVal s n)) ∧
    (∃ u z, exec (.wakeCause q) s = .next (reconsider u) ∧ job? u j = some z ∧ z.regDone = none ∧ u.sync = s.sync ∧
      (clu u c).clv.sreg sd.toNat = (match y.regDone with | some n => w32 n | none => 3))

/-- Engines act on the objects of their partition: the value of R242, saturating with OBJ_SAT; of a WRITE or CLEAR and a SET or ADD in
one cycle the set wins, with SET_WINS. Other partitions' objects are out of reach: the operation is denied (R240, R242 to R244,
R254). Nobody waits. -/
def Sys2Proof.EnginesUpdateObjects : Prop :=
  ∀ (s : State) (unit : Word) (p o : Nat) (v b : Word), s.sync.waits = [] → noSaff s o →
    let q := SyncReq.engine unit p o v
    let a := objVal s o
    let evt (u : State) (n : Nat) : Bool := bit (rg u (4 * 4096 + HDR_EVT) 0 0) n
    (objOwner s o = some p →
      (∀ e ∈ [(Instr.syncRead q, a, false), (.syncWrite q .nothing, v, false), (.syncSet q, 1, false), (.syncClear q .nothing, 0, false),
          (.syncAdd q, satAdd a v.toNat, false), (.tryAcquire q, if v ≤ a then a - v else a, false), (.syncWrite q .set, 1, true),
          (.syncClear q .set, 1, true), (.syncWrite q (.add b), satAdd v b.toNat, true), (.syncClear q (.add b), b, true)],
        ∃ u, exec e.1 s = .next (reconsider u) ∧ u = { s with sync := u.sync, pg := u.pg, out := u.out } ∧ u.sync.waits = [] ∧
          objVal u o = e.2.1 ∧ (∀ n, n ≠ o → objVal u n = objVal s n) ∧
          (e.2.2 = true → evt u 0 = true ∧ rg u SYU_COLLIDE_IDX 0 0 = w32 (2 ^ 31 + o))) ∧
      (2 ^ 32 ≤ a.toNat + v.toNat → ∃ u, exec (.syncAdd q) s = .next (reconsider u) ∧ evt u 3 = true ∧
        rg u SYU_SAT_IDX 0 0 = w32 (2 ^ 31 + o))) ∧
    (objOwner s o ≠ some p → ∀ i ∈ [Instr.syncRead q, .syncWrite q .nothing, .syncSet q, .syncClear q .nothing, .syncAdd q, .waitNz q,
        .waitZ q, .waitGe q, .acquire q, .tryAcquire q],
      ∃ u, exec i s = .next (reconsider u) ∧ u.sync = s.sync ∧ u.mem = s.mem ∧ u.cl = s.cl ∧ bit (rg u (8 * 4096 + HDR_EVT) 0 0) 3 = true ∧
        (s.pg.ering.length < 16384 → ∃ r, u.pg.ering = s.pg.ering ++ [r] ∧ r.hdr = recHdr 0x15 4 0 p ∧ r.w1 = unit))

/-- Operations on objects by cores and by engines: `CoreSynchronisation` and `EnginesUpdateObjects`.
Choices of the model: log 133. -/
def Obligations.ObjectsFollowTheirOperations : Prop := CoreSynchronisation ∧ EnginesUpdateObjects

/-- After an ADD, ACQUIREs on the object have been served strictly in the order of their arrival, as far as the value reaches; no other
wait whose condition holds is left; the other objects and their waiters are as before (R251, R252). -/
def Sys2Proof.WaitsAreServedInOrder : Prop :=
  ∀ (s : State) (unit : Word) (p o : Nat) (v : Word), objOwner s o = some p → (s.sync.waits.map (fun w => w.id)).Nodup →
    let acq (u : State) : List WaitEnt := u.sync.waits.filter (fun w => decide (w.obj = o ∧ w.op = 8))
    ∃ u n, exec (.syncAdd (.engine unit p o v)) s = .next (reconsider u) ∧ acq u = (acq s).drop n ∧
      (objVal u o).toNat + (((acq s).take n).map (fun w => w.operand.toNat)).sum = Nat.min 0xFFFFFFFF ((objVal s o).toNat + v.toNat) ∧
      (∀ w ∈ (acq u).head?, objVal u o < w.operand) ∧
      (∀ w ∈ u.sync.waits, w.obj = o → w.op ≠ 8 → waitHolds w.op w.operand (objVal u o) = false) ∧
      (∀ w ∈ s.sync.waits, w.obj ≠ o → w ∈ u.sync.waits) ∧ (∀ w ∈ u.sync.waits, w ∈ s.sync.waits) ∧
      ∀ k, k ≠ o → objVal u k = objVal s k

/-- A wait whose limit has passed leaves the table. With CONT the SYNC completes with EXPIRED in SD, and a registration has that outcome;
WAIT_EXPIRE is set. Without CONT the job aborts: it is gone, WAIT_ABORT is set, a record of type 0x12 with REASON 0x1A gives the
offset of the SYNC, and the wait graph is captured and held unless a capture was held already (R248, R249, R256, R263). -/
def Sys2Proof.WaitsExpire : Prop :=
  ∀ (s : State) (id : Nat) (w : WaitEnt) (r1 r2 : List WaitEnt), s.sync.waits = r1 ++ w :: r2 → (∀ v ∈ r1, v.id ≠ id) → w.id = id →
    passed s w.arrived w.limit = true → replaying s w.part = false →
    let evt (u : State) (n : Nat) : Bool := bit (rg u (4 * 4096 + HDR_EVT) 0 0) n
    (∀ c, w.who = .core c → w.cont = true → (clu s c).clv.pc = w.off →
      ∃ u, exec (.waitExpire id) s = .next (reconsider u) ∧ u.sync = { s.sync with waits := r1 ++ r2 } ∧ evt u 1 = true ∧
        (clu u c).clv.sreg w.sd = 1 ∧ (∀ n, n ≠ w.sd → (clu u c).clv.sreg n = (clu s c).clv.sreg n) ∧ (∀ d, d ≠ c → clu u d = clu s d) ∧
        ((clu s c).clv.delay = none → (clu s c).clv.reps = [] → (clu u c).clv.pc = w.off + 4) ∧ u.mem = s.mem) ∧
    (∀ j x, w.who = .reg j → job? s j = some x →
      ∃ u z, exec (.waitExpire id) s = .next (reconsider u) ∧ u.sync = { s.sync with waits := r1 ++ r2 } ∧ evt u 1 = true ∧
        job? u j = some z ∧ z = { x with regDone := some 1 }) ∧
    (∀ c j x, w.who = .core c → w.cont = false → (clu s c).job = some j → job? s j = some x → x.part < 32 →
      (∀ n h, (tgetD {} s.safe.rot n).handed = some h → h.1 < 16) →
      ∃ u, exec (.waitExpire id) s = .next (reconsider u) ∧ job? u j = none ∧ evt u 2 = true ∧
        (∀ v ∈ u.sync.waits, v ∈ r1 ++ r2) ∧ u.sync.objs = s.sync.objs ∧ u.sync.hold = true ∧
        (s.sync.hold = false → u.sync.source = true ∧ u.sync.wg.length = s.sync.waits.length) ∧
        (s.pg.ering.length < 16383 → ∃ r ∈ u.pg.ering, r.hdr = recHdr 0x12 0x1A 5 x.part ∧ r.w4 = w32 w.off))

/-- The end of waits: `WaitsAreServedInOrder` and `WaitsExpire`.
Choices of the model: log 133. -/
def Obligations.WaitsAreServedOrExpire : Prop := WaitsAreServedInOrder ∧ WaitsExpire

/-! ### Jobs and the dispatcher (09, 17) -/

/-- The indices handed over to spares are logical indices. -/
def Sys2Proof.handedOk (s : State) : Prop := ∀ n h, (tgetD {} s.safe.rot n).handed = some h → h.1 < 16
/-- The error ring has a record that satisfies `p`, unless it had little room. -/
def Sys2Proof.recorded (s u : State) (p : ErrRec → Prop) : Prop := s.pg.ering.length < 16300 → ∃ r ∈ u.pg.ering, p r

/-- A JOB descriptor at the head of its window is admitted or rejected at once. An EDGE job that passes the demand test stands in the
dispatcher's queue, on a unit on which it finishes by its deadline; one that fails gets one of REJ_DEADLINE to REJ_QUEUE and is
counted; malformed, stale and bucketless ones get 0x20, 0x36 and 0x35; no rejection changes a job (R268, R287, R288, R296, R527,
R528). At a scan tick every bucket gains RATE up to BURST, slots bind their current generations, and a descriptor in order is picked
up (R182, R293, R524).
Choices of the model: log 47, 61. -/
def Obligations.JobsAreAdmittedOrRejected : Prop :=
  ∀ (s : State),
    (∀ (p : Nat) (d : List Word) (g : Gen), p < 32 → headDesc s p = some d → dtype d = 1 → replaying s p = false →
      boundGen s p (fld (wd d 3) 31 26) = some g →
      let x := jobOf s p d g
      let good : Prop := jobFields s p d = true ∧ x.entry < entryCount g ∧ 1 ≤ x.nitems ∧
        x.nitems ≤ (entryWord s g x.entry 10).toNat
      let rejected (st : Nat) (u : State) : Prop := exec (.job p) s = .next (dropDesc u p) ∧ u.disp = s.disp ∧ u.cl = s.cl ∧
        ∃ v, v = { s with pg := v.pg, out := v.out, trace := v.trace } ∧
          u = postRec v p (dring d) (mkRec s 2 st 0 (wd d 1) (wd d 2) 0 (w32 (fld (wd d 8) 28 16)) 0 (dseq d))
      (¬ good → ∃ u, rejected 0x20 u ∧ bit (rg u (7 * 4096 + HDR_EVT) p 0) 0 = true) ∧
      (good → isStale s p d = true → ∃ u, rejected 0x36 u) ∧
      (good → isStale s p d = false → bindEntry s g x.entry x.args = none → ∃ u, rejected 0x35 u) ∧
      (∀ o b, good → isStale s p d = false → bindEntry s g x.entry x.args = some (o, b, s) → isRS s p = false →
        let lv := entryUnit s g x.entry
        let y := { x with budget := b, level := lv.1 }
        let n := s.disp.nextJob
        (∀ us, admitted s y (yieldGap s g) lv.1 lv.2.1 lv.2.2 (wd d 7) = .inr us →
          finishAt s { y with units := us } (startCost s { y with units := us }) ≤ y.deadline ∧
          ∃ u, exec (.job p) s = .next (dropDesc (reconsider u) p) ∧ u = { s with disp := u.disp } ∧
            u.disp = { s.disp with jobs := u.disp.jobs, nextJob := n + 1 } ∧
            job? u n = some { y with units := us, order := n, start := s.tmu.ticks } ∧ ∀ j, j ≠ n → job? u j = job? s j) ∧
        (∀ st, admitted s y (yieldGap s g) lv.1 lv.2.1 lv.2.2 (wd d 7) = .inl st → (0x30 ≤ st ∧ st ≤ 0x33) ∧
          ∃ u, rejected st u ∧ rg u SYS_ADMIT_REJ 0 p = satAdd (rg s SYS_ADMIT_REJ 0 p) 1 ∧ bit (rg u HDR_EVT 0 0) 8 = true))) ∧
    (s.trace.run = none → s.host.barWait = [] → (∀ r ∈ s.disp.spill, r.started = false) →
      ∃ u, exec .scanTick s = .next (reconsider u) ∧ u.cl = s.cl ∧ u.sync = s.sync ∧ u.disp = s.disp ∧
        (∀ b, b < 33 ∨ 256 ≤ b ∧ b < 288 →
          let rate := fld (rg s MEM_REG_CFG 0 b) 15 0
          let burst := fld (rg s MEM_REG_CFG 0 b) 31 16
          (bucket u b).level = Nat.min ((bucket s b).level + rate) burst ∧ (bucket u b).added = (bucket s b).added + w32 rate ∧
            (bucket u b).spent = (bucket s b).spent) ∧
        (∀ g ∈ s.img.gens, g.current = true → (∀ h ∈ s.img.gens, h.current = true → h.part * 64 + h.slot = g.part * 64 + g.slot → h = g) →
          tgetD 0 u.img.tick (g.part * 64 + g.slot) = g.gen) ∧
        ∀ p, p < 32 → scanned s p = true → tgetD [] s.host.picked p = [] → (staged s p).length < Config.staging →
          let e := tgetD 0 s.host.expect p
          let d := slotWords s p (e % 256)
          tgetD false s.host.seqSeen (p * 256 + e % 256) = true → e < 65536 → dseq d = e → typeBad s p d = none →
          tgetD false s.host.seqSeen (p * 256 + (e + 1) % 256) = false →
          tgetD [] u.host.picked p = [d] ∧ tgetD 0 u.host.expect p = (e + 1) % 65536)

/-- The selected job of a free unit starts: its clusters run it, belong to its partition and hold nothing of another partition inside its
footprint; each member's core begins at the entry of its bucket with the arguments in S1 to S4. A spill that has moved its bytes
leaves the save set in the image of the job; a restore puts the saved cores and regions back, and the job runs (R136, R190, R269,
R279, R281, R283, R284).
Choices of the model: log 63, 64. -/
def Obligations.JobsStartSpillAndResume : Prop :=
  ∀ (s : State) (j : Nat) (x : Job) (g : Gen), x.part < 32 → genOf s x = some g → gridRec s g x.entry = none →
    (mapUnits s x).Nodup → (∀ c ∈ mapUnits s x, c < 18) →
    (∀ l pc b, selected s l = some (j, x) → x.phase = .queued → x.phys = [] → job? s j = some x → s.trace.run = none →
      x.units.all (unitFree s) = true →
      (∀ y ∈ unitJobs s x, y.phase ≠ .spilling ∧ y.phase ≠ .restoring) → inTheWay s x = [] →
      (∀ c ∈ mapUnits s x, stepBoundary s c = s) → bindEntry s g x.entry x.args = some (pc, b, s) →
      ∃ u z, exec (.jobStart l) s = .next (reconsider u) ∧ job? u j = some z ∧
        z = { x with phase := .running, start := s.tmu.ticks, gridK := 0, phys := mapUnits s x } ∧
        (∀ i, i ≠ j → job? u i = job? s i) ∧ (∀ c, c ∉ mapUnits s x → clu u c = clu s c) ∧
        ∀ c ∈ mapUnits s x, (clu u c).job = some j ∧
          (∀ k ∈ [16, 17, 18, 19], ownerOf u k c = x.part) ∧
          (leadOf s c = c → (clu u c).clv.pc = pc ∧ (clu u c).clv.ended = false ∧ (clu u c).clv.delay = none ∧
            (clu u c).clv.reps = [] ∧ (clu u c).clv.cst = 0 ∧
            ∀ n, n < 32 → (clu u c).clv.sreg n = if 1 ≤ n ∧ n ≤ 4 then wd x.args (n - 1) else 0) ∧
          ∀ k ∈ x.units, physOf s k = some c → (clu s c).lastPart ≠ x.part →
            ∀ a, (footprint s x k).1 ≤ a → a < (footprint s x k).1 + (footprint s x k).2 → (clu u c).sp.get a = 0) ∧
    (∀ r, spillDone s false = some r → r.job = j → r.dropped = false → job? s j = some x → x.phase = .spilling →
      ∃ u z, exec .spillComplete s = .next (reconsider u) ∧ u = { s with disp := u.disp } ∧ job? u j = some z ∧
        z = { x with phase := .spilled, image := z.image } ∧ z.image.length = x.regions.length ∧
        ∀ i q, x.regions[i]? = some q → q.spilled = true → x.image.getD i [] = [] → z.image.getD i [] = regionBytes s x q) ∧
    (∀ r, spillDone s true = some r → r.job = j → r.dropped = false → job? s j = some x → x.phase = .restoring →
      isRS s x.part = false → (∀ q ∈ x.saved, ∀ p ∈ x.saved, placeOf s { x with phys := mapUnits s x } p.1 =
        placeOf s { x with phys := mapUnits s x } q.1 → p = q) →
      ∃ u z, exec .restoreComplete s = .next (reconsider u) ∧ job? u j = some z ∧ z.phase = .running ∧ z.saved = [] ∧ z.regions = [] ∧
        (∀ q ∈ x.saved, ∀ c, placeOf s { x with phys := mapUnits s x } q.1 = some c → (clu u c).clv = q.2) ∧
        ∀ q bs c i, x.regions = [q] → q.spilled = true → x.image = [bs] → x.pinned = [] → i < bs.length →
          placeOf s { x with phys := mapUnits s x } q.member = some c →
          (if q.space = 1 then (clu u c).xm else if q.space = 2 then (clu u c).ym else (clu u c).sp).get (q.start + i) = bs.getD i 0)

/-- FLOOR_GUARD closes a windowed cluster to edge work; at the start of the window an edge job still there is aborted, counted and
recorded; a job still running at its window's end goes on, and the overrun is counted and recorded. At its deadline a RADIO or
SAFETY job, and an edge job with ABORT, is aborted; an edge job with LATE_OK goes on, late, with its deadline moved by its budget
(R276 to R278, R298, R299, R301). There are no templates.
Choices of the model: log 65. -/
def Obligations.FloorsAndDeadlinesAreKept : Prop :=
  ∀ (s : State) (l w : Nat), l < 16 → s.disp.tpls = [] → s.disp.tplTodo = [] → handedOk s →
    (floorMode s l = 2 → tgetD false s.disp.guard l = false → inGuard s l w = true →
      ∃ u, exec (.floorGuard l w) s = .next (reconsider u) ∧ u = { s with disp := { s.disp with guard := u.disp.guard } } ∧
        ∀ k, tgetD false u.disp.guard k = if k = l then true else tgetD false s.disp.guard k) ∧
    (floorMode s l ≠ 0 → openWin s l = none → inWindow s l w = true →
      let leave := jobsOn s l (fun x => mustLeave s l w x && !replaying s x.part)
      (leave = [] → ∃ u, exec (.floorWindowStart l w) s = .next (reconsider u) ∧
        u = { s with disp := { s.disp with guard := u.disp.guard, winOpen := u.disp.winOpen } } ∧
        tgetD false u.disp.guard l = false ∧ ∀ k, openWin u k = if k = l then some w else openWin s k) ∧
      (∀ j x, leave = [(j, x)] → x.part < 32 → ∃ u, exec (.floorWindowStart l w) s = .next (reconsider u) ∧ openWin u l = some w ∧
        job? u j = none ∧ (∀ k, k ≠ j → job? u k = job? s k) ∧ (∀ q ∈ u.disp.spill, q.job = j → q.started = true ∧ q.dropped = true) ∧
        bit (rg u HDR_EVT 0 0) 10 = true ∧
        fld (rg u SYS_FLOOR_STAT 0 l) 15 0 = Nat.min 65535 (fld (rg s SYS_FLOOR_STAT 0 l) 15 0 + 1) ∧
        recorded s u (fun r => r.hdr = recHdr 0x17 2 0 x.part))) ∧
    (openWin s l = some w → inWindow s l w = false → ∀ late, late = jobsOn s l (fun x => decide (x.win = some (l, w))) →
      ∃ u, exec (.floorWindowEnd l w) s = .next (reconsider u) ∧ openWin u l = none ∧ u.disp.jobs = s.disp.jobs ∧ u.cl = s.cl ∧
        ∀ j x, late = [(j, x)] → bit (rg u HDR_EVT 0 0) 9 = true ∧
          fld (rg u SYS_FLOOR_STAT 0 l) 31 16 = Nat.min 65535 (fld (rg s SYS_FLOOR_STAT 0 l) 31 16 + 1) ∧
          recorded s u (fun r => r.hdr = recHdr 0x17 1 0 x.part)) ∧
    (∀ j x, job? s j = some x → x.deadline ≤ nowNs s → x.late = false → replaying s x.part = false → x.part < 32 →
      (isRS s x.part = false → x.lateOk = true → ∃ u, exec (.deadlineExpire j) s = .next (reconsider u) ∧
        job? u j = some { x with late := true, deadline := x.deadline + acycNs x.budget (jobDiv s x) } ∧
        (∀ k, k ≠ j → job? u k = job? s k) ∧ u.cl = s.cl ∧ u.mem = s.mem) ∧
      (isRS s x.part = true ∨ x.lateOk = false → ∃ u, exec (.deadlineExpire j) s = .next (reconsider u) ∧ job? u j = none ∧
        (∀ k, k ≠ j → job? u k = job? s k) ∧ bit (rg u HDR_EVT 0 0) 11 = true ∧
        rg u SYS_DL_ABORT_CNT 0 x.part = satAdd (rg s SYS_DL_ABORT_CNT 0 x.part) 1 ∧
        (isRS s x.part = true → recorded s u (fun r => r.hdr = recHdr 0x17 3 0 x.part))))

/-! ### The time unit (16, 24) -/

/-- A page responds to partition `p`, exists, and may be written by it (R18, R689, R694, R696). -/
def Sys2Proof.pageOpen (s : State) (p c i : Nat) : Prop := responds s c = true ∧ pageExists s c i = true ∧ mayWrite s p c i = true
/-- Event bit `n` of page (c, i). -/
def Sys2Proof.evtBit (s : State) (c i n : Nat) : Bool := bit (rg s (c * 4096 + HDR_EVT) i 0) n

/-- A tick adds 1,000,000,000 / 491,520,000 ns at the rate in force, or at a rate nearer to the end of the 12 ppm in the direction of a
slew, which it shortens and never overshoots; the ticks count alone (R494, R496, R505). FREQ_ADJ saturates and sets ADJ_CLAMP; it and
PHASE_ADJ end free run, or wait while HOLD is set or the reference is gone; each restarts the servo's watchdog. HOLD, the watchdog and
the loss of the reference in use begin free run, with the rate as it is and a slew stopped with its remainder (R505, R508, R509, R674,
R675, R737). -/
def Sys2Proof.ServoWritesSteerTheClock : Prop :=
  ∀ (s : State) (p : Nat) (v : Word),
    let m := s.tmu
    let began (u : State) (cause : Nat) : Prop := evtBit u 3 0 2 = true ∧
      u.tmu = { m with freeRun := true, cause := cause, slewing := false, servoT0 := u.tmu.servoT0 }
    let settled (r left : Int) : Tmu :=
      if m.freeRun = true ∧ (bit (rg s TMU_TMU_CTL 0 0) 31 = true ∨ s.pwr.holdAt.isSome = true) then
        { m with phaseLeft := left, servoT0 := m.ticks }
      else { m with freeRun := false, rate := r, phaseLeft := left, slewing := decide (left ≠ 0), servoT0 := m.ticks }
    (s.pending = [] → ∃ inc d, step s = .next { s with tmu := { m with ticks := m.ticks + 1, time := m.time + inc, phaseLeft := m.phaseLeft - d } } ∧
      (m.slewing = false → d = 0 ∧ inc = tickInc m.rate) ∧
      (m.rate.natAbs ≤ 13194139 → tickInc (-13194139) ≤ inc ∧ inc ≤ tickInc 13194139 ∧ (inc : Int) = tickInc m.rate + d ∧
        (0 ≤ m.phaseLeft → 0 ≤ d ∧ d ≤ m.phaseLeft) ∧ (m.phaseLeft ≤ 0 → m.phaseLeft ≤ d ∧ d ≤ 0))) ∧
    (pageOpen s p 3 0 → s.trace.run = none →
      (∀ r, r = max (-13194139) (min 13194139 v.toInt) → ∃ u, exec (.freqAdj p v) s = .next u ∧
        u = { s with tmu := settled r m.phaseLeft, pg := u.pg, out := u.out } ∧ rg u TMU_FREQ_ADJ 0 0 = BitVec.ofInt 32 r ∧
        (r = v.toInt → OneReg s u TMU_FREQ_ADJ 0 0 v ∧ u.out = s.out) ∧ (r ≠ v.toInt → evtBit u 3 0 3 = true)) ∧
      exec (.phaseAdj p v) s = .next { s with tmu := settled (rg s TMU_FREQ_ADJ 0 0).toInt (v.toInt * 2 ^ 40) } ∧
      (∃ u, exec (.tmuCtl p v) s = .next u ∧ u = { s with tmu := u.tmu, pg := u.pg, out := u.out } ∧
        rg u TMU_TMU_CTL 0 0 = v &&& 0x8000FFFF ∧ u.tmu.servoT0 = m.ticks ∧
        (bit v 31 = false ∨ m.freeRun = true → u.tmu = { m with servoT0 := m.ticks } ∧ OneReg s u TMU_TMU_CTL 0 0 (v &&& 0x8000FFFF)) ∧
        (bit v 31 = true → m.freeRun = false → began u 2))) ∧
    (s.trace.run = none → m.freeRun = false →
      let n := fld (rg s TMU_TMU_CTL 0 0) 15 0
      (n ≠ 0 → passed s m.servoT0 (n * 1000000) = true → ∃ u, exec .servoTimeout s = .next u ∧ began u 1 ∧
        u = { s with tmu := u.tmu, pg := u.pg, out := u.out }) ∧
      (n = 0 ∨ passed s m.servoT0 (n * 1000000) = false → exec .servoTimeout s = .next s) ∧
      (∀ r, r ≤ 2 → s.pwr.refLost = [] → s.pwr.holdAt = none → r = s.pwr.refUse ∨ (r = 0 ∧ s.pwr.refUse = 2) →
        ∃ u, exec (.refLoss r) s = .next u ∧ began u 3 ∧ evtBit u 1 0 0 = true ∧
          u = { s with tmu := u.tmu, pg := u.pg, out := u.out, pwr := { s.pwr with refLost := [r], holdAt := some m.ticks } })) ∧
    (∀ r, s.pwr.refLost = [r] → s.pwr.holdAt.isSome = true → s.pwr.locking = none →
      exec (.refReturn r) s = .next { s with pwr := { s.pwr with refLost := [], locking := some s.pwr.refUse } }) ∧
    (∀ r, s.pwr.locking = some r → refValid s r = true → ∃ u, exec .refSwitch s = .next u ∧ evtBit u 1 0 1 = true ∧
      u = { s with pg := u.pg, out := u.out, pwr := { s.pwr with refUse := r, holdAt := none, locking := none } }) ∧
    (m.slewing = true → m.phaseLeft = 0 → exec .slewEnd s = .next { s with tmu := { m with slewing := false } })

/-- TIME_SET is refused, with STEP_REFUSED and a record of type 0x17, REASON 4, while a cell runs, a transmit link is enabled or an amplifier is
on (R506). A read of TIME_NS latches seconds and fraction of its tick; one of TSQ_STAMP takes the head of the queue, and reads 0 from an
empty one (R495, R501). -/
def Sys2Proof.TimeIsReadAndStepsRefused : Prop :=
  ∀ (s : State) (p : Nat), responds s 3 = true →
    let m := s.tmu
    (pageOpen s p 3 0 → s.trace.run = none → txQuiet s = false →
      ∃ u, exec (.timeSet p) s = .next u ∧ u = { s with pg := u.pg, out := u.out } ∧ evtBit u 3 0 1 = true ∧
        (s.pg.ering.length < 16384 → ∃ r, u.pg.ering = s.pg.ering ++ [r] ∧ r.hdr = recHdr 0x17 4 0 0 ∧ r.timeNs = timeNsW s)) ∧
    (mayRead s p 3 0 0x40 = true →
      exec (.timeNs p) s = .next { s with out := .reply (w32 (nowNs s % 1000000000)) :: s.out,
                                          tmu := { m with latchS := nowNs s / 1000000000, latchFrac := m.time % 2 ^ 40 / 2 ^ 24 } }) ∧
    (mayRead s p 3 0 0xA0 = true →
      (m.tsq = [] → exec (.tsqStamp p) s = .next { s with out := .reply 0 :: s.out }) ∧
      ∀ e rest, m.tsq = e :: rest →
        exec (.tsqStamp p) s = .next { s with out := .reply e.2.2 :: s.out, tmu := { m with tsq := rest } })

/-- The time unit: `ServoWritesSteerTheClock` and `TimeIsReadAndStepsRefused`.
Choices of the model: log 1, 51, 99, 122. -/
def Obligations.TheClockIsSteeredAndRead : Prop := ServoWritesSteerTheClock ∧ TimeIsReadAndStepsRefused

/-- A TIME_SET that is applied sets the time and adds the step to the deadline of every job and to every floor window, so that each job keeps
its remaining time; a phase slew in progress is cancelled, and PHASE_LEFT is 0. The rate and the count of ticks stay, and nothing else
changes (R507). -/
def Obligations.TimeStepsMoveEveryDeadline : Prop :=
  ∀ (s : State) (p : Nat), responds s 3 = true → pageOpen s p 3 0 → s.trace.run = none →
    s.radio.cells.any (fun e => decide ((cellOf s e.1).st = .running) || (cellOf s e.1).startAt.isSome) = false →
    (∀ l, 8 ≤ l → l < 16 → bit (rg s JCL_LINK_CFG 0 l) 31 = false) → (∀ e ∈ s.fh.pa, e.2 = false) →
    let by_ : Int := (setNs s : Int) - nowNs s
    ∃ u, exec (.timeSet p) s = .next u ∧ u = { s with tmu := u.tmu, disp := u.disp } ∧ nowNs u = setNs s ∧
      u.tmu.time % 2 ^ 40 = 0 ∧ u.tmu.ticks = s.tmu.ticks ∧ u.tmu.rate = s.tmu.rate ∧ u.tmu.slewing = false ∧ u.tmu.phaseLeft = 0 ∧
      u.tmu.frame = frameCnt u ∧ u.disp = { s.disp with jobs := u.disp.jobs, floorShift := s.disp.floorShift + by_ } ∧
      ∀ j, job? u j = (job? s j).map (fun x => { x with deadline := ((x.deadline : Int) + by_).toNat })

/-! ### FAPI (10, 17) -/

/-- Partition `p`'s only descriptor is a well-formed FAPI one for cell `c`, which is its own or nobody's, and the device may write the
host's memory; no recording or replay runs. -/
def Sys2Proof.FapiReady (s : State) (p c : Nat) : Prop :=
  ∃ d, tgetD [] s.host.picked p = [d] ∧ dtype d = 0x30 ∧ fapiOk d = true ∧ (wd d 6).toNat = c ∧ mayWriteHost s p = true ∧
    ((cellOf s c).part = none ∨ (cellOf s c).part = some p) ∧ s.trace.run = none ∧ s.trace.replay = none
/-- A message for cell `c` went to partition `p` since `s`. -/
def Sys2Proof.sent (s u : State) (p c : Nat) (m : FapiMsg) : Prop := ∃ l, u.out = l ++ s.out ∧ Output.fapi p c m ∈ l
/-- The command took the descriptor, and changed the radio's state alone but for what messages and completion records write. -/
def Sys2Proof.fapiDone (s u : State) (p : Nat) : Prop :=
  tgetD [] u.host.picked p = [] ∧ u = { s with radio := u.radio, cxs := u.cxs, host := u.host, pg := u.pg, mem := u.mem, out := u.out }
/-- A cell takes requests for slot `n`, which lies no more than 8 slots ahead, and the lead time has not passed (R333, R337). -/
def Sys2Proof.slotOpen (s : State) (c n : Nat) (ul : Bool) : Prop :=
  ((cellOf s c).st = .running ∨ (cellOf s c).startAt.isSome = true) ∧ farAhead s c n = false ∧
    (nowNs s : Int) + (leadNs s c ul : Int) ≤ slotStart s c n
/-- The same, but the lead time has passed. -/
def Sys2Proof.slotLate (s : State) (c n : Nat) (ul : Bool) : Prop :=
  ((cellOf s c).st = .running ∨ (cellOf s c).startAt.isSome = true) ∧ farAhead s c n = false ∧
    slotStart s c n < (nowNs s : Int) + (leadNs s c ul : Int)

/-- PARAM, CONFIG, START and STOP: a supported configuration makes an idle cell the partition's and CONFIGURED; a running cell takes vendor
TLVs alone, at the next frame; any other is answered as refused and changes nothing. START names the second frame boundary, STOP the
present frame; in any other state they are refused. A message that R335 does not list is refused by name (R335, R336, R338).
Choices of the model: log 14, 67, 68. -/
def Obligations.CellsFollowFapiStates : Prop :=
  ∀ (s : State) (p c m : Nat) (x : CellConfig), FapiReady s p c →
    let k := cellOf s c
    let others (u : State) : Prop := ∀ e, e ≠ c → cellOf u e = cellOf s e
    let off : Option Nat := if x.learnedRx.getD 1 = 0 then some (k.learnedOff.getD s.tmu.ticks) else none
    (∃ u, exec (.paramRequest p c) s = .next u ∧ fapiDone s u p ∧ u.radio = s.radio ∧ sent s u p c .paramResponse) ∧
    (∃ u, exec (.fapi p c m) s = .next u ∧ fapiDone s u p ∧ u.radio = s.radio ∧
      sent s u p c (.errorIndication (.other m) .unsupported 0 none)) ∧
    (k.st ≠ .running → cfgOk s c x = true → ∃ u, exec (.configRequest p c x) s = .next u ∧ fapiDone s u p ∧ others u ∧
      sent s u p c (.configResponse true) ∧ cellOf u c = { k with part := some p, st := .configured, cfg := some x, todo := none, learnedOff := off }) ∧
    (k.st ≠ .running → cfgOk s c x = false → ∃ u, exec (.configRequest p c x) s = .next u ∧ fapiDone s u p ∧ u.radio = s.radio ∧
      sent s u p c (.configResponse false)) ∧
    (∀ old, k.st = .running → k.cfg = some old →
      (x.otherChange = false → tlvsOk x old.rxAnts = true → ∃ u, exec (.configRequest p c x) s = .next u ∧ fapiDone s u p ∧ others u ∧
        sent s u p c (.configResponse true) ∧ cellOf u c = { k with todo := some (mergeTlvs (k.todo.getD old) x) }) ∧
      (x.otherChange = true ∨ tlvsOk x old.rxAnts = false → ∃ u, exec (.configRequest p c x) s = .next u ∧ fapiDone s u p ∧
        u.radio = s.radio ∧ sent s u p c (.configResponse false))) ∧
    (k.st = .configured → k.startAt = none → k.stopAt = none → ∃ u, exec (.startRequest p c) s = .next u ∧ fapiDone s u p ∧ others u ∧
      cellOf u c = { k with startAt := some ((frameCnt s + 2) % 2 ^ 32) }) ∧
    (k.st ≠ .configured ∨ k.startAt.isSome = true ∨ k.stopAt.isSome = true → ∃ u, exec (.startRequest p c) s = .next u ∧ fapiDone s u p ∧
      u.radio = s.radio ∧ sent s u p c (.errorIndication .start .invalidState 0 none)) ∧
    (k.st = .running → k.stopAt = none → ∃ u, exec (.stopRequest p c) s = .next u ∧ fapiDone s u p ∧ others u ∧
      cellOf u c = { k with stopAt := some (frameCnt s) }) ∧
    (k.st ≠ .running ∨ k.stopAt.isSome = true → ∃ u, exec (.stopRequest p c) s = .next u ∧ fapiDone s u p ∧ u.radio = s.radio ∧
      sent s u p c (.errorIndication .stop .invalidState 0 none))

/-- A slot request that keeps its lead time and the limits is taken whole: DL_TTI and UL_TTI give the slot its items, in order, UL_DCI
its DCIs, TX_Data a PDSCH its payload from host memory. One that comes late is answered by ERROR.indication and discarded whole; one
more than 8 slots ahead names an invalid SFN (R309, R323, R333, R334, R337).
Choices of the model: log 67, 68, 132. -/
def Obligations.SlotRequestsAreTakenWhole : Prop :=
  ∀ (s : State) (p c n k : Nat) (ds : List DlPdu) (us : List UlPdu) (t : TxPayload), FapiReady s p c →
    (∀ ul, leadNs s c ul = (if cellLte s c = true ∨ cellMu s c = 0 then 1000000 else if cellMu s c = 1 then 500000
      else if cellMu s c = 2 then 300000 else 200000) / (if ul = true then 2 else 1)) ∧
    (slotOpen s c n false → dlBad ds = none → dlOf s c n = none → ∃ u, exec (.dlTtiRequest p c n ds) s = .next u ∧ fapiDone s u p ∧
      u.radio = { s.radio with dl := s.radio.dl ++ [⟨p, c, n, ds.map (fun x => { pdu := x }), 0, true⟩] }) ∧
    (slotOpen s c n true → s.mem.ue = [] → ulBad (cellLte s c) us = none → ulOf s c n = none → ∃ u x, exec (.ulTtiRequest p c n us) s = .next u ∧ fapiDone s u p ∧
      ulOf u c n = some x ∧ x.part = p ∧ x.items.map (fun i => i.pdu) = us ∧
      (∀ i ∈ x.items, i.bank = (cellOf s c).bank ∧ i.path = none ∧ (i.status = none ∨ i.status = some 1)) ∧
      (∀ e m, (e, m) ≠ (c, n) → ulOf u e m = ulOf s e m) ∧ u.radio.dl = s.radio.dl ∧ u.radio.cells = s.radio.cells) ∧
    (slotOpen s c n false → k ≤ 64 → dlOf s c n = none → ∃ u, exec (.ulDciRequest p c n k) s = .next u ∧ fapiDone s u p ∧
      u.radio = { s.radio with dl := s.radio.dl ++ [⟨p, c, n, [], k, false⟩] }) ∧
    (∀ y, slotOpen s c n false → dlItem s c n t.pdu = some y → y.pdu.kind = .pdsch →
      ∃ u, exec (.txDataRequest p c n [t]) s = .next u ∧ fapiDone s u p ∧
        dlItem u c n t.pdu = some { y with payload := some (hostRead s t.addr t.len) } ∧ u.radio.ul = s.radio.ul ∧
        (∀ i, i ≠ t.pdu → dlItem u c n i = dlItem s c n i) ∧ ∀ e m i, (e, m) ≠ (c, n) → dlItem u e m i = dlItem s e m i) ∧
    (∀ e ∈ [(Instr.dlTtiRequest p c n ds, FapiReq.dlTti, false), (.ulTtiRequest p c n us, .ulTti, true), (.ulDciRequest p c n k, .ulDci, false)],
      (slotLate s c n e.2.2 → ∃ u, exec e.1 s = .next u ∧ fapiDone s u p ∧ u.radio = { s.radio with lateSeen := u.radio.lateSeen } ∧
        sent s u p c (.errorIndication e.2.1 .late n none)) ∧
      ((cellOf s c).st = .running → farAhead s c n = true → ∃ u, exec e.1 s = .next u ∧ fapiDone s u p ∧ u.radio = s.radio ∧
        sent s u p c (.errorIndication e.2.1 .invalidSfn n none))) ∧
    (slotLate s c n false → ∃ u, exec (.txDataRequest p c n [t]) s = .next u ∧ fapiDone s u p ∧ u.radio.ul = s.radio.ul ∧
      sent s u p c (.errorIndication .txData .late n (some t.pdu)) ∧ ∀ y z, dlItem s c n t.pdu = some y → dlItem u c n t.pdu = some z →
        z.payload = y.payload)

/-! ### Boundaries and commits (10, 11, 16, 25) -/

/-- A boundary that has been carried out does nothing more. At a frame boundary a cell starts or stops, its vendor TLVs take effect, and
a weight bank that its object requests becomes active. At the slot boundary of a running cell SLOT.indication goes out, absent requests
are reported late, and the slot's allocations bind the active bank. A partition's timer raises SLOT on the cores of its jobs and on no
other (R334, R336, R337, R364, R366, R510 to R512).
Choices of the model: log 66, 68, 69. -/
def Obligations.BoundariesAreCarriedOut : Prop :=
  ∀ (s : State) (c p : Nat), c < 96 → s.pg.commits = [] → s.disp.tplTodo = [] → s.trace.run = none →
    let k := cellOf s c
    let o := fld (rg s BEQ_CELL_CFG 0 c) 13 0
    let f := frameCnt s
    let served := bit (rg s BEQ_CELL_CFG 0 c) 31
    let noSwap : Prop := served = false ∨ k.part = none ∨ objOwner s o ≠ k.part
    let framed (u : State) : Prop := exec .frameBoundary s = .next u ∧ u.tmu = { s.tmu with frame := f } ∧
      u.disp = { s.disp with floorShift := 0 } ∧ u.cl = s.cl ∧ u.sync = s.sync ∧ u.mem.ext = s.mem.ext
    (f = s.tmu.frame → exec .frameBoundary s = .next s) ∧
    (f ≠ s.tmu.frame → s.radio.cells = [(c, k)] → k.saff = none → k.engaged = none → bit (rg s SYS_SAFF_CFG 0 c) 31 = false →
      (∀ g, noSwap → k.todo = none → k.startAt = some g → ∃ u, framed u ∧
        cellOf u c = if (f + 2 ^ 32 - g) % 2 ^ 32 < 2 ^ 31 then { k with st := .running, startAt := none, saffPass := false, saffSeen := false }
          else { k with saffPass := false, saffSeen := false }) ∧
      (∀ g, noSwap → k.todo = none → k.startAt = none → k.stopAt = some g → k.st = .running → f ≠ g → ∃ u, framed u ∧
        (cellOf u c).st = .configured ∧ (∀ n, dlOf u c n = none) ∧
        (s.radio.ul = [] → k.part = some p → sent s u p c .stopIndication ∧ (cellOf u c).stopAt = none)) ∧
      (∀ x, noSwap → k.todo = some x → k.startAt = none → k.stopAt = none → ∃ u, framed u ∧ (cellOf u c).cfg = some x ∧
        (cellOf u c).todo = none ∧ (cellOf u c).st = k.st) ∧
      (∀ v, served = true → k.part = some p → objOwner s o = some p → objVal s o = v → k.todo = none → k.startAt = none → k.stopAt = none →
        ∃ u, framed u ∧ rg u BEQ_VAL_REJECT 0 c = satAdd (rg s BEQ_VAL_REJECT 0 c) ((fld v 15 8 + 256 - k.rejSeq) % 256) ∧
          (bit v 31 = true → fld v 0 0 ≠ k.bank → (cellOf u c).bank = fld v 0 0 ∧ evtBit u 30 0 2 = true ∧
            rg u BEQ_SWAP_COUNT 0 c = satAdd (rg s BEQ_SWAP_COUNT 0 c) 1) ∧
          (bit v 31 = false → (cellOf u c).bank = k.bank ∧ rg u BEQ_SWAP_COUNT 0 c = rg s BEQ_SWAP_COUNT 0 c))) ∧
    (cellSlotNow s c = tgetD 0 s.tmu.cellSlot c → exec (.slotBoundary c) s = .next s) ∧
    (∀ n, n = cellSlotNow s c → n ≠ tgetD 0 s.tmu.cellSlot c → s.units.leaving = [] → s.units.engLeaving = [] → s.units.engBack = [] →
      heldSlots s c = [] → (∀ l, l < 16 → linkEn s l = false) →
      ∃ u, exec (.slotBoundary c) s = .next u ∧ tgetD 0 u.tmu.cellSlot c = n ∧
        u = { s with tmu := { s.tmu with cellSlot := u.tmu.cellSlot }, radio := u.radio, host := u.host, pg := u.pg, mem := u.mem, out := u.out } ∧
        (k.st ≠ .running → u.out = s.out ∧ u.mem = s.mem) ∧
        (k.st = .running → k.part = some p → sent s u p c (.slotIndication ((n + slotIndAdv s c) % 2 ^ 32)) ∧
          (dlOf s c n = none → (c, n, false) ∉ s.radio.lateSeen → sent s u p c (.errorIndication .dlTti .late n none)) ∧
          (ulOf s c n = none → (c, n, true) ∉ s.radio.lateSeen → sent s u p c (.errorIndication .ulTti .late n none)) ∧
          ∀ x, ulOf u c n = some x → ∀ i ∈ x.items, i.bank = k.bank)) ∧
    (partSlotNow s p = tgetD 0 s.tmu.partSlot p ∨ isRS s p = false → exec (.slotTimer p) s = .next s) ∧
    (∀ n, n = partSlotNow s p → n ≠ tgetD 0 s.tmu.partSlot p → isRS s p = true →
      let hit (d : Nat) : Prop := ∃ e ∈ s.disp.jobs, ∃ x, e.2 = some x ∧ x.part = p ∧ onUnit x = true ∧ d ∈ members s x
      ∃ u, exec (.slotTimer p) s = .next u ∧ tgetD 0 u.tmu.partSlot p = n ∧
        u = { s with tmu := { s.tmu with partSlot := u.tmu.partSlot }, cl := u.cl } ∧
        (∀ d, hit d → (clu s d).clv.ended = false → (clu u d).clv.irq.getLsbD 2 = true) ∧ ∀ d, ¬ hit d → clu u d = clu s d) ∧
    (gridNow s = s.tmu.grid → exec .deviceGridBoundary s = .next s)

/-- Registers whose change has effects of its own when it comes into force. -/
def Sys2Proof.actsWhenApplied (r : Nat) : Prop :=
  r ∈ [FHP_PORT_CFG, JCL_LINK_CFG, JCL_AGC_CFG, PODQ_POD_CFG, PWC_CLK_CFG, PWC_DOM_CTL, ILK_ILK_CFG, ILK_DOM_CFG, TMU_FRAME_OFFSET,
    TMU_CELL_TIME, TMU_PART_SLOT, PWC_REF_CFG]

/-- A requested commit is judged once, at its boundary. When nothing in it offends, each shadow value that the boundary governs becomes
the value in force, no other register changes but COMMIT_STAT, whose APPLIED counts, and the shadow is clean. When something does,
nothing of it is applied, the shadow stays, COMMIT_STAT shows REFUSED and the offender's offset, and a record of type 0x19 is written
(R667, R711, R712). Stated for one page of the 125 µs grid.
Choices of the model: log 88. -/
def Obligations.CommitsApplyWholeOrNotAtAll : Prop :=
  ∀ (s s' : State) (c i : Nat) (x : PageCommit) (l : List (Nat × Word)), 1 ≤ c → c < 31 → i < 256 → gridNow s ≠ s.tmu.grid →
    s' = { s with tmu := { s.tmu with grid := gridNow s } } → s.pg.commits = [(c * 256 + i, x)] → x.requested = true → x.todo = [] →
    x.held = false → pageOn s c i = true → fwWaits s = false → s.sec.fwNext = none → s.trace.run = none →
    (∀ e ∈ s.safe.rot, e.2.back = false) → (s.pg.shadow.map (fun e => e.1)).Pairwise (· < ·) → l = pageShadow s c i → l ≠ [] →
    (∀ e ∈ l, governs s e.1 = .grid ∧ ¬ actsWhenApplied (keyReg e.1).1 ∧ 0x40 ≤ (keyReg e.1).1 % 4096) →
    let stat := c * 4096 + HDR_COMMIT_STAT
    let at_ (u : State) (k : Nat) : Word := tget regReset u.pg.regs k
    (offender s' c i l = none → ∃ u, exec .deviceGridBoundary s = .next u ∧ u = { s' with pg := u.pg } ∧ (∀ e ∈ l, at_ u e.1 = e.2) ∧
      (∀ k, (∀ e ∈ l, e.1 ≠ k) → k ≠ rkey stat i 0 → at_ u k = at_ s k) ∧ pageShadow u c i = [] ∧ (commitOf u c i).requested = false ∧
      fld (rg u stat i 0) 15 0 = (fld (rg s stat i 0) 15 0 + 1) % 65536 ∧ bit (rg u stat i 0) 30 = false) ∧
    (∀ o, offender s' c i l = some o → ∃ u, exec .deviceGridBoundary s = .next u ∧ u = { s' with pg := u.pg, out := u.out } ∧
      (∀ e ∈ l, at_ u e.1 = at_ s e.1) ∧ u.pg.shadow = s.pg.shadow ∧ (commitOf u c i).requested = false ∧
      bit (rg u stat i 0) 30 = true ∧ fld (rg u stat i 0) 27 16 = o % 4096 ∧ evtBit u 0 0 0 = true ∧
      recorded s u (fun r => r.hdr = recHdr 0x19 0 0 (ownerOf s c i) ∧ r.w1 = w32 (c * 256 + i) ∧ r.w2 = w32 o))

/-! ### Power, resets, the test port and the memory's upkeep (18, 22, 24, 26) -/

/-- Every interval the sensors are read; over the cap in the fourth interval and later, the CAPPED cluster of highest estimated power that
can still slow down steps one divider slower, ties to the lowest index, or CAP_SAT is raised. THERMTRIP_N goes low at 120 °C. The
regulator's answer puts its voltage in force. The lowest domain that waits is switched; one switched off loses its SRAM; one switched on
is up after its time, and counts (R680, R681, R684, R723).
Choices of the model: log 119, 120, 121, 123. -/
def Obligations.PowerFollowsItsConditions : Prop :=
  ∀ (s : State) (est mv d : Nat) (temps : List Int) (pw : List Nat), d < 112 →
    let stat (u : State) : Word := rg u PWC_DOM_STAT 0 d
    let up (e : Nat) : Bool := bit (rg s PWC_DOM_STAT 0 e) 31 || (tgetD none s.pwr.powering e).isSome
    let hot : Prop := fld (rg s PWC_PWR_CAP 0 0) 15 0 * 10 < est
    let stepped (u : State) (l n : Nat) : Prop :=
      tgetD none u.pwr.divNext l = (if n = divOf s l then none else some n) ∧ rg u PWC_STEP_CNT 0 0 = rg s PWC_STEP_CNT 0 0 + 1 ∧
        ∀ k, k ≠ l → tgetD none u.pwr.divNext k = tgetD none s.pwr.divNext k
    (∃ u, exec (.powerCapInterval est temps pw) s = .next u ∧ u = { s with pwr := u.pwr, pg := u.pg, out := u.out } ∧
      ((∃ t ∈ temps, 960 ≤ t) → s.pwr.tripped = false → u.pwr.tripped = true ∧ Output.pin 2 0 false ∈ u.out) ∧
      (ready s = true → bit (rg s PWC_PWR_CAP 0 0) 31 = false → u.pwr.divNext = s.pwr.divNext ∧ u.pwr.overRun = 0 ∧ u.pwr.underRun = 0) ∧
      (ready s = true → bit (rg s PWC_PWR_CAP 0 0) 31 = true → hot → u.pwr.overRun = s.pwr.overRun + 1 ∧ u.pwr.underRun = 0 ∧
        (s.pwr.overRun < 3 → u.pwr.divNext = s.pwr.divNext) ∧
        (3 ≤ s.pwr.overRun → stepable s true = [] → evtBit u 1 0 4 = true ∧ u.pwr.divNext = s.pwr.divNext) ∧
        (3 ≤ s.pwr.overRun → stepable s true ≠ [] → ∃ l ∈ stepable s true, stepped u l (slower (divAsked s l)) ∧
          ∀ k ∈ stepable s true, pw.getD k 0 ≤ pw.getD l 0 ∧ (pw.getD k 0 = pw.getD l 0 → l ≤ k)))) ∧
    (s.pwr.avsAsk = some mv → exec (.avsAcknowledge mv) s = .next { s with pwr := { s.pwr with avsMv := mv, avsAsk := none } }) ∧
    (s.pwr.avsAsk ≠ some mv → exec (.avsAcknowledge mv) s = .next s) ∧
    ((∀ e, e < 112 → wantOn s e = up e) → exec .domainSwitch s = .next s) ∧
    (ready s = true → (∀ t, s.pwr.switched = some t → passed s t 2000 = true) → (∀ e, e < d → wantOn s e = up e) →
      (wantOn s d = true → up d = false → ∃ u, exec .domainSwitch s = .next u ∧ u = { s with pwr := u.pwr, pg := u.pg } ∧
        tgetD none u.pwr.powering d = some s.tmu.ticks ∧ u.pwr.switched = some s.tmu.ticks ∧
        OneReg s u PWC_DOM_STAT 0 d (setFld (rg s PWC_DOM_STAT 0 d) 29 29 1)) ∧
      (wantOn s d = false → up d = true → ∃ u, exec .domainSwitch s = .next u ∧ bit (stat u) 31 = false ∧ bit (stat u) 29 = false ∧
        u.pwr.switched = some s.tmu.ticks ∧ (d < 36 ∨ 54 ≤ d → u.cl = s.cl) ∧
        (36 ≤ d → d < 54 → (∀ a, (clu u (d - 36)).sp.get a = 0 ∧ (clu u (d - 36)).xm.get a = 0 ∧ (clu u (d - 36)).ym.get a = 0) ∧
          ∀ c, c ≠ d - 36 → clu u c = clu s c))) ∧
    (∀ t, tgetD none s.pwr.powering d = some t →
      (passed s t (powerNs d) = false → exec (.powerUp d) s = .next s) ∧
      (passed s t (powerNs d) = true → ∃ u, exec (.powerUp d) s = .next u ∧ u = { s with pwr := u.pwr, pg := u.pg } ∧
        bit (stat u) 31 = true ∧ bit (stat u) 29 = false ∧ fld (stat u) 15 0 = (fld (stat s) 15 0 + 1) % 65536 ∧
        tgetD none u.pwr.powering d = none ∧ ∀ e, e ≠ d → tgetD none u.pwr.powering e = tgetD none s.pwr.powering e))

/-- Power-on and a supply that fails leave fuses, flash and the host's memory as they were, and all else as State.reset has it (the values
the spec gives and those the log names); a start-up whose steps all pass ends at READY with every line of the external memory usable and
zero, one that fails stops at its step, and TEST_MODE boots nothing. The watchdog restarts the firmware, and commits wait. The test port
follows IEEE 1149.1, and TRST_N resets it alone (R651, R687 to R689, R727; the test port: log 125).
Choices of the model: log 3, 124, 125, 128. -/
def Obligations.ResetsStartTheDevice : Prop :=
  ∀ (s : State) (tm fs : Bool) (sb den k m g : Nat) (rk xspi tms tdi : Bool),
    let cold (u : State) : Prop := u.pending = s.pending ∧ u.mem.host = s.mem.host ∧ u.mem.flash = s.mem.flash ∧ u.mem.site = [] ∧
      u.sec.fuses = s.sec.fuses ∧ u.tmu = State.reset.tmu ∧ u.eng = State.reset.eng ∧ u.pod = State.reset.pod ∧ u.fh.pa = []
    let a := straps (powerLost s) tm fs sb
    let b := bootRom a true xspi
    let c := stageOne { b.2 with host := { b.2.host with linkUp := true } }
    (∃ u, exec .supplyMonitor s = .next u ∧ cold u ∧ u.disp = State.reset.disp ∧ u.cl = State.reset.cl ∧ u.sync = State.reset.sync ∧
      u.pg = State.reset.pg ∧ ready u = false ∧ ∀ e ∈ s.fh.pa, e.2 = true → Output.pin 0 e.1 false ∈ u.out) ∧
    (tm = true → ∃ u, exec (.powerOnReset tm fs sb den rk true xspi k m g) s = .next u ∧ cold u ∧ ready u = false ∧
      u.pwr.testMode = true ∧ rg u PWC_RST_CAUSE 0 0 = bitW 31) ∧
    (tm = false → 1 ≤ k → k ≤ 2 → ∃ u, exec (.powerOnReset tm fs sb den rk true xspi k m g) s = .next u ∧ cold u ∧
      rg u PWC_PWC_STAT 0 0 = w32 k) ∧
    (tm = false → k = 0 → b.1 = false → ∃ u, exec (.powerOnReset tm fs sb den rk true xspi k m g) s = .next u ∧ cold u ∧
      rg u PWC_PWC_STAT 0 0 = 2) ∧
    (tm = false → k = 0 → m = 0 → b.1 = true → c.1 = true → 1 ≤ den → den ≤ 4 → s.sec.fuses.repCl = 0 → s.sec.fuses.repLdd = 0 →
      s.sec.fuses.repBeq = 0 → s.sec.fuses.repEng = 0 → s.sec.fuses.repLane = [] →
      ∃ u, exec (.powerOnReset tm fs sb den rk true xspi k m g) s = .next u ∧ cold u ∧ ready u = true ∧ u.host.linkUp = true ∧
        u.mem.usable = den * 28672 * 1048576 ∧ u.mem.ext = [] ∧ u.mem.ue = [] ∧ (rg u MEM_USABLE_MIB 0 0).toNat = den * 28672) ∧
    (ready s = true → ∃ u, exec .wdtRestart s = .next u ∧ u = { s with sec := { s.sec with fwBusy := some (s.tmu.ticks, 50000000) }, pg := u.pg, out := u.out } ∧
      fwWaits u = true ∧ evtBit u 1 0 2 = true ∧ fld (rg u PWC_RST_CAUSE 0 0) 15 0 = Nat.min 65535 (fld (rg s PWC_RST_CAUSE 0 0) 15 0 + 1)) ∧
    (∃ u, exec (.testAccessPort tms tdi) s = .next u ∧ u = { s with pwr := u.pwr, freeCtr := u.freeCtr, out := u.out } ∧
      u.pwr.tap = tapNext s.pwr.tap tms ∧ (u.pwr.tap = 0 → u.pwr.tapIr = 0) ∧
      (s.pwr.tap = 3 → s.pwr.tapIr = 0 → u.pwr.tapSh = (List.range 32).map (fun i => Config.idcode.getLsbD i)) ∧
      (s.pwr.tap = 3 → s.pwr.tapIr = 1 → u.pwr.tapSh = [false]) ∧
      (s.pwr.tap = 4 ∨ s.pwr.tap = 11 → u.pwr.tapSh = s.pwr.tapSh.tail ++ [tdi] ∧ u.out = .pin 6 0 (s.pwr.tapSh.headD tdi) :: s.out) ∧
      (s.pwr.tap = 15 → s.pwr.testMode = false → u.pwr.tapIr ≤ 2)) ∧
    (∀ n, n < 16 → tapNext (tapNext (tapNext (tapNext (tapNext n true) true) true) true) true = 0) ∧
    exec .testAccessReset s = .next { s with pwr := { s.pwr with tap := 0, tapIr := 0, tapSh := [] } }

/-- The patrol scrubber reads a line like any read: a correctable error counts in CE_COUNT of its channel's group; an uncorrectable one
stands, counts in UE_COUNT, is captured in UE_ADDR and recorded. ZQ calibration changes nothing that can be read; a DQS correction out
of range clears the channel's tracking bit, raises TRACK_FAIL and is recorded; refresh follows TEMP (R544, R546, R548, R549).
Choices of the model: log 126, 127. -/
def Obligations.MemoryIsScrubbedAndTracked : Prop :=
  ∀ (s : State) (line g ch : Nat),
    let a := line * 64
    let q := channel a / 4
    let on : Prop := bit (rg s MEM_SCRUB_PERIOD 0 0) 31 = false ∧ a < s.mem.usable
    let data (u : State) : Prop := u.mem = { s.mem with ue := u.mem.ue } ∧ u = { s with pg := u.pg, mem := u.mem, out := u.out }
    channel a = (line / 7 + line / 7 / 32) % 32 ∧
    (on → line ∉ s.mem.ue → exec (.scrubVisit line .clean) s = .next s) ∧
    (on → line ∉ s.mem.ue → ∃ u, exec (.scrubVisit line .corrected) s = .next u ∧ data u ∧ u.mem.ue = s.mem.ue ∧ evtBit u 8 q 0 = true ∧
      rg u MEM_CE_COUNT q 0 = satAdd (rg s MEM_CE_COUNT q 0) 1) ∧
    (on → ∃ u, exec (.scrubVisit line .uncorrectable) s = .next u ∧ data u ∧ line ∈ u.mem.ue ∧ (∀ l, l ≠ line → (l ∈ u.mem.ue ↔ l ∈ s.mem.ue)) ∧
      evtBit u 8 q 1 = true ∧ rg u MEM_UE_COUNT q 0 = satAdd (rg s MEM_UE_COUNT q 0) 1 ∧ rg u MEM_UE_ADDR_LO 0 0 = w32 a ∧
      recorded s u (fun r => r.hdr = recHdr 0x16 3 0 0 ∧ r.w1 = w32 a ∧ r.w3 = w32 (channel a))) ∧
    (bit (rg s MEM_SCRUB_PERIOD 0 0) 31 = true ∨ s.mem.usable ≤ a → ∀ e, exec (.scrubVisit line e) s = .next s) ∧
    exec (.zqCalibration g) s = .next s ∧
    (ch < 32 → bit (rg s MEM_MEMC_STAT (ch / 4) 0) 31 = true →
      (∃ u, exec (.dqsOscRead ch true) s = .next u ∧ u = { s with pg := u.pg } ∧
        OneReg s u MEM_MEMC_STAT (ch / 4) 0 (setFld (rg s MEM_MEMC_STAT (ch / 4) 0) (22 + ch % 4) (22 + ch % 4) 1)) ∧
      (∃ u, exec (.dqsOscRead ch false) s = .next u ∧ u = { s with pg := u.pg, out := u.out } ∧ evtBit u 8 (ch / 4) 2 = true ∧
        bit (rg u MEM_MEMC_STAT (ch / 4) 0) (22 + ch % 4) = false ∧ recorded s u (fun r => r.hdr = recHdr 0x16 2 0 0 ∧ r.w3 = w32 ch)) ∧
      ∃ u, exec (.refresh ch) s = .next u ∧ u = { s with pg := u.pg, freeCtr := s.freeCtr + 1 } ∧
        OneReg s u MEM_TEMP (ch / 4) 0 (Config.freeWord s.freeCtr &&& 0xF00))

/-! ### The register pages (00, 08, 25) -/

/-- A write to EVT of a page clears the bits that it names, but for those that the hardware raises in the same cycle: each of these stands, and
adds 1 to EVT_COUNT of the page; a page that is left pending sends MSI-X to its owner's function (R17). -/
def Obligations.EventsOutliveTheirClear : Prop :=
  ∀ (s : State) (p c i : Nat) (v same : Word), pageOpen s p c i →
    let r (o : Nat) : Nat := c * 4096 + o
    let raised := same &&& w32 (evtMask c i)
    ∃ u, exec (.evt p ⟨c, i⟩ v same) s = .next u ∧ u = { s with pg := u.pg, out := u.out, freeCtr := u.freeCtr } ∧
      rg u (r HDR_EVT) i 0 = (rg s (r HDR_EVT) i 0 &&& ~~~v) ||| raised ∧ (∀ b, bit raised b = true → evtBit u c i b = true) ∧
      rg u (r HDR_EVT_COUNT) i 0 = rg s (r HDR_EVT_COUNT) i 0 + w32 ((List.range 32).filter (fun b => bit raised b)).length ∧
      (pagePending u c i = true → irqSel s c i = 1 ∨ irqSel s c i = 2 → ∃ l, u.out = l ++ .msix (fnOf s (ownerOf s c i)) (if c = 7 then 4 else 5) :: s.out)

/-- EVT_FORCE sets bits of EVT and counts nothing; a page that turns pending sends MSI-X to its owner's function. PAGE_CTL keeps two bits. GO asks for a commit, DISCARD takes
the values in force back. OWNER of a cluster's page is partition 0's to write. What a partition may not write is denied and logged; so is
every access of the sideband but those of R715 (R17, R18, R706 to R709, R711, R713 to R715).
Choices of the model: log 117. -/
def Obligations.PagesTakeTheirWrites : Prop :=
  ∀ (s : State) (p c i : Nat) (v : Word),
    let pg : Page := ⟨c, i⟩
    let r (o : Nat) : Nat := c * 4096 + o
    let mask := w32 (evtMask c i)
    let told (u : State) : Prop := pagePending u c i = true → irqSel s c i = 1 ∨ irqSel s c i = 2 →
      ∃ l, u.out = l ++ .msix (fnOf s (ownerOf s c i)) (if c = 7 then 4 else 5) :: s.out
    let denied (u : State) (addr : Nat) : Prop := u = { s with pg := u.pg, safe := u.safe, out := u.out } ∧ u.pg.shadow = s.pg.shadow ∧
      evtBit u 8 0 3 = true ∧ recorded s u (fun q => q.hdr = recHdr 0x15 3 0 p ∧ q.w2 = w32 addr)
    (pageOpen s p c i →
      (∃ u, exec (.evtForce p pg v) s = .next u ∧ u = { s with pg := u.pg, out := u.out } ∧ (pagePending s c i = false → told u) ∧
        rg u (r HDR_EVT) i 0 = rg s (r HDR_EVT) i 0 ||| (v &&& mask) ∧ rg u (r HDR_EVT_COUNT) i 0 = rg s (r HDR_EVT_COUNT) i 0) ∧
      (∃ u, exec (.pageCtl p pg v) s = .next u ∧ u = { s with pg := u.pg, out := u.out } ∧ rg u (r HDR_PAGE_CTL) i 0 = v &&& 3 ∧
        ∀ q j k, rkey q j k ≠ rkey (r HDR_PAGE_CTL) i 0 → rg u q j k = rg s q j k) ∧
      (∃ u, exec (.commit p pg) s = .next u ∧ u = { s with pg := { s.pg with commits := u.pg.commits } } ∧
        commitOf u c i = { commitOf s c i with requested := true }) ∧
      (∃ u, exec (.discard p pg) s = .next u ∧ u = { s with pg := { s.pg with commits := u.pg.commits, shadow := u.pg.shadow }, units := u.units } ∧
        pageShadow u c i = [] ∧ (commitOf u c i).requested = false ∧ ∀ d j, (d, j) ≠ (c, i) → pageShadow u d j = pageShadow s d j) ∧
      (p = 0 → 16 ≤ c → c ≤ 19 → ∃ u, exec (.owner p pg v) s = .next u ∧ u = { s with pg := u.pg } ∧ OneReg s u (r HDR_OWNER) i 0 (v &&& 0x1F)) ∧
      (c < 16 ∨ 19 < c → ∃ u, exec (.owner p pg v) s = .next u ∧ denied u (c * 0x100000 + i * 0x1000 + HDR_OWNER))) ∧
    (responds s c = true → pageExists s c i = false ∨ (p ≠ 0 ∧ p ≠ ownerOf s c i) → c < 64 → i < 256 →
      ∀ e ∈ [(Instr.evt p pg v 0, HDR_EVT), (.evtForce p pg v, HDR_EVT_FORCE), (.pageCtl p pg v, HDR_PAGE_CTL), (.commit p pg, HDR_COMMIT),
          (.discard p pg, HDR_COMMIT), (.owner p pg v, HDR_OWNER)],
        ∃ u, exec e.1 s = .next u ∧ denied u (c * 0x100000 + i * 0x1000 + e.2)) ∧
    (pageOpen s p c i → (part? s p).isSome = true → c ∉ [0, 3, 4, 7] → pageOn s c i = true →
      ∀ o x, regRow? c i o = some x → 0x40 ≤ o → o < 4096 → o % 4 = 0 →
        let k := selIdx s x c i
        let w := v &&& w32 x.mask
        let off := c * 0x100000 + i * 0x1000 + o
        (x.acc = .rw → ∃ u, exec (.registerWrite p off v 0xF) s = .next u ∧ u = { s with pg := u.pg } ∧ OneReg s u (r o) i k w) ∧
        (x.acc = .rws → ∃ u, exec (.registerWrite p off v 0xF) s = .next u ∧ u = { s with pg := { s.pg with shadow := u.pg.shadow } } ∧
          shadow u (r o) i k = w ∧ ∀ q j l, rkey q j l ≠ rkey (r o) i k → shadow u q j l = shadow s q j l) ∧
        (x.acc = .ro → exec (.registerWrite p off v 0xF) s = .next s) ∧
        (∃ u, exec (.registerWrite p off v 0x7) s = .next u ∧ denied u off)) ∧
    (∀ o w, exec (.sidebandAccess o w false) s = .next s) ∧
    (p = 0 → c < 31 → pageExists s c i = true → responds s c = true → ∀ o, o < 4096 → o % 4 = 0 → 4096 * c + o ∉ [TMU_TIME_NS, TMU_TSQ_STAMP] →
      exec (.sidebandAccess (c * 0x100000 + i * 0x1000 + o) none true) s = .next { s with out := .reply (regVal s 0 c i o) :: s.out }) ∧
    (responds s 1 = true → ∃ u, exec (.sidebandAccess 0x100048 (some v) true) s = .next u ∧
      u = { s with pg := { s.pg with shadow := u.pg.shadow } } ∧ shadow u PWC_PWR_CAP 0 0 = v &&& 0x80FFFFFF) ∧
    (p = 0 → c < 31 → i < 256 → responds s c = true → ∀ o, o < 4096 → o % 4 = 0 → ¬ (c = 1 ∧ i = 0 ∧ (o = 0x48 ∨ o = HDR_COMMIT)) →
      o ∉ [HDR_EVT, HDR_EVT_EN, HDR_PAGE_CTL] →
      ∃ u, exec (.sidebandAccess (c * 0x100000 + i * 0x1000 + o) (some v) true) s = .next u ∧ denied u (c * 0x100000 + i * 0x1000 + o))

/-- TAKE copies every captured register at once and holds the copy, with its time and count, and starts the high-water marks again;
RELEASE lets it go; an automatic snapshot holds no copy. Records go to the host's ring in order, while it has room. FL_DATA clears bits of
the flash and ERASE sets a sector's, outside the running copy and the certificates. Through the SYU page an object is written, added to
and read (R260, R658, R666, R668).
Choices of the model: log 112, 115, 116. -/
def Obligations.SnapshotsRecordsAndFlash : Prop :=
  ∀ (s : State) (p : Nat) (v : Word), responds s 4 = true → pageOpen s p 0 0 →
    let a := (rg s SYS_FL_ADDR 0 0).toNat
    let o := fld (rg s SYU_OBJ_SEL 0 0) 13 0
    let fl (u : State) (k : Nat) : Byte := mget 0xFF u.mem.flash k
    let snapped (u : State) : Prop := u.pg.snapAt = s.tmu.ticks ∧ rg u SYS_SNAP_TIME_NS 0 0 = timeNsW s ∧ rg u SYS_SNAP_TIME_S 0 0 = timeSW s ∧
      fld (rg u SYS_SNAP_STAT 0 0) 15 0 = (fld (rg s SYS_SNAP_STAT 0 0) 15 0 + 1) % 65536 ∧ u.sync.high = s.sync.waits.length ∧
      (s.sync.hold = false → u.sync.wg.length = s.sync.waits.length) ∧ u.sync.objs = s.sync.objs ∧ u.cl = s.cl ∧ u.disp = s.disp
    (fwWaits s = false → (∀ e ∈ s.mem.buckets, e.1 < 65536) → (∀ e ∈ s.pod.pods, e.1 < 65536) → ∃ u t, exec (.take p) s = .next u ∧
      u.pg.snap = some t ∧ snapped u ∧
      ∀ c i, c < 31 → i < 256 → tget regReset t (rkey (c * 4096 + HDR_EVT_COUNT) i 0) = rg s (c * 4096 + HDR_EVT_COUNT) i 0) ∧
    (fwWaits s = true → ∃ u, exec (.take p) s = .next u ∧ u = { s with pg := u.pg } ∧ OneReg s u SYS_SNAPSHOT 0 0 1) ∧
    exec (.release p) s = .next { s with pg := { s.pg with snap := none } } ∧
    (∀ ms, ms = fld (rg s SYS_SNAP_PERIOD 0 0) 15 0 → ready s = true → s.pg.snap = none → fwWaits s = false →
      (ms ≠ 0 → passed s s.pg.snapAt (ms * 1000000) = true → ∃ u, exec .automaticSnapshot s = .next u ∧ u.pg.snap = none ∧ snapped u) ∧
      (ms = 0 ∨ passed s s.pg.snapAt (ms * 1000000) = false → exec .automaticSnapshot s = .next s)) ∧
    (ready s = true → fwWaits s = false →
      (s.pg.ering = [] ∨ errRoom s = false → exec .errRingCopy s = .next s) ∧
      ∀ r, s.pg.ering = [r] → errRoom s = true → s.pg.dropped = 0 →
        let t := (rg s SYS_ERR_TAIL 0 0).toNat
        ∃ u, exec .errRingCopy s = .next u ∧ u = { s with pg := u.pg, mem := { s.mem with host := u.mem.host } } ∧ u.pg.ering = [] ∧
          (rg u SYS_ERR_TAIL 0 0).toNat = (t + 1) % errSize s ∧
          hostRead u (addr64 (rg s SYS_ERR_BASE_LO 0 0) (rg s SYS_ERR_BASE_HI 0 0) + t % errSize s * 32) 32 =
            wordsLe [r.hdr, r.w1, r.w2, r.w3, r.w4, r.w5, r.timeS, r.timeNs]) ∧
    (∃ u, exec (.errHead p v) s = .next u ∧ u = { s with pg := u.pg } ∧ OneReg s u SYS_ERR_HEAD 0 0 v) ∧
    (∃ u, exec (.flData p v) s = .next u ∧ u = { s with pg := u.pg, mem := { s.mem with flash := u.mem.flash } } ∧
      rg u SYS_FL_ADDR 0 0 = w32 (a + 4) ∧ bit (rg u SYS_FL_STAT 0 0) 30 = flashShut s a 4 ∧
      ∀ k, fl u k = if flashShut s a 4 = false ∧ a ≤ k ∧ k < a + 4 then fl s k &&& (v >>> (8 * (k - a))).setWidth 8 else fl s k) ∧
    (∀ b, b = a / 65536 * 65536 → ∃ u, exec (.erase p) s = .next u ∧ u = { s with pg := u.pg, mem := { s.mem with flash := u.mem.flash } } ∧
      bit (rg u SYS_FL_STAT 0 0) 30 = flashShut s b 65536 ∧
      ∀ k, fl u k = if flashShut s b 65536 = false ∧ b ≤ k ∧ k < b + 65536 then 0xFF else fl s k) ∧
    (p = 0 → s.sync.waits = [] → noSaff s o →
      ∀ e ∈ [(Instr.objWrite p v, v), (.objAdd p v, satAdd (objVal s o) v.toNat)],
        ∃ u, exec e.1 s = .next (reconsider u) ∧ u = { s with sync := u.sync, pg := u.pg, out := u.out } ∧ objVal u o = e.2 ∧
          ∀ k, k ≠ o → objVal u k = objVal s k) ∧
    (p = 0 → exec (.objVal p) s = .next { s with out := .reply (objVal s o) :: s.out })

/-! ### The host interface (06, 17, 24) -/

/-- Partition `p`'s only descriptor is `d`, of type `t`. -/
def Sys2Proof.hasDesc (s : State) (p t : Nat) (d : List Word) : Prop := tgetD [] s.host.picked p = [d] ∧ dtype d = t
/-- A record of words `ws` went to ring `r` of partition `p`: behind the staged ones, or into the ring at its tail with the PHASE of this
pass (R532, R535). -/
def Sys2Proof.posted (s u : State) (p r : Nat) (ws : List Word) : Prop :=
  let x := ring s p r
  let waits := (staged s p).any (fun e => decide (e.1 = r)) || !ringRoom s p r
  (waits = true → staged u p = staged s p ++ [(r, ws)]) ∧
  (waits = false → staged u p = staged s p ∧ (ring u p r).tail = (x.tail + 1) % (ringCfg s p r).2.1 ∧
    (addr64 (rg s HIF_STAT_ADDR_LO p 0) (rg s HIF_STAT_ADDR_HI p 0) = 0 →
      hostRead u (addr64 (rg s HIF_CQ_BASE_LO p r) (rg s HIF_CQ_BASE_HI p r) + x.tail * 32) 32 =
        wordsLe (lset ws 0 (setFld (wd ws 0) 0 0 (b2n x.phase)))))
/-- `u` is `v` but for the host interface, host memory and what went out. -/
def Sys2Proof.butHost (v u : State) : Prop := u = { v with host := u.host, mem := { v.mem with host := u.mem.host }, out := u.out }
/-- From `v`, the descriptor has been answered by a command record of status `st`, and is gone. -/
def Sys2Proof.answered (v u : State) (p : Nat) (d : List Word) (st : Nat) (d1 d2 : Word) : Prop :=
  butHost v u ∧ tgetD [] u.host.picked p = [] ∧ posted v u p (dring d) (mkRec v 3 st 0 (wd d 1) (wd d 2) 0 d1 d2 (dseq d))

/-- A descriptor with a reserved field that is not zero is MALFORMED and does nothing else. A template change waits for a slot boundary of
its timer, and is applied there. IMAGE_REG answers with the status of R177's checks; when it is 0 the image becomes the slot's one
current generation. IMAGE_REL retires it; a generation goes when no job refers to it. UNIT_QUERY writes the record of R24. RXBUF posts a
buffer, which takes the message that waits. EXC_TX queues its frame (R177, R181, R183, R525, R526, R530, R531, R535, R539).
Choices of the model: log 104, 105. -/
def Obligations.HostDescriptorsAreAnswered : Prop :=
  ∀ (s : State) (p : Nat) (d : List Word), p < 32 →
    let kept (g : Gen) : Prop := g.current = true ∨ genUsed s g = true
    let i := fld (wd d 3) 31 24
    (dtypeOk d = false → ∀ e ∈ [(Instr.tplReg p, 2), (.tplDel p, 3), (.imageReg p, 0x10), (.imageRel p, 0x11), (.rxbuf p, 0x31)],
      hasDesc s p e.2 d → ∃ v u, exec e.1 s = .next u ∧ v = { s with pg := v.pg, out := v.out } ∧ evtBit v 7 p 0 = true ∧
        answered v u p d 0x20 0 0) ∧
    (hasDesc s p 2 d → tplOk d = true → ∃ v u, exec (.tplReg p) s = .next u ∧ answered v u p d 0 0 0 ∧
      v = { s with disp := { s.disp with tplTodo := v.disp.tplTodo } } ∧
      ∀ q, q ∈ v.disp.tplTodo ↔ q = ⟨p, i, some ⟨d⟩, tplSlot s p d⟩ ∨ q ∈ s.disp.tplTodo ∧ (q.part, q.idx) ≠ (p, i)) ∧
    (hasDesc s p 3 d → dtypeOk d = true → (wd d 3).toNat < 256 → zeroWords d 4 30 = true → ∃ v u, exec (.tplDel p) s = .next u ∧
      answered v u p d 0 0 0 ∧ v = { s with disp := { s.disp with tplTodo := v.disp.tplTodo } } ∧
      (∀ q, (q.part, q.idx) ≠ (p, (wd d 3).toNat) → (q ∈ v.disp.tplTodo ↔ q ∈ s.disp.tplTodo)) ∧
      (∃ q ∈ v.disp.tplTodo, (q.part, q.idx) = (p, (wd d 3).toNat)) ∧
      ∀ q ∈ v.disp.tplTodo, (q.part, q.idx) = (p, (wd d 3).toNat) → q.body = none) ∧
    (∀ q b, s.disp.tplTodo = [q] → q.body = some b →
      (tplSlot s q.part b.words ≠ q.since → (commitTpls s).disp.tplTodo = [] ∧ tplOf (commitTpls s) q.part q.idx = some b) ∧
      (tplSlot s q.part b.words = q.since → commitTpls s = s)) ∧
    (∀ slot off n st, hasDesc s p 0x10 d → dtypeOk d = true → (wd d 5).toNat < 256 → tailZero s p d 7 = true → slot = (wd d 3).toNat →
      off = addr64 (wd d 4) (wd d 5) → n = (wd d 6).toNat → st = apfStatus s p slot off n →
      ∃ v u, exec (.imageReg p) s = .next u ∧ answered v u p d st 0 0 ∧ v = { s with img := v.img, sec := v.sec } ∧ (st ≠ 0 → v = s) ∧
        (∀ g, (g.part, g.slot) ≠ (p, slot) → kept g → (g ∈ v.img.gens ↔ g ∈ s.img.gens)) ∧
        ∀ r k, st = 0 → partRegion s p = some r → k = (tgetD 0 s.img.genNo (p * 64 + slot) + 1) % 2 ^ 32 →
          tgetD 0 v.img.genNo (p * 64 + slot) = k ∧ (∃ g ∈ v.img.gens, g.current = true ∧ (g.part, g.slot, g.gen) = (p, slot, k)) ∧
          ∀ g ∈ v.img.gens, g.current = true → (g.part, g.slot) = (p, slot) → g.gen = k ∧ g.base = r.1 + off ∧ g.len = n) ∧
    (∀ slot, hasDesc s p 0x11 d → dtypeOk d = true → slot = (wd d 3).toNat → slot < 64 → tailZero s p d 4 = true →
      ((∃ g ∈ s.img.gens, (g.part, g.slot, g.current) = (p, slot, true)) → ∃ v u, exec (.imageRel p) s = .next u ∧ answered v u p d 0 0 0 ∧
        v = { s with img := { s.img with gens := v.img.gens } } ∧
        (∀ g, (g.part, g.slot) ≠ (p, slot) → kept g → (g ∈ v.img.gens ↔ g ∈ s.img.gens)) ∧
        ∀ g ∈ v.img.gens, (g.part, g.slot) = (p, slot) → g.current = false ∧ genUsed s g = true) ∧
      ((∀ g ∈ s.img.gens, (g.part, g.slot, g.current) ≠ (p, slot, true)) → ∃ u, exec (.imageRel p) s = .next u ∧ answered s u p d 1 0 0)) ∧
    (∀ l n, hasDesc s p 0x12 d → dtypeOk d = true → tailZero s p d 6 = true → mayWriteHost s p = true → l = fld (wd d 3) 31 29 → n = fld (wd d 3) 15 0 →
      (wd d 3 = handle s l n → unitExists s l n = true → ∃ u, exec (.unitQuery p) s = .next u ∧
        answered (hostWrite s (addr64 (wd d 4) (wd d 5)) (wordsLe (capRecord s p l n))) u p d 0 0 0) ∧
      (wd d 3 ≠ handle s l n ∨ unitExists s l n = false → ∃ u, exec (.unitQuery p) s = .next u ∧ answered s u p d 1 0 0)) ∧
    (∀ a, hasDesc s p 0x31 d → dtypeOk d = true → fld (wd d 3) 11 0 = 0 → zeroWords d 5 30 = true → a = addr64 (wd d 3) (wd d 4) →
      (tgetD [] s.host.rxWait p = [] → ∃ u, exec (.rxbuf p) s = .next u ∧ u = { s with host := u.host } ∧ tgetD [] u.host.picked p = [] ∧
        u.host.rings = s.host.rings ∧ tgetD [] u.host.rxbufs p = tgetD [] s.host.rxbufs p ++ [(a, wd d 1, wd d 2, dring d)]) ∧
      ∀ m, tgetD [] s.host.rxWait p = [(m, none)] → tgetD [] s.host.rxbufs p = [] → m ≠ [] → m.length ≤ rxSize s p → mayWriteHost s p = true →
        ∃ u, exec (.rxbuf p) s = .next u ∧ butHost s u ∧ tgetD [] u.host.rxWait p = [] ∧ tgetD [] u.host.rxbufs p = [] ∧
          posted (hostWrite s a m) u p (dring d) (mkRec s 4 0 2 (wd d 1) (wd d 2) 0 (w32 a) (w32 (a / 2 ^ 32)) 0)) ∧
    (∀ w n, hasDesc s p 0x38 d → dtypeOk d = true → mayWriteHost s p = true → w = wd d 5 → n = (wd d 6).toNat → 1 ≤ n → n ≤ 9600 → fld w 30 20 = 0 →
      zeroWords d 7 30 = true →
      (portUp s (fld w 19 16) = true → ∃ u, exec (.excTx p) s = .next u ∧ tgetD [] u.host.picked p = [] ∧
        u = { s with host := { s.host with picked := u.host.picked }, fh := { s.fh with txq := s.fh.txq ++
          [⟨fld w 19 16, if bit w 31 = true then some (fld w 15 0) else none, hostRead s (addr64 (wd d 3) (wd d 4)) n, some d⟩] } }) ∧
      (portUp s (fld w 19 16) = false → ∃ u, exec (.excTx p) s = .next u ∧ answered s u p d 1 0 0))

/-- A ring's message goes when CQ_TIMER has passed since its first unannounced record. CQ_HEAD frees entries, and staged records follow.
PROTO_OFFER agrees the highest version that both sides have, or raises PROTO_NONE, and is ignored once agreed. A Function Level Reset of
the PF resets its window scan and its rings and no job; of a VF it begins a FULL reset of its partition. A conventional reset keeps the
device running, and its functions write host memory again when the host lets them (R519, R521, R534, R535, R687).
Choices of the model: log 44, 106. -/
def Obligations.RingsAndFunctionsFollowTheHost : Prop :=
  ∀ (s : State) (p r fn : Nat) (v : Word) (hot on : Bool), p < 32 → r < 4 →
    let us := fld (rg s HIF_CQ_CFG p r) 15 0
    let x := ring s p r
    let best := min (fld v 7 0) 2
    (∀ t, x.first = some t → us ≠ 0 → 0 < x.since → passed s t (us * 1000) = true → ∃ u, exec (.cqTimer p r) s = .next u ∧
      u = { s with host := { s.host with rings := u.host.rings }, out := .msix (fnOf s p) r :: s.out } ∧
      ring u p r = { x with since := 0, first := none } ∧ ∀ q k, k < 4 → (q, k) ≠ (p, r) → ring u q k = ring s q k) ∧
    (x.first = none ∨ us = 0 ∨ x.since = 0 → exec (.cqTimer p r) s = .next s) ∧
    (pageOpen s p 7 p →
      (staged s p = [] → exec (.cqHead p r v) s = .next (setRg s HIF_CQ_HEAD p r v)) ∧
      (∀ ws, staged s p = [(r, ws)] → ringRoom (setRg s HIF_CQ_HEAD p r v) p r = true → ∃ u, exec (.cqHead p r v) s = .next u ∧
        butHost (setRg s HIF_CQ_HEAD p r v) u ∧ posted (setStaged (setRg s HIF_CQ_HEAD p r v) p []) u p r ws) ∧
      (bit (rg s HIF_PROTO_AGREED p 0) 31 = true → exec (.protoOffer p v) s = .next s) ∧
      (bit (rg s HIF_PROTO_AGREED p 0) 31 = false → max (fld v 15 8) 1 ≤ best → ∃ u, exec (.protoOffer p v) s = .next u ∧ u = { s with pg := u.pg } ∧
        protoVer u p = some best ∧ rg u HIF_PROTO_OFFER p 0 = v &&& 0xFFFF) ∧
      (bit (rg s HIF_PROTO_AGREED p 0) 31 = false → best < max (fld v 15 8) 1 → ∃ u, exec (.protoOffer p v) s = .next u ∧
        u = { s with pg := u.pg, out := u.out } ∧ protoVer u p = none ∧ evtBit u 7 p 3 = true)) ∧
    (∃ u, exec (.functionLevelReset 0) s = .next u ∧ u = { s with pg := { s.pg with regs := u.pg.regs }, host := { s.host with
        expect := u.host.expect, seqSeen := u.host.seqSeen, status := u.host.status, rings := u.host.rings, busMaster := u.host.busMaster } } ∧
      protoVer u 0 = none ∧ tgetD 0 u.host.expect 0 = 0 ∧ tgetD false u.host.busMaster 0 = false ∧
      (∀ k, k < 4 → ring u 0 k = {} ∧ (ringCfg u 0 k).1 = false) ∧
      (∀ q, q ≠ 0 → tgetD 0 u.host.expect q = tgetD 0 s.host.expect q ∧ tgetD false u.host.busMaster q = tgetD false s.host.busMaster q ∧
        ∀ k, k < 4 → ring u q k = ring s q k) ∧
      ∀ o j k, (∀ x ∈ [HIF_PROTO_AGREED, HIF_STAT_ADDR_LO, HIF_STAT_ADDR_HI, HIF_CQ_CFG], ∀ l, rkey o j k ≠ rkey x 0 l) → rg u o j k = rg s o j k) ∧
    (fn ≠ 0 → fnPart s fn = none → ∃ u, exec (.functionLevelReset fn) s = .next u ∧ u = { s with host := { s.host with busMaster := u.host.busMaster } } ∧
      tgetD false u.host.busMaster fn = false) ∧
    (∀ q, fn ≠ 0 → fnPart s fn = some q → (∀ e ∈ s.safe.resets, e.part ≠ q) → ∃ u, exec (.functionLevelReset fn) s = .next (reconsider u) ∧
      q ∈ u.disp.resetting ∧ (∃ e ∈ u.safe.resets, e.part = q ∧ e.full = true ∧ e.since = s.tmu.ticks) ∧ tgetD 0 u.host.expect q = 0 ∧
      protoVer u q = none) ∧
    (∀ q, fn ≠ 0 → fnPart s fn = some q → (∃ e ∈ s.safe.resets, e.part = q) → ∃ u, exec (.functionLevelReset fn) s = .next u ∧
      (∃ e ∈ u.safe.resets, e.part = q ∧ e.full = true) ∧ tgetD 0 u.host.expect q = 0 ∧ protoVer u q = none) ∧
    (∃ u, exec (.pcieConventionalReset hot) s = .next u ∧ u = { s with host := { s.host with busMaster := [] } } ∧ ∀ q, mayWriteHost u q = false) ∧
    (s.host.linkUp = false ∨ 32 ≤ fn → exec (.configurationRequest fn on) s = .next s) ∧
    (s.host.linkUp = true → fn < 32 → (∀ q, staged s q = [] ∧ tgetD [] s.host.rxWait q = []) → ∃ u, exec (.configurationRequest fn on) s = .next u ∧
      u = { s with host := { s.host with busMaster := u.host.busMaster } } ∧ tgetD false u.host.busMaster fn = on ∧
      ∀ k, k ≠ fn → tgetD false u.host.busMaster k = tgetD false s.host.busMaster k)

/-! ### The context store (14) -/

/-- A byte of context `i`. -/
def Sys2Proof.ctxByte (s : State) (i b : Nat) : Byte := mget 0 s.mem.ext (ctxAddr s i b)
/-- Two states agree on external memory outside context `i`. -/
def Sys2Proof.sameOutside (s v : State) (i : Nat) : Prop :=
  ∀ a, a < ctxAddr s i 0 ∨ ctxAddr s i 65536 ≤ a → mget 0 v.mem.ext a = mget 0 s.mem.ext a
/-- Word of code block `k` of HARQ process `h` of context `i` (R438). -/
def Sys2Proof.entryAt (s : State) (i h k : Nat) : Word := ctxWord s i (0x100 + h * 640 + 0x20 + 4 * k)
/-- The processes of `hs` of context `i` hold no entry any more, and partition `q`'s pool has got back theirs; every other byte of the
context but their NENT is as it was, from offset `lo` on. -/
def Sys2Proof.entriesGone (s v : State) (i q lo : Nat) (hs : Nat → Prop) : Prop :=
  (∀ h k, h < 16 → k < 152 → hs h → entryAt v i h k = 0) ∧
    (∀ e, e ∈ hqUsed v q ↔ e ∈ hqUsed s q ∧ ∀ h k, h < 16 → k < 152 → hs h → ¬ (bit (entryAt s i h k) 31 = true ∧ fld (entryAt s i h k) 19 0 = e)) ∧
    (∀ r, r ≠ q → hqUsed v r = hqUsed s r) ∧
    ∀ b, lo ≤ b → b < 65536 → (∀ h, h < 16 → hs h → b ≠ 0x100 + h * 640 ∧ (b < 0x120 + h * 640 ∨ 0x380 + h * 640 ≤ b)) → ctxByte v i b = ctxByte s i b

/-- The host's context commands act on contexts of blocks that their partition owns: CREATE makes a FREE context ACTIVE with every other
byte zero, RELEASE frees one and its HARQ entries, READ copies one to host memory, HARQ_REL releases the entries of processes; CREATE of
a context that is not FREE and the others of a FREE one are refused; a context of another's block is denied and logged. An update block
is applied whole, SEQ going up by 2, or discarded and counted, or skipped. The sweep acts on what is over-age, every 256 ticks (R422,
R435, R440, R441, R443 to R446).
Choices of the model: log 103, 134. -/
def Obligations.ContextsFollowTheirCommands : Prop :=
  ∀ (s : State) (p : Nat) (d : List Word), p < 32 → s.mem.ue = [] →
    let i := fld (wd d 3) 17 0
    let good (t a b : Nat) : Prop := hasDesc s p t d ∧ indexOk d = true ∧ zeroWords d a b = true
    let mine : Prop := ctxOwner s i = some p
    let stored (v : State) : Prop := v = { s with mem := { s.mem with ext := v.mem.ext }, cxs := v.cxs, pg := v.pg, radio := v.radio } ∧
      v.radio = { s.radio with harq := v.radio.harq } ∧ sameOutside s v i
    let refused (c : Instr) : Prop := ∃ u, exec c s = .next u ∧ answered s u p d 3 0 0
    let denied (c : Instr) : Prop := ∃ v u, exec c s = .next u ∧ answered v u p d 3 0 0 ∧ v = { s with pg := v.pg, safe := v.safe, out := v.out } ∧
      evtBit v 8 0 3 = true ∧ recorded s v (fun q => q.hdr = recHdr 0x15 5 0 p ∧ q.w2 = w32 i)
    (∀ cell ue m, good 0x20 7 30 → cell = (wd d 4).toNat → ue = (wd d 5).toNat → m = (wd d 6).toNat → cell < 96 → ue < 65536 → m < 65536 →
      1 ≤ m / 256 → 1 ≤ m % 256 → m % 256 ≤ 64 →
      (¬ mine → denied (.ctxCreate p)) ∧ (mine → ctxState s i ≠ 0 → refused (.ctxCreate p)) ∧
      (mine → ctxState s i = 0 → ∃ v u, exec (.ctxCreate p) s = .next u ∧ answered v u p d 0 0 0 ∧ stored v ∧ v.radio = s.radio ∧
        ctxWord v i 4 = w32 (2 ^ 30 + p * 2 ^ 25 + cell * 2 ^ 18 + i) ∧ ctxWord v i 8 = ctxWord s i 8 + 1 ∧ ctxWord v i 0xC = w32 ue ∧
        ctxWord v i 0x10 = ageNow s ∧ ctxWord v i 0x5900 = w32 (m / 256 * 2 ^ 24 + m % 256 * 2 ^ 16) ∧
        (∀ b, b < 65536 → b < 4 ∨ 0x14 ≤ b → b < 0x5900 ∨ 0x5904 ≤ b → ctxByte v i b = 0) ∧
        tgetD 0 v.cxs.active p = tgetD 0 s.cxs.active p + 1)) ∧
    (∀ q, good 0x21 4 30 → q = fld (ctxWord s i 4) 29 25 →
      (¬ mine → denied (.ctxRelease p)) ∧ (mine → ctxState s i = 0 → refused (.ctxRelease p)) ∧
      (mine → ctxState s i ≠ 0 → ∃ v u, exec (.ctxRelease p) s = .next u ∧ answered v u p d 0 0 0 ∧ stored v ∧ ctxState v i = 0 ∧
        entriesGone s v i q 8 (fun _ => True) ∧ tgetD 0 v.cxs.active q = tgetD 0 s.cxs.active q - 1)) ∧
    (∀ off n, good 0x22 7 30 → mayWriteHost s p = true → off = fld (wd d 4) 31 16 * 64 → n = fld (wd d 4) 15 0 * 64 → n ≠ 0 → off + n ≤ 65536 →
      (¬ mine → denied (.ctxRead p)) ∧ (mine → ctxState s i = 0 → refused (.ctxRead p)) ∧
      (mine → ctxState s i ≠ 0 → ∃ v u, exec (.ctxRead p) s = .next u ∧ v = { s with cxs := v.cxs, pg := v.pg } ∧
        answered (hostWrite v (addr64 (wd d 5) (wd d 6)) (ctxBytes s i off n)) u p d 0 0 0)) ∧
    (good 0x23 5 30 → (wd d 4).toNat < 65536 →
      (¬ mine → denied (.harqRel p)) ∧ (mine → ctxState s i = 0 → refused (.harqRel p)) ∧
      (mine → ctxState s i ≠ 0 → ∃ v u, exec (.harqRel p) s = .next u ∧ answered v u p d 0 0 0 ∧ stored v ∧
        entriesGone s v i p 0 (fun h => bit (wd d 4) h = true))) ∧
    (∀ e q c, s.trace.run = none → (engOf s e).q.find? (fun q => !isPod q.ins.words && decide (q.dst.1 = 0xB) && allStarted q && !q.skipped && !q.acted) = some q →
      slotFree s q.lastRun = true → c = q.dst.2 / 65536 → ctxReading s c = false →
      let b := updBlock q
      let g := updSegs b
      let acted (v : State) : Prop := engOf v e = { engOf s e with q := stepped (engOf s e).q q (fun x => { x with acted := true, staged := [] }) }
      (updOk q.ins.words b = false → ∃ u, exec (.contextUpdate e) s = .next u ∧ u.mem = s.mem ∧ u.cxs = s.cxs ∧ bit (engReg u e HDR_EVT) 0 = true ∧
        ∀ y, job? s q.ins.job = some y → skipLogged s u y 0x1D 3 (engUnit s e) q.ins.off) ∧
      (updOk q.ins.words b = true → updStale s c b = true → ∃ u, exec (.contextUpdate e) s = .next u ∧ acted u ∧
        u = { s with eng := u.eng, pg := u.pg, out := u.out } ∧ evtBit u 6 0 1 = true ∧
        rg u CXS_PRED_STALE 0 (fld (ctxWord s c 4) 24 18) = satAdd (rg s CXS_PRED_STALE 0 (fld (ctxWord s c 4) 24 18)) 1) ∧
      (updOk q.ins.words b = true → updStale s c b = false → ∃ u, exec (.contextUpdate e) s = .next u ∧ acted u ∧
        u = { s with eng := u.eng, cxs := u.cxs, mem := { s.mem with ext := u.mem.ext }, pg := u.pg } ∧ sameOutside s u c ∧
        ctxWord u c 0 = ctxWord s c 0 + 2 ∧ ctxWord u c 8 = ctxWord s c 8 ∧ ctxState u c = 1 ∧ ctxWord u c 0x10 = ageNow s ∧
        (∀ k x, g[k]? = some x → ∀ n, n < x.2 → ctxByte u c (x.1 + n) = mget 0 q.staged (128 + ((g.take k).map (fun z => z.2)).sum + n)) ∧
        ∀ n, 0x14 ≤ n → n < 65536 → (∀ x ∈ g, n < x.1 ∨ x.1 + x.2 ≤ n) → ctxByte u c n = ctxByte s c n)) ∧
    ((frameCnt s + 2 ^ 32 - s.cxs.swept) % 2 ^ 32 < 256 → exec .ageSweep s = .next s) ∧
    (∀ c w, 256 ≤ (frameCnt s + 2 ^ 32 - s.cxs.swept) % 2 ^ 32 → liveCtxs s = [c] → w = rg s CXS_PART_CTX 0 (fld (ctxWord s c 4) 29 25) →
      let late : Prop := ctxState s c = 1 ∧ fld w 23 0 ≠ 0 ∧ fld w 23 0 < (ageNow s - ctxWord s c 0x10).toNat
      ∃ u, exec .ageSweep s = .next u ∧ u.cxs.swept = frameCnt s ∧ sameOutside s u c ∧
        (¬ late → u = { s with cxs := u.cxs } ∧ u.cxs = { s.cxs with swept := frameCnt s }) ∧
        (late → ctxState u c = (if bit w 31 then 0 else 2) ∧ (rg u CXS_AGED_IDX 0 0).toNat = 2 ^ 31 + c % 2 ^ 31 ∧ evtBit u 6 0 2 = true ∧
          ctxWord u c 8 = ctxWord s c 8 ∧ ctxWord u c 0x10 = ctxWord s c 0x10 ∧ (bit w 31 = true → entriesGone s u c (fld (ctxWord s c 4) 29 25) 8 (fun _ => True))))

/-! ### Fronthaul (15, 16) -/

/-- Counter `r` of association `a` has gone up by `n`. -/
def Sys2Proof.counted (s u : State) (r a n : Nat) : Prop := rg u r 0 a = satAdd (rg s r 0 a) n
/-- The frames among what went out. -/
def Sys2Proof.framesOut (s : State) : List Output := s.out.filter (fun o => match o with | .frame .. => true | _ => false)

/-- A frame that R458 does not accept is dropped and counted; a message of no type that is handled, a frame of no association and one that
finds no buffers each in its counter. A U-plane frame is judged by its corrected stamp: before its window RX_EARLY, after it, or after
stage 2 has begun, RX_LATE, inside it RX_ON_TIME, and its section is held. A frame or section that R467 names is corrupt. Stage 2 writes
the sound PRBs announced and erases the others, once (R458, R460, R464 to R468, R472).
Choices of the model: log 81, 82. -/
def Obligations.FramesAreJudgedByTheirStamp : Prop :=
  ∀ (s : State) (i : Nat) (f : RxFrame), i < 16 → s.trace.run = none →
    let t := rxStamp s i f.rawNs
    let lost (u : State) (r n a : Nat) : Prop := u = { s with pg := u.pg, out := u.out, fh := { s.fh with rxSeq := u.fh.rxSeq } } ∧
      counted s u r a n ∧ evtBit u 9 i 1 = true
    (portUp s i = false → exec (.frameReceive i f) s = .next s) ∧
    (portUp s i = true → frameOk s i f = false → exec (.frameReceive i f) s = .next (satRg s FHP_RX_DROP i 0 1)) ∧
    (portUp s i = true → frameOk s i f = true → f.etype = 0x88F7 → f.bytes ≠ [] → tgetD [] s.host.rxbufs 0 = [] →
      ∃ u, exec (.frameReceive i f) s = .next u ∧ u = { s with host := { s.host with rxWait := u.host.rxWait } } ∧
        tgetD [] u.host.rxWait 0 = tgetD [] s.host.rxWait 0 ++ [(f.bytes, some (i, BitVec.ofInt 32 t))]) ∧
    (∀ e, portUp s i = true → frameOk s i f = true → f.etype = 0xAEFE → f.ecpri = some e →
      (e.msgType ≠ 0 → e.msgType ≠ 5 → exec (.frameReceive i f) s = .next (satRg s FHP_UNK_MSG i 0 1)) ∧
      (e.msgType = 5 → ∃ x, exec (.frameReceive i f) s = .next { s with fh := { s.fh with txq := s.fh.txq ++ [x] } } ∧ x.port = i) ∧
      (e.msgType = 0 → fbFree s i < ceilDiv f.len 2048 → ∃ u, exec (.frameReceive i f) s = .next u ∧ u = { s with pg := u.pg, out := u.out } ∧
        rg u FHP_NO_BUF i 0 = satAdd (rg s FHP_NO_BUF i 0) 1 ∧ evtBit u 9 i 1 = true) ∧
      (e.msgType = 0 → ceilDiv f.len 2048 ≤ fbFree s i → assocOf s i f e = none → exec (.frameReceive i f) s = .next (satRg s FHP_NO_ASSOC i 0 1)) ∧
      ∀ a, e.msgType = 0 → ceilDiv f.len 2048 ≤ fbFree s i → assocOf s i f e = some a →
        let w := rxWindow s a e.slot (windowSym s a e)
        let bad : Prop := headerBad e = true ∨ streamBad s a e = true
        let begun : Prop := e.filterIndex = 0 ∧ (a, e.slot, e.sym) ∈ s.fh.begun
        (bad → ∃ u, exec (.frameReceive i f) s = .next u ∧ lost u FHP_RX_CORRUPT e.sections.length a) ∧
        (¬ bad → t < w.1 → ∃ u, exec (.frameReceive i f) s = .next u ∧ lost u FHP_RX_EARLY 1 a) ∧
        (¬ bad → w.1 ≤ t → w.2 < t ∨ begun → ∃ u, exec (.frameReceive i f) s = .next u ∧ lost u FHP_RX_LATE 1 a) ∧
        (¬ bad → w.1 ≤ t → t ≤ w.2 → ¬ begun → (ulOf s (aCell s a) e.slot = none → ∃ u, exec (.frameReceive i f) s = .next u ∧
            u = { s with pg := u.pg, fh := { s.fh with rxSeq := u.fh.rxSeq } } ∧ counted s u FHP_RX_ON_TIME a 1) ∧
          ∀ x y, ulOf s (aCell s a) e.slot ≠ none → e.sections = [x] →
            y = (⟨a, (aAnts s a).1 + ruPort s a e.eaxc, e.slot, e.sym, x.sectionId, x.startPrb, x.numPrb, sectionBad s a e x, (aUl s a).1, (aUl s a).2, x.payload⟩ : RxSect) →
            ∃ u, exec (.frameReceive i f) s = .next u ∧ u = { s with pg := u.pg, out := u.out, fh := u.fh } ∧ counted s u FHP_RX_ON_TIME a 1 ∧
              u.fh = { s.fh with rxSeq := u.fh.rxSeq, bufs := s.fh.bufs ++ [⟨i, ceilDiv f.len 2048, false, (a, e.slot, e.sym)⟩],
                                 sects := if e.filterIndex = 0 then s.fh.sects ++ [y] else s.fh.sects,
                                 prach := if e.filterIndex = 0 then s.fh.prach else s.fh.prach ++ [y] } ∧
              (y.bad = true → counted s u FHP_RX_CORRUPT a 1 ∧ evtBit u 9 i 1 = true) ∧ (y.bad = false → u.out = s.out) ∧
              (e.filterIndex = 0 → counted s u FHP_RX_DUP a (dupPrbs s y)))) ∧
    (∀ a n sym, aServes s a = true → (a, n, sym) ∉ s.fh.begun → ulOf s (aCell s a) n ≠ none →
      (stageTwoDue s a n sym = false → exec (.decompress a n sym) s = .next s) ∧
      (stageTwoDue s a n sym = true → (∀ q ∈ s.fh.sects, q.meth ≤ 1) → ∃ u, exec (.decompress a n sym) s = .next u ∧
        u = { s with pg := u.pg, fh := { s.fh with grids := u.fh.grids, begun := u.fh.begun, sects := u.fh.sects, bufs := u.fh.bufs } } ∧
        u.fh.begun = s.fh.begun ++ [(a, n, sym)] ∧ (∀ b ∈ u.fh.bufs, b.tx = true ∨ b.key ≠ (a, n, sym)) ∧
        (∀ q, q ∈ u.fh.sects ↔ q ∈ s.fh.sects ∧ (q.assoc, q.slot, q.sym) ≠ (a, n, sym)) ∧
        (∀ ant ∈ rxStreams s a, ∃ g, gridOf u (aCell s a) n sym ant = some g ∧ ∀ prb ∈ wanted s a n sym,
          (broughtBy s a n sym ant prb = none → prb ∈ g.erased) ∧ ∀ x, broughtBy s a n sym ant prb = some x →
            (x.bad = true → prb ∈ g.erased) ∧ (x.bad = false → prb ∉ g.erased ∧ ∀ k, k < 12 → tgetD (0, 0) g.vals (prb * 12 + k) =
              (expandPrb x.meth x.width ((x.payload.drop ((prb - x.prb0) * prbBytes x.meth x.width)).take (prbBytes x.meth x.width))).1.getD k (0, 0))) ∧
        ∀ c' n' sym' ant', (c', n', sym') ≠ (aCell s a, n, sym) ∨ ant' ∉ rxStreams s a → gridOf u c' n' sym' ant' = gridOf s c' n' sym' ant'))

/-- The C-plane of a symbol goes out on every stream, each with its own sequence number, and what it announces for the uplink is what
sections are compared with. Compression takes buffers of the port's quota, with the smallest exponent at which every component fits. The
U-plane of a stream goes out whole inside its interval and gives its buffers back, or is given up at UP_ADV_MIN, TX_LATE counting. A frame
leaves its port in turn, its stamp entering the queue of 64 and its record following (R460, R463, R470 to R472, R491, R501, R533).
Choices of the model: log 83. -/
def Obligations.FronthaulSendsWholeSymbols : Prop :=
  ∀ (s : State) (a ant n sym i raw : Nat), i < 16 →
    let c := aCell s a
    let port := aPort s a
    let st := symEdge s c n sym
    let now : Int := nowNs s
    let amin : Nat := (aReg s FHP_UP_ADV_MIN a).toNat
    let amax : Nat := (aReg s FHP_UP_ADV_MAX a).toNat
    let eaxc (r : Nat) : Nat := fld (aReg s FHP_ASSOC_EAXC a) 31 16 / 2 ^ portBits s a * 2 ^ portBits s a + r
    let out (u : State) (r kind plane : Nat) (body : List Byte) : Prop :=
      let k := (a * 65536 + eaxc r) * 2 + plane
      .frame port kind (natLe 2 (eaxc r) ++ natLe 1 (tgetD 0 s.fh.txSeq k) ++ body) ∈ u.out ∧ tgetD 0 u.fh.txSeq k = (tgetD 0 s.fh.txSeq k + 1) % 256
    (∀ dl l adv, adv = (aReg s (if dl then FHP_CP_ADV_DL else FHP_CP_ADV_UL) a).toNat →
      (now + (adv : Nat) < st → exec (.cplaneSend a dl n sym l) s = .next s) ∧
      (st ≤ now + (adv : Nat) → aEn s a = true → portUp s port = true → (dl = true → dlOf s c n ≠ none) →
        ∃ u, exec (.cplaneSend a dl n sym l) s = .next u ∧
          u = { s with out := u.out, fh := { s.fh with txSeq := u.fh.txSeq, cplane := s.fh.cplane ++ if dl then [] else l.map (fun q => ⟨a, n, sym, q.1, q.2.1, q.2.2⟩) } } ∧
          u.out.length = s.out.length + ruPorts s a dl ∧
          ∀ r, r < ruPorts s a dl → out u r 2 1 (natLe 4 n ++ natLe 1 sym ++ l.flatMap (fun q => natLe 2 q.1 ++ natLe 2 q.2.1 ++ natLe 2 q.2.2)))) ∧
    (∀ w l, 8 ≤ w → (∀ x ∈ l, -32768 ≤ x ∧ x ≤ 32767) → (∀ x ∈ l, outS w (rdivS x (2 ^ bfpExp w l)) = false) ∧
      ∀ e, e < bfpExp w l → ∃ x ∈ l, outS w (rdivS x (2 ^ e)) = true) ∧
    (∀ prbs bytes, bytes = prbs.flatMap (compressPrb (aDl s a).1 (aDl s a).2) → aEn s a = true → dlOf s c n ≠ none → txReady s a ant n sym = none →
      (fbFree s port < ceilDiv bytes.length 2048 → exec (.compression a ant n sym prbs) s = .next s) ∧
      (ceilDiv bytes.length 2048 ≤ fbFree s port → exec (.compression a ant n sym prbs) s = .next { s with fh := { s.fh with
        txSyms := s.fh.txSyms ++ [⟨a, ant, n, sym, bytes⟩], bufs := s.fh.bufs ++ [⟨port, ceilDiv bytes.length 2048, true, (a * 128 + ant, n, sym)⟩] } })) ∧
    (now + amax < st → exec (.uplaneSend a ant n sym) s = .next s) ∧
    (st ≤ now + amax → aEn s a = true → dlOf s c n ≠ none → (aAnts s a).1 ≤ ant → port < 16 → a < 64 →
      (∀ x, txReady s a ant n sym = some x → now + amin ≤ st → portUp s port = true → ∃ u, exec (.uplaneSend a ant n sym) s = .next u ∧
        u = { s with out := u.out, fh := u.fh } ∧ u.fh = { s.fh with txSeq := u.fh.txSeq, txSyms := u.fh.txSyms, bufs := u.fh.bufs } ∧
        u.fh.txSyms.length + 1 = s.fh.txSyms.length ∧ out u (ant - (aAnts s a).1) 0 0 (natLe 4 n ++ natLe 1 sym ++ x.bytes)) ∧
      (st < now + amin → ∃ u, exec (.uplaneSend a ant n sym) s = .next u ∧ framesOut u = framesOut s ∧ counted s u FHP_TX_LATE a 1 ∧
        evtBit u 9 port 0 = true ∧ u = { s with pg := u.pg, out := u.out, fh := { s.fh with txSyms := u.fh.txSyms, bufs := u.fh.bufs } }) ∧
      (txReady s a ant n sym = none → now + amin < st → exec (.uplaneSend a ant n sym) s = .next s)) ∧
    ((∀ x ∈ s.fh.txq, x.port ≠ i) → exec (.frameTransmit i raw) s = .next s) ∧
    (∀ x, portUp s i = true → s.fh.txq.find? (fun x => decide (x.port = i)) = some x →
      let w := BitVec.ofInt 32 (txStamp s i raw)
      ∃ u, exec (.frameTransmit i raw) s = .next u ∧ u.fh = { s.fh with txq := delFirst (fun x => decide (x.port = i)) s.fh.txq } ∧
        .frame i (if x.desc.isSome then 1 else 5) x.bytes ∈ u.out ∧
        (x.ts = none → u.tmu = s.tmu) ∧
        (∀ tag, x.ts = some tag → s.tmu.tsq.length < 64 → u.tmu = { s.tmu with tsq := s.tmu.tsq ++ [(i, tag % 65536, w)] }) ∧
        (∀ tag, x.ts = some tag → 64 ≤ s.tmu.tsq.length → u.tmu = s.tmu ∧ evtBit u 3 0 0 = true ∧
          rg u TMU_TSQ_DISCARD 0 0 = satAdd (rg s TMU_TSQ_DISCARD 0 0) 1) ∧
        ∀ d, x.desc = some d → posted s u 0 (dring d) (mkRec s 6 0 0 (wd d 1) (wd d 2) 0 (w32 (i * 65536 + fld (wd d 5) 15 0)) w (dseq d))) ∧
    (portExists s i = true → bit (rg s FHP_PORT_CFG i 0) 28 = true → ∃ u, exec (.linkUp i) s = .next u ∧ u = { s with fh := { s.fh with up := u.fh.up } } ∧
      tgetD false u.fh.up i = true ∧ ∀ k, k ≠ i → tgetD false u.fh.up k = tgetD false s.fh.up k) ∧
    (tgetD false s.fh.up i = false → exec (.linkDown i) s = .next s) ∧
    (tgetD false s.fh.up i = true → ∃ u, exec (.linkDown i) s = .next u ∧ u = { s with pg := u.pg, out := u.out, fh := { s.fh with up := u.fh.up } } ∧
      tgetD false u.fh.up i = false ∧ evtBit u 9 i 2 = true ∧ ∀ k, k ≠ i → tgetD false u.fh.up k = tgetD false s.fh.up k)

/-- A failed multiblock erases every stream of its lane for its symbol; a link that loses alignment is aligned again at a slot boundary of its
cell; SYSREF fixes its latency at link start, and a later edge out of place does not realign it. A receive symbol's subcarriers are
scaled by GAIN_COMP and 2^-FFT_SHIFT, rounded, saturated and counted, and erased where the link was not aligned throughout; the front end
passes the PRACH bins; a transmit symbol leaves with its prefix and, at the ends of a burst, its ramps (R475 to R477, R479, R480, R485).
Choices of the model: log 84, 86. -/
def Obligations.ConvertersCarrySymbols : Prop :=
  ∀ (s : State) (l lane n sym a lat f occ : Nat) (smp : List (Int × Int)) (first last : Bool), l < 16 → s.trace.run = none →
    let c := (linkMap s l).1
    let x := linkSt s l
    let others (u : State) : Prop := ∀ k, k ≠ l → linkSt u k = linkSt s k
    let e := ((List.range 4).find? (fun i => !decide ((28, i) ∈ s.units.engOut))).getD 0
    exec (.multiblock l lane n sym false) s = .next s ∧
    (linkEn s l = true → l < 8 → ∃ u, exec (.multiblock l lane n sym true) s = .next u ∧
      u = { s with pg := u.pg, out := u.out, fh := { s.fh with erase := u.fh.erase } } ∧ evtBit u 10 0 0 = true ∧
      counted s u JCL_CRC_ERR l 1 ∧ ∀ y, y ∈ u.fh.erase ↔ y ∈ s.fh.erase ∨ ∃ k ∈ laneAnts s l lane, y = (c, n, sym, k)) ∧
    (x.aligned = false → exec (.linkLoss l) s = .next s) ∧
    (x.aligned = true → ∃ u, exec (.linkLoss l) s = .next u ∧ u = { s with pg := u.pg, out := u.out, fh := { s.fh with links := u.fh.links } } ∧
      linkSt u l = { x with aligned := false } ∧ others u ∧ evtBit u 10 0 1 = true) ∧
    (linkEn s l = true → x.sysref = true → x.aligned = false → linkDead s l = false →
      linkSt (realign s c) l = { x with aligned := true, since := nowNs s }) ∧
    (∀ ok, (linkEn s l = false → exec (.sysrefEdge l ok lat) s = .next s) ∧
      (linkEn s l = true → x.sysref = false → ∃ u, exec (.sysrefEdge l ok lat) s = .next u ∧ u = { s with fh := { s.fh with links := u.fh.links } } ∧
        linkSt u l = { aligned := true, sysref := true, lat := lat % 16384, since := nowNs s } ∧ others u) ∧
      (linkEn s l = true → x.sysref = true → (ok = true → exec (.sysrefEdge l ok lat) s = .next s) ∧
        (ok = false → ∃ u, exec (.sysrefEdge l ok lat) s = .next u ∧ u = { s with pg := u.pg, out := u.out } ∧ evtBit u 10 0 2 = true))) ∧
    (linkEn s l = true → l < 8 → linkHas s l a = true → ffeUp s = true → ulOf s c n ≠ none →
      let q (k : Nat) : Int × Int := Config.fftBin (c, n, sym) (fftPoints s l) (fld (rg s JCL_LINK_FFT 0 l) 31 24) (smp.map (fun z => (scaleSample (gainComp s a) z.1, scaleSample (gainComp s a) z.2))) k
      let sh : Nat := 2 ^ fld (rg s JCL_LINK_FFT 0 l) 23 20
      let lost : Prop := x.aligned = false ∨ symEdge s c n sym < (x.since : Int) ∨ (c, n, sym, a) ∈ s.fh.erase
      ∃ u g, exec (.fftSymbol l a n sym smp) s = .next u ∧ u = { s with pg := u.pg, fh := { s.fh with grids := u.fh.grids, erase := u.fh.erase } } ∧
        gridOf u c n sym a = some g ∧ (∀ k, k < carrierScs s c → tgetD (0, 0) g.vals k = (clampS 16 (rdivS (q k).1 sh), clampS 16 (rdivS (q k).2 sh))) ∧
        (lost → ∀ b, b < carrierScs s c / 12 → b ∈ g.erased) ∧ (¬ lost → g.erased = [] ∧ u.fh.erase = s.fh.erase) ∧
        rg u FFE_WORK_COUNT e 0 = rg s FFE_WORK_COUNT e 0 + 1 ∧
        counted s u JCL_FFT_SAT l (((List.range (carrierScs s c)).map (fun k => b2n (outS 16 (rdivS (q k).1 sh)) + b2n (outS 16 (rdivS (q k).2 sh)))).sum) ∧
        ∀ c' n' sym' a', (c', n', sym', a') ≠ (c, n, sym, a) → gridOf u c' n' sym' a' = gridOf s c' n' sym' a') ∧
    (linkEn s l = false ∨ 8 ≤ l ∨ ffeUp s = false → exec (.fftSymbol l a n sym smp) s = .next s) ∧
    ((28, f) ∈ s.units.engOut → exec (.prachFrontEnd f c occ a smp) s = .next s) ∧
    ((28, f) ∉ s.units.engOut → ∃ u, exec (.prachFrontEnd f c occ a smp) s = .next u ∧ u = { s with fh := { s.fh with prachIn := u.fh.prachIn } } ∧
      ∀ y, y ∈ u.fh.prachIn ↔ y = (c, occ, a, Config.prachBins c occ smp) ∨ y ∈ s.fh.prachIn ∧ (y.1, y.2.1, y.2.2.1) ≠ (c, occ, a)) ∧
    (linkEn s l = true → 8 ≤ l → linkHas s l a = true → ffeUp s = true → dlOf s c n ≠ none →
      let fs := (linkShape s l).2.2
      let out := txSamples s l c n sym smp first last
      ∃ u, exec (.ifftSymbol l a n sym smp first last) s = .next u ∧ u = { s with pg := u.pg, out := .samples l a n sym out :: s.out } ∧
        rg u FFE_WORK_COUNT e 0 = rg s FFE_WORK_COUNT e 0 + 1 ∧
        out.length = (if first then rampLen fs else 0) + (cpLen s c n sym (fftPoints s l) fs + fftPoints s l) + if last then rampLen fs else 0) ∧
    rampLen 4 = 246

/-- A gain group that is free applies each decision at once, on its pins; while it is frozen decisions gather as a pending step, clamped, that
is applied at the first uplink symbol of a slot unless a PRACH freeze holds; the slot's end frees it. More than CLIP_MAX clipped samples
erase a stream for its symbol. The energy detector freezes at PDET_THR. PA_EN changes its pin (R479, R481, R482, R484, R485).
Choices of the model: log 85. -/
def Obligations.GainGroupsAndAmplifiers : Prop :=
  ∀ (s : State) (g cell power slots peak n sym : Nat), g < 32 →
    let x := agcOf s g
    let en : Prop := agcEn s g = true
    let cfg := rg s JCL_AGC_CFG 0 g
    let clamp (v : Int) : Nat := (min 15 (max 0 v)).toNat
    let only (u : State) : Prop := u = { s with fh := { s.fh with agc := u.fh.agc }, out := u.out } ∧ ∀ k, k ≠ g → agcOf u k = agcOf s k
    let pins (u : State) (new : Nat) : Prop := if new = x.gain then u.out = s.out
      else u.out = (List.range 4).reverse.map (fun i => Output.pin 1 (4 * g + i) (decide (new / 2 ^ i % 2 = 1))) ++ s.out
    let high := fld (rg s JCL_AGC_THR 0 g) 31 16
    let low := fld (rg s JCL_AGC_THR 0 g) 15 0
    let win := fld (rg s JCL_AGC_TIME 0 g) 31 16
    let ps := (x.powers ++ [power]).drop (x.powers.length + 1 - win)
    let hits := if high ≤ peak then x.hits + 1 else 0
    let attack : Prop := max 1 (fld cfg 3 0) ≤ hits
    let decay : Prop := 0 < win ∧ ps.length = win ∧ ps.sum < low * low * win ∧ (∀ k, x.sinceStep = some k → fld (rg s JCL_AGC_TIME 0 g) 15 0 ≤ k)
    (agcEn s g = false → exec (.energyDetect g cell power slots) s = .next s ∧ exec (.agcEvaluate g peak power [] n sym) s = .next s ∧
      ∀ b, exec (.agcFreeze g b) s = .next s) ∧
    (power < (rg s JCL_PDET_THR 0 g).toNat → exec (.energyDetect g cell power slots) s = .next s) ∧
    (en → (rg s JCL_PDET_THR 0 g).toNat ≤ power → ∃ u, exec (.energyDetect g cell power slots) s = .next u ∧ only u ∧ u.out = s.out ∧
      agcOf u g = { x with prach := max x.prach (max 1 slots) }) ∧
    (∀ d : Int, en → (attack → d = -1) → (¬ attack → decay → d = 1) → (¬ attack → ¬ decay → d = 0) → x.gain ≤ 15 →
      ∃ u y, exec (.agcEvaluate g peak power [] n sym) s = .next u ∧ only u ∧ agcOf u g = y ∧ y.powers = ps ∧ (attack → y.hits = 0) ∧
        (¬ attack → y.hits = hits) ∧ y.frozen = x.frozen ∧ y.prach = x.prach ∧
        (x.frozen = false → x.prach = 0 → y.gain = clamp (x.gain + d) ∧ y.pending = x.pending ∧ pins u y.gain ∧
          y.sinceStep = if y.gain = x.gain then x.sinceStep.map (· + 1) else some 0) ∧
        (x.frozen = true ∨ x.prach ≠ 0 → y.gain = x.gain ∧ u.out = s.out ∧ y.sinceStep = x.sinceStep.map (· + 1) ∧
          (d = 0 → y.pending = x.pending) ∧ (d ≠ 0 → y.pending.natAbs ≤ fld cfg 7 4 ∧ 0 ≤ x.gain + y.pending ∧ x.gain + y.pending ≤ 15 ∧
            (x.pending + d |>.natAbs) ≤ fld cfg 7 4 ∧ 0 ≤ x.gain + (x.pending + d) ∧ x.gain + (x.pending + d) ≤ 15 → y.pending = x.pending + d))) ∧
    (∀ c a k, en → (∀ e ∈ s.fh.clips, (e.1, e.2.1, e.2.2.1, e.2.2.2.1) ≠ (c, n, sym, a)) →
      ∃ u, exec (.agcEvaluate g peak power [(c, a, k)] n sym) s = .next u ∧ (agcOf u g).clipped = x.clipped + k ∧
        (k ≤ fld cfg 15 8 → u.fh.erase = s.fh.erase ∧ u.pg = s.pg) ∧
        (fld cfg 15 8 < k → evtBit u 10 0 3 = true ∧ ∀ e, e ∈ u.fh.erase ↔ e = (c, n, sym, a) ∨ e ∈ s.fh.erase)) ∧
    (en → ∃ u, exec (.agcFreeze g true) s = .next u ∧ only u ∧ u.out = s.out ∧
      agcOf u g = { x with frozen := false, prach := x.prach - 1, clipLast := x.clipped, clipped := 0 }) ∧
    (en → x.prach ≠ 0 → ∃ u, exec (.agcFreeze g false) s = .next u ∧ only u ∧ u.out = s.out ∧ agcOf u g = { x with frozen := true }) ∧
    (en → x.prach = 0 → x.gain ≤ 15 → ∃ u, exec (.agcFreeze g false) s = .next u ∧ only u ∧ pins u (clamp (x.gain + x.pending)) ∧
      agcOf u g = { x with frozen := true, pending := 0, gain := clamp (x.gain + x.pending),
                           sinceStep := if clamp (x.gain + x.pending) = x.gain then x.sinceStep else some 0 }) ∧
    (∀ b : Bool, let i : Instr := if b then .paEnAssert g else .paEnDeassert g
      (tgetD false s.fh.pa g = b → exec i s = .next s) ∧
      (tgetD false s.fh.pa g = !b → ∃ u, exec i s = .next u ∧ u = { s with fh := { s.fh with pa := u.fh.pa }, out := .pin 0 g b :: s.out } ∧
        tgetD false u.fh.pa g = b ∧ ∀ k, k ≠ g → tgetD false u.fh.pa k = tgetD false s.fh.pa k))

/-! ### The uplink (10, 11, 13) -/

/-- Item `i` of the uplink of slot `n` of cell `c` is `y`, and no other item has changed. -/
def Sys2Proof.itemSet (s u : State) (c n i : Nat) (y : UlItem) : Prop :=
  itemOf u c n i = some y ∧ ∀ c' n' i', (c', n', i') ≠ (c, n, i) → itemOf u c' n' i' = itemOf s c' n' i'
/-- The state but for the radio's slots and cells, registers and what went out. -/
def Sys2Proof.radioOnly (s u : State) : Prop :=
  u = { s with pg := u.pg, out := u.out, radio := { s.radio with ul := u.radio.ul, cells := u.radio.cells, beqFaults := u.radio.beqFaults, pxcDue := u.radio.pxcDue } }

/-- An occasion is correlated over the antennas that are not missing: its detections reach the threshold over the noise, and RACH.indication
follows the last; with none left it is CORRUPT. The Baseline Equaliser computes an allocation of a cell it serves, unless it is CORRUPT;
a residue failure fails it. The path selector takes the graph's LLRs when nothing is wrong, the Baseline Equaliser's on the cause raised
first, of equal ones the lowest, and else fails the item, counting the cause (R321, R327 to R330, R349, R352, R355 to R362, R376).
Choices of the model: log 70, 71, 78, 131. -/
def Obligations.AllocationsTakeTheirPath : Prop :=
  ∀ (s : State) (u c n i job item : Nat) (x : UlItem) (hs : List (BitVec 128)) (miss : List Nat), itemOf s c n i = some x → s.trace.run = none →
    s.trace.replay = none → u < 4 → c < 128 →
    let ants := (List.range (rxAnts s c)).filter (fun a => !decide (a ∈ miss))
    let unit := beqUnit s c
    let ran (t : State) : Prop := rg t BEQ_ALLOC_COUNT unit 0 = rg s BEQ_ALLOC_COUNT unit 0 + 1
    (x.status.isSome = true → exec (.prachCorrelate u c n i miss) s = .next s ∧ exec (.beqAllocation c n i false) s = .next s ∧
      exec (.pathSelect c n i job item hs) s = .next s) ∧
    (∀ thr prof wins q, q ∈ detect thr prof wins → thr * q.2.2.2 ≤ q.2.2.1 * 256 ∧ ∃ w ∈ wins, q.1 = w.1 ∧ (0 < w.2.2 → q.2.1 < w.2.2)) ∧
    (x.pdu.kind = .prach → x.status = none → (29, u) ∉ s.units.engOut → (∀ q ∈ s.fh.prach, q.bad = false) →
      ∃ t y, exec (.prachCorrelate u c n i miss) s = .next t ∧ itemSet s t c n i y ∧ rg t PXC_OCC_COUNT u 0 = rg s PXC_OCC_COUNT u 0 + 1 ∧
        t = { s with radio := t.radio, pg := t.pg, out := t.out, host := t.host, mem := { s.mem with host := t.mem.host }, fh := { s.fh with prachIn := t.fh.prachIn } } ∧
        (ants = [] → y = { x with status := some 2, prach := ⟨2, 0, []⟩ } ∧ rg t PXC_OCC_CORRUPT u 0 = satAdd (rg s PXC_OCC_CORRUPT u 0) 1 ∧
          evtBit t 29 u 0 = true) ∧
        (ants ≠ [] → ∃ l, y = { x with status := some 0, prach := ⟨0, ants.length, l⟩ } ∧ rg t PXC_DET_COUNT u 0 = rg s PXC_DET_COUNT u 0 + w32 l.length) ∧
        ∀ v, ulOf s c n = some v → v.rach = false → (v.items.filter (fun z => decide (z.pdu.kind = .prach))).length = 1 → sent s t v.part c (.rach n [y.prach])) ∧
    (x.pdu.kind = .pusch → x.status = none → x.path = none →
      (x.beq = none → (beqServes s c n = false → exec (.beqAllocation c n i false) s = .next s) ∧
        (beqServes s c n = true → isCorrupt s c n x.pdu = true → ∃ t, exec (.beqAllocation c n i false) s = .next t ∧ radioOnly s t ∧ t.pg = s.pg ∧
          itemSet s t c n i { x with status := some 2 }) ∧
        (beqServes s c n = true → isCorrupt s c n x.pdu = false → (30, unit) ∈ s.units.engOut → ∃ t, exec (.beqAllocation c n i false) s = .next t ∧
          radioOnly s t ∧ t.pg = s.pg ∧ itemSet s t c n i { x with beq := some false }) ∧
        (beqServes s c n = true → isCorrupt s c n x.pdu = false → (30, unit) ∉ s.units.engOut →
          (∃ t, exec (.beqAllocation c n i false) s = .next t ∧ radioOnly s t ∧ itemSet s t c n i { x with beq := some true } ∧ ran t) ∧
          ∃ t, exec (.beqAllocation c n i true) s = .next t ∧ itemSet s t c n i { x with beq := some false } ∧ ran t ∧ evtBit t 30 unit 0 = true ∧
            rg t BEQ_BEQ_FAULTS unit 0 = satAdd (rg s BEQ_BEQ_FAULTS unit 0) 1)) ∧
      ∀ v, ulOf s c n = some v →
        let sel : Instr := .pathSelect c n i job item hs
        (isCorrupt s c n x.pdu = true → ∃ t, exec sel s = .next t ∧ radioOnly s t ∧ t.pg = s.pg ∧ itemSet s t c n i { x with status := some 2 }) ∧
        (isCorrupt s c n x.pdu = false → rxOutcome s c n v.part job item = none → exec sel s = .next s) ∧
        ∀ m k tick cause, isCorrupt s c n x.pdu = false → rxOutcome s c n v.part job item = some (m, k, tick) →
          cause = firstCause ((if k = 0 then [] else [(k, tick)]) ++ cellCauses s c n) →
          (cause = 0 → ∃ t, exec sel s = .next t ∧ radioOnly s t ∧ t.pg = s.pg ∧ itemSet s t c n i { x with path := some false, llrs := graphLlrs s c n x.pdu hs }) ∧
          (cause ≠ 0 → ∃ t, exec sel s = .next t ∧ radioOnly s t ∧ (cellOf t c).lastCause = cause ∧
            counted s t (fbCounter cause) c 1 ∧
            (x.beq = some true → itemSet s t c n i { x with path := some true, cause := cause, llrs := beqLlrs s c n i x.pdu }) ∧
            (x.beq ≠ some true → itemSet s t c n i { x with cause := cause, status := some 1 } ∧ counted s t BEQ_FB_NONE c 1))) ∧
    (∀ l : List (Nat × Nat), l ≠ [] → ∃ q ∈ l, firstCause l = q.1 ∧ ∀ r ∈ l, q.2 < r.2 ∨ q.2 = r.2 ∧ q.1 ≤ r.1) ∧
    (∀ v m k tick, x.pdu.kind = .pucch → x.pdu.fmt ≤ 1 → x.status = none → x.path = none → ulOf s c n = some v → rxOutcome s c n v.part job item = some (m, k, tick) →
      let got := if m = 2 then [] else Config.uciCorr c n i
      ∃ t, exec (.pathSelect c n i job item hs) s = .next t ∧ radioOnly s t ∧ t.pg = s.pg ∧ itemSet s t c n i { x with status := some (if m = 2 then 1 else 0), uci := got })

/-- Rate recovery puts filler LLRs at 127 and others in ±127; a block without LLRs fails. A block is combined with its HARQ entry, or
gets the free entry of lowest index, or none when the pool is exhausted. An LDPC pass that ends before its decode point gives its hard
decisions, and otherwise what it has at that point; a block stops early only with a zero syndrome and a good checksum. A failed check puts
its pass back and takes the decoder out. Turbo and polar blocks follow their decoders (R404, R408 to R412, R416, R418, R419, R422, R423).
Choices of the model: log 12, 74, 75, 76, 79. -/
def Obligations.CodeBlocksAreCombinedAndDecoded : Prop :=
  ∀ (s : State) (c n i k d : Nat) (x : UlItem) (v : UlSlot), itemOf s c n i = some x → ulOf s c n = some v → c < 128 → v.part < 32 →
    let b := tgetD {} x.cbs k
    let h := x.pdu.harq
    let kept (t : State) (r : UlItem) (y : CodeBlock) : Prop := itemSet s t c n i { r with cbs := tsetD {} r.cbs k y }
    (∀ p l, let z := recover c n i k p l
      z.length = bufLen p.bg2 p.zc ∧ (∀ y ∈ z, y ≠ 0x80) ∧ ∀ j, j < z.length → isFiller p.bg2 p.zc (cbLen false p.tbs p.codeBlocks) j = true → z.getD j 0 = 127) ∧
    (x.path ≠ none → x.status = none → b.stage = 0 → k < x.pdu.codeBlocks → ∃ t, exec (.rateRecovery c n i k) s = .next t ∧ radioOnly s t ∧ t.pg = s.pg ∧
      (x.llrs.getD k [] = [] → kept t x { b with stage := 3, failed := true }) ∧
      (x.llrs.getD k [] ≠ [] → cellLte s c = false → kept t x { b with stage := 1, llr := recover c n i k x.pdu (x.llrs.getD k []) })) ∧
    (x.path = none ∨ x.status ≠ none ∨ b.stage ≠ 0 ∨ x.pdu.codeBlocks ≤ k → exec (.rateRecovery c n i k) s = .next s) ∧
    (∀ ctx, x.pdu.ctx = some ctx → x.status = none → b.stage = 1 → (∀ e ∈ x.cbs, e.2.stage < 2 ∨ e.2.failed = true) → k < 152 → h < 16 → s.mem.ue = [] →
      let w := entryAt s ctx h k
      let a := hqAddr s v.part (fld w 19 0)
      let lone : Prop := cellLte s c = false ∧ v.items = [x] ∧ x.pdu.kind = .pusch ∧ x.pdu.codeBlocks = 1 ∧ k = 0 ∧ s.radio.passes = [] ∧ 1 ≤ x.pdu.zc ∧ x.pdu.zc ≤ 384
      let queued (t : State) (comb : List Byte) : Prop := lone → t.radio.passes = [⟨v.part, c, n, x.pdu.bg2, x.pdu.zc, rowsOf x.pdu.bg2 x.pdu.zc comb, [(i, 0)], s.tmu.ticks⟩]
      let used (t : State) : Prop := ctxWord t ctx 0x10 = ageNow s ∧ (ctxWord t ctx (0x100 + h * 640 + 4)).toNat = x.pdu.tbs % 2 ^ 32 ∧
        (ctxWord t ctx (0x100 + h * 640 + 8)).toNat = n % 2 ^ 32 ∧ bit (ctxWord t ctx (0x100 + h * 640)) 31 = true
      (x.pdu.newData = false → procMatches s ctx (procOff h) x.pdu (cellLte s c) = true → bit w 31 = true →
        (∀ o, o < 65536 → ctxAddr s ctx o < a ∨ a + b.llr.length ≤ ctxAddr s ctx o) →
        ∃ t sum, exec (.harqCombine c n i k) s = .next t ∧ sum = (b.llr.zip (extRead s a b.llr.length)).map (fun q => llrSat (llrVal q.1 + llrVal q.2)) ∧
          kept t x { b with stage := 2, comb := sum } ∧ used t ∧ extRead t a b.llr.length = sum ∧ hqUsed t v.part = hqUsed s v.part ∧ queued t sum) ∧
      (x.pdu.newData = true → (∀ j, j < 152 → bit (entryAt s ctx h j) 31 = false) →
        (∀ e, e < hqEntries s v.part → e ∉ hqUsed s v.part → (∀ f, f < e → f ∈ hqUsed s v.part) →
          (∀ o, o < 65536 → ctxAddr s ctx o < hqAddr s v.part e ∨ hqAddr s v.part e + b.llr.length ≤ ctxAddr s ctx o) →
          ∃ t, exec (.harqCombine c n i k) s = .next t ∧ kept t x { b with stage := 2, comb := b.llr } ∧ used t ∧ entryAt t ctx h k = w32 (2 ^ 31 + e) ∧
            hqUsed t v.part = hqUsed s v.part ++ [e] ∧ queued t b.llr) ∧
        ((∀ e, e < hqEntries s v.part → e ∈ hqUsed s v.part) → ∃ t, exec (.harqCombine c n i k) s = .next t ∧
          kept t x { b with stage := 2, comb := b.llr } ∧ used t ∧ entryAt t ctx h k = 0 ∧ hqUsed t v.part = hqUsed s v.part ∧
          counted s t LDD_POOL_EXHAUST v.part 1 ∧ queued t b.llr))) ∧
    (∀ z ok f it st, let r := runBlock z ok f it st
      it ≤ r.2.1 ∧ r.2.1 ≤ it + f ∧ (r.2.2 = true → syndromeOk z r.1 = true ∧ ok r.1 = true)) ∧
    (nextPass s d = none → ∀ f, exec (.ldpcPass d f) s = .next s) ∧
    (∀ a, nextPass s d = some a → a.cell = c → a.slot = n → a.blocks = [(i, k)] → d < 16 →
      let r := decodeBlock s a (iterCap s c) x k
      let inTime : Prop := (nowNs s : Int) + (lddNs (passCycles a r.2.1) : Int) ≤ decodePoint s c n
      let popped (t : State) : Prop := t.radio.passes = delFirst (fun q => decide (q = a)) s.radio.passes
      (inTime → ∃ t, exec (.ldpcPass d false) s = .next t ∧ popped t ∧ t.radio.runs = s.radio.runs ∧
        kept t x { b with stage := 3, hard := r.1, capped := !r.2.2 } ∧ rg t LDD_PASS_COUNT d 0 = rg s LDD_PASS_COUNT d 0 + 1 ∧
        counted s t LDD_CAP_COUNT 0 (b2n (!r.2.2)) ∧ t = { s with radio := t.radio, pg := t.pg }) ∧
      (¬ inTime → exec (.ldpcPass d false) s = .next { s with radio := { s.radio with passes := delFirst (fun q => decide (q = a)) s.radio.passes,
                                                                                      runs := tsetD none s.radio.runs d (some (a, s.tmu.ticks)) } }) ∧
      ∃ t, exec (.ldpcPass d true) s = .next t ∧ t.radio.passes = a :: delFirst (fun q => decide (q = a)) s.radio.passes ∧ t.radio.ul = s.radio.ul ∧
        rg t LDD_RESTARTS d 0 = satAdd (rg s LDD_RESTARTS d 0) 1 ∧ evtBit t 24 d 0 = true ∧
        ((24, d) ∈ t.units.engOut ∨ ∃ q ∈ t.units.engLeaving, q.1 = 24 ∧ q.2.1 = d)) ∧
    (tgetD none s.radio.runs d = none → exec (.decLate d) s = .next s) ∧
    (∀ a t0, tgetD none s.radio.runs d = some (a, t0) → a.cell = c → a.slot = n → a.blocks = [(i, k)] → d < 16 →
      let r := decodeBlock s a (min (iterCap s c) (lateIters s a t0)) x k
      ((nowNs s : Int) < decodePoint s c n → exec (.decLate d) s = .next s) ∧
      (decodePoint s c n ≤ (nowNs s : Int) → ∃ t, exec (.decLate d) s = .next t ∧ tgetD none t.radio.runs d = none ∧ evtBit t 24 0 1 = true ∧
        kept t x { b with stage := 3, hard := r.1, capped := !r.2.2 } ∧ counted s t LDD_DEC_STOP 0 (b2n (!r.2.2)))) ∧
    (cellLte s c = true → x.status = none → b.stage = 2 → d < 2 → (27, d) ∉ s.units.engOut →
      let r := Config.turbo (fld (rg s LDD_CELL_DEC 0 c) 6 4 + 1) (cbLen true x.pdu.tbs x.pdu.codeBlocks) b.comb
      let late := reached s c n (points s c).2.2.1
      ∃ t, exec (.turboDecode d c n i k) s = .next t ∧ radioOnly s t ∧ kept t x { b with stage := 3, hard := r.1, capped := !(r.2 && !late) } ∧
        rg t TBO_WORK_COUNT d 0 = rg s TBO_WORK_COUNT d 0 + 1) ∧
    (x.pdu.kind = .pucch → 2 ≤ x.pdu.fmt → x.status = none → d < 2 → (26, d) ∉ s.units.engOut →
      let r := Config.polar (cellLte s c) (2 ^ fld (rg s LDD_CELL_DEC 0 c) 10 9) (Config.uciLlr c n i)
      ∃ t, exec (.polarDecode d c n i) s = .next t ∧ radioOnly s t ∧ rg t PLC_WORK_COUNT d 0 = rg s PLC_WORK_COUNT d 0 + 1 ∧
        itemSet s t c n i { x with status := some (if r.2 then 0 else 3), uci := if r.2 then r.1 else [] }) ∧
    (x.pdu.kind = .pusch → x.pdu.uci = true → x.path ≠ none → x.uciSt = none → d < 2 → (26, d) ∉ s.units.engOut →
      let r := Config.polar (cellLte s c) (2 ^ fld (rg s LDD_CELL_DEC 0 c) 10 9) (Config.uciLlr c n i)
      ∃ t, exec (.polarDecode d c n i) s = .next t ∧ radioOnly s t ∧ rg t PLC_WORK_COUNT d 0 = rg s PLC_WORK_COUNT d 0 + 1 ∧
        itemSet s t c n i { x with uciSt := some (if r.2 then 0 else 3), uci := if r.2 then r.1 else [] })

/-- The transport-block check makes an item FAILED, CRC_FAIL or OK, the last with its bytes and its HARQ entries released. A batch is
delivered once every item is final or its point has come, each kind in one indication, and the slot is gone. The downlink: segmentation
gives each code block its checksum and filler, encoding, rate matching from the circular buffer, interleaving and scrambling follow, and
symbols take QM bits; control blocks are polar-coded and use QPSK (R312, R323 to R325, R331, R422, R425 to R427).
Choices of the model: log 12, 76, 77, 78, 79. -/
def Obligations.TransportBlocksGoUpAndDown : Prop :=
  ∀ (s : State) (c n i k d : Nat), d < 2 →
    (∀ x v, itemOf s c n i = some x → ulOf s c n = some v → x.pdu.kind = .pusch → x.status = none → x.path ≠ none →
      let bs := (List.range x.pdu.codeBlocks).map (fun k => tgetD {} x.cbs k)
      let tb := tbBits (cellLte s c) x
      let fails (st : Nat) : Prop := ∃ t, exec (.crcCheck c n i) s = .next t ∧ radioOnly s t ∧ t.pg = s.pg ∧ itemSet s t c n i { x with status := some st }
      ((∃ b ∈ bs, b.stage ≠ 3) → exec (.crcCheck c n i) s = .next s) ∧
      ((∀ b ∈ bs, b.stage = 3) → ((∃ b ∈ bs, b.failed = true) → fails 1) ∧
        ((∀ b ∈ bs, b.failed = false) →
          ((∃ b ∈ bs, b.capped = true) ∨ tb.drop x.pdu.tbs ≠ tbCrc (cellLte s c) (tb.take x.pdu.tbs) → fails 3) ∧
          ((∀ b ∈ bs, b.capped = false) → tb.drop x.pdu.tbs = tbCrc (cellLte s c) (tb.take x.pdu.tbs) → ∃ t, exec (.crcCheck c n i) s = .next t ∧
            itemSet s t c n i { x with status := some 0, data := bitBytes (ceilDiv x.pdu.tbs 8) (tb.take x.pdu.tbs) } ∧ t.pg = s.pg ∧
            (x.pdu.ctx = none → radioOnly s t) ∧
            ∀ e, x.pdu.ctx = some e → x.pdu.harq < 16 → sameOutside s t e ∧ entriesGone s t e v.part 0 (fun h => h = x.pdu.harq))))) ∧
    (ulOf s c n = none → exec (.batchDeliver c n) s = .next s) ∧
    (∀ v, ulOf s c n = some v →
      let final : Prop := ∀ x ∈ v.items, x.pdu.kind = .srs ∨ x.status ≠ none ∧ (x.pdu.kind = .pusch → x.pdu.uci = true → x.path ≠ none → x.uciSt ≠ none)
      let uci : List UlItem := v.items.filter (fun x => decide (x.pdu.kind = .pucch ∨ x.pdu.kind = .pusch ∧ x.pdu.uci = true))
      let due : Prop := final ∨ reached s c n (points s c).2.2.2 = true
      let of (k : UlKind) : List UlItem := v.items.filter (fun x => decide (x.pdu.kind = k))
      let st (x : UlItem) : Nat := x.status.getD 1
      (¬ due → exec (.batchDeliver c n) s = .next s) ∧
      (due → ∃ t, exec (.batchDeliver c n) s = .next t ∧ ulOf t c n = none ∧ (∀ c' n', (c', n') ≠ (c, n) → ulOf t c' n' = ulOf s c' n') ∧
        (∀ m a, gridOf t c n m a = none) ∧ (∀ q ∈ t.cxs.pins, (q.1, q.2.1) ≠ (c, n)) ∧
        (of .pusch ≠ [] → sent s t v.part v.cell (.crcIndication v.slot ((of .pusch).map (fun x => ⟨decide (st x = 0), st x, decide (x.cause ≠ 0), x.cause⟩))) ∧
          sent s t v.part v.cell (.rxData v.slot ((of .pusch).map (fun x => if st x = 0 then x.data else [])))) ∧
        (uci ≠ [] → sent s t v.part v.cell (.uci v.slot (uci.map (fun x => (if x.pdu.kind = .pusch ∧ x.path ≠ none then x.uciSt.getD 1 else st x, x.uci))))) ∧
        (of .prach ≠ [] → v.rach = false → sent s t v.part v.cell (.rach v.slot ((of .prach).map (fun x => { x.prach with status := st x })))))) ∧
    ∀ x, dlItem s c n i = some x →
      let dlSet (t : State) (y : DlItem) : Prop := dlItem t c n i = some y ∧ t = { s with radio := { s.radio with dl := t.radio.dl }, pg := t.pg } ∧
        ∀ c' n' i', (c', n', i') ≠ (c, n, i) → dlItem t c' n' i' = dlItem s c' n' i'
      (∀ p bits, p.codeBlocks ≤ 1 → p.tbs = bits.length → (segment p bits).length = p.codeBlocks ∧
        ∀ b ∈ segment p bits, b = (bits ++ tbCrc false bits).map some ++ List.replicate (kCols p.bg2 * p.zc - (bits ++ tbCrc false bits).length) none) ∧
      (∀ bs, x.payload = some bs → cellLte s c = false → ∃ t, exec (.segmentation c n i) s = .next t ∧
        dlSet t { x with blocks := segment x.pdu ((byteBits bs).take x.pdu.tbs) } ∧ t.pg = s.pg) ∧
      (x.payload = none → exec (.segmentation c n i) s = .next s) ∧
      (∀ b, x.blocks[k]? = some b → (25, d) ∉ s.units.engOut → ∃ t, exec (.ldpcEncode d c n i k) s = .next t ∧
        dlSet t { x with coded := tsetD [] x.coded k (Config.encode (cellLte s c) x.pdu.bg2 x.pdu.zc b) } ∧ rg t LDE_WORK_COUNT d 0 = rg s LDE_WORK_COUNT d 0 + 1) ∧
      (tgetD [] x.coded k ≠ [] → cellLte s c = false → ∃ t m, exec (.rateMatching c n i k) s = .next t ∧ t.pg = s.pg ∧
        dlSet t { x with matched := tsetD [] x.matched k m } ∧
        let e := matchedLen x.pdu.bits (x.pdu.qm * x.pdu.layers) x.pdu.codeBlocks k
        m.length = e ∧ ∀ j, j < e → m.getD j false =
          (((txPos x.pdu.bg2 x.pdu.zc (cbLen false x.pdu.tbs x.pdu.codeBlocks) (min (bufLen x.pdu.bg2 x.pdu.zc) (Config.ncb c (bufLen x.pdu.bg2 x.pdu.zc))) x.pdu.rv e).map
            (fun p => ((tgetD [] x.coded k).getD p none).getD false)).getD (j % x.pdu.qm * (e / x.pdu.qm) + j / x.pdu.qm) false !=
            Config.scramble c n i (matchedOff x.pdu.bits (x.pdu.qm * x.pdu.layers) x.pdu.codeBlocks k + j))) ∧
      (x.pdu.kind = .pdcch ∨ x.pdu.kind = .ssb → (26, d) ∉ s.units.engOut → ∃ t, exec (.polarEncode d c n i) s = .next t ∧
        dlSet t { x with enc := Config.polarBits c n i } ∧ rg t PLC_WORK_COUNT d 0 = rg s PLC_WORK_COUNT d 0 + 1) ∧
      (∀ l q, (x.pdu.kind = .pdsch ∧ (∀ k, k < x.pdu.codeBlocks → tgetD [] x.matched k ≠ []) ∧ q = x.pdu.qm ∧
          l = ((List.range x.pdu.codeBlocks).map (fun k => tgetD [] x.matched k)).flatten) ∨ (x.pdu.kind ≠ .pdsch ∧ x.enc ≠ [] ∧ q = 2 ∧ l = x.enc) →
        ∃ t y, exec (.modulationMapping c n i) s = .next t ∧ t.pg = s.pg ∧ dlSet t { x with symbols := y } ∧ (0 < q → y.flatten = l ∧ ∀ g ∈ y, g.length ≤ q))

/-! ### Security, partitions, repair (22, 23) -/

/-- Critical commands for descriptor `d`: type, what else the row asks of the descriptor or the host, and the range of the parameters (R525,
R643, R648 to R652, R657, R662, R664, R594). -/
def Sys2Proof.critRows (s : State) (d : List Word) (bad : Option (Nat × Nat)) (wrong : Bool) : List (Instr × Nat × Prop × Prop) :=
  let w := param d 0
  let c := w.toNat
  let t := (param d 1).toNat
  let act := fld w 27 26
  let unit : Prop := 1 ≤ fld w 31 28 ∧ fld w 31 28 ≤ 9 ∧ act ≠ 3 ∧ fld w 7 0 < instCount (fld w 31 28) ∧ (fld w 31 28 = 9 → fld w 15 8 < 20)
  let r := recParams d
  [(.partCreate bad, 0x50, True, fld w 31 30 ≠ 0 ∧ fld w 28 24 ≠ 0 ∧ fld w 4 0 ≠ 0 ∧ 128 ≤ (wd d 7).toNat), (.partDestroy, 0x51, True, True),
   (.fwActivate, 0x52, True, True), (.keyLoad, 0x53, True, (fld w 3 0 = 1 ∨ fld w 3 0 = 2) ∧ 96 ≤ (wd d 7).toNat),
   (.keyUnload, 0x54, True, True),
   (.fuseProg wrong, 0x55, True, c = 1 ∧ t ≤ 3 ∨ (c = 2 ∨ c = 3 ∨ c = 5) ∧ t ≤ 64 ∨ c = 4 ∧ 48 ≤ (wd d 7).toNat ∨ c = 6 ∧ t ≤ 2),
   (.takeOutOfService, 0x56, act = 0 ∨ act = 3, unit), (.takeOutAndFuse, 0x56, act = 1, unit), (.returnToService, 0x56, act = 2, unit),
   (.recStart, 0x57, True, r.1 ≠ 0 ∧ r.2.2.1 % 4096 = 0 ∧ r.2.2.2.1 % 4096 = 0 ∧ 0x4000000 ≤ r.2.2.2.1 ∧ r.2.2.2.1 ≤ 0x1000000000 ∧
     r.2.2.2.2.2.2 ≤ 64),
   (.recStop, 0x58, True, True),
   (.attest, 0x59, mayWriteHost s 0 = true, 4096 ≤ (param d 14).toNat ∧ addr64 (param d 12) (param d 13) ≠ 0),
   (.debugPart, 0x5A, True, True), (.session, 0x5B, True, True)]

/-- A critical command waits while firmware switches. One that is malformed is turned away with 0x20 and one that fails check 1 to 4 with 0x43
AUTH_HOLD, 0x42 SESSION, 0x40 AUTH_BAD or 0x41 REPLAYED, in this order; a failed check is counted, recorded with type 0x13 and changes nothing
else of the security engine but the run of AUTH_BAD, whose sixteenth brings AUTH_HOLD for a second (R643 to R647, R657).
Choices of the model: log 97, 107. -/
def Obligations.CriticalCommandsAreJudged : Prop :=
  ∀ (s : State) (d : List Word) (bad : Option (Nat × Nat)) (wrong : Bool),
    (∀ e ∈ critRows s d bad wrong, secBusy s = true → exec e.1 s = .next s) ∧
    (∀ e ∈ critRows s d bad wrong, hasDesc s 0 e.2.1 d → secBusy s = false → e.2.2.1 →
      (critOk d = false ∨ ¬ e.2.2.2 → ∃ v u, exec e.1 s = .next u ∧ v = { s with pg := v.pg, out := v.out } ∧ evtBit v 7 0 0 = true ∧
        answered v u 0 d 0x20 0 0) ∧
      (critOk d = true → e.2.2.2 → (wd d 7).toNat = 0 ∨ mayWriteHost s 0 = true →
        let turned (st badRun : Nat) (hold : Option Nat) (bits : List Nat) : Prop := ∃ u, exec e.1 s = .next u ∧
          u = { s with sec := { s.sec with badRun := badRun, hold := hold }, pg := u.pg, host := u.host, mem := { s.mem with host := u.mem.host }, out := u.out } ∧
          tgetD [] u.host.picked 0 = [] ∧ counted s u SEC_AUTH_FAILS 0 1 ∧ (∀ b ∈ bits, evtBit u 2 0 b = true) ∧
          recorded s u (fun r => r.hdr = recHdr 0x13 st 0 0 ∧ r.w1 = wd d 0 ∧ r.w2 = wd d 3 ∧ r.w3 = wd d 4) ∧
          posted s u 0 (dring d) (mkRec s 3 st 0 (wd d 1) (wd d 2) 0 0 0 (dseq d))
        let ok : Prop := authHold s = false ∧ wd d 4 = s.sec.session
        (authHold s = true → turned 0x43 s.sec.badRun s.sec.hold []) ∧
        (authHold s = false → wd d 4 ≠ s.sec.session → turned 0x42 s.sec.badRun s.sec.hold [1]) ∧
        (ok → macOk s d = false → s.sec.badRun + 1 < 16 → turned 0x40 (s.sec.badRun + 1) s.sec.hold [0]) ∧
        (ok → macOk s d = false → 16 ≤ s.sec.badRun + 1 → turned 0x40 0 (some s.tmu.ticks) [0, 2]) ∧
        (ok → macOk s d = true → (wd d 3).toNat ≤ s.sec.ctr.toNat → turned 0x41 0 s.sec.hold [1]))) ∧
    (∀ t, s.sec.hold = some t → (passed s t 1000000000 = true → exec .authHoldEnd s = .next { s with sec := { s.sec with hold := none } }) ∧
      (passed s t 1000000000 = false → authHold s = true ∧ exec .authHoldEnd s = .next s)) ∧
    (s.sec.hold = none → authHold s = false ∧ exec .authHoldEnd s = .next s)

/-- The state in which a critical command that passed checks 1 to 4 has its own effect: the counter is accepted and SEC_CMD_COUNT counts it. -/
def Sys2Proof.taken (s : State) (d : List Word) : State :=
  wrapRg { s with sec := { s.sec with badRun := 0, ctr := wd d 3 } } SEC_CMD_COUNT 0 0 1
/-- Row `i` meets its descriptor, whose parameters are in range and which passes checks 1 to 4. -/
def Sys2Proof.CritPasses (s : State) (d : List Word) (bad : Option (Nat × Nat)) (wrong : Bool) (i : Instr) : Prop :=
  (∃ e ∈ critRows s d bad wrong, e.1 = i ∧ hasDesc s 0 e.2.1 d ∧ e.2.2.1 ∧ e.2.2.2) ∧ secBusy s = false ∧ critOk d = true ∧
    ((wd d 7).toNat = 0 ∨ mayWriteHost s 0 = true) ∧ authHold s = false ∧ wd d 4 = s.sec.session ∧ macOk s d = true ∧
    s.sec.ctr.toNat < (wd d 3).toNat
/-- The command's own effect is `v`, and it is answered with status `st`. -/
def Sys2Proof.critEnds (s v : State) (d : List Word) (i : Instr) (st : Nat) : Prop := ∃ u, exec i s = .next u ∧ answered v u 0 d st 0 0
/-- The measurement registers once register `k` is extended with `dg` (R641). -/
def Sys2Proof.measured (s : State) (k : Nat) (dg : List Byte) : Tab Nat :=
  tsetD 0 s.sec.mrs k (bytesBe (sha384 (natBe 48 (tgetD 0 s.sec.mrs k) ++ dg)))
/-- The event digest of a key. -/
def Sys2Proof.keyEvent (k : ImgKey) : List Byte := sha384 (natLe 8 k.id ++ wordsLe [w32 k.cls, w32 k.part])

/-- The critical commands of the security engine. SESSION draws a session and resets the counter; DEBUG_PART opens a partition that is
neither 0 nor SAFETY and extends MR6; keys enter and leave a table of 64, extending MR5; a fuse field changes upward only, within R650, and
extends MR7; FW_ACTIVATE arms a set that passes R638; ATTEST writes the signed report and the certificates (R637 to R639, R641, R642, R646,
R648 to R650, R652, R657).
Choices of the model: log 95, 96, 108, 109. -/
def Obligations.SecurityCommandsTakeEffect : Prop :=
  ∀ (s : State) (d : List Word) (wrong : Bool),
    let v0 := taken s d
    let go (i : Instr) : Prop := CritPasses s d none wrong i
    let w := param d 0
    (go .session → ∃ x n, critEnds s { v0 with freeCtr := n, sec := { v0.sec with session := x, ctr := 0 } } d .session 0) ∧
    (go .debugPart → (part? s (fld w 4 0) = none → critEnds s v0 d .debugPart 3) ∧ ∀ x, part? s (fld w 4 0) = some x →
      (fld w 4 0 = 0 ∨ x.cls = .safety → critEnds s v0 d .debugPart 3) ∧
      (fld w 4 0 ≠ 0 → x.cls ≠ .safety → (x.debug = true → critEnds s v0 d .debugPart 0) ∧
        (x.debug = false → ∃ v, critEnds s v d .debugPart 0 ∧ evtBit v 2 0 4 = true ∧
          v = { v0 with pg := v.pg, out := v.out, sec := { v0.sec with mrs := measured s 6 (sha384 (wordLe (w32 (fld w 4 0)))) }
                        disp := { s.disp with parts := tsetD none s.disp.parts (fld w 4 0) (some { x with debug := true }) } }))) ∧
    (go .keyUnload → let id := addr64 w (param d 1)
      ((∀ k ∈ s.sec.keys, k.id ≠ id) → critEnds s v0 d .keyUnload 3) ∧
      ∀ k, s.sec.keys.find? (fun q => decide (q.id = id)) = some k → critEnds s { v0 with sec := { v0.sec with
        keys := s.sec.keys.filter (fun q => decide (q.id ≠ id)), mrs := measured s 5 (keyEvent k) } } d .keyUnload 0) ∧
    (go .keyLoad →
      let b := pblk s d
      let p := if fld w 3 0 = 2 then fld w 12 8 else 0
      let k : ImgKey := ⟨leNat (keyIdOf (bytesBe (b.take 48)) (bytesBe ((b.drop 48).take 48))), fld w 3 0, bit w 4, p, bytesBe (b.take 48),
        bytesBe ((b.drop 48).take 48)⟩
      let unfit : Prop := onCurve k.x k.y = false ∨ fld w 3 0 = 2 ∧ (bit w 4 = true ∨ part? s p = none ∨ pclass s p ≠ .edge)
      let same := s.sec.keys.find? (fun q => decide (q.id = k.id))
      (unfit ∨ (∃ q, same = some q ∧ q ≠ k) ∨ same = none ∧ 64 ≤ s.sec.keys.length → critEnds s v0 d .keyLoad 3) ∧
      (¬ unfit → (same = some k → critEnds s v0 d .keyLoad 0) ∧ (same = none → s.sec.keys.length < 64 →
        critEnds s { v0 with sec := { v0.sec with keys := s.sec.keys ++ [k], mrs := measured s 5 (keyEvent k) } } d .keyLoad 0))) ∧
    (go (.fuseProg wrong) →
      let f := s.sec.fuses
      let c := w.toNat
      let t := (param d 1).toNat
      let target := fuseTarget s d
      let done : Prop := if c = 4 then target = 0 else target ≤ fuseVal f c
      let refused : Prop := c = 1 ∧ (target = 15 ∨ t = s.sec.keyIdx) ∨ c = 2 ∧ s.sec.svnStage < t ∨ c = 3 ∧ s.sec.fwSvn < t ∨
        c = 4 ∧ (f.life ≠ 0 ∨ f.cmdRoot ≠ none) ∨ c = 6 ∧ t = 1 ∧ f.cmdRoot = none
      (done → critEnds s v0 d (.fuseProg wrong) 0) ∧ (¬ done → refused → critEnds s v0 d (.fuseProg wrong) 3) ∧
      (¬ done → ¬ refused → ∃ v val, critEnds s v d (.fuseProg wrong) (if wrong then 1 else 0) ∧
        v = { v0 with pg := v.pg, out := v.out, freeCtr := v.freeCtr, sec := { v0.sec with fuses := fuseSet f c val, mrs := v.sec.mrs } } ∧
        (val = fuseVal f c → v.pg = v0.pg ∧ v.sec.mrs = s.sec.mrs) ∧
        (val ≠ fuseVal f c → evtBit v 2 0 3 = true ∧ v.sec.mrs = measured s 7 (sha384 (wordsLe [w32 c] ++ natLe 48 val))) ∧
        (wrong = false → val = target ∧ fuseVal v.sec.fuses c = target ∧ v.freeCtr = s.freeCtr) ∧ (wrong = true → val ≠ target ∧ (c ≠ 4 → fuseVal f c ≤ val)))) ∧
    (go .fwActivate → let k := fld w 0 0
      let a := setBase s k
      (judgeBoot s a (setRoom s k) s.sec.fuses.svnFw ≠ 0 → critEnds s v0 d .fwActivate 1) ∧
      (judgeBoot s a (setRoom s k) s.sec.fuses.svnFw = 0 →
        critEnds s { v0 with sec := { v0.sec with fwNext := some (k, bootSvn s a, bytesBe (bootDigest s a)) } } d .fwActivate 0)) ∧
    (∀ a lim svn, let n := (flashWord s (a + 0x10)).toNat
      let k := fld (flashWord s (a + 0x0C)) 1 0
      judgeBoot s a lim svn = 0 ↔ flashWord s a = 0x42314B41 ∧ flashWord s (a + 4) = 1 ∧ n ≤ lim ∧ (flashWord s (a + 0x14)).toNat < n ∧
        s.sec.fuses.revoke / 2 ^ k % 2 = 0 ∧ sha384 (flashRead s (a + 0x40) 96) = natBe 48 (Config.pkHash k) ∧ svn ≤ bootSvn s a ∧ bootSvn s a ≤ 64 ∧
        ecdsaOk (bytesBe (flashRead s (a + 0x40) 48)) (bytesBe (flashRead s (a + 0x70) 48)) (bootDigest s a)
          (bytesBe (flashRead s (a + 0xA0) 48)) (bytesBe (flashRead s (a + 0xD0) 48)) = true) ∧
    (go .attest → ∃ r g n k, (r, g) = ecdsaSign s.sec.aliasKey (sha384 (report s (wordsLe ((List.range 12).map (param d))))) k ∧
      (report s (wordsLe ((List.range 12).map (param d)))).length = 0x230 ∧
      critEnds s (hostWrite { v0 with freeCtr := n } (addr64 (param d 12) (param d 13))
        (report s (wordsLe ((List.range 12).map (param d))) ++ natBe 48 r ++ natBe 48 g ++ certs s)) d .attest 0)

/-- PART_CREATE refuses a partition that exists, a function in use, a partition without a region, a slice outside its blocks and a trace that
does not fit; else the partition exists, owns its host page and keeps its slices; a SAFETY one starts with an injection. PART_DESTROY takes
all of it away. PART_RESET resets another partition at depth JOBS; at the end of a reset its objects are 0. REC_START and REC_STOP begin
and end the one recording (R594, R597, R600, R601, R621, R622, R663, R664).
Choices of the model: log 98, 100, 108, 109. -/
def Obligations.PartitionsAndRecordings : Prop :=
  ∀ (s : State) (d : List Word) (bad : Option (Nat × Nat)),
    let v0 := taken s d
    let go (i : Instr) : Prop := CritPasses s d bad false i
    let w := param d 0
    let p := fld w 4 0
    (go (.partCreate bad) →
      let i : Instr := .partCreate bad
      let cls : PClass := if fld w 31 30 = 1 then .radio else if fld w 31 30 = 2 then .safety else .edge
      let l := slicesOf (pblk s d)
      let tr := traceOf d
      let used : Prop := ∃ e ∈ s.disp.parts, ∃ y, e.2 = some y ∧ y.vf = fld w 28 24 ∧ e.1 ≠ 0
      let refused : Prop := part? s p ≠ none ∨ used ∨ partRegion v0 p = none ∨ (∃ q ∈ l, sliceOk v0 p q = false) ∨
        tr.2 ≠ 0 ∧ (s.trace.replay ≠ none ∨ ∀ r, partRegion v0 0 = some r → tr.1 % 4096 ≠ 0 ∨ r.2.1 < tr.1 + tr.2)
      (refused → critEnds s v0 d i 3) ∧
      (¬ refused → ∃ v, critEnds s v d i 0 ∧ (cls ≠ .safety ∨ bad = none ∨ (∃ k n, bad = some (k, n) ∧ 6 ≤ k) →
        part? v p = some { cls := cls, vf := fld w 28 24, requireSig := bit w 29 && decide (cls = .edge), slices := l } ∧
        (∀ q, q ≠ p → part? v q = part? s q) ∧ rg v (7 * 4096 + HDR_OWNER) p 0 = w32 p ∧ (tr.2 = 0 → v.trace.replay = s.trace.replay) ∧
        (∀ r, tr.2 ≠ 0 → partRegion v0 0 = some r → v.trace.replay = some { part := p, base := r.1 + tr.1, size := tr.2 }) ∧
        (cls = .safety → bad = none → bit (rg v SYS_INJ_STAT 0 0) 31 = true ∧ v.disp.resetting = s.disp.resetting) ∧
        (cls = .safety → bad ≠ none → p ∈ v.disp.resetting ∧ bit (rg v SYS_SAF_STAT 0 p) 31 = true)))) ∧
    (go .partDestroy → (p = 0 ∨ part? s p = none → critEnds s v0 d .partDestroy 3) ∧
      (p ≠ 0 → part? s p ≠ none → ∃ v, critEnds s v d .partDestroy 0 ∧ part? v p = none ∧ (∀ q, q ≠ p → part? v q = part? s q) ∧
        rg v (7 * 4096 + HDR_OWNER) p 0 = 0 ∧ (∀ g ∈ v.img.gens, g.part = p → g.current = false) ∧ (∀ n, n < 256 → tplOf v p n = none) ∧
        (∀ k ∈ v.sec.keys, ¬ (k.cls = 2 ∧ k.part = p)) ∧ p ∉ v.disp.resetting ∧ ∀ r ∈ v.safe.resets, r.part ≠ p)) ∧
    (∀ q n, pageOpen s q 0 0 → (n = 0 ∨ part? s n = none ∨ n ∈ s.disp.resetting → exec (.partReset q n) s = .next s) ∧
      (n ≠ 0 → part? s n ≠ none → n ∉ s.disp.resetting → (∀ r ∈ s.safe.resets, r.part ≠ n) → ∃ v js, exec (.partReset q n) s = .next (reconsider v) ∧
        v.disp.resetting = s.disp.resetting ++ [n] ∧
        v.safe.resets = s.safe.resets ++ [{ part := n, full := false, trig := 0, since := s.tmu.ticks, jobs := js }] ∧
        ∀ j x, job? s j = some x → x.part = n → j ∈ js)) ∧
    (∀ r, let u := endReset s r
      (∀ o, objOwner s o = some r.part → tgetD 0 u.sync.objs o = 0) ∧ (∀ o, objOwner s o ≠ some r.part → tgetD 0 u.sync.objs o = tgetD 0 s.sync.objs o) ∧
      r.part ∉ u.disp.resetting ∧ (∀ q ∈ u.safe.resets, q.part ≠ r.part) ∧ evtBit u 0 0 3 = true) ∧
    (go .recStart →
      let (n, wrap, off, size, cells, ck, cnt) := recParams d
      (s.trace.run ≠ none ∨ part? s n = none ∨ partRegion v0 0 = none ∨ partRegion v0 n = none → critEnds s v0 d .recStart 3) ∧
      ∀ r0 rp, s.trace.run = none → part? s n ≠ none → partRegion v0 0 = some r0 → partRegion v0 n = some rp →
        let l := recRanges v0 (r0.1 + ck) cnt
        let outside : Prop := r0.2.1 < off + size ∨ r0.2.1 < ck + 8 * cnt ∨
          ∃ q ∈ l, if q.1 then 262144 < q.2.1 + q.2.2 else rp.2.1 < (q.2.1 + q.2.2) * 4096
        (outside → critEnds s v0 d .recStart 3) ∧
        (¬ outside → critEnds s { v0 with trace := { s.trace with
          run := some { part := n, base := r0.1 + off, size := size, wrap := wrap, cells := cells, ranges := l } } } d .recStart 0)) ∧
    (go .recStop → (s.trace.run = none → critEnds s v0 d .recStop 3) ∧ ∀ r, s.trace.run = some r →
      (r.closing = true → critEnds s v0 d .recStop 0) ∧
      (r.closing = false → r.since = none → critEnds s { v0 with trace := { s.trace with run := none } } d .recStop 0) ∧
      (r.closing = false → r.since ≠ none → ∃ v, critEnds s v d .recStop 0 ∧ v = { v0 with trace := v.trace, pg := v.pg, out := v.out } ∧
        v.trace.run = some { r with closing := true }))

/-- A record of type 0x14 of unit or lane `w1`, with REASON `why` and `cause`, was made, and REMAP is set (R656, R661, R731). -/
def Sys2Proof.serviceNoted (s u : State) (why : Nat) (w1 : Word) (cause : Nat) : Prop :=
  recorded s u (fun r => r.hdr = recHdr 0x14 why 0 0 ∧ r.w1 = w1 ∧ r.w2 = w32 cause) ∧ evtBit u 0 0 1 = true

/-- REPAIR takes a unit out at the next slot boundary, with its fuse blown if asked, or lets it return: a cluster after a passing slice, an
engine at a slot boundary; a fused one is refused. A lane judged faulty is switched at once to its quad's spare slice, the first of the
quad, PCI Express when the host retrains; a second one, or the spare itself, is down. What the lane carried fails (R656, R659 to R662).
Choices of the model: log 66, 92, 93, 109. -/
def Obligations.UnitsLeaveAndReturn : Prop :=
  ∀ (s : State) (d : List Word),
    let v0 := taken s d
    let go (i : Instr) : Prop := CritPasses s d none false i
    let w := param d 0
    let k := fld w 31 28
    let q := fld w 15 8
    let i := fld w 7 0
    let engine : Prop := 2 ≤ k ∧ k ≤ 8
    let leaves (x v : State) : Prop :=
      (k = 1 → v = { x with safe := { s.safe with rot := v.safe.rot }, units := v.units } ∧ rotOf v i = { rotOf s i with returning := false } ∧
        (∀ c, c ≠ i → rotOf v c = rotOf s c) ∧
        v.units = if i ∈ s.units.out then s.units else { s.units with leaving := s.units.leaving ++ [(i, 6)] }) ∧
      (engine → v = { x with units := if (codeOf k, i) ∈ s.units.engOut
        then { s.units with engBack := s.units.engBack.filter (fun y => !decide (y.1 = codeOf k ∧ y.2.1 = i)) }
        else { s.units with engLeaving := s.units.engLeaving ++ [(codeOf k, i, 6)] } }) ∧
      (k = 9 → v = laneFault x (quadOf q).1 (quadOf q).2 i 6)
    (go .takeOutOfService → ∃ v, critEnds s v d .takeOutOfService 0 ∧ leaves v0 v) ∧
    (go .takeOutAndFuse →
      let full : Prop := k = 9 ∧ tgetD 0 s.sec.fuses.repLane q ≠ 0 ∧ tgetD 0 s.sec.fuses.repLane q ≠ i + 1
      (full → critEnds s v0 d .takeOutAndFuse 3) ∧
      (¬ full → ∃ v f, critEnds s v d .takeOutAndFuse 0 ∧ leaves { v0 with sec := { v0.sec with fuses := f } } v ∧ v.sec.fuses = f ∧
        (k = 9 → f = { s.sec.fuses with repLane := f.repLane } ∧
          ∀ q', tgetD 0 f.repLane q' = if q' = q then i + 1 else tgetD 0 s.sec.fuses.repLane q') ∧
        (k ≠ 9 → f.repLane = s.sec.fuses.repLane ∧ ∀ k' i', 1 ≤ k' → k' ≤ 8 → i' < instCount k' →
          (fusedOut v k' i' = true ↔ fusedOut s k' i' = true ∨ k' = k ∧ i' = i)))) ∧
    (go .returnToService →
      let fused : Prop := k = 9 ∧ tgetD 0 s.sec.fuses.repLane q = i + 1 ∨ k ≠ 9 ∧ fusedOut s k i = true
      let ends (v : State) : Prop := critEnds s v d .returnToService 0
      (fused → critEnds s v0 d .returnToService 3) ∧
      (¬ fused → (k = 1 → i ∉ s.units.out → ends v0) ∧
        (k = 1 → i ∈ s.units.out → ∃ v, ends v ∧ v = { v0 with safe := { s.safe with rot := v.safe.rot } } ∧
          rotOf v i = { rotOf s i with returning := true } ∧ ∀ c, c ≠ i → rotOf v c = rotOf s c) ∧
        (engine → (codeOf k, i) ∉ s.units.engOut → ends v0) ∧
        (engine → (codeOf k, i) ∈ s.units.engOut → ends { v0 with units := { s.units with
          engBack := s.units.engBack.filter (fun y => !decide (y.1 = codeOf k ∧ y.2.1 = i)) ++ [(codeOf k, i, 6)] } }) ∧
        (k = 9 → laneSt s q i = none → ends v0) ∧
        (k = 9 → laneSt s q i ≠ none → ∃ v, ends v ∧ laneSt v q i = none ∧ serviceNoted s v 2 (w32 (9 * 2 ^ 28 + q * 256 + i)) 6))) ∧
    (∀ kind quad lane cause, kind < 4 → quad < 8 → lane < 4 →
      let n := quadNo kind quad
      let free : Prop := ∀ e ∈ s.fh.lanes, e.1 = n → e.2.2.1 = 1
      let e : Instr := .laneFault kind quad lane cause
      let others (u : State) : Prop := ∀ n' k', (n', k') ≠ (n, lane) → laneSt u n' k' = laneSt s n' k'
      let judged (st why : Nat) : Prop := ∃ u, exec e s = .next u ∧ laneSt u n lane = some st ∧ others u ∧
        serviceNoted s u why (w32 (9 * 2 ^ 28 + n * 256 + lane)) cause ∧ (kind = 0 → tgetD false u.fh.up (lanePort s quad lane) = false) ∧
        (kind = 1 → 2 * (2 * quad + lane / 2) + lane % 2 ∈ u.ilk.bad) ∧ (kind = 2 → ∀ l ∈ laneLinks s quad lane, (linkSt u l).aligned = false)
      (laneSt s n lane = some 1 ∨ laneSt s n lane = some 2 → exec e s = .next s) ∧
      (laneSt s n lane = none → free → kind ≠ 3 → judged 0 3) ∧
      (laneSt s n lane = none → free → kind = 3 → ∃ u, exec e s = .next u ∧ u = { s with fh := { s.fh with lanes := u.fh.lanes } } ∧
        laneSt u n lane = some 2 ∧ others u) ∧
      (laneSt s n lane = none → ¬ free → judged 1 4) ∧ (laneSt s n lane = some 0 → judged 1 4)) ∧
    ∃ u, exec .linkRetraining s = .next u ∧ u = { s with pg := u.pg, out := u.out, fh := { s.fh with lanes := u.fh.lanes } } ∧
      (∀ e ∈ s.fh.lanes, e.2.2.1 = 2 → laneSt u e.1 e.2.1 = some 0) ∧
      ∀ n l, (∀ e ∈ s.fh.lanes, (e.1, e.2.1) = (n, l) → e.2.2.1 ≠ 2) → laneSt u n l = laneSt s n l

/-! ### Self-test, the safe state, replay (20, 21) -/

/-- A slice starts on a cluster, or on both of a joined pair, at an opportunity of R615, an edge job yielding for it, and is deferred when the next
floor window is too near. A pass moves the due time; a failure takes the cluster out and fails what ran on it. Work moves to spares that passed
lately when a slice is late; past its due time a cluster is UNTESTED. SAF_CTL.ENTER brings a SAFETY partition to the safe state: trigger 6,
a reset at depth JOBS with an injection, or counts where the state holds (R614 to R621, R629 to R632, R662).
Choices of the model: log 90, 91, 92, 101, 102. -/
def Obligations.RotorAndSafeState : Prop :=
  ∀ (s : State) (c : Nat), c < 18 →
    let cs := sliceOf s c
    let S := sliceNs s c
    let r := rotOf s c
    let ready : Prop := ∀ k ∈ cs, takesSlices s k = true ∧ domOn s k = true ∧ domOn s (18 + k) = true ∧ k ∉ s.units.testing
    let busy : Prop := ∃ k ∈ cs, ∃ x, jobThere s k = some x ∧ isRS s x.part = true
    let soon : Prop := ∃ k ∈ cs, floorSoon s k S = true
    let due : Prop := ∃ k ∈ cs, 4000000 ≤ sincePass s k + 1850000 + S
    let win : Prop := testWindow s c = true
    let starts : Prop := ¬ soon ∧ (win ∨ due)
    (∀ l, logOf s c = some l → S = 150000 * divOf s l / 4) ∧
    (¬ ready ∨ busy → exec (.rotorSlice c) s = .next s) ∧
    (ready → ¬ busy →
      (win → soon → ∃ u, exec (.rotorSlice c) s = .next u ∧ u = { s with pg := u.pg } ∧
        OneReg s u SYS_ROT_DEFER 0 c (satAdd (rg s SYS_ROT_DEFER 0 c) 1)) ∧
      (starts → (∃ k ∈ cs, (clu s k).job ≠ none) → exec (.rotorSlice c) s =
        .next (reconsider { s with units := { s.units with wanting := (s.units.wanting ++ cs).eraseDups } })) ∧
      (starts → (∀ k ∈ cs, (clu s k).job = none) → ∃ u, exec (.rotorSlice c) s = .next u ∧
        u = { s with units := { s.units with wanting := u.units.wanting, testing := s.units.testing ++ cs }, safe := { s.safe with rot := u.safe.rot } } ∧
        (∀ k, k ∈ u.units.wanting ↔ k ∈ s.units.wanting ∧ k ∉ cs) ∧
        ∀ k, rotOf u k = if k ∈ cs then { rotOf s k with start := some s.tmu.ticks } else rotOf s k) ∧
      (¬ (win ∧ soon) → ¬ starts → exec (.rotorSlice c) s = .next s)) ∧
    (∀ pass, (r.start = none → exec (.rotorSliceEnd c pass) s = .next s) ∧
      ∀ t, r.start = some t → (c ∉ s.units.testing ∨ passed s t S = false → exec (.rotorSliceEnd c pass) s = .next s) ∧
        (c ∈ s.units.testing → passed s t S = true → ∃ v, exec (.rotorSliceEnd c pass) s = .next (reconsider v) ∧
          (∀ k, k ∈ v.units.testing ↔ k ∈ s.units.testing ∧ k ∉ cs) ∧
          (∀ k ∈ cs, k ≠ c → k ∈ s.units.testing → (rotOf v k).passAt = s.tmu.ticks ∧ (rotOf v k).start = none ∧ counted s v SYS_ROT_PASS k 1) ∧
          (pass = true → counted s v SYS_ROT_PASS c 1 ∧
            rotOf v c = { r with start := none, passAt := s.tmu.ticks, passNs := nowNs s, untested := false, ran := [], back := r.handed.isSome, returning := false } ∧
            (r.returning = true → c ∉ v.units.out ∧ c ∈ v.units.spares ∧ serviceNoted s v 2 (w32 (2 ^ 28 + c)) 6)) ∧
          (pass = false → counted s v SYS_ROT_FAIL_CNT c 1 ∧ evtBit v 0 0 14 = true ∧ rotOf v c = { r with start := none } ∧
            recorded s v (fun e => e.hdr = recHdr 0x18 1 0 0 ∧ e.w1 = w32 c ∧ e.w2 = w32 (r.passNs % 1000000000) ∧ e.w3 = w32 (r.passNs / 1000000000)) ∧
            (r.returning = false → (c, 2) ∈ v.units.leaving) ∧
            ∀ q ∈ r.ran, ∀ x, job? s q.1 = some x → x.part = q.2 → ∃ y, job? v q.1 = some y ∧ ∀ n, n < x.nitems → 2 ≤ tgetD 0 y.marks n))) ∧
    (let sp := readySpares s
      let late : Prop := ∃ k ∈ cs, 4000000 ≤ sincePass s k + 1350000 + sliceNs s k
      let able : Prop := ∀ k ∈ cs, (∃ l, l < 16 ∧ physOf s l = some k) ∧ (rotOf s k).handed = none ∧ (rotOf s k).start = none ∧
        (∀ q ∈ s.units.leaving, q.1 ≠ k) ∧ ∀ e ∈ s.safe.rot, e.2.handed.map (fun h => h.2) ≠ some k
      (∀ k, k ∈ sp ↔ k < 18 ∧ k ∈ s.units.spares ∧ k ∉ s.units.testing ∧ (clu s k).job = none ∧ (rotOf s k).untested = false ∧ sincePass s k ≤ 4000000) ∧
      (¬ late ∨ ¬ able ∨ sp.length < cs.length → exec (.handover c) s = .next s) ∧
      (late → able → cs.length ≤ sp.length → (∀ k ∈ cs, k ∉ s.units.spares) → ∃ v, exec (.handover c) s = .next (reconsider v) ∧ evtBit v 0 0 16 = true ∧
        ∀ q ∈ cs.zip sp, ∀ l, logOf s q.1 = some l → physOf v l = some q.2 ∧ q.2 ∉ v.units.spares ∧
          rotOf v q.1 = { rotOf s q.1 with handed := some (l, q.2), back := false } ∧
          recorded s v (fun e => e.hdr = recHdr 0x18 3 0 0 ∧ e.w1 = w32 q.1 ∧ e.w2 = w32 q.2))) ∧
    (let lateNow : Prop := takesSlices s c = true ∧ r.untested = false ∧ r.returning = false ∧ 4000000 ≤ sincePass s c
     (¬ lateNow → exec (.rotorLate c) s = .next s) ∧
     (lateNow → ∃ u, exec (.rotorLate c) s = .next u ∧ u = { s with pg := u.pg, out := u.out, safe := u.safe } ∧ rotOf u c = { r with untested := true } ∧
        evtBit u 0 0 15 = true ∧ recorded s u (fun e => e.hdr = recHdr 0x18 2 0 0 ∧ e.w1 = w32 c) ∧
        ∀ l p, logOf s c = some l → p ∈ floorParts s l → pclass s p = .safety → part? s p ≠ none → bit (rg s SYS_SAF_CFG 0 p) 25 = true →
          (p, 2) ∈ u.safe.trig)) ∧
    ∀ q p bad, p < 32 → pageOpen s q 0 0 →
      let n := setFld (rg s SYS_SAF_STAT 0 p) 23 0 (Nat.min (2 ^ 24 - 1) (fld (rg s SYS_SAF_STAT 0 p) 23 0 + 1))
      (part? s p = none ∨ pclass s p ≠ .safety → exec (.enter q p bad) s = .next s) ∧
      (part? s p ≠ none → pclass s p = .safety →
        (bit (rg s SYS_SAF_STAT 0 p) 31 = true → (∀ x ∈ s.safe.resets, x.part = p → x.inj = false) →
          ∃ u, exec (.enter q p bad) s = .next u ∧ u = { s with pg := u.pg } ∧ OneReg s u SYS_SAF_STAT 0 p n) ∧
        (bit (rg s SYS_SAF_STAT 0 p) 31 = false → (∀ x ∈ s.safe.resets, x.part ≠ p) → bad = none ∨ (∃ k i, bad = some (k, i) ∧ 6 ≤ k) →
          ∃ u, exec (.enter q p bad) s = .next u ∧ p ∈ u.disp.resetting ∧ evtBit u 0 0 19 = true ∧ rg u SYS_SAF_STAT 0 p = setFld (n ||| bitW 31) 27 24 6 ∧
            recorded s u (fun e => e.hdr = recHdr 0x18 7 0 p ∧ e.w1 = 6) ∧
            (∃ x ∈ u.safe.resets, x.part = p ∧ x.full = false ∧ x.trig = 6 ∧ x.since = s.tmu.ticks ∧ x.inj = bad.isSome) ∧
            (bad ≠ none → evtBit u 0 0 20 = true) ∧ (bad = none → bit (rg u SYS_INJ_STAT 0 0) 31 = true)))

/-- Records of a trace take effect once START's version and images agree: sections, converter grids, remote writes and prior writes at their
places, times and host data in the replay's own books, choices kept for the row that meets them; STOP ends it. A job that waits for
REPLAY_STALL ms with no record left ends the replay with REPLAY_STAT and REPLAY_DIVERGE (R596, R597, R601 to R603).
Choices of the model: log 15, 108, 110. -/
def Obligations.ReplayFollowsItsTrace : Prop :=
  ∀ (s : State) (x : TraceRec),
    (s.trace.replay = none → exec (.replayRecord x) s = .next s ∧ ∀ j, exec (.replayDiverge j) s = .next s) ∧
    ∀ r, s.trace.replay = some r →
      let q := { r with last := r.last + 1 }
      let with_ (y : Replay) : State := { s with trace := { s.trace with replay := some y } }
      let does (z : TraceRec) (v : State) : Prop := exec (.replayRecord z) s = .next (reconsider v)
      (r.ended = true → exec (.replayRecord x) s = .next s ∧ ∀ j, exec (.replayDiverge j) s = .next s) ∧
      (r.ended = false → r.begun = false → (traceRec s r.base 65536 0).1 ≠ 1 ∨ bodyW (traceRec s r.base 65536 0).2.1 0 ≠ 1 ∨
        imagesMatch s r.part (traceRec s r.base 65536 0).2.1 = false → exec (.replayRecord x) s = .next s) ∧
      (r.ended = false → r.begun = true →
        (∀ a n sym prb k ant ok bs, does (.recorded a n sym prb k ant ok bs) (if ok then
          { with_ q with fh := { s.fh with sects := s.fh.sects ++ [⟨a, ant, n, sym, 0, prb, k, false, (aUl s a).1, (aUl s a).2, bs⟩] } } else with_ q)) ∧
        (∀ c n sym bs er, ∃ v, does (.convGrid c n sym bs er) v ∧ v = { with_ q with fh := { s.fh with grids := v.fh.grids } } ∧
          ∀ y a, (cellOf s c).cfg = some y → a < y.rxAnts → ∃ g, gridOf v c n sym a = some g ∧
            g.vals = gridVals ((bs.drop (a * y.prbs * 48)).take (y.prbs * 48)) ∧ g.erased = if a ∈ er then List.range y.prbs else []) ∧
        (∀ a bs, does (.hostRead a bs) (with_ { q with reads := mwrite 0 r.reads a bs })) ∧
        (∀ k v, does (.time k v) (with_ { q with clock := (k, v) })) ∧
        (∀ c l a bs, physOf s l = some c → does (.remote l a bs) (nsWrite (with_ q) c a bs)) ∧
        (∀ o v, objOwner s o ≠ some r.part → does (.remoteObj o v) (with_ q)) ∧
        (∀ c j v, c = 0 ∨ 5 ≤ c → does (.decision c j v) (with_ { q with forced := r.forced ++ [(c, j, v)] })) ∧
        (∀ a bs, does (.priorWrite a bs) (extWrite (with_ q) (handle s 3 0) a bs).1) ∧
        (∀ n, does (.gap n) (with_ { q with ended := true }) ∧ does (.stop n) (with_ { q with ended := true })) ∧
        ∀ j y, job? s j = some y → y.part = r.part → (replayStalled s j = false → exec (.replayDiverge j) s = .next s) ∧
          (replayStalled s j = true → ∃ u, exec (.replayDiverge j) s = .next u ∧
            u = { with_ { r with ended := true } with pg := u.pg, out := u.out } ∧ rg u SYS_REPLAY_STAT 0 0 = w32 r.last ∧ evtBit u 0 0 13 = true))

/-! ### Ilush links (19) -/

/-- A flit with a bad CRC is replayed, the eighth in a row makes its lane faulty: version 2.0 goes on with the other lane, else the link is
lost. A good one is counted and its credit returned; a write lands where the mapped partition may write, else a denial goes back; credits
acknowledge the oldest flits and CR_AVAIL + CR_OUT stays. Heartbeats that agree bring a peer into the domain, others keep it out. A lost
link restores its credits and drops the peer's waits. Training takes the highest common version (R567 to R585).
Choices of the model: log 94. -/
def Obligations.LinksKeepTheirBooks : Prop :=
  ∀ (s : State) (port ch lane : Nat) (b : FlitBody), port < 8 → ch < 4 → lane < 2 →
    let k := 2 * port + lane
    let live : Prop := linkPeer s port ≠ none ∧ k ∉ s.ilk.bad
    let ver := linkVer s port
    let q := 4 + port / 2
    let ln := port % 2 * 2 + lane
    let n := tgetD 0 s.ilk.replays k + 1
    let rx (ok : Bool) (f : FlitBody) (v : State) : Prop := exec (.flitReceive port ch ok lane f) s = .next (reconsider v)
    let good (f : FlitBody) (v : State) : Prop := rx true f v ∧ rg v ILK_FLITS_RX port 0 = rg s ILK_FLITS_RX port 0 + 1 ∧ tgetD 0 v.ilk.replays k = 0
    let given (v : State) : Prop := .flit port 3 [ch, 1] ∈ v.out
    let denied (v : State) : Prop := evtBit v 8 0 3 = true ∧ .flit port 2 [] ∈ v.out
    (¬ live → ∀ ok, rx ok b s) ∧
    (live →
      (n < 8 → ∃ v, rx false b v ∧ v = { s with pg := v.pg, ilk := { s.ilk with replays := v.ilk.replays, active := v.ilk.active } } ∧
        tgetD 0 v.ilk.replays k = n ∧ OneReg s v ILK_REPLAYS port 0 (satAdd (rg s ILK_REPLAYS port 0) 1)) ∧
      (8 ≤ n → laneSt s q ln ≠ some 1 → laneSt s q ln ≠ some 2 → ∃ v, rx false b v ∧ k ∈ v.ilk.bad ∧ evtBit v 0 0 1 = true ∧
        (0x20 ≤ ver → 2 * port + (1 - lane) ∉ s.ilk.bad → linkPeer v port = linkPeer s port ∧ evtBit v 11 port 1 = true) ∧
        (ver < 0x20 ∨ 2 * port + (1 - lane) ∈ s.ilk.bad → linkPeer v port = none ∧ evtBit v 11 port 0 = true)) ∧
      (∃ v, good .management v ∧ given v ∧ v = { s with pg := v.pg, out := v.out, ilk := { s.ilk with replays := v.ilk.replays, active := v.ilk.active } }) ∧
      (∀ rp l a bs, mapPart s port rp = none → ch = 0 → ∃ v, good (.write rp l a bs) v ∧ given v ∧ denied v ∧ evtBit v 11 port 2 = true) ∧
      (∀ rp l a bs p c h o o2, mapPart s port rp = some p → ch = 0 → physOf s l = some c → nsLoc s c a = some (h, o) →
        nsLoc s c (a + (bs.length - 1)) = some (h, o2) → o2 + 1 = o + bs.length → o2 < Config.spadBytes → bs ≠ [] → s.trace.run = none →
        (spAdmit s p h o bs.length = true → ∃ v, good (.write rp l a bs) v ∧ given v ∧
          ∀ i, (clu v h).sp.get i = if o ≤ i ∧ i < o + bs.length then bs.getD (i - o) 0 else (clu s h).sp.get i) ∧
        (spAdmit s p h o bs.length = false → ∃ v, good (.write rp l a bs) v ∧ given v ∧ denied v ∧ v.cl = s.cl)) ∧
      (∀ rp p h, ch = 2 → mapPart s port rp = none → 0x11 ≤ ver → ∃ v, good (.pod rp p h) v ∧ given v ∧ evtBit v 11 port 2 = true) ∧
      (ch = 0 → unacked s port 0 = [] → ∃ v, good .denial v ∧ given v) ∧
      ∀ c m, c < 4 →
        let back := Nat.min m (rg s ILK_CR_OUT port c).toNat
        ∃ v, good (.credits c m) v ∧ v.out = s.out ∧ rg v ILK_CR_OUT port c = rg s ILK_CR_OUT port c - w32 back ∧
          rg v ILK_CR_AVAIL port c = rg s ILK_CR_AVAIL port c + w32 back ∧ unacked v port c = (unacked s port c).drop back ∧
          rg v ILK_CR_AVAIL port c + rg v ILK_CR_OUT port c = rg s ILK_CR_AVAIL port c + rg s ILK_CR_OUT port c) ∧
    (∀ peer cfg skew, peer < 8 →
      let own := rg s ILK_DOM_CFG 0 0
      let beat (v : State) : Prop := exec (.heartbeat port peer cfg skew) s = .next (reconsider v)
      let agrees : Prop := bit cfg 31 = true ∧ fld cfg 23 8 = fld own 23 8 ∧ fld cfg 2 0 = peer ∧ peer ∈ domPeers s
      (linkPeer s port = none ∨ ver < 0x11 → beat s) ∧
      (linkPeer s port ≠ none → 0x11 ≤ ver → ∃ v, beat v ∧ linkPeer v port = some peer ∧ fld (rg v ILK_ILK_STAT port 0) 7 0 = fld cfg 23 16 ∧
        (bit own 31 = false → v.ilk.joined = s.ilk.joined ∧ v.ilk.mismatch = s.ilk.mismatch) ∧
        (bit own 31 = true → agrees → (∀ c, c ∈ v.ilk.joined ↔ c ∈ s.ilk.joined ∨ c = peer) ∧ peer ∉ v.ilk.mismatch ∧
          (domFormed v = true ↔ domFormed s = true ∨ ∀ c ∈ domPeers s, c ∈ s.ilk.joined ∨ c = peer) ∧ tgetD 0 v.ilk.skew peer = skew ∧
          ((rg s ILK_DOM_SKEW_MAX 0 0).toNat < skew → evtBit v 11 0 6 = true)) ∧
        (bit own 31 = true → ¬ agrees → peer ∉ v.ilk.joined ∧ peer ∈ v.ilk.mismatch ∧ (peer ∉ s.ilk.mismatch → evtBit v 11 0 5 = true) ∧
          (peer ∈ s.ilk.joined → domFormed s = true → evtBit v 11 0 4 = true)))) ∧
    (linkPeer s port = none → exec (.linkLost port) s = .next s) ∧
    (∀ chip, linkPeer s port = some chip → ∃ v, exec (.linkLost port) s = .next (reconsider v) ∧ linkPeer v port = none ∧ linkVer v port = ver ∧
      evtBit v 11 port 0 = true ∧ recorded s v (fun e => e.hdr = recHdr 0x1B 1 0 0 ∧ e.w1 = w32 port) ∧
      (∀ c, c < 4 → rg v ILK_CR_LIMIT port c = w32 (credits ver c) ∧ rg v ILK_CR_AVAIL port c = w32 (credits ver c) ∧ rg v ILK_CR_OUT port c = 0 ∧
        unacked v port c = []) ∧
      (∀ w ∈ v.sync.waits, ∀ id, w.who ≠ .peer port id) ∧ ((∀ p, p < 8 → p ≠ port → linkPeer s p ≠ some chip) → chip ∉ v.ilk.joined)) ∧
    (∀ lo hi, let e : Instr := .portTraining port lo hi
      let range := tgetD (0, 0) s.ilk.range port
      let up (u : State) (v : Nat) : Prop := exec e s = .next u ∧ linkPeer u port ≠ none ∧ linkVer u port = v ∧ fld (rg u ILK_ILK_STAT port 0) 30 29 = 3
      (bit (rg s ILK_ILK_CFG port 0) 23 = false → exec e s = .next s) ∧
      (bit (rg s ILK_ILK_CFG port 0) 23 = true →
        (linkPeer s port = none → agreed range (lo, hi) = none → ∃ u, exec e s = .next u ∧ linkPeer u port = none ∧ linkVer u port = 0 ∧ evtBit u 11 port 0 = true) ∧
        (∀ v, linkPeer s port = none → agreed range (lo, hi) = some v → deadLanes s port = [] → ∃ u, up u v ∧
          ∀ c, c < 4 → rg u ILK_CR_AVAIL port c = w32 (credits v c) ∧ rg u ILK_CR_OUT port c = 0) ∧
        (linkPeer s port ≠ none → deadLanes s port = [] → ∃ u, up u ver ∧ ∀ c, c < 4 → rg u ILK_CR_AVAIL port c = rg s ILK_CR_AVAIL port c))) ∧
    ∀ x y v, agreed x y = some v ↔ (v = 0x10 ∨ v = 0x11 ∨ v = 0x20) ∧ max x.1 y.1 ≤ v ∧ v ≤ min x.2 y.2 ∧
      ∀ w, w = 0x11 ∨ w = 0x20 → max x.1 y.1 ≤ w → w ≤ min x.2 y.2 → w ≤ v

/-! ### The machine as a whole -/

/-- A step takes the command at the front of the queue and carries it out on the state with the queue's rest; with no command waiting one tick
of TCLK passes (log 1). No word of the opcode table spells a command, so none is put in front by one. -/
def Obligations.AStepRunsTheFrontCommand : Prop :=
  ∀ (s : State), (∀ i rest, s.pending = i :: rest → step s = exec i { s with pending := rest }) ∧ (s.pending = [] → step s = .next (tick s)) ∧
    ∀ n w, decodeTableWord n w = none ∧ s.withFetchWord n w = s

/-- At reset every register holds the value its table gives, partition 0 is the only partition and OWNER of every page, no job, image, template,
wait or handle exists, every object is 0, nothing is in external memory, and what every step keeps holds.
Choices of the model: log 3, 5. -/
def Obligations.ResetHoldsTheStatedValues : Prop :=
  let s := State.reset
  (∀ r i sel, rg s r i sel = regReset (rkey r i sel) ∧ shadow s r i sel = rg s r i sel) ∧
    (∀ c off i sel x, off < 4096 → i < 256 → sel < 65536 → regResetX (c * 4096 + off) sel = none → regRow? c i off = some x →
      rg s (c * 4096 + off) i sel = w32 x.reset) ∧
    (∀ p, (part? s p).isSome = decide (p = 0)) ∧ (∀ c i, pageExists s c i = true → c < 64 → i < 256 → ownerOf s c i = 0) ∧
    (∀ j, job? s j = none) ∧ s.img.gens = [] ∧ (∀ p n, tplOf s p n = none) ∧ s.sync.waits = [] ∧ (∀ o, tgetD 0 s.sync.objs o = 0) ∧
    (∀ a n, extRead s a n = List.replicate n 0) ∧ s.pending = [] ∧ s.out = [] ∧ Inv s

/-- **Whatever command a step carries out, in whatever state, a next state keeps the canonical form of every memory and the capacities of the
error ring and of the time-stamp queue**; and a tick does. -/
def Obligations.EveryStepKeepsTheInvariant : Prop := ∀ (s t : State), Inv s → step s = .next t → Inv t

/-- **The words of the Clove core lose no bit**: the words of every instruction, with every operand at every value, decode to that instruction.
RDCST and WRCST share a FUNC code and differ in bit 0 of SB. A MAJOR code that R142 does not list decodes to no instruction.
Choices of the model: log 21. -/
def Obligations.CloveWordsRoundTrip : Prop :=
  (∀ (i : Instr) (w v : Word), cloveEncode i = some (w, v) → (∀ c f, i = .rdcst c f → f.sb.getLsbD 0 = false) →
    (∀ c f, i = .wrcst c f → f.sb.getLsbD 0 = true) → (∀ q x, i = .syncWrite q x ∨ i = .syncClear q x → x = .nothing) →
    cloveDecode (cloveCluster i) w v = some i) ∧
  ∀ (c : Nat) (w v : Word), fld w 31 27 ∈ [0x00, 0x07, 0x0D, 0x0E, 0x0F, 0x15, 0x16, 0x17, 0x1A, 0x1B] → cloveDecode c w v = none
end

