-- ==== Sys2Proof/Laws/Tab.lean ====
section
/-! SUPPORT. Laws of sparse tables and byte memories: what is read after an update, and the canonical form kept. -/

namespace Sys2Proof.Machine

open Sys2Proof

variable {α : Type}

theorem tget_tdel (d : Nat → α) (t : Tab α) (k j : Nat) :
    tget d (tdel t k) j = if j = k then d j else tget d t j := by
  induction t with
  | nil => simp [tdel, tget]
  | cons e t ih =>
    obtain ⟨i, v⟩ := e
    rw [tdel, tget]
    split
    · rename_i hik
      rw [ih]
      by_cases hjk : j = k
      · rw [if_pos hjk, if_pos hjk]
      · rw [if_neg hjk, if_neg hjk, if_neg (fun h => hjk (h.symm.trans hik))]
    · rename_i hik
      rw [tget]
      split
      · rename_i hij
        rw [if_neg (fun h => hik (hij.trans h))]
      · exact ih

theorem tget_tput (d : Nat → α) (t : Tab α) (k j : Nat) (v : α) :
    tget d (tput t k v) j = if j = k then v else tget d t j := by
  induction t with
  | nil => simp [tput, tget, eq_comm]
  | cons e t ih =>
    obtain ⟨i, w⟩ := e
    rw [tput]
    split
    · rename_i hik
      rw [tget, tget]
      by_cases hjk : j = k
      · rw [if_pos hjk, if_pos hjk.symm]
      · rw [if_neg hjk, if_neg (fun h => hjk h.symm), if_neg (fun h => hjk (h.symm.trans hik))]
    · rename_i hik
      split
      · rw [tget]
        by_cases hjk : j = k
        · rw [if_pos hjk, if_pos hjk.symm]
        · rw [if_neg hjk, if_neg (fun h => hjk h.symm)]
      · rw [tget, tget]
        split
        · rename_i hij
          rw [if_neg (fun h => hik (hij.trans h))]
        · exact ih

/-- What a table holds after one entry is set. -/
@[simp] theorem tget_tset [DecidableEq α] (d : Nat → α) (t : Tab α) (k j : Nat) (v : α) :
    tget d (tset d t k v) j = if j = k then v else tget d t j := by
  unfold tset
  split
  · rename_i h
    rw [tget_tdel]
    split
    · rename_i h2; rw [h2, h]
    · rfl
  · exact tget_tput d t k j v

@[simp] theorem tgetD_tsetD [DecidableEq α] (d : α) (t : Tab α) (k j : Nat) (v : α) :
    tgetD d (tsetD d t k v) j = if j = k then v else tgetD d t j := by
  simp [tgetD, tsetD]

@[simp] theorem mget_mset (f : Byte) (m : Mem) (a b : Nat) (v : Byte) :
    mget f (mset f m a v) b = if b = a then v else mget f m b := by
  simp [mget, mset]

/-- What a memory holds after bytes are written. -/
theorem mget_mwrite (f : Byte) (bs : List Byte) : ∀ (m : Mem) (a b : Nat),
    mget f (mwrite f m a bs) b = if a ≤ b ∧ b < a + bs.length then bs.getD (b - a) 0 else mget f m b := by
  induction bs with
  | nil =>
    intro m a b
    rw [mwrite, if_neg (by simp)]
  | cons x bs ih =>
    intro m a b
    rw [mwrite, ih, mget_mset]
    by_cases h1 : b = a
    · subst h1; simp
    · by_cases h2 : a + 1 ≤ b ∧ b < a + 1 + bs.length
      · have h3 : a ≤ b ∧ b < a + (x :: bs).length := by simp; omega
        rw [if_pos h2, if_pos h3]
        obtain ⟨n, rfl⟩ : ∃ n, b = a + 1 + n := ⟨b - (a + 1), by omega⟩
        have : a + 1 + n - a = n + 1 := by omega
        simp [this]
      · have h3 : ¬ (a ≤ b ∧ b < a + (x :: bs).length) := by simp; omega
        rw [if_neg h2, if_neg h3, if_neg h1]

theorem mread_length (f : Byte) (m : Mem) : ∀ (n a : Nat), (mread f m a n).length = n := by
  intro n
  induction n with
  | zero => intro a; rfl
  | succ n ih => intro a; simp [mread, ih]

/-- The bytes that were written are read back. -/
theorem mread_mwrite (f : Byte) (m : Mem) (a : Nat) (bs : List Byte) :
    mread f (mwrite f m a bs) a bs.length = bs := by
  have key : ∀ (n k : Nat), k + n = bs.length →
      mread f (mwrite f m a bs) (a + k) n = bs.drop k := by
    intro n
    induction n with
    | zero =>
      intro k h
      rw [mread, List.drop_eq_nil_of_le (by omega)]
    | succ n ih =>
      intro k h
      have hk : k < bs.length := by omega
      have e := ih (k + 1) (by omega)
      rw [mread, mget_mwrite, if_pos (by omega), Nat.add_assoc, e, List.drop_eq_getElem_cons hk]
      simp [hk]
  simpa using key bs.length 0 (by simp)

/-! ### The canonical form -/

theorem tasc_mono {t : Tab α} : ∀ {a b : Nat}, a ≤ b → tasc b t = true → tasc a t = true := by
  cases t with
  | nil => intros; rfl
  | cons e t =>
    intro a b h1 h2
    simp only [tasc, Bool.and_eq_true, decide_eq_true_eq] at *
    exact ⟨le_trans h1 h2.1, h2.2⟩

theorem tasc_tdel (t : Tab α) : ∀ (lo k : Nat), tasc lo t = true → tasc lo (tdel t k) = true := by
  induction t with
  | nil => intros; rfl
  | cons e t ih =>
    intro lo k h
    obtain ⟨i, v⟩ := e
    simp only [tasc, Bool.and_eq_true, decide_eq_true_eq] at h
    unfold tdel
    split
    · exact ih lo k (tasc_mono (by omega) h.2)
    · simp [tasc, h.1, ih (i + 1) k h.2]

theorem tasc_tput (t : Tab α) : ∀ (lo k : Nat) (v : α), lo ≤ k → tasc lo t = true → tasc lo (tput t k v) = true := by
  induction t with
  | nil => intro lo k v h _; simp [tput, tasc, h]
  | cons e t ih =>
    intro lo k v hk h
    obtain ⟨i, w⟩ := e
    simp only [tasc, Bool.and_eq_true, decide_eq_true_eq] at h
    unfold tput
    split
    · rename_i e1; subst e1; simp [tasc, h.1, h.2]
    · split
      · rename_i h2; simp [tasc, hk, h.2]; omega
      · rename_i h2 h3
        simp [tasc, h.1, ih (i + 1) k v (by omega) h.2]

theorem all_tdel (p : Nat × α → Bool) (t : Tab α) (k : Nat) (h : t.all p = true) : (tdel t k).all p = true := by
  induction t with
  | nil => rfl
  | cons e t ih =>
    obtain ⟨i, v⟩ := e
    simp only [List.all_cons, Bool.and_eq_true] at h
    unfold tdel
    split
    · exact ih h.2
    · simp [h.1, ih h.2]

theorem all_tput (p : Nat × α → Bool) (t : Tab α) (k : Nat) (v : α) (h : t.all p = true) (hv : p (k, v) = true) :
    (tput t k v).all p = true := by
  induction t with
  | nil => simp [tput, hv]
  | cons e t ih =>
    obtain ⟨i, w⟩ := e
    simp only [List.all_cons, Bool.and_eq_true] at h
    unfold tput
    split
    · simp [hv, h.2]
    · split
      · simp [hv, h.1, h.2]
      · simp [h.1, ih h.2]

/-- Setting an entry keeps the canonical form. -/
theorem twf_tset [DecidableEq α] (d : Nat → α) (t : Tab α) (k : Nat) (v : α) (h : twf d t = true) :
    twf d (tset d t k v) = true := by
  simp only [twf, Bool.and_eq_true] at *
  unfold tset
  split
  · exact ⟨tasc_tdel t 0 k h.1, all_tdel _ t k h.2⟩
  · rename_i hv
    exact ⟨tasc_tput t 0 k v (Nat.zero_le _) h.1, all_tput _ t k v h.2 (by simpa using hv)⟩

/-- Indexes that rise: nothing below the first. -/
theorem tget_low (d : Nat → α) (t : Tab α) : ∀ (lo k : Nat), tasc lo t = true → k < lo → tget d t k = d k := by
  induction t with
  | nil => intros; rfl
  | cons e t ih =>
    intro lo k h hk
    obtain ⟨i, w⟩ := e
    simp only [tasc, Bool.and_eq_true, decide_eq_true_eq] at h
    unfold tget
    rw [if_neg (by omega)]
    exact ih (i + 1) k h.2 (by omega)

/-- Setting an entry to what it holds changes nothing, in the canonical form. -/
theorem tset_same [DecidableEq α] (d : Nat → α) (t : Tab α) (k : Nat) (h : twf d t = true) :
    tset d t k (tget d t k) = t := by
  simp only [twf, Bool.and_eq_true] at h
  obtain ⟨h1, h2⟩ := h
  have key : ∀ (t : Tab α) (lo : Nat), tasc lo t = true → t.all (fun p => decide (p.2 ≠ d p.1)) = true →
      (tget d t k = d k → tdel t k = t) ∧ (tget d t k ≠ d k → tput t k (tget d t k) = t) := by
    intro t
    induction t with
    | nil => intro lo _ _; exact ⟨fun _ => rfl, fun h => absurd rfl h⟩
    | cons e t ih =>
      intro lo ha hd
      obtain ⟨i, w⟩ := e
      simp only [tasc, Bool.and_eq_true, decide_eq_true_eq] at ha
      simp only [List.all_cons, Bool.and_eq_true, decide_eq_true_eq] at hd
      obtain ⟨i1, i2⟩ := ih (i + 1) ha.2 hd.2
      by_cases hik : i = k
      · subst hik
        have hg : tget d ((i, w) :: t) i = w := by unfold tget; rw [if_pos rfl]
        rw [hg]
        refine ⟨fun h => absurd h hd.1, fun _ => ?_⟩
        unfold tput; rw [if_pos rfl]
      · have hg : tget d ((i, w) :: t) k = tget d t k := by
          conv => lhs; unfold tget
          rw [if_neg hik]
        rw [hg]
        refine ⟨fun h => ?_, fun h => ?_⟩
        · unfold tdel; rw [if_neg hik, i1 h]
        · have : ¬ k < i := fun hk => h (tget_low d t (i + 1) k ha.2 (by omega))
          unfold tput; rw [if_neg hik, if_neg this, i2 h]
  obtain ⟨k1, k2⟩ := key t 0 h1 h2
  unfold tset
  split
  · rename_i h; exact k1 h
  · rename_i h; exact k2 h

/-- Writing a byte keeps the canonical form. -/
theorem mset_wf (f : Byte) (m : Mem) (a : Nat) (b : Byte) (h : Memory.wf f m = true) :
    Memory.wf f (mset f m a b) = true := twf_tset _ m a b h

/-- Writing bytes keeps the canonical form. -/
theorem mwrite_wf (f : Byte) (bs : List Byte) : ∀ (m : Mem) (a : Nat), Memory.wf f m = true →
    Memory.wf f (mwrite f m a bs) = true := by
  induction bs with
  | nil => intro m a h; exact h
  | cons x bs ih => intro m a h; exact ih _ _ (mset_wf f m a x h)

end Sys2Proof.Machine
end

