-- ==== Sys2Proof/Laws/State.lean ====
section
/-! SUPPORT. What each update of the state changes and leaves: one lemma per update and field, all true by unfolding. -/

namespace Sys2Proof.Machine

open Sys2Proof

variable (s : State)

@[simp] theorem setRg_pending (r i sel : Nat) (v : Word) : (setRg s r i sel v).pending = s.pending := by unfold setRg; rfl
@[simp] theorem setRg_freeCtr (r i sel : Nat) (v : Word) : (setRg s r i sel v).freeCtr = s.freeCtr := by unfold setRg; rfl
@[simp] theorem setRg_out (r i sel : Nat) (v : Word) : (setRg s r i sel v).out = s.out := by unfold setRg; rfl
@[simp] theorem setRg_tmu (r i sel : Nat) (v : Word) : (setRg s r i sel v).tmu = s.tmu := by unfold setRg; rfl
@[simp] theorem setRg_mem (r i sel : Nat) (v : Word) : (setRg s r i sel v).mem = s.mem := by unfold setRg; rfl
@[simp] theorem setRg_cl (r i sel : Nat) (v : Word) : (setRg s r i sel v).cl = s.cl := by unfold setRg; rfl
@[simp] theorem setRg_units (r i sel : Nat) (v : Word) : (setRg s r i sel v).units = s.units := by unfold setRg; rfl
@[simp] theorem setRg_eng (r i sel : Nat) (v : Word) : (setRg s r i sel v).eng = s.eng := by unfold setRg; rfl
@[simp] theorem setRg_pod (r i sel : Nat) (v : Word) : (setRg s r i sel v).pod = s.pod := by unfold setRg; rfl
@[simp] theorem setRg_sync (r i sel : Nat) (v : Word) : (setRg s r i sel v).sync = s.sync := by unfold setRg; rfl
@[simp] theorem setRg_disp (r i sel : Nat) (v : Word) : (setRg s r i sel v).disp = s.disp := by unfold setRg; rfl
@[simp] theorem setRg_host (r i sel : Nat) (v : Word) : (setRg s r i sel v).host = s.host := by unfold setRg; rfl
@[simp] theorem setRg_img (r i sel : Nat) (v : Word) : (setRg s r i sel v).img = s.img := by unfold setRg; rfl
@[simp] theorem setRg_cxs (r i sel : Nat) (v : Word) : (setRg s r i sel v).cxs = s.cxs := by unfold setRg; rfl
@[simp] theorem setRg_ilk (r i sel : Nat) (v : Word) : (setRg s r i sel v).ilk = s.ilk := by unfold setRg; rfl
@[simp] theorem setRg_radio (r i sel : Nat) (v : Word) : (setRg s r i sel v).radio = s.radio := by unfold setRg; rfl
@[simp] theorem setRg_fh (r i sel : Nat) (v : Word) : (setRg s r i sel v).fh = s.fh := by unfold setRg; rfl
@[simp] theorem setRg_safe (r i sel : Nat) (v : Word) : (setRg s r i sel v).safe = s.safe := by unfold setRg; rfl
@[simp] theorem setRg_sec (r i sel : Nat) (v : Word) : (setRg s r i sel v).sec = s.sec := by unfold setRg; rfl
@[simp] theorem setRg_pwr (r i sel : Nat) (v : Word) : (setRg s r i sel v).pwr = s.pwr := by unfold setRg; rfl
@[simp] theorem setRg_trace (r i sel : Nat) (v : Word) : (setRg s r i sel v).trace = s.trace := by unfold setRg; rfl

@[simp] theorem setShadow_pending (r i sel : Nat) (v : Word) : (setShadow s r i sel v).pending = s.pending := by unfold setShadow; rfl
@[simp] theorem setShadow_freeCtr (r i sel : Nat) (v : Word) : (setShadow s r i sel v).freeCtr = s.freeCtr := by unfold setShadow; rfl
@[simp] theorem setShadow_out (r i sel : Nat) (v : Word) : (setShadow s r i sel v).out = s.out := by unfold setShadow; rfl
@[simp] theorem setShadow_tmu (r i sel : Nat) (v : Word) : (setShadow s r i sel v).tmu = s.tmu := by unfold setShadow; rfl
@[simp] theorem setShadow_mem (r i sel : Nat) (v : Word) : (setShadow s r i sel v).mem = s.mem := by unfold setShadow; rfl
@[simp] theorem setShadow_cl (r i sel : Nat) (v : Word) : (setShadow s r i sel v).cl = s.cl := by unfold setShadow; rfl
@[simp] theorem setShadow_units (r i sel : Nat) (v : Word) : (setShadow s r i sel v).units = s.units := by unfold setShadow; rfl
@[simp] theorem setShadow_eng (r i sel : Nat) (v : Word) : (setShadow s r i sel v).eng = s.eng := by unfold setShadow; rfl
@[simp] theorem setShadow_pod (r i sel : Nat) (v : Word) : (setShadow s r i sel v).pod = s.pod := by unfold setShadow; rfl
@[simp] theorem setShadow_sync (r i sel : Nat) (v : Word) : (setShadow s r i sel v).sync = s.sync := by unfold setShadow; rfl
@[simp] theorem setShadow_disp (r i sel : Nat) (v : Word) : (setShadow s r i sel v).disp = s.disp := by unfold setShadow; rfl
@[simp] theorem setShadow_host (r i sel : Nat) (v : Word) : (setShadow s r i sel v).host = s.host := by unfold setShadow; rfl
@[simp] theorem setShadow_img (r i sel : Nat) (v : Word) : (setShadow s r i sel v).img = s.img := by unfold setShadow; rfl
@[simp] theorem setShadow_cxs (r i sel : Nat) (v : Word) : (setShadow s r i sel v).cxs = s.cxs := by unfold setShadow; rfl
@[simp] theorem setShadow_ilk (r i sel : Nat) (v : Word) : (setShadow s r i sel v).ilk = s.ilk := by unfold setShadow; rfl
@[simp] theorem setShadow_radio (r i sel : Nat) (v : Word) : (setShadow s r i sel v).radio = s.radio := by unfold setShadow; rfl
@[simp] theorem setShadow_fh (r i sel : Nat) (v : Word) : (setShadow s r i sel v).fh = s.fh := by unfold setShadow; rfl
@[simp] theorem setShadow_safe (r i sel : Nat) (v : Word) : (setShadow s r i sel v).safe = s.safe := by unfold setShadow; rfl
@[simp] theorem setShadow_sec (r i sel : Nat) (v : Word) : (setShadow s r i sel v).sec = s.sec := by unfold setShadow; rfl
@[simp] theorem setShadow_pwr (r i sel : Nat) (v : Word) : (setShadow s r i sel v).pwr = s.pwr := by unfold setShadow; rfl
@[simp] theorem setShadow_trace (r i sel : Nat) (v : Word) : (setShadow s r i sel v).trace = s.trace := by unfold setShadow; rfl

@[simp] theorem wrapRg_pending (r i sel n : Nat) : (wrapRg s r i sel n).pending = s.pending := by unfold wrapRg setRg; rfl
@[simp] theorem wrapRg_freeCtr (r i sel n : Nat) : (wrapRg s r i sel n).freeCtr = s.freeCtr := by unfold wrapRg setRg; rfl
@[simp] theorem wrapRg_out (r i sel n : Nat) : (wrapRg s r i sel n).out = s.out := by unfold wrapRg setRg; rfl
@[simp] theorem wrapRg_tmu (r i sel n : Nat) : (wrapRg s r i sel n).tmu = s.tmu := by unfold wrapRg setRg; rfl
@[simp] theorem wrapRg_mem (r i sel n : Nat) : (wrapRg s r i sel n).mem = s.mem := by unfold wrapRg setRg; rfl
@[simp] theorem wrapRg_cl (r i sel n : Nat) : (wrapRg s r i sel n).cl = s.cl := by unfold wrapRg setRg; rfl
@[simp] theorem wrapRg_units (r i sel n : Nat) : (wrapRg s r i sel n).units = s.units := by unfold wrapRg setRg; rfl
@[simp] theorem wrapRg_eng (r i sel n : Nat) : (wrapRg s r i sel n).eng = s.eng := by unfold wrapRg setRg; rfl
@[simp] theorem wrapRg_pod (r i sel n : Nat) : (wrapRg s r i sel n).pod = s.pod := by unfold wrapRg setRg; rfl
@[simp] theorem wrapRg_sync (r i sel n : Nat) : (wrapRg s r i sel n).sync = s.sync := by unfold wrapRg setRg; rfl
@[simp] theorem wrapRg_disp (r i sel n : Nat) : (wrapRg s r i sel n).disp = s.disp := by unfold wrapRg setRg; rfl
@[simp] theorem wrapRg_host (r i sel n : Nat) : (wrapRg s r i sel n).host = s.host := by unfold wrapRg setRg; rfl
@[simp] theorem wrapRg_img (r i sel n : Nat) : (wrapRg s r i sel n).img = s.img := by unfold wrapRg setRg; rfl
@[simp] theorem wrapRg_cxs (r i sel n : Nat) : (wrapRg s r i sel n).cxs = s.cxs := by unfold wrapRg setRg; rfl
@[simp] theorem wrapRg_ilk (r i sel n : Nat) : (wrapRg s r i sel n).ilk = s.ilk := by unfold wrapRg setRg; rfl
@[simp] theorem wrapRg_radio (r i sel n : Nat) : (wrapRg s r i sel n).radio = s.radio := by unfold wrapRg setRg; rfl
@[simp] theorem wrapRg_fh (r i sel n : Nat) : (wrapRg s r i sel n).fh = s.fh := by unfold wrapRg setRg; rfl
@[simp] theorem wrapRg_safe (r i sel n : Nat) : (wrapRg s r i sel n).safe = s.safe := by unfold wrapRg setRg; rfl
@[simp] theorem wrapRg_sec (r i sel n : Nat) : (wrapRg s r i sel n).sec = s.sec := by unfold wrapRg setRg; rfl
@[simp] theorem wrapRg_pwr (r i sel n : Nat) : (wrapRg s r i sel n).pwr = s.pwr := by unfold wrapRg setRg; rfl
@[simp] theorem wrapRg_trace (r i sel n : Nat) : (wrapRg s r i sel n).trace = s.trace := by unfold wrapRg setRg; rfl

@[simp] theorem satRg_pending (r i sel n : Nat) : (satRg s r i sel n).pending = s.pending := by unfold satRg setRg; rfl
@[simp] theorem satRg_freeCtr (r i sel n : Nat) : (satRg s r i sel n).freeCtr = s.freeCtr := by unfold satRg setRg; rfl
@[simp] theorem satRg_out (r i sel n : Nat) : (satRg s r i sel n).out = s.out := by unfold satRg setRg; rfl
@[simp] theorem satRg_tmu (r i sel n : Nat) : (satRg s r i sel n).tmu = s.tmu := by unfold satRg setRg; rfl
@[simp] theorem satRg_mem (r i sel n : Nat) : (satRg s r i sel n).mem = s.mem := by unfold satRg setRg; rfl
@[simp] theorem satRg_cl (r i sel n : Nat) : (satRg s r i sel n).cl = s.cl := by unfold satRg setRg; rfl
@[simp] theorem satRg_units (r i sel n : Nat) : (satRg s r i sel n).units = s.units := by unfold satRg setRg; rfl
@[simp] theorem satRg_eng (r i sel n : Nat) : (satRg s r i sel n).eng = s.eng := by unfold satRg setRg; rfl
@[simp] theorem satRg_pod (r i sel n : Nat) : (satRg s r i sel n).pod = s.pod := by unfold satRg setRg; rfl
@[simp] theorem satRg_sync (r i sel n : Nat) : (satRg s r i sel n).sync = s.sync := by unfold satRg setRg; rfl
@[simp] theorem satRg_disp (r i sel n : Nat) : (satRg s r i sel n).disp = s.disp := by unfold satRg setRg; rfl
@[simp] theorem satRg_host (r i sel n : Nat) : (satRg s r i sel n).host = s.host := by unfold satRg setRg; rfl
@[simp] theorem satRg_img (r i sel n : Nat) : (satRg s r i sel n).img = s.img := by unfold satRg setRg; rfl
@[simp] theorem satRg_cxs (r i sel n : Nat) : (satRg s r i sel n).cxs = s.cxs := by unfold satRg setRg; rfl
@[simp] theorem satRg_ilk (r i sel n : Nat) : (satRg s r i sel n).ilk = s.ilk := by unfold satRg setRg; rfl
@[simp] theorem satRg_radio (r i sel n : Nat) : (satRg s r i sel n).radio = s.radio := by unfold satRg setRg; rfl
@[simp] theorem satRg_fh (r i sel n : Nat) : (satRg s r i sel n).fh = s.fh := by unfold satRg setRg; rfl
@[simp] theorem satRg_safe (r i sel n : Nat) : (satRg s r i sel n).safe = s.safe := by unfold satRg setRg; rfl
@[simp] theorem satRg_sec (r i sel n : Nat) : (satRg s r i sel n).sec = s.sec := by unfold satRg setRg; rfl
@[simp] theorem satRg_pwr (r i sel n : Nat) : (satRg s r i sel n).pwr = s.pwr := by unfold satRg setRg; rfl
@[simp] theorem satRg_trace (r i sel n : Nat) : (satRg s r i sel n).trace = s.trace := by unfold satRg setRg; rfl

@[simp] theorem satFld_pending (r i sel hi lo : Nat) : (satFld s r i sel hi lo).pending = s.pending := by unfold satFld setRg; rfl
@[simp] theorem satFld_freeCtr (r i sel hi lo : Nat) : (satFld s r i sel hi lo).freeCtr = s.freeCtr := by unfold satFld setRg; rfl
@[simp] theorem satFld_out (r i sel hi lo : Nat) : (satFld s r i sel hi lo).out = s.out := by unfold satFld setRg; rfl
@[simp] theorem satFld_tmu (r i sel hi lo : Nat) : (satFld s r i sel hi lo).tmu = s.tmu := by unfold satFld setRg; rfl
@[simp] theorem satFld_mem (r i sel hi lo : Nat) : (satFld s r i sel hi lo).mem = s.mem := by unfold satFld setRg; rfl
@[simp] theorem satFld_cl (r i sel hi lo : Nat) : (satFld s r i sel hi lo).cl = s.cl := by unfold satFld setRg; rfl
@[simp] theorem satFld_units (r i sel hi lo : Nat) : (satFld s r i sel hi lo).units = s.units := by unfold satFld setRg; rfl
@[simp] theorem satFld_eng (r i sel hi lo : Nat) : (satFld s r i sel hi lo).eng = s.eng := by unfold satFld setRg; rfl
@[simp] theorem satFld_pod (r i sel hi lo : Nat) : (satFld s r i sel hi lo).pod = s.pod := by unfold satFld setRg; rfl
@[simp] theorem satFld_sync (r i sel hi lo : Nat) : (satFld s r i sel hi lo).sync = s.sync := by unfold satFld setRg; rfl
@[simp] theorem satFld_disp (r i sel hi lo : Nat) : (satFld s r i sel hi lo).disp = s.disp := by unfold satFld setRg; rfl
@[simp] theorem satFld_host (r i sel hi lo : Nat) : (satFld s r i sel hi lo).host = s.host := by unfold satFld setRg; rfl
@[simp] theorem satFld_img (r i sel hi lo : Nat) : (satFld s r i sel hi lo).img = s.img := by unfold satFld setRg; rfl
@[simp] theorem satFld_cxs (r i sel hi lo : Nat) : (satFld s r i sel hi lo).cxs = s.cxs := by unfold satFld setRg; rfl
@[simp] theorem satFld_ilk (r i sel hi lo : Nat) : (satFld s r i sel hi lo).ilk = s.ilk := by unfold satFld setRg; rfl
@[simp] theorem satFld_radio (r i sel hi lo : Nat) : (satFld s r i sel hi lo).radio = s.radio := by unfold satFld setRg; rfl
@[simp] theorem satFld_fh (r i sel hi lo : Nat) : (satFld s r i sel hi lo).fh = s.fh := by unfold satFld setRg; rfl
@[simp] theorem satFld_safe (r i sel hi lo : Nat) : (satFld s r i sel hi lo).safe = s.safe := by unfold satFld setRg; rfl
@[simp] theorem satFld_sec (r i sel hi lo : Nat) : (satFld s r i sel hi lo).sec = s.sec := by unfold satFld setRg; rfl
@[simp] theorem satFld_pwr (r i sel hi lo : Nat) : (satFld s r i sel hi lo).pwr = s.pwr := by unfold satFld setRg; rfl
@[simp] theorem satFld_trace (r i sel hi lo : Nat) : (satFld s r i sel hi lo).trace = s.trace := by unfold satFld setRg; rfl

@[simp] theorem emit_pending (o : Output) : (emit s o).pending = s.pending := rfl
@[simp] theorem emit_freeCtr (o : Output) : (emit s o).freeCtr = s.freeCtr := rfl
@[simp] theorem emit_tmu (o : Output) : (emit s o).tmu = s.tmu := rfl
@[simp] theorem emit_pg (o : Output) : (emit s o).pg = s.pg := rfl
@[simp] theorem emit_mem (o : Output) : (emit s o).mem = s.mem := rfl
@[simp] theorem emit_cl (o : Output) : (emit s o).cl = s.cl := rfl
@[simp] theorem emit_units (o : Output) : (emit s o).units = s.units := rfl
@[simp] theorem emit_eng (o : Output) : (emit s o).eng = s.eng := rfl
@[simp] theorem emit_pod (o : Output) : (emit s o).pod = s.pod := rfl
@[simp] theorem emit_sync (o : Output) : (emit s o).sync = s.sync := rfl
@[simp] theorem emit_disp (o : Output) : (emit s o).disp = s.disp := rfl
@[simp] theorem emit_host (o : Output) : (emit s o).host = s.host := rfl
@[simp] theorem emit_img (o : Output) : (emit s o).img = s.img := rfl
@[simp] theorem emit_cxs (o : Output) : (emit s o).cxs = s.cxs := rfl
@[simp] theorem emit_ilk (o : Output) : (emit s o).ilk = s.ilk := rfl
@[simp] theorem emit_radio (o : Output) : (emit s o).radio = s.radio := rfl
@[simp] theorem emit_fh (o : Output) : (emit s o).fh = s.fh := rfl
@[simp] theorem emit_safe (o : Output) : (emit s o).safe = s.safe := rfl
@[simp] theorem emit_sec (o : Output) : (emit s o).sec = s.sec := rfl
@[simp] theorem emit_pwr (o : Output) : (emit s o).pwr = s.pwr := rfl
@[simp] theorem emit_trace (o : Output) : (emit s o).trace = s.trace := rfl

@[simp] theorem setClu_pending (c : Nat) (x : Cluster) : (setClu s c x).pending = s.pending := rfl
@[simp] theorem setClu_freeCtr (c : Nat) (x : Cluster) : (setClu s c x).freeCtr = s.freeCtr := rfl
@[simp] theorem setClu_out (c : Nat) (x : Cluster) : (setClu s c x).out = s.out := rfl
@[simp] theorem setClu_tmu (c : Nat) (x : Cluster) : (setClu s c x).tmu = s.tmu := rfl
@[simp] theorem setClu_pg (c : Nat) (x : Cluster) : (setClu s c x).pg = s.pg := rfl
@[simp] theorem setClu_mem (c : Nat) (x : Cluster) : (setClu s c x).mem = s.mem := rfl
@[simp] theorem setClu_units (c : Nat) (x : Cluster) : (setClu s c x).units = s.units := rfl
@[simp] theorem setClu_eng (c : Nat) (x : Cluster) : (setClu s c x).eng = s.eng := rfl
@[simp] theorem setClu_pod (c : Nat) (x : Cluster) : (setClu s c x).pod = s.pod := rfl
@[simp] theorem setClu_sync (c : Nat) (x : Cluster) : (setClu s c x).sync = s.sync := rfl
@[simp] theorem setClu_disp (c : Nat) (x : Cluster) : (setClu s c x).disp = s.disp := rfl
@[simp] theorem setClu_host (c : Nat) (x : Cluster) : (setClu s c x).host = s.host := rfl
@[simp] theorem setClu_img (c : Nat) (x : Cluster) : (setClu s c x).img = s.img := rfl
@[simp] theorem setClu_cxs (c : Nat) (x : Cluster) : (setClu s c x).cxs = s.cxs := rfl
@[simp] theorem setClu_ilk (c : Nat) (x : Cluster) : (setClu s c x).ilk = s.ilk := rfl
@[simp] theorem setClu_radio (c : Nat) (x : Cluster) : (setClu s c x).radio = s.radio := rfl
@[simp] theorem setClu_fh (c : Nat) (x : Cluster) : (setClu s c x).fh = s.fh := rfl
@[simp] theorem setClu_safe (c : Nat) (x : Cluster) : (setClu s c x).safe = s.safe := rfl
@[simp] theorem setClu_sec (c : Nat) (x : Cluster) : (setClu s c x).sec = s.sec := rfl
@[simp] theorem setClu_pwr (c : Nat) (x : Cluster) : (setClu s c x).pwr = s.pwr := rfl
@[simp] theorem setClu_trace (c : Nat) (x : Cluster) : (setClu s c x).trace = s.trace := rfl

@[simp] theorem setClv_pending (c : Nat) (v : Clv) : (setClv s c v).pending = s.pending := rfl
@[simp] theorem setClv_freeCtr (c : Nat) (v : Clv) : (setClv s c v).freeCtr = s.freeCtr := rfl
@[simp] theorem setClv_out (c : Nat) (v : Clv) : (setClv s c v).out = s.out := rfl
@[simp] theorem setClv_tmu (c : Nat) (v : Clv) : (setClv s c v).tmu = s.tmu := rfl
@[simp] theorem setClv_pg (c : Nat) (v : Clv) : (setClv s c v).pg = s.pg := rfl
@[simp] theorem setClv_mem (c : Nat) (v : Clv) : (setClv s c v).mem = s.mem := rfl
@[simp] theorem setClv_units (c : Nat) (v : Clv) : (setClv s c v).units = s.units := rfl
@[simp] theorem setClv_eng (c : Nat) (v : Clv) : (setClv s c v).eng = s.eng := rfl
@[simp] theorem setClv_pod (c : Nat) (v : Clv) : (setClv s c v).pod = s.pod := rfl
@[simp] theorem setClv_sync (c : Nat) (v : Clv) : (setClv s c v).sync = s.sync := rfl
@[simp] theorem setClv_disp (c : Nat) (v : Clv) : (setClv s c v).disp = s.disp := rfl
@[simp] theorem setClv_host (c : Nat) (v : Clv) : (setClv s c v).host = s.host := rfl
@[simp] theorem setClv_img (c : Nat) (v : Clv) : (setClv s c v).img = s.img := rfl
@[simp] theorem setClv_cxs (c : Nat) (v : Clv) : (setClv s c v).cxs = s.cxs := rfl
@[simp] theorem setClv_ilk (c : Nat) (v : Clv) : (setClv s c v).ilk = s.ilk := rfl
@[simp] theorem setClv_radio (c : Nat) (v : Clv) : (setClv s c v).radio = s.radio := rfl
@[simp] theorem setClv_fh (c : Nat) (v : Clv) : (setClv s c v).fh = s.fh := rfl
@[simp] theorem setClv_safe (c : Nat) (v : Clv) : (setClv s c v).safe = s.safe := rfl
@[simp] theorem setClv_sec (c : Nat) (v : Clv) : (setClv s c v).sec = s.sec := rfl
@[simp] theorem setClv_pwr (c : Nat) (v : Clv) : (setClv s c v).pwr = s.pwr := rfl
@[simp] theorem setClv_trace (c : Nat) (v : Clv) : (setClv s c v).trace = s.trace := rfl

@[simp] theorem setJob_pending (j : Nat) (x : Option Job) : (setJob s j x).pending = s.pending := rfl
@[simp] theorem setJob_freeCtr (j : Nat) (x : Option Job) : (setJob s j x).freeCtr = s.freeCtr := rfl
@[simp] theorem setJob_out (j : Nat) (x : Option Job) : (setJob s j x).out = s.out := rfl
@[simp] theorem setJob_tmu (j : Nat) (x : Option Job) : (setJob s j x).tmu = s.tmu := rfl
@[simp] theorem setJob_pg (j : Nat) (x : Option Job) : (setJob s j x).pg = s.pg := rfl
@[simp] theorem setJob_mem (j : Nat) (x : Option Job) : (setJob s j x).mem = s.mem := rfl
@[simp] theorem setJob_cl (j : Nat) (x : Option Job) : (setJob s j x).cl = s.cl := rfl
@[simp] theorem setJob_units (j : Nat) (x : Option Job) : (setJob s j x).units = s.units := rfl
@[simp] theorem setJob_eng (j : Nat) (x : Option Job) : (setJob s j x).eng = s.eng := rfl
@[simp] theorem setJob_pod (j : Nat) (x : Option Job) : (setJob s j x).pod = s.pod := rfl
@[simp] theorem setJob_sync (j : Nat) (x : Option Job) : (setJob s j x).sync = s.sync := rfl
@[simp] theorem setJob_host (j : Nat) (x : Option Job) : (setJob s j x).host = s.host := rfl
@[simp] theorem setJob_img (j : Nat) (x : Option Job) : (setJob s j x).img = s.img := rfl
@[simp] theorem setJob_cxs (j : Nat) (x : Option Job) : (setJob s j x).cxs = s.cxs := rfl
@[simp] theorem setJob_ilk (j : Nat) (x : Option Job) : (setJob s j x).ilk = s.ilk := rfl
@[simp] theorem setJob_radio (j : Nat) (x : Option Job) : (setJob s j x).radio = s.radio := rfl
@[simp] theorem setJob_fh (j : Nat) (x : Option Job) : (setJob s j x).fh = s.fh := rfl
@[simp] theorem setJob_safe (j : Nat) (x : Option Job) : (setJob s j x).safe = s.safe := rfl
@[simp] theorem setJob_sec (j : Nat) (x : Option Job) : (setJob s j x).sec = s.sec := rfl
@[simp] theorem setJob_pwr (j : Nat) (x : Option Job) : (setJob s j x).pwr = s.pwr := rfl
@[simp] theorem setJob_trace (j : Nat) (x : Option Job) : (setJob s j x).trace = s.trace := rfl

@[simp] theorem setPod_pending (n : Nat) (x : Pod) : (setPod s n x).pending = s.pending := rfl
@[simp] theorem setPod_freeCtr (n : Nat) (x : Pod) : (setPod s n x).freeCtr = s.freeCtr := rfl
@[simp] theorem setPod_out (n : Nat) (x : Pod) : (setPod s n x).out = s.out := rfl
@[simp] theorem setPod_tmu (n : Nat) (x : Pod) : (setPod s n x).tmu = s.tmu := rfl
@[simp] theorem setPod_pg (n : Nat) (x : Pod) : (setPod s n x).pg = s.pg := rfl
@[simp] theorem setPod_mem (n : Nat) (x : Pod) : (setPod s n x).mem = s.mem := rfl
@[simp] theorem setPod_cl (n : Nat) (x : Pod) : (setPod s n x).cl = s.cl := rfl
@[simp] theorem setPod_units (n : Nat) (x : Pod) : (setPod s n x).units = s.units := rfl
@[simp] theorem setPod_eng (n : Nat) (x : Pod) : (setPod s n x).eng = s.eng := rfl
@[simp] theorem setPod_sync (n : Nat) (x : Pod) : (setPod s n x).sync = s.sync := rfl
@[simp] theorem setPod_disp (n : Nat) (x : Pod) : (setPod s n x).disp = s.disp := rfl
@[simp] theorem setPod_host (n : Nat) (x : Pod) : (setPod s n x).host = s.host := rfl
@[simp] theorem setPod_img (n : Nat) (x : Pod) : (setPod s n x).img = s.img := rfl
@[simp] theorem setPod_cxs (n : Nat) (x : Pod) : (setPod s n x).cxs = s.cxs := rfl
@[simp] theorem setPod_ilk (n : Nat) (x : Pod) : (setPod s n x).ilk = s.ilk := rfl
@[simp] theorem setPod_radio (n : Nat) (x : Pod) : (setPod s n x).radio = s.radio := rfl
@[simp] theorem setPod_fh (n : Nat) (x : Pod) : (setPod s n x).fh = s.fh := rfl
@[simp] theorem setPod_safe (n : Nat) (x : Pod) : (setPod s n x).safe = s.safe := rfl
@[simp] theorem setPod_sec (n : Nat) (x : Pod) : (setPod s n x).sec = s.sec := rfl
@[simp] theorem setPod_pwr (n : Nat) (x : Pod) : (setPod s n x).pwr = s.pwr := rfl
@[simp] theorem setPod_trace (n : Nat) (x : Pod) : (setPod s n x).trace = s.trace := rfl

@[simp] theorem setOverflow_pending (p : Nat) (x : List (BitVec 128 × Nat)) : (setOverflow s p x).pending = s.pending := rfl
@[simp] theorem setOverflow_freeCtr (p : Nat) (x : List (BitVec 128 × Nat)) : (setOverflow s p x).freeCtr = s.freeCtr := rfl
@[simp] theorem setOverflow_out (p : Nat) (x : List (BitVec 128 × Nat)) : (setOverflow s p x).out = s.out := rfl
@[simp] theorem setOverflow_tmu (p : Nat) (x : List (BitVec 128 × Nat)) : (setOverflow s p x).tmu = s.tmu := rfl
@[simp] theorem setOverflow_pg (p : Nat) (x : List (BitVec 128 × Nat)) : (setOverflow s p x).pg = s.pg := rfl
@[simp] theorem setOverflow_mem (p : Nat) (x : List (BitVec 128 × Nat)) : (setOverflow s p x).mem = s.mem := rfl
@[simp] theorem setOverflow_cl (p : Nat) (x : List (BitVec 128 × Nat)) : (setOverflow s p x).cl = s.cl := rfl
@[simp] theorem setOverflow_units (p : Nat) (x : List (BitVec 128 × Nat)) : (setOverflow s p x).units = s.units := rfl
@[simp] theorem setOverflow_eng (p : Nat) (x : List (BitVec 128 × Nat)) : (setOverflow s p x).eng = s.eng := rfl
@[simp] theorem setOverflow_sync (p : Nat) (x : List (BitVec 128 × Nat)) : (setOverflow s p x).sync = s.sync := rfl
@[simp] theorem setOverflow_disp (p : Nat) (x : List (BitVec 128 × Nat)) : (setOverflow s p x).disp = s.disp := rfl
@[simp] theorem setOverflow_host (p : Nat) (x : List (BitVec 128 × Nat)) : (setOverflow s p x).host = s.host := rfl
@[simp] theorem setOverflow_img (p : Nat) (x : List (BitVec 128 × Nat)) : (setOverflow s p x).img = s.img := rfl
@[simp] theorem setOverflow_cxs (p : Nat) (x : List (BitVec 128 × Nat)) : (setOverflow s p x).cxs = s.cxs := rfl
@[simp] theorem setOverflow_ilk (p : Nat) (x : List (BitVec 128 × Nat)) : (setOverflow s p x).ilk = s.ilk := rfl
@[simp] theorem setOverflow_radio (p : Nat) (x : List (BitVec 128 × Nat)) : (setOverflow s p x).radio = s.radio := rfl
@[simp] theorem setOverflow_fh (p : Nat) (x : List (BitVec 128 × Nat)) : (setOverflow s p x).fh = s.fh := rfl
@[simp] theorem setOverflow_safe (p : Nat) (x : List (BitVec 128 × Nat)) : (setOverflow s p x).safe = s.safe := rfl
@[simp] theorem setOverflow_sec (p : Nat) (x : List (BitVec 128 × Nat)) : (setOverflow s p x).sec = s.sec := rfl
@[simp] theorem setOverflow_pwr (p : Nat) (x : List (BitVec 128 × Nat)) : (setOverflow s p x).pwr = s.pwr := rfl
@[simp] theorem setOverflow_trace (p : Nat) (x : List (BitVec 128 × Nat)) : (setOverflow s p x).trace = s.trace := rfl

@[simp] theorem setEng_pending (e : Nat) (x : CopyEng) : (setEng s e x).pending = s.pending := rfl
@[simp] theorem setEng_freeCtr (e : Nat) (x : CopyEng) : (setEng s e x).freeCtr = s.freeCtr := rfl
@[simp] theorem setEng_out (e : Nat) (x : CopyEng) : (setEng s e x).out = s.out := rfl
@[simp] theorem setEng_tmu (e : Nat) (x : CopyEng) : (setEng s e x).tmu = s.tmu := rfl
@[simp] theorem setEng_pg (e : Nat) (x : CopyEng) : (setEng s e x).pg = s.pg := rfl
@[simp] theorem setEng_mem (e : Nat) (x : CopyEng) : (setEng s e x).mem = s.mem := rfl
@[simp] theorem setEng_cl (e : Nat) (x : CopyEng) : (setEng s e x).cl = s.cl := rfl
@[simp] theorem setEng_units (e : Nat) (x : CopyEng) : (setEng s e x).units = s.units := rfl
@[simp] theorem setEng_pod (e : Nat) (x : CopyEng) : (setEng s e x).pod = s.pod := rfl
@[simp] theorem setEng_sync (e : Nat) (x : CopyEng) : (setEng s e x).sync = s.sync := rfl
@[simp] theorem setEng_disp (e : Nat) (x : CopyEng) : (setEng s e x).disp = s.disp := rfl
@[simp] theorem setEng_host (e : Nat) (x : CopyEng) : (setEng s e x).host = s.host := rfl
@[simp] theorem setEng_img (e : Nat) (x : CopyEng) : (setEng s e x).img = s.img := rfl
@[simp] theorem setEng_cxs (e : Nat) (x : CopyEng) : (setEng s e x).cxs = s.cxs := rfl
@[simp] theorem setEng_ilk (e : Nat) (x : CopyEng) : (setEng s e x).ilk = s.ilk := rfl
@[simp] theorem setEng_radio (e : Nat) (x : CopyEng) : (setEng s e x).radio = s.radio := rfl
@[simp] theorem setEng_fh (e : Nat) (x : CopyEng) : (setEng s e x).fh = s.fh := rfl
@[simp] theorem setEng_safe (e : Nat) (x : CopyEng) : (setEng s e x).safe = s.safe := rfl
@[simp] theorem setEng_sec (e : Nat) (x : CopyEng) : (setEng s e x).sec = s.sec := rfl
@[simp] theorem setEng_pwr (e : Nat) (x : CopyEng) : (setEng s e x).pwr = s.pwr := rfl
@[simp] theorem setEng_trace (e : Nat) (x : CopyEng) : (setEng s e x).trace = s.trace := rfl

@[simp] theorem setCell_pending (c : Nat) (x : Cell) : (setCell s c x).pending = s.pending := rfl
@[simp] theorem setCell_freeCtr (c : Nat) (x : Cell) : (setCell s c x).freeCtr = s.freeCtr := rfl
@[simp] theorem setCell_out (c : Nat) (x : Cell) : (setCell s c x).out = s.out := rfl
@[simp] theorem setCell_tmu (c : Nat) (x : Cell) : (setCell s c x).tmu = s.tmu := rfl
@[simp] theorem setCell_pg (c : Nat) (x : Cell) : (setCell s c x).pg = s.pg := rfl
@[simp] theorem setCell_mem (c : Nat) (x : Cell) : (setCell s c x).mem = s.mem := rfl
@[simp] theorem setCell_cl (c : Nat) (x : Cell) : (setCell s c x).cl = s.cl := rfl
@[simp] theorem setCell_units (c : Nat) (x : Cell) : (setCell s c x).units = s.units := rfl
@[simp] theorem setCell_eng (c : Nat) (x : Cell) : (setCell s c x).eng = s.eng := rfl
@[simp] theorem setCell_pod (c : Nat) (x : Cell) : (setCell s c x).pod = s.pod := rfl
@[simp] theorem setCell_sync (c : Nat) (x : Cell) : (setCell s c x).sync = s.sync := rfl
@[simp] theorem setCell_disp (c : Nat) (x : Cell) : (setCell s c x).disp = s.disp := rfl
@[simp] theorem setCell_host (c : Nat) (x : Cell) : (setCell s c x).host = s.host := rfl
@[simp] theorem setCell_img (c : Nat) (x : Cell) : (setCell s c x).img = s.img := rfl
@[simp] theorem setCell_cxs (c : Nat) (x : Cell) : (setCell s c x).cxs = s.cxs := rfl
@[simp] theorem setCell_ilk (c : Nat) (x : Cell) : (setCell s c x).ilk = s.ilk := rfl
@[simp] theorem setCell_fh (c : Nat) (x : Cell) : (setCell s c x).fh = s.fh := rfl
@[simp] theorem setCell_safe (c : Nat) (x : Cell) : (setCell s c x).safe = s.safe := rfl
@[simp] theorem setCell_sec (c : Nat) (x : Cell) : (setCell s c x).sec = s.sec := rfl
@[simp] theorem setCell_pwr (c : Nat) (x : Cell) : (setCell s c x).pwr = s.pwr := rfl
@[simp] theorem setCell_trace (c : Nat) (x : Cell) : (setCell s c x).trace = s.trace := rfl

@[simp] theorem setSects_pending (l : List Sector) : (setSects s l).pending = s.pending := rfl
@[simp] theorem setSects_freeCtr (l : List Sector) : (setSects s l).freeCtr = s.freeCtr := rfl
@[simp] theorem setSects_out (l : List Sector) : (setSects s l).out = s.out := rfl
@[simp] theorem setSects_tmu (l : List Sector) : (setSects s l).tmu = s.tmu := rfl
@[simp] theorem setSects_pg (l : List Sector) : (setSects s l).pg = s.pg := rfl
@[simp] theorem setSects_mem (l : List Sector) : (setSects s l).mem = s.mem := rfl
@[simp] theorem setSects_cl (l : List Sector) : (setSects s l).cl = s.cl := rfl
@[simp] theorem setSects_units (l : List Sector) : (setSects s l).units = s.units := rfl
@[simp] theorem setSects_eng (l : List Sector) : (setSects s l).eng = s.eng := rfl
@[simp] theorem setSects_pod (l : List Sector) : (setSects s l).pod = s.pod := rfl
@[simp] theorem setSects_sync (l : List Sector) : (setSects s l).sync = s.sync := rfl
@[simp] theorem setSects_disp (l : List Sector) : (setSects s l).disp = s.disp := rfl
@[simp] theorem setSects_host (l : List Sector) : (setSects s l).host = s.host := rfl
@[simp] theorem setSects_img (l : List Sector) : (setSects s l).img = s.img := rfl
@[simp] theorem setSects_ilk (l : List Sector) : (setSects s l).ilk = s.ilk := rfl
@[simp] theorem setSects_radio (l : List Sector) : (setSects s l).radio = s.radio := rfl
@[simp] theorem setSects_fh (l : List Sector) : (setSects s l).fh = s.fh := rfl
@[simp] theorem setSects_safe (l : List Sector) : (setSects s l).safe = s.safe := rfl
@[simp] theorem setSects_sec (l : List Sector) : (setSects s l).sec = s.sec := rfl
@[simp] theorem setSects_pwr (l : List Sector) : (setSects s l).pwr = s.pwr := rfl
@[simp] theorem setSects_trace (l : List Sector) : (setSects s l).trace = s.trace := rfl

@[simp] theorem setRec_pending (x : Tracer) : (setRec s x).pending = s.pending := rfl
@[simp] theorem setRec_freeCtr (x : Tracer) : (setRec s x).freeCtr = s.freeCtr := rfl
@[simp] theorem setRec_out (x : Tracer) : (setRec s x).out = s.out := rfl
@[simp] theorem setRec_tmu (x : Tracer) : (setRec s x).tmu = s.tmu := rfl
@[simp] theorem setRec_pg (x : Tracer) : (setRec s x).pg = s.pg := rfl
@[simp] theorem setRec_mem (x : Tracer) : (setRec s x).mem = s.mem := rfl
@[simp] theorem setRec_cl (x : Tracer) : (setRec s x).cl = s.cl := rfl
@[simp] theorem setRec_units (x : Tracer) : (setRec s x).units = s.units := rfl
@[simp] theorem setRec_eng (x : Tracer) : (setRec s x).eng = s.eng := rfl
@[simp] theorem setRec_pod (x : Tracer) : (setRec s x).pod = s.pod := rfl
@[simp] theorem setRec_sync (x : Tracer) : (setRec s x).sync = s.sync := rfl
@[simp] theorem setRec_disp (x : Tracer) : (setRec s x).disp = s.disp := rfl
@[simp] theorem setRec_host (x : Tracer) : (setRec s x).host = s.host := rfl
@[simp] theorem setRec_img (x : Tracer) : (setRec s x).img = s.img := rfl
@[simp] theorem setRec_cxs (x : Tracer) : (setRec s x).cxs = s.cxs := rfl
@[simp] theorem setRec_ilk (x : Tracer) : (setRec s x).ilk = s.ilk := rfl
@[simp] theorem setRec_radio (x : Tracer) : (setRec s x).radio = s.radio := rfl
@[simp] theorem setRec_fh (x : Tracer) : (setRec s x).fh = s.fh := rfl
@[simp] theorem setRec_safe (x : Tracer) : (setRec s x).safe = s.safe := rfl
@[simp] theorem setRec_sec (x : Tracer) : (setRec s x).sec = s.sec := rfl
@[simp] theorem setRec_pwr (x : Tracer) : (setRec s x).pwr = s.pwr := rfl

@[simp] theorem setPwr_pending (x : Pwr) : (setPwr s x).pending = s.pending := rfl
@[simp] theorem setPwr_freeCtr (x : Pwr) : (setPwr s x).freeCtr = s.freeCtr := rfl
@[simp] theorem setPwr_out (x : Pwr) : (setPwr s x).out = s.out := rfl
@[simp] theorem setPwr_tmu (x : Pwr) : (setPwr s x).tmu = s.tmu := rfl
@[simp] theorem setPwr_pg (x : Pwr) : (setPwr s x).pg = s.pg := rfl
@[simp] theorem setPwr_mem (x : Pwr) : (setPwr s x).mem = s.mem := rfl
@[simp] theorem setPwr_cl (x : Pwr) : (setPwr s x).cl = s.cl := rfl
@[simp] theorem setPwr_units (x : Pwr) : (setPwr s x).units = s.units := rfl
@[simp] theorem setPwr_eng (x : Pwr) : (setPwr s x).eng = s.eng := rfl
@[simp] theorem setPwr_pod (x : Pwr) : (setPwr s x).pod = s.pod := rfl
@[simp] theorem setPwr_sync (x : Pwr) : (setPwr s x).sync = s.sync := rfl
@[simp] theorem setPwr_disp (x : Pwr) : (setPwr s x).disp = s.disp := rfl
@[simp] theorem setPwr_host (x : Pwr) : (setPwr s x).host = s.host := rfl
@[simp] theorem setPwr_img (x : Pwr) : (setPwr s x).img = s.img := rfl
@[simp] theorem setPwr_cxs (x : Pwr) : (setPwr s x).cxs = s.cxs := rfl
@[simp] theorem setPwr_ilk (x : Pwr) : (setPwr s x).ilk = s.ilk := rfl
@[simp] theorem setPwr_radio (x : Pwr) : (setPwr s x).radio = s.radio := rfl
@[simp] theorem setPwr_fh (x : Pwr) : (setPwr s x).fh = s.fh := rfl
@[simp] theorem setPwr_safe (x : Pwr) : (setPwr s x).safe = s.safe := rfl
@[simp] theorem setPwr_sec (x : Pwr) : (setPwr s x).sec = s.sec := rfl
@[simp] theorem setPwr_trace (x : Pwr) : (setPwr s x).trace = s.trace := rfl

@[simp] theorem setRing_pending (p r : Nat) (x : Ring) : (setRing s p r x).pending = s.pending := rfl
@[simp] theorem setRing_freeCtr (p r : Nat) (x : Ring) : (setRing s p r x).freeCtr = s.freeCtr := rfl
@[simp] theorem setRing_out (p r : Nat) (x : Ring) : (setRing s p r x).out = s.out := rfl
@[simp] theorem setRing_tmu (p r : Nat) (x : Ring) : (setRing s p r x).tmu = s.tmu := rfl
@[simp] theorem setRing_pg (p r : Nat) (x : Ring) : (setRing s p r x).pg = s.pg := rfl
@[simp] theorem setRing_mem (p r : Nat) (x : Ring) : (setRing s p r x).mem = s.mem := rfl
@[simp] theorem setRing_cl (p r : Nat) (x : Ring) : (setRing s p r x).cl = s.cl := rfl
@[simp] theorem setRing_units (p r : Nat) (x : Ring) : (setRing s p r x).units = s.units := rfl
@[simp] theorem setRing_eng (p r : Nat) (x : Ring) : (setRing s p r x).eng = s.eng := rfl
@[simp] theorem setRing_pod (p r : Nat) (x : Ring) : (setRing s p r x).pod = s.pod := rfl
@[simp] theorem setRing_sync (p r : Nat) (x : Ring) : (setRing s p r x).sync = s.sync := rfl
@[simp] theorem setRing_disp (p r : Nat) (x : Ring) : (setRing s p r x).disp = s.disp := rfl
@[simp] theorem setRing_img (p r : Nat) (x : Ring) : (setRing s p r x).img = s.img := rfl
@[simp] theorem setRing_cxs (p r : Nat) (x : Ring) : (setRing s p r x).cxs = s.cxs := rfl
@[simp] theorem setRing_ilk (p r : Nat) (x : Ring) : (setRing s p r x).ilk = s.ilk := rfl
@[simp] theorem setRing_radio (p r : Nat) (x : Ring) : (setRing s p r x).radio = s.radio := rfl
@[simp] theorem setRing_fh (p r : Nat) (x : Ring) : (setRing s p r x).fh = s.fh := rfl
@[simp] theorem setRing_safe (p r : Nat) (x : Ring) : (setRing s p r x).safe = s.safe := rfl
@[simp] theorem setRing_sec (p r : Nat) (x : Ring) : (setRing s p r x).sec = s.sec := rfl
@[simp] theorem setRing_pwr (p r : Nat) (x : Ring) : (setRing s p r x).pwr = s.pwr := rfl
@[simp] theorem setRing_trace (p r : Nat) (x : Ring) : (setRing s p r x).trace = s.trace := rfl

@[simp] theorem setStaged_pending (p : Nat) (x : List (Nat × List Word)) : (setStaged s p x).pending = s.pending := rfl
@[simp] theorem setStaged_freeCtr (p : Nat) (x : List (Nat × List Word)) : (setStaged s p x).freeCtr = s.freeCtr := rfl
@[simp] theorem setStaged_out (p : Nat) (x : List (Nat × List Word)) : (setStaged s p x).out = s.out := rfl
@[simp] theorem setStaged_tmu (p : Nat) (x : List (Nat × List Word)) : (setStaged s p x).tmu = s.tmu := rfl
@[simp] theorem setStaged_pg (p : Nat) (x : List (Nat × List Word)) : (setStaged s p x).pg = s.pg := rfl
@[simp] theorem setStaged_mem (p : Nat) (x : List (Nat × List Word)) : (setStaged s p x).mem = s.mem := rfl
@[simp] theorem setStaged_cl (p : Nat) (x : List (Nat × List Word)) : (setStaged s p x).cl = s.cl := rfl
@[simp] theorem setStaged_units (p : Nat) (x : List (Nat × List Word)) : (setStaged s p x).units = s.units := rfl
@[simp] theorem setStaged_eng (p : Nat) (x : List (Nat × List Word)) : (setStaged s p x).eng = s.eng := rfl
@[simp] theorem setStaged_pod (p : Nat) (x : List (Nat × List Word)) : (setStaged s p x).pod = s.pod := rfl
@[simp] theorem setStaged_sync (p : Nat) (x : List (Nat × List Word)) : (setStaged s p x).sync = s.sync := rfl
@[simp] theorem setStaged_disp (p : Nat) (x : List (Nat × List Word)) : (setStaged s p x).disp = s.disp := rfl
@[simp] theorem setStaged_img (p : Nat) (x : List (Nat × List Word)) : (setStaged s p x).img = s.img := rfl
@[simp] theorem setStaged_cxs (p : Nat) (x : List (Nat × List Word)) : (setStaged s p x).cxs = s.cxs := rfl
@[simp] theorem setStaged_ilk (p : Nat) (x : List (Nat × List Word)) : (setStaged s p x).ilk = s.ilk := rfl
@[simp] theorem setStaged_radio (p : Nat) (x : List (Nat × List Word)) : (setStaged s p x).radio = s.radio := rfl
@[simp] theorem setStaged_fh (p : Nat) (x : List (Nat × List Word)) : (setStaged s p x).fh = s.fh := rfl
@[simp] theorem setStaged_safe (p : Nat) (x : List (Nat × List Word)) : (setStaged s p x).safe = s.safe := rfl
@[simp] theorem setStaged_sec (p : Nat) (x : List (Nat × List Word)) : (setStaged s p x).sec = s.sec := rfl
@[simp] theorem setStaged_pwr (p : Nat) (x : List (Nat × List Word)) : (setStaged s p x).pwr = s.pwr := rfl
@[simp] theorem setStaged_trace (p : Nat) (x : List (Nat × List Word)) : (setStaged s p x).trace = s.trace := rfl

@[simp] theorem setRot_pending (c : Nat) (x : Rot) : (setRot s c x).pending = s.pending := rfl
@[simp] theorem setRot_freeCtr (c : Nat) (x : Rot) : (setRot s c x).freeCtr = s.freeCtr := rfl
@[simp] theorem setRot_out (c : Nat) (x : Rot) : (setRot s c x).out = s.out := rfl
@[simp] theorem setRot_tmu (c : Nat) (x : Rot) : (setRot s c x).tmu = s.tmu := rfl
@[simp] theorem setRot_pg (c : Nat) (x : Rot) : (setRot s c x).pg = s.pg := rfl
@[simp] theorem setRot_mem (c : Nat) (x : Rot) : (setRot s c x).mem = s.mem := rfl
@[simp] theorem setRot_cl (c : Nat) (x : Rot) : (setRot s c x).cl = s.cl := rfl
@[simp] theorem setRot_units (c : Nat) (x : Rot) : (setRot s c x).units = s.units := rfl
@[simp] theorem setRot_eng (c : Nat) (x : Rot) : (setRot s c x).eng = s.eng := rfl
@[simp] theorem setRot_pod (c : Nat) (x : Rot) : (setRot s c x).pod = s.pod := rfl
@[simp] theorem setRot_sync (c : Nat) (x : Rot) : (setRot s c x).sync = s.sync := rfl
@[simp] theorem setRot_disp (c : Nat) (x : Rot) : (setRot s c x).disp = s.disp := rfl
@[simp] theorem setRot_host (c : Nat) (x : Rot) : (setRot s c x).host = s.host := rfl
@[simp] theorem setRot_img (c : Nat) (x : Rot) : (setRot s c x).img = s.img := rfl
@[simp] theorem setRot_cxs (c : Nat) (x : Rot) : (setRot s c x).cxs = s.cxs := rfl
@[simp] theorem setRot_ilk (c : Nat) (x : Rot) : (setRot s c x).ilk = s.ilk := rfl
@[simp] theorem setRot_radio (c : Nat) (x : Rot) : (setRot s c x).radio = s.radio := rfl
@[simp] theorem setRot_fh (c : Nat) (x : Rot) : (setRot s c x).fh = s.fh := rfl
@[simp] theorem setRot_sec (c : Nat) (x : Rot) : (setRot s c x).sec = s.sec := rfl
@[simp] theorem setRot_pwr (c : Nat) (x : Rot) : (setRot s c x).pwr = s.pwr := rfl
@[simp] theorem setRot_trace (c : Nat) (x : Rot) : (setRot s c x).trace = s.trace := rfl

@[simp] theorem setLink_pending (l : Nat) (x : Link) : (setLink s l x).pending = s.pending := rfl
@[simp] theorem setLink_freeCtr (l : Nat) (x : Link) : (setLink s l x).freeCtr = s.freeCtr := rfl
@[simp] theorem setLink_out (l : Nat) (x : Link) : (setLink s l x).out = s.out := rfl
@[simp] theorem setLink_tmu (l : Nat) (x : Link) : (setLink s l x).tmu = s.tmu := rfl
@[simp] theorem setLink_pg (l : Nat) (x : Link) : (setLink s l x).pg = s.pg := rfl
@[simp] theorem setLink_mem (l : Nat) (x : Link) : (setLink s l x).mem = s.mem := rfl
@[simp] theorem setLink_cl (l : Nat) (x : Link) : (setLink s l x).cl = s.cl := rfl
@[simp] theorem setLink_units (l : Nat) (x : Link) : (setLink s l x).units = s.units := rfl
@[simp] theorem setLink_eng (l : Nat) (x : Link) : (setLink s l x).eng = s.eng := rfl
@[simp] theorem setLink_pod (l : Nat) (x : Link) : (setLink s l x).pod = s.pod := rfl
@[simp] theorem setLink_sync (l : Nat) (x : Link) : (setLink s l x).sync = s.sync := rfl
@[simp] theorem setLink_disp (l : Nat) (x : Link) : (setLink s l x).disp = s.disp := rfl
@[simp] theorem setLink_host (l : Nat) (x : Link) : (setLink s l x).host = s.host := rfl
@[simp] theorem setLink_img (l : Nat) (x : Link) : (setLink s l x).img = s.img := rfl
@[simp] theorem setLink_cxs (l : Nat) (x : Link) : (setLink s l x).cxs = s.cxs := rfl
@[simp] theorem setLink_ilk (l : Nat) (x : Link) : (setLink s l x).ilk = s.ilk := rfl
@[simp] theorem setLink_radio (l : Nat) (x : Link) : (setLink s l x).radio = s.radio := rfl
@[simp] theorem setLink_safe (l : Nat) (x : Link) : (setLink s l x).safe = s.safe := rfl
@[simp] theorem setLink_sec (l : Nat) (x : Link) : (setLink s l x).sec = s.sec := rfl
@[simp] theorem setLink_pwr (l : Nat) (x : Link) : (setLink s l x).pwr = s.pwr := rfl
@[simp] theorem setLink_trace (l : Nat) (x : Link) : (setLink s l x).trace = s.trace := rfl

@[simp] theorem setAgc_pending (g : Nat) (x : Agc) : (setAgc s g x).pending = s.pending := rfl
@[simp] theorem setAgc_freeCtr (g : Nat) (x : Agc) : (setAgc s g x).freeCtr = s.freeCtr := rfl
@[simp] theorem setAgc_out (g : Nat) (x : Agc) : (setAgc s g x).out = s.out := rfl
@[simp] theorem setAgc_tmu (g : Nat) (x : Agc) : (setAgc s g x).tmu = s.tmu := rfl
@[simp] theorem setAgc_pg (g : Nat) (x : Agc) : (setAgc s g x).pg = s.pg := rfl
@[simp] theorem setAgc_mem (g : Nat) (x : Agc) : (setAgc s g x).mem = s.mem := rfl
@[simp] theorem setAgc_cl (g : Nat) (x : Agc) : (setAgc s g x).cl = s.cl := rfl
@[simp] theorem setAgc_units (g : Nat) (x : Agc) : (setAgc s g x).units = s.units := rfl
@[simp] theorem setAgc_eng (g : Nat) (x : Agc) : (setAgc s g x).eng = s.eng := rfl
@[simp] theorem setAgc_pod (g : Nat) (x : Agc) : (setAgc s g x).pod = s.pod := rfl
@[simp] theorem setAgc_sync (g : Nat) (x : Agc) : (setAgc s g x).sync = s.sync := rfl
@[simp] theorem setAgc_disp (g : Nat) (x : Agc) : (setAgc s g x).disp = s.disp := rfl
@[simp] theorem setAgc_host (g : Nat) (x : Agc) : (setAgc s g x).host = s.host := rfl
@[simp] theorem setAgc_img (g : Nat) (x : Agc) : (setAgc s g x).img = s.img := rfl
@[simp] theorem setAgc_cxs (g : Nat) (x : Agc) : (setAgc s g x).cxs = s.cxs := rfl
@[simp] theorem setAgc_ilk (g : Nat) (x : Agc) : (setAgc s g x).ilk = s.ilk := rfl
@[simp] theorem setAgc_radio (g : Nat) (x : Agc) : (setAgc s g x).radio = s.radio := rfl
@[simp] theorem setAgc_safe (g : Nat) (x : Agc) : (setAgc s g x).safe = s.safe := rfl
@[simp] theorem setAgc_sec (g : Nat) (x : Agc) : (setAgc s g x).sec = s.sec := rfl
@[simp] theorem setAgc_pwr (g : Nat) (x : Agc) : (setAgc s g x).pwr = s.pwr := rfl
@[simp] theorem setAgc_trace (g : Nat) (x : Agc) : (setAgc s g x).trace = s.trace := rfl

@[simp] theorem setBucket_pending (b : Nat) (x : Bucket) : (setBucket s b x).pending = s.pending := rfl
@[simp] theorem setBucket_freeCtr (b : Nat) (x : Bucket) : (setBucket s b x).freeCtr = s.freeCtr := rfl
@[simp] theorem setBucket_out (b : Nat) (x : Bucket) : (setBucket s b x).out = s.out := rfl
@[simp] theorem setBucket_tmu (b : Nat) (x : Bucket) : (setBucket s b x).tmu = s.tmu := rfl
@[simp] theorem setBucket_pg (b : Nat) (x : Bucket) : (setBucket s b x).pg = s.pg := rfl
@[simp] theorem setBucket_cl (b : Nat) (x : Bucket) : (setBucket s b x).cl = s.cl := rfl
@[simp] theorem setBucket_units (b : Nat) (x : Bucket) : (setBucket s b x).units = s.units := rfl
@[simp] theorem setBucket_eng (b : Nat) (x : Bucket) : (setBucket s b x).eng = s.eng := rfl
@[simp] theorem setBucket_pod (b : Nat) (x : Bucket) : (setBucket s b x).pod = s.pod := rfl
@[simp] theorem setBucket_sync (b : Nat) (x : Bucket) : (setBucket s b x).sync = s.sync := rfl
@[simp] theorem setBucket_disp (b : Nat) (x : Bucket) : (setBucket s b x).disp = s.disp := rfl
@[simp] theorem setBucket_host (b : Nat) (x : Bucket) : (setBucket s b x).host = s.host := rfl
@[simp] theorem setBucket_img (b : Nat) (x : Bucket) : (setBucket s b x).img = s.img := rfl
@[simp] theorem setBucket_cxs (b : Nat) (x : Bucket) : (setBucket s b x).cxs = s.cxs := rfl
@[simp] theorem setBucket_ilk (b : Nat) (x : Bucket) : (setBucket s b x).ilk = s.ilk := rfl
@[simp] theorem setBucket_radio (b : Nat) (x : Bucket) : (setBucket s b x).radio = s.radio := rfl
@[simp] theorem setBucket_fh (b : Nat) (x : Bucket) : (setBucket s b x).fh = s.fh := rfl
@[simp] theorem setBucket_safe (b : Nat) (x : Bucket) : (setBucket s b x).safe = s.safe := rfl
@[simp] theorem setBucket_sec (b : Nat) (x : Bucket) : (setBucket s b x).sec = s.sec := rfl
@[simp] theorem setBucket_pwr (b : Nat) (x : Bucket) : (setBucket s b x).pwr = s.pwr := rfl
@[simp] theorem setBucket_trace (b : Nat) (x : Bucket) : (setBucket s b x).trace = s.trace := rfl

@[simp] theorem setCommit_pending (c i : Nat) (x : PageCommit) : (setCommit s c i x).pending = s.pending := rfl
@[simp] theorem setCommit_freeCtr (c i : Nat) (x : PageCommit) : (setCommit s c i x).freeCtr = s.freeCtr := rfl
@[simp] theorem setCommit_out (c i : Nat) (x : PageCommit) : (setCommit s c i x).out = s.out := rfl
@[simp] theorem setCommit_tmu (c i : Nat) (x : PageCommit) : (setCommit s c i x).tmu = s.tmu := rfl
@[simp] theorem setCommit_mem (c i : Nat) (x : PageCommit) : (setCommit s c i x).mem = s.mem := rfl
@[simp] theorem setCommit_cl (c i : Nat) (x : PageCommit) : (setCommit s c i x).cl = s.cl := rfl
@[simp] theorem setCommit_units (c i : Nat) (x : PageCommit) : (setCommit s c i x).units = s.units := rfl
@[simp] theorem setCommit_eng (c i : Nat) (x : PageCommit) : (setCommit s c i x).eng = s.eng := rfl
@[simp] theorem setCommit_pod (c i : Nat) (x : PageCommit) : (setCommit s c i x).pod = s.pod := rfl
@[simp] theorem setCommit_sync (c i : Nat) (x : PageCommit) : (setCommit s c i x).sync = s.sync := rfl
@[simp] theorem setCommit_disp (c i : Nat) (x : PageCommit) : (setCommit s c i x).disp = s.disp := rfl
@[simp] theorem setCommit_host (c i : Nat) (x : PageCommit) : (setCommit s c i x).host = s.host := rfl
@[simp] theorem setCommit_img (c i : Nat) (x : PageCommit) : (setCommit s c i x).img = s.img := rfl
@[simp] theorem setCommit_cxs (c i : Nat) (x : PageCommit) : (setCommit s c i x).cxs = s.cxs := rfl
@[simp] theorem setCommit_ilk (c i : Nat) (x : PageCommit) : (setCommit s c i x).ilk = s.ilk := rfl
@[simp] theorem setCommit_radio (c i : Nat) (x : PageCommit) : (setCommit s c i x).radio = s.radio := rfl
@[simp] theorem setCommit_fh (c i : Nat) (x : PageCommit) : (setCommit s c i x).fh = s.fh := rfl
@[simp] theorem setCommit_safe (c i : Nat) (x : PageCommit) : (setCommit s c i x).safe = s.safe := rfl
@[simp] theorem setCommit_sec (c i : Nat) (x : PageCommit) : (setCommit s c i x).sec = s.sec := rfl
@[simp] theorem setCommit_pwr (c i : Nat) (x : PageCommit) : (setCommit s c i x).pwr = s.pwr := rfl
@[simp] theorem setCommit_trace (c i : Nat) (x : PageCommit) : (setCommit s c i x).trace = s.trace := rfl

/-! ### What is read after an update -/

@[simp] theorem clu_setClu (c d : Nat) (x : Cluster) : clu (setClu s c x) d = if d = c then x else clu s d := by
  simp only [clu, setClu, tgetD_tsetD]
@[simp] theorem clu_setClv (c d : Nat) (v : Clv) :
    clu (setClv s c v) d = if d = c then { clu s c with clv := v } else clu s d := by
  simp [setClv]
@[simp] theorem clu_setRg (r i sel d : Nat) (v : Word) : clu (setRg s r i sel v) d = clu s d := rfl
@[simp] theorem clu_setJob (j d : Nat) (x : Option Job) : clu (setJob s j x) d = clu s d := rfl
@[simp] theorem clu_emit (o : Output) (d : Nat) : clu (emit s o) d = clu s d := rfl
@[simp] theorem job_setJob (j k : Nat) (x : Option Job) : job? (setJob s j x) k = if k = j then x else job? s k := by
  simp only [job?, setJob, tgetD_tsetD]
@[simp] theorem job_setClu (c k : Nat) (x : Cluster) : job? (setClu s c x) k = job? s k := rfl
@[simp] theorem job_setClv (c k : Nat) (v : Clv) : job? (setClv s c v) k = job? s k := rfl
@[simp] theorem job_setRg (r i sel k : Nat) (v : Word) : job? (setRg s r i sel v) k = job? s k := rfl
/-- Changing a job changes that job alone. -/
@[simp] theorem job_modJob (j k : Nat) (f : Job → Job) :
    job? (modJob s j f) k = if k = j then (job? s j).map f else job? s k := by
  unfold modJob
  cases h : job? s j with
  | none => by_cases e : k = j <;> simp [e, h]
  | some x => by_cases e : k = j <;> simp [e]
@[simp] theorem modJob_pending (j : Nat) (f : Job → Job) : (modJob s j f).pending = s.pending := by
  unfold modJob; split <;> rfl
@[simp] theorem modJob_freeCtr (j : Nat) (f : Job → Job) : (modJob s j f).freeCtr = s.freeCtr := by
  unfold modJob; split <;> rfl
@[simp] theorem modJob_out (j : Nat) (f : Job → Job) : (modJob s j f).out = s.out := by
  unfold modJob; split <;> rfl
@[simp] theorem modJob_tmu (j : Nat) (f : Job → Job) : (modJob s j f).tmu = s.tmu := by
  unfold modJob; split <;> rfl
@[simp] theorem modJob_pg (j : Nat) (f : Job → Job) : (modJob s j f).pg = s.pg := by
  unfold modJob; split <;> rfl
@[simp] theorem modJob_mem (j : Nat) (f : Job → Job) : (modJob s j f).mem = s.mem := by
  unfold modJob; split <;> rfl
@[simp] theorem modJob_cl (j : Nat) (f : Job → Job) : (modJob s j f).cl = s.cl := by
  unfold modJob; split <;> rfl
@[simp] theorem modJob_units (j : Nat) (f : Job → Job) : (modJob s j f).units = s.units := by
  unfold modJob; split <;> rfl
@[simp] theorem modJob_eng (j : Nat) (f : Job → Job) : (modJob s j f).eng = s.eng := by
  unfold modJob; split <;> rfl
@[simp] theorem modJob_pod (j : Nat) (f : Job → Job) : (modJob s j f).pod = s.pod := by
  unfold modJob; split <;> rfl
@[simp] theorem modJob_sync (j : Nat) (f : Job → Job) : (modJob s j f).sync = s.sync := by
  unfold modJob; split <;> rfl
@[simp] theorem modJob_host (j : Nat) (f : Job → Job) : (modJob s j f).host = s.host := by
  unfold modJob; split <;> rfl
@[simp] theorem modJob_img (j : Nat) (f : Job → Job) : (modJob s j f).img = s.img := by
  unfold modJob; split <;> rfl
@[simp] theorem modJob_cxs (j : Nat) (f : Job → Job) : (modJob s j f).cxs = s.cxs := by
  unfold modJob; split <;> rfl
@[simp] theorem modJob_ilk (j : Nat) (f : Job → Job) : (modJob s j f).ilk = s.ilk := by
  unfold modJob; split <;> rfl
@[simp] theorem modJob_radio (j : Nat) (f : Job → Job) : (modJob s j f).radio = s.radio := by
  unfold modJob; split <;> rfl
@[simp] theorem modJob_fh (j : Nat) (f : Job → Job) : (modJob s j f).fh = s.fh := by
  unfold modJob; split <;> rfl
@[simp] theorem modJob_safe (j : Nat) (f : Job → Job) : (modJob s j f).safe = s.safe := by
  unfold modJob; split <;> rfl
@[simp] theorem modJob_sec (j : Nat) (f : Job → Job) : (modJob s j f).sec = s.sec := by
  unfold modJob; split <;> rfl
@[simp] theorem modJob_pwr (j : Nat) (f : Job → Job) : (modJob s j f).pwr = s.pwr := by
  unfold modJob; split <;> rfl
@[simp] theorem modJob_trace (j : Nat) (f : Job → Job) : (modJob s j f).trace = s.trace := by
  unfold modJob; split <;> rfl
@[simp] theorem clu_modJob (j d : Nat) (f : Job → Job) : clu (modJob s j f) d = clu s d := by
  simp [clu]

/-! ### Registers -/

theorem rkey_inj {r i sel r' i' sel' : Nat} (hi : i < 256) (hi' : i' < 256) (hs : sel < 65536) (hs' : sel' < 65536)
    (h : rkey r i sel = rkey r' i' sel') : r = r' ∧ i = i' ∧ sel = sel' := by
  unfold rkey at h
  omega
theorem rg_setRg (r i sel r' i' sel' : Nat) (v : Word) :
    rg (setRg s r i sel v) r' i' sel' = if rkey r' i' sel' = rkey r i sel then v else rg s r' i' sel' := by
  simp only [rg, setRg, tget_tset]
@[simp] theorem rg_setRg_self (r i sel : Nat) (v : Word) : rg (setRg s r i sel v) r i sel = v := by
  simp [rg_setRg]
/-- Writing a register leaves every other register. -/
theorem rg_setRg_ne {r i sel r' i' sel' : Nat} (v : Word) (h : rkey r' i' sel' ≠ rkey r i sel) :
    rg (setRg s r i sel v) r' i' sel' = rg s r' i' sel' := by
  simp [rg_setRg, h]
@[simp] theorem rg_setClu (r i sel c : Nat) (x : Cluster) : rg (setClu s c x) r i sel = rg s r i sel := rfl
@[simp] theorem rg_setClv (r i sel c : Nat) (v : Clv) : rg (setClv s c v) r i sel = rg s r i sel := rfl
@[simp] theorem rg_setJob (r i sel j : Nat) (x : Option Job) : rg (setJob s j x) r i sel = rg s r i sel := rfl
@[simp] theorem rg_emit (r i sel : Nat) (o : Output) : rg (emit s o) r i sel = rg s r i sel := rfl
@[simp] theorem rg_modJob (r i sel j : Nat) (f : Job → Job) : rg (modJob s j f) r i sel = rg s r i sel := by
  simp [rg]

end Sys2Proof.Machine
end

