-- ==== Sys2Proof/Laws/Clove.lean ====
section
/-! SUPPORT. What one instruction of the Clove core can do, said once: every instruction's own lemma rests on these. -/

namespace Sys2Proof.Machine

open Sys2Proof

/-- A core that differs from `k` in where it goes: program counter, delay slots, repeat nest, ROT_BASE and the count of R152. -/
def SameButFlow (k q : Clv) : Prop :=
  q = { k with pc := q.pc, delay := q.delay, reps := q.reps, rotBase := q.rotBase, repCycles := q.repCycles }

theorem repEnd_flow (k : Clv) : ∀ ls pc, SameButFlow k (repEnd k ls pc).1 := by
  suffices h : ∀ ls pc (q : Clv), SameButFlow k q → SameButFlow k (repEnd q ls pc).1 from fun ls pc => h ls pc k rfl
  intro ls
  induction ls with
  | nil => intro pc q h; unfold SameButFlow at *; rw [h]; rfl
  | cons l t ih =>
    intro pc q h
    unfold repEnd
    split
    · have h2 : SameButFlow k (if l.rot = true then { q with rotBase := q.rotBase - 1 } else q) := by
        split
        · unfold SameButFlow at *; rw [h]
        · exact h
      simp only
      split
      · unfold SameButFlow at *; rw [h2]
      · exact ih pc _ h2
    · unfold SameButFlow at *; rw [h]

/-- Moving on leaves everything of a cluster but the flow of its core and the locks of its cache. -/
theorem advancePc_eq (x : Cluster) (len : Nat) (br : Option (Option Nat)) :
    ∃ ic k, advancePc x len br = { x with ic := ic, clv := k } ∧ SameButFlow x.clv k := by
  have h := repEnd_flow x.clv x.clv.reps (x.clv.pc + len)
  cases br with
  | some t => exact ⟨_, _, rfl, rfl⟩
  | none =>
    cases hd : x.clv.delay with
    | some p =>
      obtain ⟨n, t⟩ := p
      by_cases hn : n ≤ 1
      · exact ⟨x.ic, { x.clv with delay := none, pc := t.getD (x.clv.pc + len) }, by simp [advancePc, hd, hn], rfl⟩
      · exact ⟨x.ic, { x.clv with delay := some (n - 1, t), pc := x.clv.pc + len }, by simp [advancePc, hd, hn], rfl⟩
    | none =>
      by_cases hr : x.clv.reps = []
      · exact ⟨x.ic, { x.clv with pc := x.clv.pc + len }, by simp [advancePc, hd, hr], rfl⟩
      · cases ho : (repEnd x.clv x.clv.reps (x.clv.pc + len)).2.2 with
        | false =>
          refine ⟨x.ic, { (repEnd x.clv x.clv.reps (x.clv.pc + len)).1 with pc := (repEnd x.clv x.clv.reps (x.clv.pc + len)).2.1 },
            by simp [advancePc, hd, hr, ho], ?_⟩
          unfold SameButFlow at *; simp only; rw [h]
        | true =>
          refine ⟨_, _, by simp only [advancePc, hd, hr, ho, if_false, if_true, leaveBlock]; rfl, ?_⟩
          unfold SameButFlow at *; simp only; rw [h]

theorem advancePc_branch (x : Cluster) (len : Nat) (t : Option Nat) (h : len = 4) :
    Branches x.clv (advancePc x len (some t)).clv t := by
  subst h; exact ⟨rfl, rfl, rfl, rfl⟩

theorem advancePc_next (x : Cluster) (len : Nat) : Sequential x.clv (advancePc x len none).clv len := by
  refine ⟨?_, ?_, ?_⟩
  · intro h1 h2; simp [advancePc, h1, h2]
  · intro n t h
    have e : advancePc x len none = if n ≤ 1 then { x with clv := { x.clv with delay := none, pc := t.getD (x.clv.pc + len) } }
        else { x with clv := { x.clv with delay := some (n - 1, t), pc := x.clv.pc + len } } := by
      simp [advancePc, h]
    rw [e]
    by_cases hn : n ≤ 1
    · rw [if_pos hn]; exact ⟨rfl, rfl, fun h => by omega, fun _ => ⟨rfl, rfl⟩⟩
    · rw [if_neg hn]; exact ⟨rfl, rfl, fun _ => ⟨rfl, rfl⟩, fun h => absurd h hn⟩
  · intro l r hd hr
    have hne : x.clv.reps ≠ [] := by simp [hr]
    refine ⟨?_, ?_, ?_, ?_⟩
    · have h := repEnd_flow x.clv x.clv.reps (x.clv.pc + len)
      have hdel : (repEnd x.clv x.clv.reps (x.clv.pc + len)).1.delay = x.clv.delay := by
        have : ∀ ls pc (q : Clv), (repEnd q ls pc).1.delay = q.delay := by
          intro ls; induction ls with
          | nil => intros; rfl
          | cons a t ih =>
            intro pc q; unfold repEnd
            split
            · simp only
              split
              · split <;> rfl
              · rw [ih]; split <;> rfl
            · rfl
        exact this _ _ _
      simp only [advancePc, hd, if_neg hne]
      split
      · simp [leaveBlock, hdel, hd]
      · simp [hdel, hd]
    · intro hp; simp [advancePc, hd, hr, repEnd, hp]
    · intro hp hl; simp [advancePc, hd, hr, repEnd, hp, hl]; split <;> rfl
    · intro hp hl ht
      have : ¬ 1 < l.left := by omega
      simp [advancePc, hd, hr, repEnd, hp, this, ht, leaveBlock]; split <;> rfl

/-- Spending a-cycles changes the counts of the core, HOLD_PEAK and the job's run time. -/
theorem spend_spec (s : State) (c n j : Nat) (hj : (clu s c).job = some j) :
    clu (spend s c n) c = { clu s c with clv := (clu s c).clv.spent n } ∧
    (∀ d, d ≠ c → clu (spend s c n) d = clu s d) ∧
    spend s c n = { s with cl := (spend s c n).cl, pg := (spend s c n).pg, disp := (spend s c n).disp } ∧
    ((spend s c n).pg = s.pg ∨ ∃ v, (spend s c n).pg = (setRg s CLV_HOLD_PEAK c 0 v).pg) ∧
    (spend s c n).disp = (modJob s j (fun y => { y with ran := y.ran + n })).disp := by
  unfold spend
  simp only [hj]
  split
  · refine ⟨by simp [hj], fun d hd => by simp [hd], ?_, Or.inr ⟨w32 (heldOff (clu s c).clv n), by simp [setRg]⟩, ?_⟩
    · unfold modJob; split <;> rfl
    · unfold modJob; simp only [job_setRg, job_setClv]; split <;> rfl
  · refine ⟨by simp [hj], fun d hd => by simp [hd], ?_, Or.inl (by simp), ?_⟩
    · unfold modJob; split <;> rfl
    · unfold modJob; simp only [job_setClv]; split <;> rfl

/-- Everything that finishing an instruction does. -/
theorem retire_spec (s : State) (c len n j : Nat) (loads : List (LoadDest × Word)) (br : Option (Option Nat))
    (hj : (clu s c).job = some j) :
    CloveFrame s (retire s c len n loads br) c n j (clu s c) ∧
    ∃ k, (clu (retire s c len n loads br) c).clv = { k with loads := loads, stall := 0 } ∧
      SameButFlow ((clu s c).clv.spent n) k ∧ k = (advancePc { clu s c with clv := (clu s c).clv.spent n } len br).clv := by
  obtain ⟨h1, h2, h3, h4, h5⟩ := spend_spec s c n j hj
  obtain ⟨ic, k, ha, hk⟩ := advancePc_eq { clu s c with clv := (clu s c).clv.spent n } len br
  have hr : retire s c len n loads br = setClu (spend s c n) c { clu s c with ic := ic, clv := { k with loads := loads, stall := 0 } } := by
    unfold retire
    simp only [h1, ha]
  rw [hr]
  refine ⟨⟨?_, ?_, ?_, ?_, ?_, ?_⟩, k, by simp, hk, by rw [ha]⟩
  · rw [h3]; rfl
  · intro d hd; simp [hd, h2 d hd]
  · simp
  · exact h4
  · simp only [setClu_disp, h5]; unfold modJob; split <;> rfl
  · intro i
    have : job? (setClu (spend s c n) c { clu s c with ic := ic, clv := { k with loads := loads, stall := 0 } }) i =
        job? (modJob s j (fun y => { y with ran := y.ran + n })) i := by
      simp only [job?, setClu_disp, h5]
    rw [this, job_modJob]

/-- A state that differs from `s` in cluster `c` alone, which is `x`. -/
def OnlyClu (s t : State) (c : Nat) (x : Cluster) : Prop :=
  t = { s with cl := t.cl } ∧ ∀ d, clu t d = if d = c then x else clu s d

theorem onlyClu_setClu {s t : State} {c : Nat} {x : Cluster} (h : OnlyClu s t c x) (y : Cluster) :
    OnlyClu s (setClu t c y) c y := by
  refine ⟨?_, ?_⟩
  · rw [h.1]; rfl
  · intro d; rw [clu_setClu]; split
    · rfl
    · rename_i hd; rw [h.2 d, if_neg hd]

theorem onlyClu_setClv {s t : State} {c : Nat} {x : Cluster} (h : OnlyClu s t c x) (v : Clv) :
    OnlyClu s (setClv t c v) c { x with clv := v } := by
  have e : setClv t c v = setClu t c { x with clv := v } := by unfold setClv; rw [h.2 c, if_pos rfl]
  rw [e]
  exact onlyClu_setClu h _

/-- The state in which an instruction's body works: the line touched, the loads of the instruction before landed. -/
theorem body_state (s : State) (c off : Nat) (y : Job) : ∃ ic,
    OnlyClu s (landLoads (touchLine s c y off) c) c { clu s c with ic := ic, clv := landed s c } := by
  refine ⟨(clu (touchLine s c y off) c).ic, ?_⟩
  have h := onlyClu_setClu (s := s) (t := s) (c := c) (x := clu s c)
    ⟨rfl, fun d => by split <;> simp_all⟩ (clu (touchLine s c y off) c)
  have e : setClu s c (clu (touchLine s c y off) c) = touchLine s c y off := by simp [touchLine]
  rw [e] at h
  have h2 := onlyClu_setClv h (landed s c)
  have e2 : setClv (touchLine s c y off) c (landed s c) = landLoads (touchLine s c y off) c := by
    simp [landLoads, landed, touchLine]
  rw [e2] at h2
  simpa [touchLine] using h2

/-- Finishing an instruction whose body left cluster `c` as `x` with the core `k`: everything that changes and everything that stays. -/
theorem retire_done {s S : State} {c len n j : Nat} {x : Cluster} {k : Clv} {loads : List (LoadDest × Word)}
    {br : Option (Option Nat)} (hS : OnlyClu s S c { x with clv := k }) (hj : x.job = some j) :
    CloveDone s (retire S c len n loads br) c n j x k loads ∧
      (br = none → Sequential k (clu (retire S c len n loads br) c).clv len) ∧
      (∀ t, br = some t → len = 4 → Branches k (clu (retire S c len n loads br) c).clv t) := by
  have hc : clu S c = { x with clv := k } := by rw [hS.2 c, if_pos rfl]
  have hSj : (clu S c).job = some j := by rw [hc]; exact hj
  obtain ⟨⟨f1, f2, f3, f4, f5, f6⟩, q, hq, hf, ha⟩ := retire_spec S c len n j loads br hSj
  rw [hc] at hf ha f3
  refine ⟨⟨⟨?_, ?_, ?_, ?_, ?_, ?_⟩, ?_⟩, ?_, ?_⟩
  · rw [f1, hS.1]
  · intro d hd; rw [f2 d hd, hS.2 d, if_neg hd]
  · rw [f3]
  · have e : S.pg = s.pg := by rw [hS.1]
    rcases f4 with f4 | ⟨v, f4⟩
    · left; rw [f4, e]
    · right; exact ⟨v, by unfold OneReg at *; rw [f4]; simp only [setRg, e]⟩
  · rw [f5, hS.1]
  · intro i
    have e : ∀ i, job? S i = job? s i := fun i => by simp only [job?]; rw [hS.1]
    rw [f6 i]; simp only [e]
  · rw [hq]; unfold SameButFlow at hf; rw [hf]; rfl
  · intro hb'
    subst hb'
    rw [hq, ha]
    exact advancePc_next { ({ x with clv := k } : Cluster) with clv := k.spent n } len
  · intro t hb' hl
    subst hb'
    rw [hq, ha]
    exact advancePc_branch { ({ x with clv := k } : Cluster) with clv := k.spent n } len t hl

/-- A core that runs runs a job. -/
theorem running_job {s : State} {c j : Nat} {y : Job} {g : Gen} (h : running s c = some (j, y, g)) :
    (clu s c).job = some j ∧ job? s j = some y := by
  unfold running at h
  revert h
  cases hj : (clu s c).job with
  | none => simp [hj]
  | some i =>
    simp only [hj]
    cases hy : job? s i with
    | none => simp
    | some y' =>
      simp only
      split
      · cases hg : genOf s y' with
        | none => simp
        | some g' => simp; intro a b _; subst a; exact ⟨rfl, by rw [hy, b]⟩
      · simp

/-- A core that is ready carries out its instruction's body. -/
theorem cloveRun_eq {s : State} {c len j : Nat} {y : Job} {g : Gen} (h : CloveReady s c len j y g) (n : Nat)
    (body : Job → Gen → Clv → State → CRes) :
    cloveRun s c len n body = (match body y g (clu s c).clv (landLoads (touchLine s c y (clu s c).clv.pc) c) with
      | .done s loads branch => retire s c len n loads branch
      | .skip reason source tag items =>
        skipClove (landLoads (touchLine s c y (clu s c).clv.pc) c) c j len reason source tag items
      | .stall code => stallClove (touchLine s c y (clu s c).clv.pc) c code
      | .wait s => setClv s c { (clu s c).clv with stall := 6 }
      | .skipOver pass reason =>
        skipClove (landLoads (touchLine s c y (clu s c).clv.pc) c) c j pass reason 0 0 none
      | .final s => s) := by
  obtain ⟨h1, h2, h3, h4, h5, h6⟩ := h
  have h3' : ¬ (((clu s c).clv.reps ≠ [] ∧ (clu s c).clv.repCycles ≥ Config.repMax) ∨ syncWaiting s c = true) := by
    simp only [h2, Bool.false_eq_true, or_false, not_and, ge_iff_le, not_le]
    intro hne; rcases h3 with h3 | h3
    · exact absurd h3 hne
    · exact h3
  unfold cloveRun
  simp only [h1, if_neg h3', h4, h5, h6, Bool.not_true, Bool.false_eq_true, if_false, Bool.or_self] <;> rfl

/-- An instruction whose body completes: everything that changes and everything that stays. -/
theorem cloveRun_done {s S : State} {c len cycles j : Nat} {y : Job} {g : Gen} {x : Cluster} {k : Clv}
    {loads : List (LoadDest × Word)} {br : Option (Option Nat)} {body : Job → Gen → Clv → State → CRes}
    (h : CloveReady s c len j y g)
    (hb : body y g (clu s c).clv (landLoads (touchLine s c y (clu s c).clv.pc) c) = .done S loads br)
    (hS : OnlyClu s S c { x with clv := k }) (hj : x.job = (clu s c).job) :
    CloveDone s (cloveRun s c len cycles body) c cycles j x k loads ∧
      (br = none → Sequential k (clu (cloveRun s c len cycles body) c).clv len) ∧
      (∀ t, br = some t → len = 4 → Branches k (clu (cloveRun s c len cycles body) c).clv t) := by
  rw [cloveRun_eq h, hb]
  exact retire_done hS (by rw [hj]; exact (running_job h.1).1)

/-- An instruction that only changes registers of the core, by `fn`. -/
theorem cloveRun_core {s : State} {c len n j : Nat} {y : Job} {g : Gen} {body : Job → Gen → Clv → State → CRes}
    (fn : Clv → Clv) (h : CloveReady s c len j y g)
    (hb : ∀ S, S = { s with cl := S.cl } → body y g (clu s c).clv S = coreDone S c fn) :
    CloveNext s (cloveRun s c len n body) c len n j (clu s c) (fn (landed s c)) [] := by
  obtain ⟨ic, hic⟩ := body_state s c (clu s c).clv.pc y
  have hS := onlyClu_setClv hic (fn (landed s c))
  have e1 : (clu (landLoads (touchLine s c y (clu s c).clv.pc) c) c).clv = landed s c := by rw [hic.2 c, if_pos rfl]
  have hb' := hb (landLoads (touchLine s c y (clu s c).clv.pc) c) hic.1
  rw [coreDone, e1] at hb'
  have r := cloveRun_done (x := { clu s c with ic := ic }) (k := fn (landed s c)) (cycles := n) h hb' hS rfl
  exact ⟨r.1, r.2.1 rfl⟩

end Sys2Proof.Machine
end

