-- ==== Sys2Proof/Laws/Ops.lean ====
section
/-! SUPPORT. What the operations that every family shares can do: events and interrupts (25 R706-R709), the error ring (23
R665-R666), marks of items (02 R89). -/

namespace Sys2Proof.Machine

open Sys2Proof

variable (s : State)

/-! ### Events -/

/-- A state that differs in the register values, the alert line and what was sent. -/
theorem setEvt_eq (c i : Nat) (bits : Word) : ∃ o a, setEvt s c i bits =
    { s with out := o, pg := { s.pg with alert := a, regs := (setRg s (c * 4096 + HDR_EVT) i 0
      (rg s (c * 4096 + HDR_EVT) i 0 ||| bits)).pg.regs } } := by
  have key : ∀ u : State, ∃ o a, alertLow (sendIrq u c i) c i = { u with out := o, pg := { u.pg with alert := a } } := by
    intro u
    have h1 : ∃ o, sendIrq u c i = { u with out := o } := by
      unfold sendIrq emit; simp only; split
      · exact ⟨_, rfl⟩
      · exact ⟨u.out, rfl⟩
    obtain ⟨o, h1⟩ := h1
    rw [h1]
    unfold alertLow emit; simp only; split
    · exact ⟨_, _, rfl⟩
    · exact ⟨o, u.pg.alert, rfl⟩
  unfold setEvt
  simp only
  split
  · obtain ⟨o, a, h⟩ := key (setRg s (c * 4096 + HDR_EVT) i 0 (rg s (c * 4096 + HDR_EVT) i 0 ||| bits))
    exact ⟨o, a, h⟩
  · exact ⟨s.out, s.pg.alert, rfl⟩

/-- The registers after an event is raised. -/
def raisedRegs (c i b : Nat) : Tab Word :=
  tset regReset (tset regReset s.pg.regs (rkey (c * 4096 + HDR_EVT_COUNT) i 0) (rg s (c * 4096 + HDR_EVT_COUNT) i 0 + w32 1))
    (rkey (c * 4096 + HDR_EVT) i 0) (rg s (c * 4096 + HDR_EVT) i 0 ||| bitW b)

/-- What raising an event changes: the two registers, the alert line, and what was sent. -/
theorem raise_eq (c i b : Nat) : ∃ o a, raise s c i b =
    { s with out := o, pg := { s.pg with alert := a, regs := raisedRegs s c i b } } := by
  obtain ⟨o, a, h⟩ := setEvt_eq (countEvt s c i 1) c i (bitW b)
  refine ⟨o, a, ?_⟩
  unfold raise
  rw [h]
  have e : rg (countEvt s c i 1) (c * 4096 + HDR_EVT) i 0 = rg s (c * 4096 + HDR_EVT) i 0 := by
    unfold countEvt wrapRg
    apply rg_setRg_ne
    unfold rkey HDR_EVT HDR_EVT_COUNT
    omega
  rw [e]
  rfl

/-- Registers after an event is raised: EVT and EVT_COUNT of its page change, no other does. -/
theorem rg_raise (c i b r' i' sel' : Nat) : rg (raise s c i b) r' i' sel' =
    if rkey r' i' sel' = rkey (c * 4096 + HDR_EVT) i 0 then rg s (c * 4096 + HDR_EVT) i 0 ||| bitW b
    else if rkey r' i' sel' = rkey (c * 4096 + HDR_EVT_COUNT) i 0 then rg s (c * 4096 + HDR_EVT_COUNT) i 0 + w32 1
    else rg s r' i' sel' := by
  obtain ⟨o, a, h⟩ := raise_eq s c i b
  rw [h]
  simp only [rg, raisedRegs, tget_tset]

@[simp] theorem raise_pending (c i b : Nat) : (raise s c i b).pending = s.pending := by
  obtain ⟨_, _, h⟩ := raise_eq s c i b; rw [h]
@[simp] theorem raise_freeCtr (c i b : Nat) : (raise s c i b).freeCtr = s.freeCtr := by
  obtain ⟨_, _, h⟩ := raise_eq s c i b; rw [h]
@[simp] theorem raise_tmu (c i b : Nat) : (raise s c i b).tmu = s.tmu := by
  obtain ⟨_, _, h⟩ := raise_eq s c i b; rw [h]
@[simp] theorem raise_mem (c i b : Nat) : (raise s c i b).mem = s.mem := by
  obtain ⟨_, _, h⟩ := raise_eq s c i b; rw [h]
@[simp] theorem raise_cl (c i b : Nat) : (raise s c i b).cl = s.cl := by
  obtain ⟨_, _, h⟩ := raise_eq s c i b; rw [h]
@[simp] theorem raise_units (c i b : Nat) : (raise s c i b).units = s.units := by
  obtain ⟨_, _, h⟩ := raise_eq s c i b; rw [h]
@[simp] theorem raise_eng (c i b : Nat) : (raise s c i b).eng = s.eng := by
  obtain ⟨_, _, h⟩ := raise_eq s c i b; rw [h]
@[simp] theorem raise_pod (c i b : Nat) : (raise s c i b).pod = s.pod := by
  obtain ⟨_, _, h⟩ := raise_eq s c i b; rw [h]
@[simp] theorem raise_sync (c i b : Nat) : (raise s c i b).sync = s.sync := by
  obtain ⟨_, _, h⟩ := raise_eq s c i b; rw [h]
@[simp] theorem raise_disp (c i b : Nat) : (raise s c i b).disp = s.disp := by
  obtain ⟨_, _, h⟩ := raise_eq s c i b; rw [h]
@[simp] theorem raise_host (c i b : Nat) : (raise s c i b).host = s.host := by
  obtain ⟨_, _, h⟩ := raise_eq s c i b; rw [h]
@[simp] theorem raise_img (c i b : Nat) : (raise s c i b).img = s.img := by
  obtain ⟨_, _, h⟩ := raise_eq s c i b; rw [h]
@[simp] theorem raise_cxs (c i b : Nat) : (raise s c i b).cxs = s.cxs := by
  obtain ⟨_, _, h⟩ := raise_eq s c i b; rw [h]
@[simp] theorem raise_ilk (c i b : Nat) : (raise s c i b).ilk = s.ilk := by
  obtain ⟨_, _, h⟩ := raise_eq s c i b; rw [h]
@[simp] theorem raise_radio (c i b : Nat) : (raise s c i b).radio = s.radio := by
  obtain ⟨_, _, h⟩ := raise_eq s c i b; rw [h]
@[simp] theorem raise_fh (c i b : Nat) : (raise s c i b).fh = s.fh := by
  obtain ⟨_, _, h⟩ := raise_eq s c i b; rw [h]
@[simp] theorem raise_safe (c i b : Nat) : (raise s c i b).safe = s.safe := by
  obtain ⟨_, _, h⟩ := raise_eq s c i b; rw [h]
@[simp] theorem raise_sec (c i b : Nat) : (raise s c i b).sec = s.sec := by
  obtain ⟨_, _, h⟩ := raise_eq s c i b; rw [h]
@[simp] theorem raise_pwr (c i b : Nat) : (raise s c i b).pwr = s.pwr := by
  obtain ⟨_, _, h⟩ := raise_eq s c i b; rw [h]
@[simp] theorem raise_trace (c i b : Nat) : (raise s c i b).trace = s.trace := by
  obtain ⟨_, _, h⟩ := raise_eq s c i b; rw [h]
@[simp] theorem raise_pg_ering (c i b : Nat) : (raise s c i b).pg.ering = s.pg.ering := by
  obtain ⟨_, _, h⟩ := raise_eq s c i b; rw [h]
@[simp] theorem raise_pg_dropped (c i b : Nat) : (raise s c i b).pg.dropped = s.pg.dropped := by
  obtain ⟨_, _, h⟩ := raise_eq s c i b; rw [h]
@[simp] theorem raise_pg_snap (c i b : Nat) : (raise s c i b).pg.snap = s.pg.snap := by
  obtain ⟨_, _, h⟩ := raise_eq s c i b; rw [h]
@[simp] theorem raise_pg_snapAt (c i b : Nat) : (raise s c i b).pg.snapAt = s.pg.snapAt := by
  obtain ⟨_, _, h⟩ := raise_eq s c i b; rw [h]
@[simp] theorem raise_pg_commits (c i b : Nat) : (raise s c i b).pg.commits = s.pg.commits := by
  obtain ⟨_, _, h⟩ := raise_eq s c i b; rw [h]
@[simp] theorem raise_pg_shadow (c i b : Nat) : (raise s c i b).pg.shadow = s.pg.shadow := by
  obtain ⟨_, _, h⟩ := raise_eq s c i b; rw [h]
@[simp] theorem clu_raise (c i b d : Nat) : clu (raise s c i b) d = clu s d := by simp [clu]
@[simp] theorem job_raise (c i b k : Nat) : job? (raise s c i b) k = job? s k := by simp [job?]

/-! ### The error ring -/

@[simp] theorem logRec_pending (r : ErrRec) : (logRec s r).pending = s.pending := by
  unfold logRec; split
  · rfl
  · simp
@[simp] theorem logRec_freeCtr (r : ErrRec) : (logRec s r).freeCtr = s.freeCtr := by
  unfold logRec; split
  · rfl
  · simp
@[simp] theorem logRec_tmu (r : ErrRec) : (logRec s r).tmu = s.tmu := by
  unfold logRec; split
  · rfl
  · simp
@[simp] theorem logRec_mem (r : ErrRec) : (logRec s r).mem = s.mem := by
  unfold logRec; split
  · rfl
  · simp
@[simp] theorem logRec_cl (r : ErrRec) : (logRec s r).cl = s.cl := by
  unfold logRec; split
  · rfl
  · simp
@[simp] theorem logRec_units (r : ErrRec) : (logRec s r).units = s.units := by
  unfold logRec; split
  · rfl
  · simp
@[simp] theorem logRec_eng (r : ErrRec) : (logRec s r).eng = s.eng := by
  unfold logRec; split
  · rfl
  · simp
@[simp] theorem logRec_pod (r : ErrRec) : (logRec s r).pod = s.pod := by
  unfold logRec; split
  · rfl
  · simp
@[simp] theorem logRec_sync (r : ErrRec) : (logRec s r).sync = s.sync := by
  unfold logRec; split
  · rfl
  · simp
@[simp] theorem logRec_disp (r : ErrRec) : (logRec s r).disp = s.disp := by
  unfold logRec; split
  · rfl
  · simp
@[simp] theorem logRec_host (r : ErrRec) : (logRec s r).host = s.host := by
  unfold logRec; split
  · rfl
  · simp
@[simp] theorem logRec_img (r : ErrRec) : (logRec s r).img = s.img := by
  unfold logRec; split
  · rfl
  · simp
@[simp] theorem logRec_cxs (r : ErrRec) : (logRec s r).cxs = s.cxs := by
  unfold logRec; split
  · rfl
  · simp
@[simp] theorem logRec_ilk (r : ErrRec) : (logRec s r).ilk = s.ilk := by
  unfold logRec; split
  · rfl
  · simp
@[simp] theorem logRec_radio (r : ErrRec) : (logRec s r).radio = s.radio := by
  unfold logRec; split
  · rfl
  · simp
@[simp] theorem logRec_fh (r : ErrRec) : (logRec s r).fh = s.fh := by
  unfold logRec; split
  · rfl
  · simp
@[simp] theorem logRec_safe (r : ErrRec) : (logRec s r).safe = s.safe := by
  unfold logRec; split
  · rfl
  · simp
@[simp] theorem logRec_sec (r : ErrRec) : (logRec s r).sec = s.sec := by
  unfold logRec; split
  · rfl
  · simp
@[simp] theorem logRec_pwr (r : ErrRec) : (logRec s r).pwr = s.pwr := by
  unfold logRec; split
  · rfl
  · simp
@[simp] theorem logRec_trace (r : ErrRec) : (logRec s r).trace = s.trace := by
  unfold logRec; split
  · rfl
  · simp
/-- A record is appended while the ring has room (R666). -/
theorem logRec_room (r : ErrRec) (h : s.pg.ering.length < Config.errRing) :
    logRec s r = { s with pg := { s.pg with ering := s.pg.ering ++ [r] } } := by
  unfold logRec; rw [if_pos h]
/-- The ring never holds more than it can. -/
theorem logRec_bound (r : ErrRec) (h : s.pg.ering.length ≤ Config.errRing) : (logRec s r).pg.ering.length ≤ Config.errRing := by
  unfold logRec; split
  · simp; omega
  · simp; exact h
@[simp] theorem logErr_pending (ty reason source p : Nat) (w1 w2 w3 w4 w5 : Word) :
    (logErr s ty reason source p w1 w2 w3 w4 w5).pending = s.pending := by simp [logErr]
@[simp] theorem logErr_freeCtr (ty reason source p : Nat) (w1 w2 w3 w4 w5 : Word) :
    (logErr s ty reason source p w1 w2 w3 w4 w5).freeCtr = s.freeCtr := by simp [logErr]
@[simp] theorem logErr_tmu (ty reason source p : Nat) (w1 w2 w3 w4 w5 : Word) :
    (logErr s ty reason source p w1 w2 w3 w4 w5).tmu = s.tmu := by simp [logErr]
@[simp] theorem logErr_mem (ty reason source p : Nat) (w1 w2 w3 w4 w5 : Word) :
    (logErr s ty reason source p w1 w2 w3 w4 w5).mem = s.mem := by simp [logErr]
@[simp] theorem logErr_cl (ty reason source p : Nat) (w1 w2 w3 w4 w5 : Word) :
    (logErr s ty reason source p w1 w2 w3 w4 w5).cl = s.cl := by simp [logErr]
@[simp] theorem logErr_units (ty reason source p : Nat) (w1 w2 w3 w4 w5 : Word) :
    (logErr s ty reason source p w1 w2 w3 w4 w5).units = s.units := by simp [logErr]
@[simp] theorem logErr_eng (ty reason source p : Nat) (w1 w2 w3 w4 w5 : Word) :
    (logErr s ty reason source p w1 w2 w3 w4 w5).eng = s.eng := by simp [logErr]
@[simp] theorem logErr_pod (ty reason source p : Nat) (w1 w2 w3 w4 w5 : Word) :
    (logErr s ty reason source p w1 w2 w3 w4 w5).pod = s.pod := by simp [logErr]
@[simp] theorem logErr_sync (ty reason source p : Nat) (w1 w2 w3 w4 w5 : Word) :
    (logErr s ty reason source p w1 w2 w3 w4 w5).sync = s.sync := by simp [logErr]
@[simp] theorem logErr_disp (ty reason source p : Nat) (w1 w2 w3 w4 w5 : Word) :
    (logErr s ty reason source p w1 w2 w3 w4 w5).disp = s.disp := by simp [logErr]
@[simp] theorem logErr_host (ty reason source p : Nat) (w1 w2 w3 w4 w5 : Word) :
    (logErr s ty reason source p w1 w2 w3 w4 w5).host = s.host := by simp [logErr]
@[simp] theorem logErr_img (ty reason source p : Nat) (w1 w2 w3 w4 w5 : Word) :
    (logErr s ty reason source p w1 w2 w3 w4 w5).img = s.img := by simp [logErr]
@[simp] theorem logErr_cxs (ty reason source p : Nat) (w1 w2 w3 w4 w5 : Word) :
    (logErr s ty reason source p w1 w2 w3 w4 w5).cxs = s.cxs := by simp [logErr]
@[simp] theorem logErr_ilk (ty reason source p : Nat) (w1 w2 w3 w4 w5 : Word) :
    (logErr s ty reason source p w1 w2 w3 w4 w5).ilk = s.ilk := by simp [logErr]
@[simp] theorem logErr_radio (ty reason source p : Nat) (w1 w2 w3 w4 w5 : Word) :
    (logErr s ty reason source p w1 w2 w3 w4 w5).radio = s.radio := by simp [logErr]
@[simp] theorem logErr_fh (ty reason source p : Nat) (w1 w2 w3 w4 w5 : Word) :
    (logErr s ty reason source p w1 w2 w3 w4 w5).fh = s.fh := by simp [logErr]
@[simp] theorem logErr_safe (ty reason source p : Nat) (w1 w2 w3 w4 w5 : Word) :
    (logErr s ty reason source p w1 w2 w3 w4 w5).safe = s.safe := by simp [logErr]
@[simp] theorem logErr_sec (ty reason source p : Nat) (w1 w2 w3 w4 w5 : Word) :
    (logErr s ty reason source p w1 w2 w3 w4 w5).sec = s.sec := by simp [logErr]
@[simp] theorem logErr_pwr (ty reason source p : Nat) (w1 w2 w3 w4 w5 : Word) :
    (logErr s ty reason source p w1 w2 w3 w4 w5).pwr = s.pwr := by simp [logErr]
@[simp] theorem logErr_trace (ty reason source p : Nat) (w1 w2 w3 w4 w5 : Word) :
    (logErr s ty reason source p w1 w2 w3 w4 w5).trace = s.trace := by simp [logErr]
@[simp] theorem clu_logErr (ty reason source p d : Nat) (w1 w2 w3 w4 w5 : Word) :
    clu (logErr s ty reason source p w1 w2 w3 w4 w5) d = clu s d := by simp [clu]
@[simp] theorem job_logErr (ty reason source p k : Nat) (w1 w2 w3 w4 w5 : Word) :
    job? (logErr s ty reason source p w1 w2 w3 w4 w5) k = job? s k := by simp [job?]

theorem rg_logRec_lt (r : ErrRec) (r' i' sel' : Nat) (h1 : rkey r' i' sel' ≠ rkey SYS_ERR_LOST 0 0)
    (h2 : rkey r' i' sel' ≠ rkey (0 * 4096 + HDR_EVT) 0 0) (h3 : rkey r' i' sel' ≠ rkey (0 * 4096 + HDR_EVT_COUNT) 0 0) :
    rg (logRec s r) r' i' sel' = rg s r' i' sel' := by
  unfold logRec; split
  · rfl
  · rw [rg_raise, if_neg h2, if_neg h3]
    unfold satRg
    rw [rg_setRg_ne _ _ h1]; rfl
/-- A record leaves every register but those that count the records lost. -/
theorem rg_logErr (ty reason source p : Nat) (w1 w2 w3 w4 w5 : Word) (r' i' sel' : Nat) (h : 4096 * 256 ≤ r' * 256 + i') :
    rg (logErr s ty reason source p w1 w2 w3 w4 w5) r' i' sel' = rg s r' i' sel' := by
  unfold logErr
  apply rg_logRec_lt
  all_goals (unfold rkey; intro e; simp only [HDR_EVT, HDR_EVT_COUNT, SYS_ERR_LOST] at e; omega)

/-! ### Marks -/

theorem mark_le (x : Job) (lvl idx i : Nat) : tgetD 0 x.marks i ≤ tgetD 0 (x.mark lvl idx).marks i := by
  unfold Job.mark; split
  · simp only [tgetD_tsetD]; split
    · rename_i h; subst h; exact Nat.le_max_right _ _
    · exact le_refl _
  · exact le_refl _
theorem mark_nitems (x : Job) (lvl idx : Nat) : (x.mark lvl idx).nitems = x.nitems := by unfold Job.mark; split <;> rfl
theorem markAll_cons (x : Job) (lvl i : Nat) (l : List Nat) : x.markAll lvl (i :: l) = (x.mark lvl i).markAll lvl l := rfl
theorem markAll_le (lvl : Nat) (l : List Nat) : ∀ (x : Job) (i : Nat), tgetD 0 x.marks i ≤ tgetD 0 (x.markAll lvl l).marks i := by
  induction l with
  | nil => intro x i; exact le_refl _
  | cons a l ih => intro x i; rw [markAll_cons]; exact le_trans (mark_le x lvl a i) (ih _ i)
/-- A mark of a level stands at least at that level for every item of the list. -/
theorem markAll_marks (lvl : Nat) (l : List Nat) : ∀ (x : Job) (i : Nat), i ∈ l → i < x.nitems →
    lvl ≤ tgetD 0 (x.markAll lvl l).marks i := by
  induction l with
  | nil => intro x i h; cases h
  | cons a l ih =>
    intro x i h hi
    rw [markAll_cons]
    rcases List.mem_cons.1 h with rfl | h
    · refine le_trans ?_ (markAll_le lvl l _ i)
      unfold Job.mark; rw [if_pos hi]; simp only [tgetD_tsetD, if_true]; exact Nat.le_max_left _ _
    · exact ih _ i h (by rw [mark_nitems]; exact hi)

/-- A job that differs in its marks and causes alone. -/
def SameButMarks (x y : Job) : Prop := y = { x with marks := y.marks, causes := y.causes }
theorem markAll_same (lvl : Nat) (l : List Nat) : ∀ x : Job, SameButMarks x (x.markAll lvl l) := by
  induction l with
  | nil => intro x; rfl
  | cons a l ih =>
    intro x
    have h := ih (x.mark lvl a)
    rw [markAll_cons]
    unfold SameButMarks at *
    rw [h]
    unfold Job.mark; split <;> rfl

/-- Marking items of a job changes that job's marks and causes, and raises FAULT on a core. -/
theorem markItems_spec (j lvl : Nat) (idxs : List Nat) (y : Job) (hy : job? s j = some y) :
    ∃ y', markItems s j lvl idxs none = setJob s j (some y') ∧ SameButMarks y y' ∧
      ∀ i, i ∈ idxs → i < y.nitems → lvl ≤ tgetD 0 y'.marks i := by
  unfold markItems
  simp only [hy]
  refine ⟨_, rfl, ?_, ?_⟩
  · have h := markAll_same lvl idxs (if lvl = 2 then y.blame 5 s.tmu.ticks idxs else y)
    unfold SameButMarks at *
    rw [h]
    split <;> rfl
  · intro i hi hn
    apply markAll_marks _ _ _ _ hi
    split <;> exact hn

end Sys2Proof.Machine
end

