-- ==== Sys2Proof/Laws/Records.lean ====
section
/-! SUPPORT. What posting a record, completing a descriptor and closing a job can change: the host interface, host memory and
the outputs; where an event is raised, registers besides. -/

namespace Sys2Proof.Machine

open Sys2Proof

/-- `t` differs from `s` in the host interface, host memory and the outputs alone. -/
def HostOnly (s t : State) : Prop := ∃ h m o, t = { s with host := h, mem := { s.mem with host := m }, out := o }
/-- In registers and SB_ALERT_N besides. -/
def HostRegs (s t : State) : Prop :=
  ∃ h m o r a, t = { s with host := h, mem := { s.mem with host := m }, out := o, pg := { s.pg with regs := r, alert := a } }

theorem HostOnly.rfl' (s : State) : HostOnly s s := ⟨_, _, _, rfl⟩
theorem HostOnly.trans {s t u : State} (h : HostOnly s t) (g : HostOnly t u) : HostOnly s u := by
  obtain ⟨_, _, _, rfl⟩ := h; obtain ⟨_, _, _, rfl⟩ := g; exact ⟨_, _, _, rfl⟩
theorem HostOnly.regs {s t : State} (h : HostOnly s t) : HostRegs s t := by
  obtain ⟨_, _, _, rfl⟩ := h; exact ⟨_, _, _, _, _, rfl⟩
theorem HostRegs.rfl' (s : State) : HostRegs s s := ⟨_, _, _, _, _, rfl⟩
theorem HostRegs.trans {s t u : State} (h : HostRegs s t) (g : HostRegs t u) : HostRegs s u := by
  obtain ⟨_, _, _, _, _, rfl⟩ := h; obtain ⟨_, _, _, _, _, rfl⟩ := g; exact ⟨_, _, _, _, _, rfl⟩

theorem HostOnly.rg {s t : State} (h : HostOnly s t) (r i sel : Nat) : Machine.rg t r i sel = Machine.rg s r i sel := by
  obtain ⟨_, _, _, rfl⟩ := h; rfl
theorem HostRegs.job {s t : State} (h : HostRegs s t) (j : Nat) : job? t j = job? s j := by
  obtain ⟨_, _, _, _, _, rfl⟩ := h; rfl
theorem HostRegs.clu {s t : State} (h : HostRegs s t) (c : Nat) : Machine.clu t c = Machine.clu s c := by
  obtain ⟨_, _, _, _, _, rfl⟩ := h; rfl

variable (s : State)

theorem setRing_hostOnly (p r : Nat) (x : Ring) : HostOnly s (setRing s p r x) := ⟨_, _, _, rfl⟩
theorem setStaged_hostOnly (p : Nat) (x : List (Nat × List Word)) : HostOnly s (setStaged s p x) := ⟨_, _, _, rfl⟩
theorem hostWrite_hostOnly (a : Nat) (bs : List Byte) : HostOnly s (hostWrite s a bs) := ⟨_, _, _, rfl⟩
theorem emit_hostOnly (o : Output) : HostOnly s (emit s o) := ⟨_, _, _, rfl⟩
theorem sendRing_hostOnly (p r : Nat) : HostOnly s (sendRing s p r) := ⟨_, _, _, rfl⟩
theorem writeStatus_hostOnly (p : Nat) : HostOnly s (writeStatus s p) := by
  unfold writeStatus
  simp only
  split
  · exact .rfl' s
  · split
    · exact .rfl' s
    · unfold hostWrite; exact ⟨_, _, _, rfl⟩
theorem ringPut_hostOnly (p r : Nat) (ws : List Word) : HostOnly s (ringPut s p r ws) := by
  unfold ringPut
  simp only
  split
  · exact (((hostWrite_hostOnly _ _ _).trans (setRing_hostOnly _ _ _ _)).trans (writeStatus_hostOnly _ _)).trans (sendRing_hostOnly _ _ _)
  · exact ((hostWrite_hostOnly _ _ _).trans (setRing_hostOnly _ _ _ _)).trans (writeStatus_hostOnly _ _)
/-- Posting a record. -/
theorem postRec_hostOnly (p r : Nat) (ws : List Word) : HostOnly s (postRec s p r ws) := by
  unfold postRec
  split
  · exact setStaged_hostOnly _ _ _
  · exact ringPut_hostOnly _ _ _ _
theorem drainStaged_hostOnly (p n : Nat) : HostOnly s (drainStaged s p n) := by
  induction n generalizing s with
  | zero => exact .rfl' s
  | succ n ih =>
    unfold drainStaged
    split
    · exact .rfl' s
    · exact ((setStaged_hostOnly _ _ _).trans (ringPut_hostOnly _ _ _ _)).trans (ih _)
theorem pumpStaged_hostOnly (p : Nat) : HostOnly s (pumpStaged s p) := drainStaged_hostOnly _ _ _
theorem cmdRec_hostOnly (p : Nat) (d : List Word) (st : Nat) (d1 d2 : Word) : HostOnly s (cmdRec s p d st d1 d2) := postRec_hostOnly _ _ _ _
theorem raise_hostRegs (c i b : Nat) : HostRegs s (raise s c i b) := by
  obtain ⟨o, a, h⟩ := raise_eq s c i b; rw [h]; exact ⟨_, _, _, _, _, rfl⟩
theorem setRg_hostRegs (r i sel : Nat) (v : Word) : HostRegs s (setRg s r i sel v) := by
  unfold setRg; exact ⟨_, _, _, _, _, rfl⟩
theorem wrapRg_hostRegs (r i sel n : Nat) : HostRegs s (wrapRg s r i sel n) := setRg_hostRegs _ _ _ _ _
theorem satRg_hostRegs (r i sel n : Nat) : HostRegs s (satRg s r i sel n) := setRg_hostRegs _ _ _ _ _
/-- A descriptor turned away. -/
theorem badDesc_hostRegs (p : Nat) (d : List Word) (st : Nat) : HostRegs s (badDesc s p d st) := by
  unfold badDesc
  simp only
  split
  · exact (cmdRec_hostOnly _ _ _ _ _ _).regs
  · exact (raise_hostRegs _ _ _ _).trans (cmdRec_hostOnly _ _ _ _ _ _).regs
theorem screen_hostRegs (p n : Nat) : HostRegs s (screen p n s) := by
  induction n generalizing s with
  | zero => exact .rfl' s
  | succ n ih =>
    unfold screen
    split
    · exact .rfl' s
    · split
      · exact .rfl' s
      · refine HostRegs.trans ?_ (ih _)
        obtain ⟨_, _, _, _, _, h⟩ := badDesc_hostRegs s p _ _
        rw [h]; exact ⟨_, _, _, _, _, rfl⟩
/-- Taking the head of the descriptors away. -/
theorem dropDesc_hostRegs (p : Nat) : HostRegs s (dropDesc s p) := by
  unfold dropDesc screenAll
  exact HostRegs.trans ⟨_, _, _, _, _, rfl⟩ (screen_hostRegs _ _ _)
theorem fillBufs_hostOnly (p : Nat) (e : Option (Nat × Word)) (l : List (List Byte)) : HostOnly s (fillBufs s p e l) := by
  induction l generalizing s with
  | nil => exact .rfl' s
  | cons c cs ih =>
    unfold fillBufs
    split
    · exact .rfl' s
    · refine HostOnly.trans ?_ (ih _)
      simp only
      split
      · exact ((HostOnly.trans ⟨_, _, _, rfl⟩ (hostWrite_hostOnly _ _ _)).trans (postRec_hostOnly _ _ _ _)).trans (postRec_hostOnly _ _ _ _)
      · exact (HostOnly.trans ⟨_, _, _, rfl⟩ (hostWrite_hostOnly _ _ _)).trans (postRec_hostOnly _ _ _ _)
/-- Delivering a message. -/
theorem deliverTo_hostOnly (p : Nat) (bs : List Byte) (e : Option (Nat × Word)) : HostOnly s (deliverTo s p bs e) := by
  unfold deliverTo
  simp only
  split
  · exact fillBufs_hostOnly _ _ _ _
  · exact ⟨_, _, _, rfl⟩
theorem itemRecs_hostOnly (x : Job) (ab : Bool) (l : List Nat) : HostOnly s (itemRecs s x ab l) := by
  induction l generalizing s with
  | nil => exact .rfl' s
  | cons i t ih => unfold itemRecs; exact (postRec_hostOnly _ _ _ _).trans (ih _)
theorem endRec_hostOnly (x : Job) (st : Nat) (d : Word) : HostOnly s (endRec s x st d) := postRec_hostOnly _ _ _ _

end Sys2Proof.Machine
end

