-- ==== Sys2Proof/Tests/Slice0.lean ====
section
/-! SUPPORT. Tests: ill-formed commands are refused; words of the Clove core written out from R142 decode to their instruction; single steps
give the values of the manual's rules and worked examples; and for every statement with hypotheses a state and operands that meet them. -/

namespace Sys2Proof.Tests

open Sys2Proof Sys2Proof.Machine

set_option maxRecDepth 16000

/-- The state that a command answers. -/
def after (i : Instr) (s : State) : State := match exec i s with | .next t => t | _ => State.reset

/-! ### Operands without content -/

abbrev rf : RFmt := ⟨false, 0, 0, 0, false, false, false⟩
abbrev imf : IFmt := ⟨false, 0, 0, 0⟩
abbrev noMove : XYMove := ⟨false, 0, false, 0⟩
abbrev mf : MFmt := ⟨false, false, false, 0, 0, noMove, noMove⟩
abbrev tf : TFmt := ⟨false, false, false, 0, 0⟩
abbrev lsf : LSFmt := ⟨false, 0, false, 0, false⟩
abbrev pf : PFmt := ⟨false, 0, 0, 0⟩
abbrev repf : RepFmt := ⟨false, false, 0, 0, 0⟩
abbrev issf : IssFmt := ⟨0, false, 0, 0, 0, false⟩
abbrev rxf : RxFrame := ⟨0, false, 0, 0, 0, true, 0, 0, false, 0, none, []⟩
abbrev ccf : CellConfig := ⟨false, 0, false, 0, 0, 0, false, false, false, none, none, none, none, none, none⟩

/-! ### Well-formedness -/

/-- Ill-formed commands: an operand that names a unit the device does not have. -/
def illFormed0 : List Instr :=
  [.add 18 rf, .sub 18 rf, .and 18 rf,
   .or 18 rf, .xor 18 rf, .shl 18 rf,
   .shra 18 rf, .shrl 18 rf, .min 18 rf,
   .max 18 rf, .sel 18 rf, .mov 18 rf,
   .mova 18 rf, .clra 18 rf, .setrot 18 rf,
   .rdcst 18 rf, .wrcst 18 rf, .addi 18 imf,
   .movi 18 imf, .movhi 18 imf, .mac 18 mf,
   .msu 18 mf, .mpy 18 mf, .ftap 18 tf,
   .ldx 18 lsf, .ldy 18 lsf, .stx 18 lsf,
   .sty 18 lsf, .setp 18 pf, .br 18 0,
   .brc 18 0 0 0, .call 18 0, .ret 18,
   .rep 18 repf, .issue 18 issf, .rdq 18 0]
/-- Ill-formed commands: an operand that names a unit the device does not have. -/
def illFormed1 : List Instr :=
  [.yieldPoint 18 0, .rti 18, .endJob 18,
   .repAbort 18, .yieldLate 18, .interruptEntry 18,
   .lineFill 18 0 .clean, .tileInstruction 18 [], .drainRow 18,
   .checksumVerdict 18, .repairDecay 18, .vadd 18,
   .vsub 18, .vmul 18, .vfma 18,
   .vmin 18, .vmax 18, .vabs 18,
   .vneg 18, .vand 18, .vor 18,
   .vxor 18, .vshl 18, .vshra 18,
   .vshrl 18, .vcmp 18, .vsel 18,
   .vexp2 18, .vrcp 18, .vrsq 18,
   .vdiv 18, .vcvt 18, .vshuf 18,
   .vbfly 18, .vred 18, .vld 18]
/-- Ill-formed commands: an operand that names a unit the device does not have. -/
def illFormed2 : List Instr :=
  [.vst 18, .vpop 18, .vtos 18,
   .vpadd 18, .vpcvt 18, .vpld 18,
   .vpst 18, .misfitDecision 18 0 0 0, .copy 26,
   .fill 26, .halo 26, .copyRun 26 .clean,
   .descComplete 26, .push 26, .pop 26,
   .move 26, .podWaitExpire 26, .returnOverflowDrain 32,
   .syncRead (.core 18 0 0 0 0 false), .syncWrite (.core 18 0 0 0 0 false) .nothing, .syncSet (.core 18 0 0 0 0 false),
   .syncClear (.core 18 0 0 0 0 false) .nothing, .syncAdd (.core 18 0 0 0 0 false), .waitNz (.core 18 0 0 0 0 false),
   .waitZ (.core 18 0 0 0 0 false), .waitGe (.core 18 0 0 0 0 false), .acquire (.core 18 0 0 0 0 false),
   .tryAcquire (.core 18 0 0 0 0 false), .register (.core 18 0 0 0 0 false), .wakeCause (.core 18 0 0 0 0 false),
   .job 32, .jobStart 16, .floorGuard 16 0,
   .floorGuard 0 64, .floorWindowStart 16 0, .floorWindowStart 0 64]
/-- Ill-formed commands: an operand that names a unit the device does not have. -/
def illFormed3 : List Instr :=
  [.floorWindowEnd 16 0, .floorWindowEnd 0 64, .slotBoundary 96,
   .slotTimer 32, .paramRequest 32 0, .paramRequest 0 96,
   .configRequest 32 0 ccf, .configRequest 0 96 ccf, .startRequest 32 0,
   .startRequest 0 96, .stopRequest 32 0, .stopRequest 0 96,
   .dlTtiRequest 32 0 0 [], .dlTtiRequest 0 96 0 [], .ulTtiRequest 32 0 0 [],
   .ulTtiRequest 0 96 0 [], .ulDciRequest 32 0 0 0, .ulDciRequest 0 96 0 0,
   .txDataRequest 32 0 0 [], .txDataRequest 0 96 0 [], .frameReceive 16 rxf,
   .frameTransmit 16 0, .decompress 64 0 0, .decompress 0 0 14,
   .cplaneSend 64 false 0 0 [], .cplaneSend 0 false 0 14 [], .uplaneSend 64 0 0 0,
   .uplaneSend 0 128 0 0, .uplaneSend 0 0 0 14, .linkDown 16,
   .laneFault 4 0 0 0, .laneFault 2 8 0 0, .laneFault 1 4 0 0,
   .laneFault 0 0 4 0, .multiblock 16 0 0 0 false, .multiblock 0 0 0 14 false]
/-- Ill-formed commands: an operand that names a unit the device does not have. -/
def illFormed4 : List Instr :=
  [.linkLoss 16, .sysrefEdge 16 false 0, .fftSymbol 16 0 0 0 [],
   .fftSymbol 0 128 0 0 [], .fftSymbol 0 0 0 14 [], .ifftSymbol 16 0 0 0 [] false false,
   .ifftSymbol 0 128 0 0 [] false false, .ifftSymbol 0 0 0 14 [] false false, .prachFrontEnd 4 0 0 0 [],
   .prachFrontEnd 0 96 0 0 [], .prachFrontEnd 0 0 0 128 [], .energyDetect 32 0 0 0,
   .agcEvaluate 32 0 0 [] 0 0, .agcEvaluate 0 0 0 [] 0 14, .agcFreeze 32 false,
   .paEnAssert 32, .paEnDeassert 32, .prachCorrelate 2 0 0 0 [],
   .prachCorrelate 0 96 0 0 [], .beqAllocation 96 0 0 false, .pathSelect 96 0 0 0 0 [],
   .rateRecovery 96 0 0 0, .harqCombine 96 0 0 0, .ldpcPass 16 false,
   .decLate 16, .crcCheck 96 0 0, .batchDeliver 96 0,
   .turboDecode 2 0 0 0 0, .turboDecode 0 96 0 0 0, .polarDecode 2 0 0 0,
   .polarDecode 0 96 0 0, .polarEncode 2 0 0 0, .polarEncode 0 96 0 0,
   .segmentation 96 0 0, .ldpcEncode 4 0 0 0 0, .ldpcEncode 0 96 0 0 0]
/-- Ill-formed commands: an operand that names a unit the device does not have. -/
def illFormed5 : List Instr :=
  [.rateMatching 96 0 0 0, .modulationMapping 96 0 0, .compression 64 0 0 0 [],
   .compression 0 128 0 0 [], .compression 0 0 0 14 [], .ctxCreate 32,
   .ctxRelease 32, .ctxRead 32, .harqRel 32,
   .tplReg 32, .tplDel 32, .imageReg 32,
   .imageRel 32, .unitQuery 32, .rxbuf 32,
   .excTx 32, .cqTimer 32 0, .cqTimer 0 4,
   .cqHead 32 0 0, .cqHead 0 4 0, .protoOffer 32 0,
   .functionLevelReset 32, .partReset 32 0, .partReset 0 32,
   .rotorSlice 18, .rotorSliceEnd 18 false, .handover 18,
   .rotorLate 18, .enter 32 0 none, .enter 0 32 none,
   .freqAdj 32 0, .phaseAdj 32 0, .tmuCtl 32 0,
   .timeSet 32, .timeNs 32, .tsqStamp 32]
/-- Ill-formed commands: an operand that names a unit the device does not have. -/
def illFormed6 : List Instr :=
  [.refLoss 3, .refReturn 3, .zqCalibration 8,
   .dqsOscRead 32 false, .flitReceive 8 0 false 0 .management, .flitReceive 0 0 false 2 .management,
   .heartbeat 8 0 0 0, .heartbeat 0 8 0 0, .linkLost 8,
   .portTraining 8 0 0, .errHead 32 0, .take 32,
   .release 32, .commit 32 ⟨0, 0⟩, .commit 0 ⟨64, 0⟩,
   .discard 32 ⟨0, 0⟩, .discard 0 ⟨64, 0⟩, .evt 32 ⟨0, 0⟩ 0 0,
   .evt 0 ⟨64, 0⟩ 0 0, .evtForce 32 ⟨0, 0⟩ 0, .evtForce 0 ⟨64, 0⟩ 0,
   .pageCtl 32 ⟨0, 0⟩ 0, .pageCtl 0 ⟨64, 0⟩ 0, .owner 32 ⟨0, 0⟩ 0,
   .owner 0 ⟨64, 0⟩ 0, .objWrite 32 0, .objAdd 32 0,
   .objVal 32, .flData 32 0, .erase 32,
   .registerWrite 32 0 0 0, .registerWrite 0 268435456 0 0, .sidebandAccess 268435456 none false,
   .linkUp 16, .powerUp 112, .refresh 32]
/-- Ill-formed commands: an operand that names a unit the device does not have. -/
def illFormed7 : List Instr :=
  [.fapi 32 0 0, .fapi 0 96 0, .configurationRequest 32 false,
   .syncRead (.host 32), .syncRead (.engine 0 32 0 0), .syncRead (.engine 0 0 16384 0),
   .syncRead (.peer 8 0 0 0 0), .syncRead (.peer 0 32 0 0 0), .syncRead (.peer 0 0 16384 0 0),
   .commit 0 ⟨0, 256⟩]

/-- Each check of well-formedness refuses a command that breaks it alone. -/
theorem test_ill_formed_refused : illFormed0.all (fun i => !i.wf) = true ∧ illFormed1.all (fun i => !i.wf) = true ∧ illFormed2.all (fun i => !i.wf) = true ∧ illFormed3.all (fun i => !i.wf) = true ∧ illFormed4.all (fun i => !i.wf) = true ∧ illFormed5.all (fun i => !i.wf) = true ∧ illFormed6.all (fun i => !i.wf) = true ∧ illFormed7.all (fun i => !i.wf) = true := by
  refine ⟨?_, ?_, ?_, ?_, ?_, ?_, ?_, ?_⟩ <;> decide


/-! ### Words of the Clove core, bit by bit from R142 to R145 and R245 -/

/-- ADD S3 = S1 + S2: MAJOR 00001, SAT, SD 00011, SA 00001, SB 00010, WD, WA, WB, reserved, FUNC 000000. -/
theorem test_word_add : cloveDecode 0 0b00001000011000010001000000000000 0 = some (.add 0 ⟨false, 3, 1, 2, false, false, false⟩) := by decide
/-- MOVA with SAT into W5 from ACC1: FUNC 010000. -/
theorem test_word_mova : cloveDecode 0 0b00001100101000010000010000010000 0 = some (.mova 0 ⟨true, 5, 1, 0, true, false, false⟩) := by decide
/-- WRCST: FUNC 010011 with bit 0 of SB set. -/
theorem test_word_wrcst : cloveDecode 0 0b00001000000000100000100000010011 0 = some (.wrcst 0 ⟨false, 0, 2, 1, false, false, false⟩) := by decide
/-- MOVI S7 = −2: MAJOR 00011. -/
theorem test_word_movi : cloveDecode 0 0b00011000111000001111111111111110 0 = some (.movi 0 ⟨false, 7, 0, 0xFFFE⟩) := by decide
/-- MSU with FRAC on ACC1 of S9 and S10, XMOVE of PX2 post-modified by the modifier into S1, YMOVE off: MAJOR 00100, MOP 01. -/
theorem test_word_msu :
    cloveDecode 0 0b00100011010100101010110101000000 0 =
      some (.msu 0 ⟨false, true, true, 9, 10, ⟨true, 2, true, 1⟩, noMove⟩) := by decide
/-- FTAP on PX1 and PY3: MAJOR 00101. -/
theorem test_word_ftap : cloveDecode 0 0b00101000011100000000000000000000 0 = some (.ftap 0 ⟨false, false, false, 1, 3⟩) := by decide
/-- A 32-bit LDY of W6 through PY1, post-modified: MAJOR 01001. -/
theorem test_word_ldy : cloveDecode 0 0b01001100110101100000000000000000 0 = some (.ldy 0 ⟨true, 6, true, 1, true⟩) := by decide
/-- SETP of PY2's modifier from S4: MAJOR 01100. -/
theorem test_word_setp : cloveDecode 0 0b01100110010010000000000000000000 0 = some (.setp 0 ⟨true, 2, 1, 4⟩) := by decide
/-- BRC LT on S3, one word back: MAJOR 10001. -/
theorem test_word_brc : cloveDecode 0 0b10001010000111111111111111111111 0 = some (.brc 0 2 3 0x7FFFF) := by decide
/-- REP with ROT, a body of 3 words, 16 iterations of SPAN 5: MAJOR 10100 and its second word. -/
theorem test_word_rep : cloveDecode 0 0b10100100000000001000000000000000 0x00100005 = some (.rep 0 ⟨true, false, 2, 16, 5⟩) := by decide
/-- ISSUE to the vector stream at PX3, word 2 replaced by S8: MAJOR 11000. -/
theorem test_word_issue : cloveDecode 0 0b11000010110100000101000000000000 0 = some (.issue 0 ⟨1, false, 3, 8, 2, true⟩) := by decide
/-- SYNC WAIT_GE with SA 1, SB 2, SD 3, SL 4 and CONT: MAJOR 11100. -/
theorem test_word_sync :
    cloveDecode 0 0b11100011100001000100001100100100 0 = some (.waitGe (.core 0 1 2 3 4 true)) := by decide
/-- YIELD 5 and END; MAJOR 00000 and MOP 3 are reserved. -/
theorem test_word_others : cloveDecode 0 0b11101000000000000000000000000101 0 = some (.yieldPoint 0 5) ∧
    cloveDecode 0 0b11111000000000000000000000000000 0 = some (.endJob 0) ∧ cloveDecode 0 0 0 = none ∧
    cloveDecode 0 0b00100000110000000000000000000000 0 = none := by decide
/-- Words and their encoding meet what the round trip asks for. -/
theorem test_witness_round_trip : cloveEncode (.wrcst 0 ⟨false, 0, 2, 1, false, false, false⟩) = some (0b00001000000000100000100000010011, 0) ∧
    cloveEncode (.rdcst 0 ⟨false, 0, 2, 0, false, false, false⟩) = some (0b00001000000000100000000000010011, 0) ∧
    cloveEncode (.syncWrite (.core 17 31 0 31 0 false) .nothing) = some (0b11100000111111000001111100000000, 0) ∧ fld (0xD8000000 : Word) 31 27 = 0x1B := by decide

/-! ### The Clove core -/

/-- An image generation with an entry table, a yield table and code from 0x200 on. -/
def demoGen : Gen :=
  { part := 0, slot := 0, gen := 1, base := 0x100000, len := 0x4000, digest := 0, current := true,
    sects := [⟨4, false, 0x100, 64, 0⟩, ⟨1, false, 0x200, 0x1000, 0⟩, ⟨5, false, 0x140, 32, 0⟩] }
/-- A job on logical cluster 0. -/
def demoJob : Job := { part := 0, slot := 0, gen := 1, entry := 0, units := [0], phase := .running, nitems := 2 }
/-- A core in the middle of its code. -/
def demoCore : Clv :=
  { ended := false, pc := 0x200, s := [(1, 0x7FFFFFFF), (2, 1), (3, 0xFFFFFFFD), (4, 0x10001), (5, 0x20)], retq := [9], calls := [0x300]
    px := [(0, { adr := 0x40 }), (1, { adr := 0x40, mod := 2, len := 8, base := 0x40 })], py := [(0, { adr := 0x10, mod := 0xFFFE })] }
/-- Cluster 0 runs the job with core `k`; its X and Y memories hold a few bytes. -/
def demoCluster (k : Clv) : Cluster :=
  { job := some 1, clv := k, ic := [⟨0, 0, 1, 2, false, false⟩, ⟨0, 0, 1, 3, false, false⟩], xm := { bytes := [(0x40, 0x34), (0x41, 0xF2)] }
    ym := { bytes := [(0x10, 3)] } }
/-- The whole block. -/
def demo (k : Clv) : State :=
  { State.reset with cl := [(0, demoCluster k)], disp := { State.reset.disp with jobs := [(1, some demoJob)] }, img := { State.reset.img with gens := [demoGen] } }
/-- The core after a command. -/
def coreAfter (i : Instr) (k : Clv) : Clv := (clu (after i (demo k)) 0).clv

theorem test_witness_core_ready : CloveReady (demo demoCore) 0 4 1 demoJob demoGen ∧ CloveReady (demo demoCore) 0 8 1 demoJob demoGen := by
  unfold CloveReady; decide
theorem test_witness_core_rows : (demoCore.reg false 2).extractLsb' 4 4 &&& ~~~((entryWord (demo demoCore) demoGen 0 3).extractLsb' 8 4) = 0 ∧
    (clu (demo demoCore) 0).clv.retq ≠ [] := by decide
/-- R139: the sum wraps and sets VS; SAT clamps it. -/
theorem test_add_wraps : (coreAfter (.add 0 ⟨false, 6, 1, 2, false, false, false⟩) demoCore).sreg 6 = 0x80000000 ∧
    (coreAfter (.add 0 ⟨false, 6, 1, 2, false, false, false⟩) demoCore).cst = 1 ∧
    (coreAfter (.add 0 ⟨true, 6, 1, 2, false, false, false⟩) demoCore).sreg 6 = 0x7FFFFFFF := by decide
/-- R144: a count of 32 acts as 0; SHRA fills with the sign; 3 of minus 3 and 1 is the smaller. -/
theorem test_shift_counts : (coreAfter (.shl 0 ⟨false, 6, 4, 5, false, false, false⟩) demoCore).sreg 6 = 0x10001 ∧
    (coreAfter (.shra 0 ⟨false, 6, 3, 2, false, false, false⟩) demoCore).sreg 6 = 0xFFFFFFFE ∧
    (coreAfter (.min 0 ⟨false, 6, 3, 2, false, false, false⟩) demoCore).sreg 6 = 0xFFFFFFFD := by decide
/-- R144: a left shift out of the range clamps by the sign of SA with SAT, and sets VS. -/
theorem test_shl_saturates : (coreAfter (.shl 0 ⟨true, 6, 1, 2, false, false, false⟩) demoCore).sreg 6 = 0x7FFFFFFF ∧
    (coreAfter (.shl 0 ⟨true, 6, 1, 2, false, false, false⟩) demoCore).cst = 1 := by decide
/-- R142: MOVHI keeps the low half; MOVI extends the sign. -/
theorem test_immediates : (coreAfter (.movhi 0 ⟨false, 4, 0, 0xABCD⟩) demoCore).sreg 4 = 0xABCD0001 ∧
    (coreAfter (.movi 0 ⟨false, 4, 0, 0x8000⟩) demoCore).sreg 4 = 0xFFFF8000 := by decide
/-- SETP of a base; RDQ pops; CLRA clears the accumulator that SA's bit 0 names. -/
theorem test_core_registers : (coreAfter (.setp 0 ⟨false, 2, 0, 5⟩) demoCore).ptr false 2 = { adr := 0x20, base := 0x20 } ∧
    (coreAfter (.rdq 0 7) demoCore).sreg 7 = 9 ∧ (coreAfter (.rdq 0 7) demoCore).retq = [] ∧
    (coreAfter (.clra 0 ⟨false, 0, 1, 0, false, false, false⟩) { demoCore with acc0 := 5, acc1 := 6 }).acc0 = 5 ∧
    (coreAfter (.clra 0 ⟨false, 0, 1, 0, false, false, false⟩) { demoCore with acc0 := 5, acc1 := 6 }).acc1 = 0 := by decide

/-- Operands of a multiply whose parallel loads are both on. -/
def demoMac : MFmt := ⟨false, true, false, 3, 4, ⟨true, 0, false, 1⟩, ⟨true, 0, true, 2⟩⟩
theorem test_witness_mac : PtrOk (demoCore.ptr false 0) 2 ∧ PtrOk (demoCore.ptr true 0) 2 ∧ PtrOk (demoCore.ptr false 1) 2 ∧
    ((demoCore.ptr false 1).moved 2).toNat % 2 = 0 ∧ ((demoCore.ptr false 1).moved 2).toNat + 2 ≤ 0x1FFC0 := by unfold PtrOk; decide
/-- R140, R143: −3 × 1 doubled; the X load lands in S1, the Y load in S6, after the slot; the pointers move by 2 and by −2. -/
theorem test_mac : (coreAfter (.mac 0 demoMac) demoCore).acc0 = BitVec.ofInt 40 (-6) ∧
    (coreAfter (.mac 0 demoMac) demoCore).loads = [(.s 1, 0xFFFFF234), (.s 6, 3)] ∧
    ((coreAfter (.mac 0 demoMac) demoCore).ptr false 0).adr = 0x42 ∧ ((coreAfter (.mac 0 demoMac) demoCore).ptr true 0).adr = 0x0E := by decide
/-- R157: FTAP multiplies X by Y and writes x two bytes on. -/
theorem test_ftap : (coreAfter (.ftap 0 ⟨false, false, true, 1, 0⟩) demoCore).acc1 = BitVec.ofInt 40 (-10596) ∧
    (clu (after (.ftap 0 ⟨false, false, true, 1, 0⟩) (demo demoCore)) 0).xm.get 0x42 = 0x34 ∧
    (clu (after (.ftap 0 ⟨false, false, true, 1, 0⟩) (demo demoCore)) 0).xm.get 0x43 = 0xF2 := by decide
/-- R146: a load lands after its slot; a store writes the low half. -/
theorem test_load_and_store : (coreAfter (.ldx 0 ⟨false, 2, false, 0, false⟩) demoCore).sreg 2 = 1 ∧
    (landed (after (.ldx 0 ⟨false, 2, false, 0, false⟩) (demo demoCore)) 0).sreg 2 = 0xFFFFF234 ∧
    (clu (after (.sty 0 ⟨false, 3, false, 0, true⟩) (demo demoCore)) 0).ym.get 0x10 = 0xFD ∧
    (clu (after (.sty 0 ⟨false, 3, false, 0, true⟩) (demo demoCore)) 0).ym.get 0x12 = 0 := by decide
theorem test_witness_loads : PtrOk (demoCore.ptr false 0) 4 ∧ PtrOk (demoCore.ptr true 0) 4 ∧
    (demoCore.ptr false 0).adr.toNat + 4 ≤ 0x1FFC0 := by unfold PtrOk; decide
/-- R137: a circular pointer at its last halfword. -/
theorem test_witness_circular : let p : Ptr := { adr := 0x46, mod := 2, len := 8, base := 0x40 }
    p.len ≠ 0 ∧ (8 : Int).natAbs ≤ p.len.toNat ∧ p.base.toNat + p.len.toNat ≤ 0x20000 ∧ p.adr.toNat < p.base.toNat + p.len.toNat ∧
    (p.moved 2).toNat = 0x40 ∧ (p.moved (-8)).toNat = 0x46 := by decide
/-- Circular pointers that break each condition of R137; a load through one is passed over and its pointer stays. -/
theorem test_witness_broken_circle : breaksCircle { adr := 0x46, mod := 10, len := 8, base := 0x40 } 2 ∧
    breaksCircle { adr := 0x46, mod := 2, len := 6, base := 0x40 } 4 ∧ breaksCircle { adr := 0x46, mod := 2, len := 7, base := 0x40 } 2 ∧
    ¬ breaksCircle { adr := 0x46, mod := 8, len := 8, base := 0x40 } 4 := by unfold breaksCircle; decide
theorem test_broken_circle : let s := after (.ldx 0 ⟨false, 2, false, 0, true⟩) (demo { demoCore with px := [(0, { adr := 0x46, mod := 10, len := 8, base := 0x40 })] })
    s.pg.ering.map (fun r => r.hdr) = [0x11040000] ∧ ((clu s 0).clv.ptr false 0).adr = 0x46 := by decide

/-- Each condition of BRC holds of some value and fails of another: EQ, NE, LT, GE, GT, LE. -/
theorem test_witness_branches : CloveReady (demo demoCore) 0 4 1 demoJob demoGen ∧ demoCore.delay = none ∧
    (∀ n ∈ [(0, 0, 1), (1, 1, 0), (2, -1, 0), (3, 0, -1), (4, 1, 0), (5, 0, (1 : Int))], brcHolds n.1 n.2.1 ∧ ¬ brcHolds n.1 n.2.2) ∧
    demoCore.calls.length < 8 ∧ demoCore.calls = [0x300] := by unfold CloveReady brcHolds; decide
/-- R145: the branch is taken after two delay slots; CALL saves the word after them; RET goes to the saved one. -/
theorem test_branches : (coreAfter (.br 0 0x10) demoCore).delay = some (2, some 0x240) ∧
    (coreAfter (.call 0 0x7FFFFFF) demoCore).calls = [0x20C, 0x300] ∧ (coreAfter (.call 0 0x7FFFFFF) demoCore).delay = some (2, some 0x1FC) ∧
    (coreAfter (.ret 0) demoCore).delay = some (2, some 0x300) ∧ (coreAfter (.brc 0 2 1 5) demoCore).delay = some (2, none) := by decide
/-- The second delay slot leads to the target. -/
theorem test_delay_slot : (coreAfter (.movi 0 imf) { demoCore with delay := some (1, some 0x280) }).pc = 0x280 := by decide

/-- A REP that enters its block of three words sixteen times. -/
def demoRep : RepFmt := ⟨true, false, 2, 16, 5⟩
theorem test_witness_rep : demoCore.delay = none ∧ demoCore.reps = [] ∧ demoRep.span ≠ 0 ∧ bodyBad (demo demoCore) demoGen 3 0x208 = false ∧
    16 * demoRep.span.toNat ≤ 4096 ∧ (∀ off, 0x208 ≤ off → off < 0x208 + 12 → cached (demo demoCore) 0 demoJob off = true) := by
  refine ⟨by decide, by decide, by decide, by decide, by decide, ?_⟩
  intro off h1 h2
  interval_cases off <;> decide
/-- R148: the block is entered at the word after REP, or skipped with COUNT 0. -/
theorem test_rep : (coreAfter (.rep 0 demoRep) demoCore).reps = [⟨0x208, 0x214, 16, 5, true⟩] ∧ (coreAfter (.rep 0 demoRep) demoCore).pc = 0x208 ∧
    (coreAfter (.rep 0 { demoRep with count := 0 }) demoCore).pc = 0x214 := by decide
/-- R153: at the end of an iteration ROT_BASE falls by 1 and the block starts again. -/
theorem test_rep_end : let k := coreAfter (.movi 0 imf) { demoCore with pc := 0x210, reps := [⟨0x208, 0x214, 2, 5, true⟩] }
    k.pc = 0x208 ∧ k.rotBase = 31 ∧ k.reps = [⟨0x208, 0x214, 1, 5, true⟩] := by decide
/-- R152: a core whose outermost block has run REP_MAX a-cycles. -/
def spent : Clv := { demoCore with pc := 0x20C, reps := [⟨0x208, 0x214, 900, 5, false⟩], repCycles := 4096 }
theorem test_witness_rep_abort : running (demo spent) 0 = some (1, demoJob, demoGen) ∧
    (clu (demo spent) 0).clv.reps.getLast? = some ⟨0x208, 0x214, 900, 5, false⟩ ∧ 4096 ≤ (clu (demo spent) 0).clv.repCycles := by decide
theorem test_rep_abort : (coreAfter (.repAbort 0) spent).pc = 0x214 ∧
    (job? (after (.repAbort 0) (demo spent)) 1).map (fun y => y.marks) = some [(0, 2), (1, 2)] ∧
    (after (.repAbort 0) (demo spent)).pg.ering.map (fun r => r.hdr) = [0x11060000] := by decide

/-- Inconsistent instructions: a branch in a delay slot, a reserved COND, RTI outside a handler, CALL with a full stack, a misaligned load, an
enable outside IEN_ALLOWED. -/
theorem test_witness_skips : let k := { demoCore with delay := some (1, some 0x280) }
    k.delay ≠ none ∧ demoCore.shadow = none ∧ 8 ≤ { demoCore with calls := List.replicate 8 0 }.calls.length ∧
    ({ demoCore with px := [(0, { adr := 0x42 })] }.ptr false 0).adr.toNat % 4 ≠ 0 ∧
    ({ demoCore with px := [(0, { adr := 0x1FFC0 })] }.ptr false 0).adr.toNat = 0x1FFC0 ∧
    (demoCore.reg false 1).extractLsb' 4 4 &&& ~~~((entryWord (demo demoCore) demoGen 0 3).extractLsb' 8 4) ≠ 0 := by decide
/-- R163, R164: REASON 0x03 for a branch in a delay slot; the job goes on to the branch's target. -/
theorem test_skip : let s := after (.br 0 4) (demo { demoCore with delay := some (1, some 0x280) })
    (clu s 0).clv.pc = 0x280 ∧ s.pg.ering.map (fun r => r.hdr) = [0x11030000] ∧ (job? s 1).map (fun y => y.marks) = some [(0, 2), (1, 2)] := by decide

/-- ISSUE: the pointer is aligned for each queue, and each has room. -/
theorem test_witness_issue : (demoCore.ptr false 0).adr.toNat % 64 = 0 ∧ streamDepth (clu (demo demoCore) 0).mxq < 16 ∧
    streamDepth (clu (demo demoCore) 0).vxq < 32 ∧ (tgetD {} (demo demoCore).eng 0).q.length < 16 ∧ gateDepth (clu (demo demoCore) 0).mxq < 16 ∧
    (∀ h ∈ halves (demo demoCore) 0, gateDepth (clu (demo demoCore) h).vxq < 16) := by decide
/-- R159: PATCH replaces word 2 of the descriptor. -/
theorem test_issue : let s := after (.issue 0 ⟨1, false, 0, 5, 2, true⟩) (demo demoCore)
    (clu s 0).vxq = [.instr { words := [0xF234, 0, 0x20, 0, 0, 0, 0, 0], off := 0x200, job := 1 } 0] ∧ rg s VXE_ISSUE_COUNT 0 0 = 1 := by decide

/-- The entry has its FAULT handler at 0x280, and yield point 0 is at 0x200. FAULT and WAKE are pending and enabled. -/
def demoIrq (k : Clv) : State :=
  let m := mwrite 0 (mwrite 0 (mwrite 0 [] 0x100110 (wordLe 0x280)) 0x100140 (wordLe 1)) 0x100150 (wordLe 0x200)
  { demo k with mem := { State.reset.mem with ext := m } }
/-- Its core. -/
def irqCore : Clv := { demoCore with irq := 0b1010, cst := 0xA1 }
theorem test_witness_interrupt : running (demoIrq irqCore) 0 = some (1, demoJob, demoGen) ∧ irqCore.shadow = none ∧ irqCore.delay = none ∧
    irqCore.loads = [] ∧ irqCore.reps = [] ∧ irqCore.stall ≠ 5 ∧ irqCore.irq.getLsbD 3 = true ∧ bit irqCore.cst 7 = true ∧
    handler? (demoIrq irqCore) demoGen 0 0 = some 0x280 := by decide
/-- R155, R156: FAULT comes first; the enables are cleared, the flags stay. -/
theorem test_interrupt : let k := (clu (after (.interruptEntry 0) (demoIrq irqCore)) 0).clv
    k.pc = 0x280 ∧ k.shadow = some (0x200, 0xA1) ∧ k.cst = 1 ∧ k.irq = 0b0010 := by decide
theorem test_witness_yield_late : yieldGap (demoIrq demoCore) demoGen < { demoCore with sinceYield := 1 }.sinceYield ∧ demoCore.lateLogged = false ∧
    (demoIrq demoCore).pg.ering.length < 16384 := by decide
theorem test_witness_yield : CloveReady (demoIrq demoCore) 0 4 1 demoJob demoGen ∧ demoJob.phase = .running ∧
    yieldEntry? (demoIrq demoCore) demoGen 0 = some 0x150 ∧ (gword (demoIrq demoCore) demoGen 0x150).toNat = demoCore.pc ∧
    demoCore.yieldReq = false ∧ { demoCore with shadow := some (0x280, 0) }.shadow = some (0x280, 0) := by unfold CloveReady; decide
/-- R188, R192: a yield point that nobody asked for only starts its count again. -/
theorem test_yield_passes : let k := (clu (after (.yieldPoint 0 0) (demoIrq { demoCore with sinceYield := 90 })) 0).clv
    k.pc = 0x204 ∧ k.sinceYield = 1 := by decide
theorem test_witness_end : CloveReady (demo demoCore) 0 4 1 demoJob demoGen ∧ outstanding (demo demoCore) 0 1 = false ∧
    (∀ m ∈ members (demo demoCore) demoJob, m = 0) := by unfold CloveReady; decide
/-- R122, R269: the last member's END ends the job. -/
theorem test_end : job? (after (.endJob 0) (demo demoCore)) 1 = none := by decide
/-- A core that waits for its line, and a bucket with tokens. -/
def demoFetch : State :=
  { demo { demoCore with stall := 5, pc := 0x400 } with mem := { State.reset.mem with buckets := [(0, { level := 8 })] } }
theorem test_witness_line_fill : running demoFetch 0 = some (1, demoJob, demoGen) ∧ (clu demoFetch 0).clv.stall = 5 ∧ 0x400 / 256 * 256 < demoGen.len ∧
    8 ≤ (bucket demoFetch 0).level ∧ demoFetch.mem.ue = [] := by decide
theorem test_line_fill : cached (after (.lineFill 0 0x400 .clean) demoFetch) 0 demoJob 0x4FC = true ∧
    (clu (after (.lineFill 0 0x400 .clean) demoFetch) 0).clv.stall = 0 := by decide

/-- Nobody asks a running job to yield. -/
theorem noYield_of {s : State} {c j : Nat} {y : Job} (h1 : (clu s (leadOf s c)).job = some j) (h2 : job? s j = some y)
    (h3 : y.phase ≠ .yielding) : noYield s c := by
  intro j' y' a b
  rw [h1] at a
  cases a
  rw [h2] at b
  cases b
  exact h3


/-! ### The matrix engine -/

/-- An INT8 tile of one row, two columns and K = 2 whose partials go to 0x100: R74's words. -/
def tileWords : List Word := [0x40007000, 0x00010002, 2, 0, 0x40, 0x100, 64, 64, 64, 0, 0, 0, 0, 0, 0, 0]
/-- The instruction as issued. -/
def tileIns : Issued := { words := tileWords, off := 0x200, job := 1 }
/-- Cluster 0 with the tile at the head of its stream; A is (2, −3), B's columns are (4, 5) and (−1, 7). -/
def tileState : State :=
  let sp : Ram := { bytes := [(0, 2), (1, 0xFD), (0x40, 4), (0x41, 5), (0x80, 0xFF), (0x81, 7)] }
  let x := { demoCluster demoCore with mxq := [.instr tileIns 0], mxIssued := 1, sp := sp }
  { demo demoCore with cl := [(0, x)] }
/-- The tile started, without a fault or with 1 added to the sum of row 0, column 1. -/
def tileStarted (fs : List CellFault) : State := after (.tileInstruction 0 fs) tileState
/-- Its row drained. -/
def tileDrained (fs : List CellFault) : State := after (.drainRow 0) (tileStarted fs)
/-- The fault. -/
def oneFault : List CellFault := [⟨.cell 0 1, false, 1⟩]
/-- The first tile of cluster 0. -/
def tile0 (s : State) : Tile := (clu s 0).tiles.headD (mkTile tileIns 0 0 0 [] [] [])

theorem test_witness_tile : (clu tileState 0).mxq = [.instr tileIns 0] ∧ job? tileState 1 = some demoJob ∧ cherry tileState 0 = false ∧
    tileBad tileState demoJob 0 tileWords = none ∧ fmtA tileWords = .int8 ∧ banksHeld tileState 0 < 2 ∧ tileWaits tileState 0 tileWords = false ∧
    ∀ r ∈ tileReads tileWords false, deniedLines tileState (ownerOf tileState 16 0) 0 r.1 r.2 = [] := by decide
/-- R47: 2 × 4 − 3 × 5 = −7 and 2 × −1 − 3 × 7 = −23. -/
theorem test_tile : bankVal (tile0 (tileStarted [])) 0 0 0 = -7 ∧ bankVal (tile0 (tileStarted [])) 0 1 0 = -23 ∧
    (clu (tileStarted []) 0).mxq = [] := by decide
theorem test_witness_checksums : csumSkipped (tile0 (tileStarted oneFault)) = false ∧ ¬ (2 ^ 96 : Int) ∣ 1 ∧
    mismatched (tile0 (tileStarted oneFault)) = true ∧ badRows (tile0 (tileStarted oneFault)) 0 = [0] ∧
    badCols (tile0 (tileStarted oneFault)) 0 = [1] ∧ mismatched (tile0 (tileStarted [])) = false := by decide
theorem test_witness_drain : let s := tileStarted []
    let t := tile0 s
    (clu s 0).tiles.find? (fun u => !u.done) = some t ∧ (clu s 0).tiles.find? (fun u => decide (u.id = t.id)) = some t ∧ noYield s 0 ∧
      twf (fun _ => none) s.disp.jobs = true ∧ tileDest tileWords = false ∧ t.half = 0 ∧ t.sats = 0 ∧ plainSums t ∧ t.rows.getD 0 [] ≠ [] ∧
      (rowBytes t (drainRowOut s 0 0 t 0)).length = 32 ∧ (∀ o ∈ drainRowOut s 0 0 t 0, o.sat = false ∧ o.ls = false) ∧
      deniedLines s 0 0 0x100 32 = [] ∧ tileRscl tileWords = false := by
  refine ⟨by decide, by decide, noYield_of (j := 1) (y := demoJob) (by decide) (by decide) (by decide), by decide, by decide, by decide, by decide,
    by unfold plainSums; decide, by decide, by decide, by decide, by decide, by decide⟩
/-- R53, R85: the partial of −23 at byte 0x110, sign-extended to 96 bits. -/
theorem test_drain : (clu (tileDrained []) 0).sp.get 0x110 = 0xE9 ∧ (clu (tileDrained []) 0).sp.get 0x11B = 0xFF ∧
    rg (tileDrained []) MXE_TILE_COUNT 0 0 = 1 := by decide
theorem test_witness_verdict : (clu (tileDrained []) 0).tiles = [tile0 (tileDrained [])] ∧ (tile0 (tileDrained [])).done = true ∧
    csumSkipped (tile0 (tileDrained [])) = false ∧ mismatched (tile0 (tileDrained [])) = false ∧ tasc 0 (clu (tileDrained []) 0).vst = true ∧
    (clu (tileDrained oneFault) 0).tiles = [tile0 (tileDrained oneFault)] ∧ mismatched (tile0 (tileDrained oneFault)) = true ∧
    bit (rg (tileDrained oneFault) (16 * 4096 + HDR_EVT) 0 0) 0 = false ∧ noYield (tileDrained oneFault) 0 := by
  refine ⟨by decide, by decide, by decide, by decide, by decide, by decide, by decide, by decide,
    noYield_of (j := 1) (y := demoJob) (by decide) (by decide) (by decide)⟩
/-- R91 to R95: ARRAY_FAULT, the location, REPAIR_CNT, the item failed, the record of type 0x1C. -/
theorem test_verdict : let s := after (.checksumVerdict 0) (tileDrained oneFault)
    bit (rg s (16 * 4096 + HDR_EVT) 0 0) 0 = true ∧ rg s MXE_REPAIR_CNT 0 0 = 1 ∧ (job? s 1).map (fun y => tgetD 0 y.marks 0) = some 2 ∧
      s.pg.ering.map (fun r => r.hdr.toNat / 2 ^ 24) = [0x1C] := by decide
/-- The state after a mismatch, a millisecond later, with REPAIR_DECAY 1. -/
def decayState : State :=
  let s := after (.checksumVerdict 0) (tileDrained oneFault)
  setRg { s with tmu := { s.tmu with ticks := 491520 } } MXE_REPAIR_DECAY 0 0 1
theorem test_witness_decay : fld (rg decayState MXE_REPAIR_CNT 0 0) 7 0 = 1 ∧ rg decayState MXE_REPAIR_DECAY 0 0 ≠ 0 ∧
    passed decayState (clu decayState 0).decayAt ((rg decayState MXE_REPAIR_DECAY 0 0).toNat * 1000000) = true ∧
    rg (after (.repairDecay 0) decayState) MXE_REPAIR_CNT 0 0 = 0 := by decide

/-! ### The vector engine -/

/-- An instruction as issued. -/
def vecIns (ws : List Word) : Issued := { words := ws, job := 1, scalar := 3 }
/-- Row of a tile at the head of the finished-tile queue: lanes 0 and 1. -/
def rowEnt : FtqEnt := ⟨0, 0, 0, 2, 3, true, 0, .pending [], [11, 0xFFFFFFFF]⟩
/-- Cluster 0 with a vector instruction at the head of its stream. -/
def vecState (ws : List Word) : State :=
  let x : Cluster := { vxq := [.instr (vecIns ws) 0], v := [(1, [0x7FFFFFFF, 0xFFFFFFFD]), (2, [1, 2, 5])], vm := [(1, 1)], ftq := [rowEnt]
                       sp := { bytes := [(0x40, 0x80), (0x41, 2)] } }
  { demo demoCore with cl := [(0, { x with job := some 1 })] }
/-- Lane `k` of V3 after a command. -/
def lane3 (i : Instr) (ws : List Word) (k : Nat) : Word := (tgetD [] (clu (after i (vecState ws)) 0).v 3).getD k 0
/-- Words of an instruction: opcode, TYPE, VD 3, VA 1, VB 2, and its second and third words. -/
def vw (op ty : Nat) (w1 : Word) (a : Word) : List Word := [w32 (op * 2 ^ 24 + ty * 2 ^ 20 + 3 * 2 ^ 15 + 1 * 2 ^ 10 + 2 * 2 ^ 5), w1, a, 0, 0, 0, 0, 0]

theorem vecReady_of (ws : List Word) (op : Nat) (h1 : opcodeOf ws = op) (h2 : vecBad (vecState ws) demoJob 0 ws = none) :
    VecReady (vecState ws) 0 op (vecIns ws) demoJob := by
  refine ⟨⟨0, [], rfl⟩, by rfl, h1, h2, noYield_of (j := 1) (y := demoJob) ?_ (by rfl) (by decide), fun k => by rfl, fun _ => ⟨rowEnt, [], rfl, rfl⟩⟩
  rfl

/-- INT32 arithmetic, logic and permutation rows, a BF16 comparison and the functions of FP32 are consistent. -/
theorem test_witness_vector : (∀ op ∈ [0x80, 0x81, 0x82, 0x83, 0x84, 0x85, 0x86, 0x87, 0x88, 0x89, 0x8A, 0x8B, 0x8C, 0x8D, 0x91, 0xA8, 0xA9, 0x90, 0xA0, 0xB0, 0xB1, 0xB2, 0xB3],
      VecReady (vecState (vw op 2 0 0)) 0 op (vecIns (vw op 2 0 0)) demoJob) ∧ intWidth (vw 0x80 2 0 0) = some 32 ∧ intWidth (vw 0x80 0 0 0) = some 8 ∧
    (∀ op ∈ [0x98, 0x99, 0x9A, 0x9B, 0x90], VecReady (vecState (vw op 6 0 0)) 0 op (vecIns (vw op 6 0 0)) demoJob) ∧
    VecReady (vecState (vw 0xAA 2 0x200000 0)) 0 0xAA (vecIns (vw 0xAA 2 0x200000 0)) demoJob ∧
    VecReady (vecState (vw 0x80 2 0x30000000 0)) 0 0x80 (vecIns (vw 0x80 2 0x30000000 0)) demoJob := by
  refine ⟨fun op h => vecReady_of _ _ ?_ ?_, by decide, by decide, fun op h => vecReady_of _ _ ?_ ?_, vecReady_of _ _ (by decide) (by decide),
    vecReady_of _ _ (by decide) (by decide)⟩
  · revert op; decide
  · revert op; decide
  · revert op; decide
  · revert op; decide
/-- R102, R106: the sum wraps in its TYPE, or clamps with SAT; lane 1 is −3 + 2. -/
theorem test_vadd : lane3 (.vadd 0) (vw 0x80 2 0 0) 0 = 0x80000000 ∧ lane3 (.vadd 0) (vw 0x80 2 0x01000000 0) 0 = 0x7FFFFFFF ∧
    lane3 (.vadd 0) (vw 0x80 2 0 0) 1 = 0xFFFFFFFF ∧ lane3 (.vadd 0) (vw 0x80 0 0 0) 0 = 0 := by decide
/-- R104: a lane outside the mask keeps its value; R110: the scalar in place of VB; R118: the queue's row in place of VA. -/
theorem test_vector_operands : lane3 (.vsub 0) (vw 0x81 2 0x02000000 0) 1 = 0 ∧ lane3 (.vsub 0) (vw 0x81 2 0x82000000 0) 0 = 0x7FFFFFFC ∧
    lane3 (.vadd 0) (vw 0x80 2 0x30000000 0) 0 = 12 ∧ (clu (after (.vadd 0) (vecState (vw 0x80 2 0x30000000 0))) 0).ftq = [] := by decide
/-- R107: shifts by IMM; the minimum is signed. -/
theorem test_vector_shift : lane3 (.vshra 0) (vw 0x8C 2 1 0) 1 = 0xFFFFFFFE ∧ lane3 (.vshrl 0) (vw 0x8D 2 1 0) 1 = 0x7FFFFFFE ∧
    lane3 (.vmin 0) (vw 0x84 2 0 0) 1 = 0xFFFFFFFD := by decide
/-- R107: VCMP LT of INT32 into VM3: lane 1 alone of the first three lanes holds less than VB's. -/
theorem test_vcmp : (tgetD 0 (clu (after (.vcmp 0) (vecState (vw 0x90 2 2 0))) 0).vm 3).toNat % 8 = 0b110 := by decide
/-- R115, R116: 1 / 0 is infinity with its sign, 2^0 is 1. -/
theorem test_functions : lane3 (.vrcp 0) (vw 0x99 6 0 0) 5 = 0x7F800000 ∧ lane3 (.vexp2 0) (vw 0x98 6 0 0) 5 = 0x3F800000 := by decide
/-- R112: a sum over pairs of lanes wraps. -/
theorem test_vred : lane3 (.vred 0) (vw 0xAA 2 0x200000 0) 0 = 0x7FFFFFFC ∧ lane3 (.vred 0) (vw 0xAA 2 0x200000 0) 1 = 0x7FFFFFFC := by decide
theorem test_witness_vld : let s := vecState (vw 0xB0 0 0 0x40)
    cherry s 0 = false ∧ deniedLines s (ownerOf s 17 0) 0 0x40 128 = [] ∧ loadWaits s 0 (vecIns (vw 0xB0 0 0 0x40)) 0x40 128 = false ∧
      readsTiles s 0 [(0x40, 128)] = [] ∧ VecReady s 0 0xB0 (vecIns (vw 0xB0 0 0 0x40)) demoJob :=
  ⟨by decide, by decide, by decide, by decide, vecReady_of _ _ (by decide) (by decide)⟩
/-- R102: INT8 elements are sign-extended; a stored BF16 is the high half. -/
theorem test_vld_vst : lane3 (.vld 0) (vw 0xB0 0 0 0x40) 0 = 0xFFFFFF80 ∧ lane3 (.vld 0) (vw 0xB0 0 0 0x40) 1 = 2 ∧
    (clu (after (.vst 0) (vecState (vw 0xB1 5 0 0x80))) 0).sp.get 0x81 = 0x7F ∧
    (clu (after (.vst 0) (vecState (vw 0xB1 5 0 0x80))) 0).sp.get 0x82 = 0xFF := by decide
/-- Words of a wide-sum instruction on V4 (VD), V8 (VA) and V10 (VB): opcode, second and third words. -/
def ww (op : Nat) (w1 a : Word) : List Word := [w32 (op * 2 ^ 24 + 7 * 2 ^ 20 + 4 * 2 ^ 15 + 8 * 2 ^ 10 + 10 * 2 ^ 5), w1, a, 0, 0, 0, 0, 0]
theorem test_witness_wide : (∀ op ∈ [0xB8, 0xBA, 0xBB], VecReady (vecState (ww op 0 0)) 0 op (vecIns (ww op 0 0)) demoJob) ∧
    deniedLines (vecState (ww 0xBA 0 0)) 0 0 0 2048 = [] ∧ loadWaits (vecState (ww 0xBA 0 0)) 0 (vecIns (ww 0xBA 0 0)) 0 2048 = false ∧
    (∀ k, k < 128 → (clu (vecState (ww 0xBB 0 0)) 0).wide (8 + 2 * (k / 64)) (k % 64) < 2 ^ 95) := by
  refine ⟨fun op h => vecReady_of _ _ ?_ ?_, by decide, by decide, by decide⟩
  · revert op; decide
  · revert op; decide
/-- R53: 16 bytes as a wide sum, and back. -/
theorem test_vpld : (clu (after (.vpld 0) (vecState (ww 0xBA 0 0x40))) 0).wide 4 0 = 0x280 := by decide
/-- R118: VPOP takes the row; VTOS pushes lane 0 of VA and raises RETQ. -/
theorem test_vpop_vtos : lane3 (.vpop 0) (vw 0xB2 2 0 0) 1 = 0xFFFFFFFF ∧
    (clu (after (.vtos 0) (vecState (vw 0xB3 2 0 0))) 0).clv.retq = [0x7FFFFFFF] := by decide
/-- R111: a conversion to INT8 clamps. -/
theorem test_vcvt : lane3 (.vcvt 0) (vw 0xA0 2 0 0) 0 = 0x7F ∧ lane3 (.vcvt 0) (vw 0xA0 2 0 0) 1 = 0xFFFFFFFD := by decide

/-! ### Copy engines and pods -/

/-- Set registers: name, instance, selector, value. -/
def withRegs (s : State) (l : List (Nat × Nat × Nat × Word)) : State := l.foldl (fun s e => setRg s e.1 e.2.1 e.2.2.1 e.2.2.2) s
/-- Partition 0 with objects 0 to 63 on logical cluster 0, and block 0 enabled. -/
def demoS (k : Clv) : State :=
  withRegs { demo k with disp := { (demo k).disp with parts := [(0, some { cls := .mgmt, slices := [(0, 64)] })] } } [(SYU_BLK_OWNER, 0, 0, 0x80000000)]
/-- A copy descriptor as issued: word 0, source and destination addresses, NROWS and NPLANES 1, rows and strides of `n` bytes, SIGNAL,
items word. -/
def copyIns (w0 src dst : Word) (n : Nat) (sig : Word) : Issued :=
  { words := [w0, src, 0, dst, 0, w32 n, 0x00010001, w32 n, w32 n, 0, 0, 0, sig, 1, 7, 0], off := 0x300, job := 1 }
/-- It stands in the queue of engine 0. -/
def copyState (d : CopyDesc) : State := { demoS demoCore with eng := [(0, { q := [d], issued := 1 })] }
/-- COPY of 8 bytes from X 0x40 to Y 0x80, with an ADD to object 3. -/
def copyXY : CopyDesc := { ins := copyIns 0x20120040 0x40 0x80 8 0x10000003, serial := 0 }
/-- The same, started. -/
def copyOn : CopyDesc := { copyXY with started := true, src := (1, 0x40), dst := (2, 0x80), units := [0], gen := (0, 0, 1) }
/-- FILL of 12 scratchpad bytes at 0x100. -/
def fillOn : CopyDesc := { ins := copyIns 0x21000040 0xA1B2C3D4 0x100 12 0, serial := 0, started := true, dst := (0, 0x100), units := [0] }
/-- COPY of 16 bytes of external memory at 0x10 of the partition's region to the site buffer. -/
def dramOn : CopyDesc :=
  { ins := copyIns 0x20450040 0x10 0x20 16 0, serial := 0, started := true, src := (4, 0x200010), dst := (5, 0x20), units := [0] }
/-- Registers of a region of partition 0 at 2 MiB, of a site-buffer granule, and a bucket of partition 0. -/
def dramState : State :=
  let s := withRegs (copyState dramOn) [(MEM_RGN_BASE, 0, 0, 1), (MEM_RGN_SIZE, 0, 0, 1), (MEM_RGN_CFG, 0, 0, 0x8C000000), (MEM_GRAN_CFG, 0, 0, 0x80000000)]
  { s with mem := { s.mem with ext := [(0x200010, 0x5A)], buckets := [(0, { level := 1 })] } }

theorem test_witness_copy : nextDesc [] (engOf (copyState copyXY) 0).q = some ([], copyXY) ∧ job? (copyState copyXY) 1 = some demoJob ∧
    opcodeOf copyXY.ins.words = 0x20 ∧ copyBad (copyState copyXY) 0 demoJob copyXY.ins.words = none ∧
    spaceBase (copyState copyXY) 0 demoJob copyXY.ins.words 1 0x40 0 = some (1, 0x40) ∧
    spaceBase (copyState copyXY) 0 demoJob copyXY.ins.words 2 0x80 0 = some (2, 0x80) ∧
    hazard [] ((srcRanges copyXY.ins.words 0x40).map (fun r => (1, r)) ++ writesOf { copyXY with dst := (2, 0x80) }) = false ∧
    afterMet (copyState copyXY) 0 copyXY = true := by decide
/-- A HALO without a grid, and descriptors with a reserved conversion and a reserved opcode. -/
theorem test_witness_copy_skips : copyBad (copyState copyXY) 0 demoJob (copyIns 0x22090040 0x40 0x80 8 0).words = none ∧
    haloUnit (copyState copyXY) 0 demoJob (copyIns 0x22090040 0x40 0x80 8 0).words = none ∧
    copyBad (copyState copyXY) 0 demoJob (copyIns 0x20127040 0x40 0x80 8 0).words = some 1 ∧
    copyBad (copyState copyXY) 0 demoJob (copyIns 0x20120040 0x40 0x80 0 0).words = some 3 ∧
    copyBad (copyState copyXY) 0 demoJob (copyIns 0x21020040 0x40 0x1FFFC 8 0).words = some 2 := by decide
theorem test_copy : after (.copy 0) (copyState copyXY) = copyState copyOn ∧
    (engOf (after (.copy 0) (copyState { copyXY with ins := copyIns 0x20127040 0x40 0x80 8 0 })) 0).q.map (fun d => d.skipped) = [true] := by decide
theorem test_witness_copy_run : ∀ e ∈ [(copyState copyOn, copyOn, 8, 0x40, 0x80), (copyState fillOn, fillOn, 12, 0, 0x100), (dramState, dramOn, 16, 0x200010, 0x20)],
    runDesc e.1 0 = some e.2.1 ∧ nextRun e.2.1 = (e.2.2.2.1, e.2.2.1, 0, 0) ∧ cherry e.1 0 = false ∧ isStaged e.2.1.ins.words = false ∧ copyAfterM e.2.1.ins.words = false ∧
      e.2.1.units.Nodup ∧ copyRows e.2.1.ins.words = 1 ∧ 0 < copyRow e.2.1.ins.words ∧
      (isFill e.2.1.ins.words = false → admitAt e.1 0 [0] e.2.1.src.1 e.2.2.2.1 e.2.2.1 false = true) ∧
      (∀ i, i < e.2.2.1 → admitAt e.1 0 [0] e.2.1.dst.1 (e.2.2.2.2 + i) 1 true = true) ∧ (engOf e.1 0).dram = [] ∧ (engOf e.1 0).chip = [] ∧
      (match runBucket e.1 0 e.2.1 e.2.2.2.1 e.2.2.2.2 with | none => true | some b => decide (ceilDiv e.2.2.1 64 ≤ (bucket e.1 b).level)) = true := by decide
/-- R211, R214, R215: each byte at its place; the FILL repeats its word, the least significant byte first. -/
theorem test_copy_run : (clu (after (.copyRun 0 .clean) (copyState copyOn)) 0).ym.get 0x81 = 0xF2 ∧
    (clu (after (.copyRun 0 .clean) (copyState fillOn)) 0).sp.get 0x101 = 0xC3 ∧ (clu (after (.copyRun 0 .clean) (copyState fillOn)) 0).sp.get 0x10B = 0xA1 ∧
    mget 0 (after (.copyRun 0 .clean) dramState).mem.site 0x20 = 0x5A ∧ rg (after (.copyRun 0 .clean) dramState) FTE_RUNS_DRAM 0 0 = 1 := by decide
/-- A copy whose run is over. -/
def copyDone : CopyDesc := { copyOn with range := 1, runs := 1, lastRun := (0, 0) }
theorem test_witness_complete : (engOf (copyState copyDone) 0).q = [copyDone] ∧ descDone (copyState copyDone) 0 copyDone = true ∧
    fld (wd copyDone.ins.words 12) 31 28 < 3 ∧ jobObj (copyState copyDone) demoJob 3 = some 3 ∧
    objOwner (copyState copyDone) 3 = some (engPart (copyState copyDone) 0 demoJob) ∧ (copyState copyDone).sync.waits = [] ∧
    cherry (copyState copyDone) 0 = false ∧ noYield (copyState copyDone) 0 :=
  ⟨by decide, by decide, by decide, by decide, by decide, by decide, by decide, noYield_of (j := 1) (y := demoJob) (by decide) (by decide) (by decide)⟩
/-- R216: DESC_DONE counts and the ADD reaches object 3. -/
theorem test_complete : let s := after (.descComplete 0) (copyState copyDone)
    (engOf s 0).q = [] ∧ rg s FTE_DESC_DONE 0 0 = 1 ∧ objVal s 3 = 1 := by decide

/-- A pod descriptor: opcode and flags, DST_POD and SRC_POD, LIMIT, HBUF 0x100, SEQ_MIN. -/
def podIns (w0 w1 lim : Word) : Issued := { words := [w0, w1, lim, 0x100, 5, 0, 0, 0, 0, 0, 0, 0, 0, 0, 0, 0], off := 0x300, job := 1 }
/-- Handles of SEQ 5 and SEQ 4 for 64 scratchpad bytes at 0x40, ITEM_ID 9. -/
def h5 : BitVec 128 := 0x400001000500000009
/-- The older one. -/
def h4 : BitVec 128 := 0x400001000400000009
/-- Pods 1 and 2 of partition 0 with room for two, RETURN 2; pod 1 holds h5, or h4 and h5; HBUF holds h5. -/
def podState (d : CopyDesc) (q : List (BitVec 128)) : State :=
  let s := withRegs (copyState d) [(PODQ_POD_CFG, 0, 1, 0x82000002), (PODQ_POD_CFG, 0, 2, 0x82000002)]
  let x := demoCluster demoCore
  { s with cl := [(0, { x with xm := { bytes := mwrite 0 [] 0x100 (natLe 16 h5.toNat) } })], pod := { s.pod with pods := [(1, { q := q, high := q.length })] } }
/-- PUSH with NEW to pod 2, POP from pod 1, MOVE from 1 to 2. -/
def push2 : CopyDesc := { ins := podIns 0x30800000 0x00020000 1000, serial := 0 }
/-- POP. -/
def pop1 : CopyDesc := { ins := podIns 0x31000000 1 1000, serial := 0 }
/-- MOVE. -/
def move12 : CopyDesc := { ins := podIns 0x32000000 0x00020001 1000, serial := 0 }

/-- An engine whose queue is not listed waits on no pod. -/
theorem podCur_of {s : State} {k : Nat} (h : s.eng.all (fun e => e.1 = 0) = true) (hk : k ≠ 0) : podCur s k = none := by
  have : ∀ t : Tab CopyEng, t.all (fun e => e.1 = 0) = true → tget (fun _ => ({} : CopyEng)) t k = {} := by
    intro t ht
    induction t with
    | nil => rfl
    | cons a t ih =>
      obtain ⟨i, v⟩ := a
      simp only [List.all_cons, Bool.and_eq_true, decide_eq_true_eq] at ht
      have : i ≠ k := by omega
      simp only [tget, if_neg this]
      exact ih ht.2
  unfold podCur engOf tgetD
  rw [this _ h]
  rfl
theorem test_witness_pods : ∀ e ∈ [(push2, 0x30, [h5]), (pop1, 0x31, [h5]), (pop1, 0x31, []), (move12, 0x32, [h5])],
    PodReady (podState e.1 e.2.2) 0 e.2.1 e.1 demoJob := by
  intro e he
  simp only [List.mem_cons, List.mem_nil_iff, or_false] at he
  rcases he with rfl | rfl | rfl | rfl
  all_goals
    refine ⟨⟨[], by decide, by decide⟩, by decide, by decide, by decide, by decide, ?_, by decide, by decide, by decide, by decide, by decide, by decide, by decide⟩
    intro k
    by_cases h : k = 0
    · subst h; decide
    · exact podCur_of (by decide) h
theorem test_witness_pod_room : podTakes (podState push2 [h5]) 2 0 = true ∧ podTakes (podState push2 [h5, h5]) 1 0 = false ∧ hHole h5 = false ∧
    podChk move12.ins.words = false ∧ hOld 5 h4 = true ∧ hOld 5 h5 = false ∧
    podTakes (setPod (podState move12 [h5]) 1 ⟨[], 1, 0⟩) 2 0 = true := by decide
/-- R224, R227: the pushed handle is counted in pods; the popped one stands at HBUF and is held. -/
theorem test_pods : (podOf (after (.push 0) (podState push2 [])) 2).q = [h5] ∧ rg (after (.push 0) (podState push2 [])) PODQ_PART_INPODS 0 0 = 1 ∧
    (job? (after (.pop 0) (podState pop1 [h4])) 1).map (fun y => y.held) = some [⟨h4, 1⟩] ∧ (clu (after (.pop 0) (podState pop1 [h4])) 0).xm.get 0x104 = 4 ∧
    (podOf (after (.move 0) (podState move12 [h5])) 2).q = [h5] ∧ (podOf (after (.move 0) (podState move12 [h5])) 1).q = [] := by decide
/-- A POP that waits since tick 0, and a PUSH to a full pod, one microsecond later. -/
def podLate (d : CopyDesc) : State :=
  let s := podState { d with started := true, units := [0], podWait := some 0, handle := h5 } []
  { s with tmu := { s.tmu with ticks := 1000 } }
theorem test_witness_pod_expiry : ∀ d ∈ [pop1, push2], let q : CopyDesc := { d with started := true, units := [0], podWait := some 0, handle := h5 }
    podCur (podLate d) 0 = some q ∧ passed (podLate d) 0 1000 = true ∧ replaying (podLate d) 0 = false ∧ podTakes (podLate d) 2 0 = true ∧
      fld (rg (podLate d) PODQ_POD_CFG 0 2) 8 0 = 2 := by decide
/-- R224: a hole with SEQ_MIN; the handle with FAILED in the RETURN pod. -/
theorem test_pod_expiry : (clu (after (.podWaitExpire 0) (podLate pop1)) 0).xm.get 0x104 = 5 ∧ (clu (after (.podWaitExpire 0) (podLate pop1)) 0).xm.get 0x103 = 0x88 ∧
    (podOf (after (.podWaitExpire 0) (podLate push2)) 2).q = [h5 ||| 0x40000000] := by decide
theorem test_overflow : let s := podState push2 []
    let s := { s with eng := [], pod := { s.pod with overflow := [(0, [(h4, 7), (h5, 2)])] } }
    podTakes s 7 0 = false ∧ podTakes s 2 0 = true ∧ overflow (after (.returnOverflowDrain 0) s) 0 = [(h4, 7)] ∧
      (podOf (after (.returnOverflowDrain 0) s) 2).q = [h5] := by decide

/-! ### Synchronisation objects -/

/-- S1 names object 3, S2 is the operand 2, S3 the limit 1000; object 3 holds `v`. -/
def syncCore : Clv := { demoCore with s := [(1, 3), (2, 2), (3, 1000), (4, 7)], irq := 0 }
/-- The state. -/
def syncState (v : Word) : State := { demoS syncCore with sync := { objs := if v = 0 then [] else [(3, v)] } }
/-- A SYNC on object 3 that answers to S6. -/
def sreq (cont : Bool) : SyncReq := .core 0 1 2 6 3 cont
theorem noSaff_of {s : State} {o : Nat} (h : ∀ n, n < 96 → bit (rg s SYS_SAFF_CFG 0 n) 31 = false) : noSaff s o := fun n hn => Or.inl (h n hn)
theorem test_witness_sync : SyncReady (syncState 5) 0 1 demoJob demoGen 1 3 ∧ (syncState 5).sync.waits = [] ∧ syncCore.sreg 3 ≠ 0 ∧
    objVal (syncState 5) 3 = 5 ∧ ((5 : Word).toNat + (2 : Word).toNat < 2 ^ 32) ∧ objVal (syncState 0) 3 = 0 ∧ demoJob.regDone = none := by
  refine ⟨⟨by unfold CloveReady; decide, by decide, by decide, by decide, by decide, noSaff_of (by decide)⟩, by decide⟩
/-- R242, R246: a wait that holds; ACQUIRE takes its operand; TRY_ACQUIRE that fails answers 0; ADD. -/
theorem test_sync : (clu (after (.waitGe (sreq true)) (syncState 5)) 0).clv.sreg 6 = 0 ∧ (clu (after (.waitGe (sreq true)) (syncState 5)) 0).clv.pc = 0x204 ∧
    objVal (after (.acquire (sreq true)) (syncState 5)) 3 = 3 ∧ (clu (after (.tryAcquire (sreq true)) (syncState 1)) 0).clv.sreg 6 = 0 ∧
    objVal (after (.tryAcquire (sreq true)) (syncState 1)) 3 = 1 ∧ objVal (after (.syncAdd (sreq true)) (syncState 5)) 3 = 7 := by decide
/-- A wait whose condition fails takes an entry and stalls the core. -/
theorem test_sync_waits : (after (.waitZ (sreq true)) (syncState 5)).sync.waits.map (fun w => (w.op, w.obj, w.limit)) = [(6, 3, 1000)] ∧
    (clu (after (.waitZ (sreq true)) (syncState 5)) 0).clv.stall = 6 ∧ (clu (after (.wakeCause (sreq true)) (syncState 5)) 0).clv.sreg 6 = 3 ∧
    (clu (after (.register (sreq true)) (syncState 5)) 0).clv.irq = 2 := by decide
theorem test_witness_engine_sync : (syncState 5).sync.waits = [] ∧ noSaff (syncState 5) 3 ∧ objOwner (syncState 5) 3 = some 0 ∧ objOwner (syncState 5) 64 = none ∧
    2 ^ 32 ≤ (objVal (syncState 5) 3).toNat + (0xFFFFFFFB : Word).toNat := ⟨by decide, noSaff_of (by decide), by decide, by decide, by decide⟩
/-- R243, R254: an ADD saturates; of a WRITE and a SET in one cycle the SET wins. -/
theorem test_engine_sync : objVal (after (.syncAdd (.engine 0 0 3 0xFFFFFFFB)) (syncState 5)) 3 = 0xFFFFFFFF ∧
    objVal (after (.syncWrite (.engine 0 0 3 9) .set) (syncState 5)) 3 = 1 ∧
    objVal (after (.syncClear (.engine 0 0 3 0) (.add 4)) (syncState 5)) 3 = 4 := by decide

/-- An entry of cluster 0's core for an ACQUIRE of `n` on object 3. -/
def acqEnt (id : Nat) (c : Nat) (n : Word) (cont : Bool) : WaitEnt := ⟨id, .core c, 8, 3, n, 0, 1000, cont, 0, 0, 0x200, 6⟩
/-- Two cores wait; the value is 1. -/
def waitState : State :=
  let s := syncState 1
  { s with cl := (0, demoCluster { syncCore with stall := 6 }) :: [(1, demoCluster { syncCore with stall := 6 })], tmu := { s.tmu with ticks := 1000 }
           sync := { s.sync with waits := [acqEnt 0 0 3 true, acqEnt 1 1 2 true], nextId := 2 } }
theorem test_witness_waits : objOwner waitState 3 = some 0 ∧ (waitState.sync.waits.map (fun w => w.id)).Nodup ∧ passed waitState 0 1000 = true ∧
    replaying waitState 0 = false ∧ (clu waitState 0).clv.pc = 0x200 ∧ (clu waitState 0).job = some 1 ∧ job? waitState 1 = some demoJob ∧
    handedOk waitState := by
  refine ⟨by decide, by decide, by decide, by decide, by decide, by decide, by decide, ?_⟩
  intro n h e
  have : waitState.safe.rot = [] := by decide
  rw [this] at e
  cases e
/-- R252: the first ACQUIRE is served and the second has to wait; with 4 both are. -/
theorem test_waits : (after (.syncAdd (.engine 0 0 3 2)) waitState).sync.waits.map (fun w => w.id) = [1] ∧
    objVal (after (.syncAdd (.engine 0 0 3 2)) waitState) 3 = 0 ∧ (after (.syncAdd (.engine 0 0 3 4)) waitState).sync.waits = [] := by decide
/-- R248: EXPIRED in S6; without CONT the job is gone and the graph is held. -/
theorem test_expiry : (clu (after (.waitExpire 0) waitState) 0).clv.sreg 6 = 1 ∧ (clu (after (.waitExpire 0) waitState) 0).clv.pc = 0x204 ∧
    (let s := after (.waitExpire 0) { waitState with sync := { waitState.sync with waits := [acqEnt 0 0 3 false] } }
     job? s 1 = none ∧ s.sync.hold = true ∧ s.sync.wg.length = 1) := by decide

/-! ### Jobs and the dispatcher -/

/-- An image with an entry of one cluster, whose bucket set has one variant: arguments up to 8, code at 0x200, BUDGET 100. -/
def jobGen : Gen := { demoGen with sects := ⟨7, false, 0x180, 64, 0⟩ :: demoGen.sects }
/-- Its tables in external memory: entry words 0, 1, 3, 8, 9, 10; the bucket set. -/
def jobMem : Mem :=
  [(0x100, 0x200), (0x104, 0x20000001), (0x10C, 0x10), (0x124, 0xFFFF), (0x128, 4), (0x180, 0x100), (0x190, 8), (0x198, 0x200), (0x19C, 100)].foldl
    (fun m (e : Nat × Nat) => mwrite 0 m (0x100000 + e.1) (wordLe (w32 e.2))) []
/-- A JOB descriptor: deadline in ns, items, first argument, stamp, flow. -/
def jobDesc (dl items arg st flow : Nat) : List Word :=
  [0x01000000, 0xAB, 0, 0, w32 dl, 0, 0, 0x20000000, w32 (items * 2 ^ 16), w32 arg, 0, 0, 0, w32 st, w32 flow] ++ List.replicate 17 0
/-- Partition 0 with that descriptor picked up, protocol version 2, a stale window of 10 ns on flow 1; it is 1000 ns. -/
def jobState (d : List Word) : State :=
  let s := withRegs State.reset [(HIF_PROTO_AGREED, 0, 0, 0x80000002), (HIF_FLOW_WIN, 0, 1, 10)]
  { s with img := { gens := [jobGen], tick := [(0, 1)] }, mem := { s.mem with ext := jobMem }, host := { s.host with picked := [(0, [d])] }
           tmu := { s.tmu with time := 1000 * 2 ^ 40 } }
/-- A descriptor that is admitted. -/
def goodDesc : List Word := jobDesc 5000 2 8 1000 1

theorem test_witness_job : let s := jobState goodDesc
    headDesc s 0 = some goodDesc ∧ dtype goodDesc = 1 ∧ replaying s 0 = false ∧ boundGen s 0 0 = some jobGen ∧ jobFields s 0 goodDesc = true ∧
      entryCount jobGen = 1 ∧ entryWord s jobGen 0 10 = 4 ∧ isStale s 0 goodDesc = false ∧ bindEntry s jobGen 0 [8, 0, 0, 0] = some (0x200, 100, s) ∧
      isRS s 0 = false ∧
      admitted s { jobOf s 0 goodDesc jobGen with budget := 100, level := 1 } (yieldGap s jobGen) 1 1 0 0x20000000 = .inr [0] := by decide
/-- Too many items; a stamp older than the window; no bucket for 9; a deadline that cannot be met. -/
theorem test_witness_rejections : (∀ e ∈ [jobDesc 5000 2 8 989 1, jobDesc 5000 2 9 0 0, jobDesc 1000 2 8 0 0], jobFields (jobState e) 0 e = true) ∧
    isStale (jobState (jobDesc 5000 2 8 989 1)) 0 (jobDesc 5000 2 8 989 1) = true ∧ isStale (jobState (jobDesc 5000 2 8 990 1)) 0 (jobDesc 5000 2 8 990 1) = false ∧
    (bindEntry (jobState goodDesc) jobGen 0 [9, 0, 0, 0]).isNone = true ∧ (bindEntry (jobState goodDesc) jobGen 0 [0, 0, 0, 0]).isNone = true ∧
    (let d := jobDesc 1000 2 8 0 0
     admitted (jobState d) { jobOf (jobState d) 0 d jobGen with budget := 100, level := 1 } 0 1 1 0 0x20000000 = .inl 0x30) := by decide
/-- R268, R287, R288: the job waits on cluster 0, and, the cluster being without power, does not start; the others end in a record. -/
theorem test_job : (job? (after (.job 0) (jobState goodDesc)) 0).map (fun y => (y.units, y.deadline, y.budget)) = some ([0], 5000, 100) ∧
    (after (.job 0) (jobState goodDesc)).host.picked = [] ∧ job? (after (.job 0) (jobState (jobDesc 1000 2 8 0 0))) 0 = none ∧
    rg (after (.job 0) (jobState (jobDesc 1000 2 8 0 0))) SYS_ADMIT_REJ 0 0 = 1 ∧
    (staged (after (.job 0) (jobState (jobDesc 1000 5 8 0 0))) 0).map (fun r => fld (wd r.2 0) 23 16) = [0x20] := by decide

/-- The descriptor stands in slot 0 of the submission window of partition 0. -/
def windowState : State :=
  let s := jobState []
  let h : HostIf := { s.host with picked := [], seqSeen := [(0, true)] }
  { s with host := h, mem := { s.mem with site := mwrite 0 [] Config.windowBase (wordsLe goodDesc) } }
theorem test_witness_scan : windowState.trace.run = none ∧ windowState.host.barWait = [] ∧ windowState.disp.spill = [] ∧ scanned windowState 0 = true ∧
    tgetD [] windowState.host.picked 0 = [] ∧ staged windowState 0 = [] ∧ slotWords windowState 0 0 = goodDesc ∧ dseq goodDesc = 0 ∧
    typeBad windowState 0 goodDesc = none ∧ tgetD false windowState.host.seqSeen 1 = false := by decide
/-- R293: bucket 0 gains RATE up to BURST; the descriptor is picked up. -/
theorem test_scan : (bucket (after .scanTick windowState) 0).added = (rg windowState MEM_REG_CFG 0 0 &&& 0xFFFF) ∧
    tgetD [] (after .scanTick windowState).host.picked 0 = [goodDesc] ∧ tgetD 0 (after .scanTick windowState).host.expect 0 = 1 := by decide

/-- A job of that entry, not yet run. -/
def queuedJob : Job := { part := 0, slot := 0, gen := 1, entry := 0, args := [8, 0, 0, 5], deadline := 5000, nitems := 2, units := [0], budget := 100, scrKib := 1 }
/-- Cluster 0 powered and free, its scratchpad last written by partition 1; jobs as given. -/
def dispState (jobs : Tab (Option Job)) : State :=
  let s := withRegs (jobState []) [(PWC_DOM_STAT, 0, 0, 0xFFFFFFFF), (PWC_DOM_STAT, 0, 18, 0xFFFFFFFF), (PWC_DOM_STAT, 0, 36, 0xFFFFFFFF)]
  { s with host := { s.host with picked := [] }, disp := { s.disp with jobs := jobs }, cl := [(0, { lastPart := 1, sp := { bytes := [(0, 9), (1024, 9)] } })] }
theorem test_witness_start : let s := dispState [(0, some queuedJob)]
    genOf s queuedJob = some jobGen ∧ gridRec s jobGen 0 = none ∧ mapUnits s queuedJob = [0] ∧ selected s 0 = some (0, queuedJob) ∧ queuedJob.units.all (unitFree s) = true ∧
      (∀ y ∈ unitJobs s queuedJob, y.phase ≠ .spilling ∧ y.phase ≠ .restoring) ∧ inTheWay s queuedJob = [] ∧ stepBoundary s 0 = s ∧
      bindEntry s jobGen 0 queuedJob.args = some (0x200, 100, s) := by decide
/-- R136, R284: arguments in S1 to S4; the footprint of 1 KiB is cleared. -/
theorem test_start : let x := clu (after (.jobStart 0) (dispState [(0, some queuedJob)])) 0
    x.job = some 0 ∧ x.clv.pc = 0x200 ∧ x.clv.sreg 1 = 8 ∧ x.clv.sreg 4 = 5 ∧ x.clv.sreg 5 = 0 ∧ x.sp.get 0 = 0 ∧ x.sp.get 1024 = 9 := by decide
/-- A region of four bytes of Y, spilled. -/
def yReg : SaveReg := ⟨0, 2, 0x40, 4, true⟩
/-- A spill that has moved everything; a restore that has. -/
def spillState (restore : Bool) (x : Job) : State :=
  let s := dispState [(0, some x)]
  { s with disp := { s.disp with spill := [{ job := 0, restore := restore, deadline := 5000, bytes := 516, started := true }] }
           cl := [(0, { job := some 0, ym := { bytes := [(0x40, 1), (0x43, 4)] } })] }
/-- The jobs. -/
def spilling : Job := { queuedJob with phase := .spilling, phys := [0], saved := [(0, { demoCore with pc := 0x210 })], regions := [yReg] }
/-- The other. -/
def restoring : Job := { spilling with phase := .restoring, image := [[7, 8, 9, 10]] }
theorem test_witness_spill : (∃ r, spillDone (spillState false spilling) false = some r ∧ r.job = 0 ∧ r.dropped = false) ∧
    (∃ r, spillDone (spillState true restoring) true = some r ∧ r.job = 0 ∧ r.dropped = false) ∧ job? (spillState true restoring) 0 = some restoring ∧
    isRS (spillState true restoring) 0 = false ∧ placeOf (spillState true restoring) { restoring with phys := [0] } 0 = some 0 ∧
    (∀ q ∈ restoring.saved, ∀ p ∈ restoring.saved, p = q) :=
  ⟨⟨_, rfl, rfl, rfl⟩, ⟨_, rfl, rfl, rfl⟩, by decide, by decide, by decide, by decide⟩
/-- R190: the save set holds the four bytes; the restore puts the core back; X is undefined. -/
theorem test_spill : (job? (after .spillComplete (spillState false spilling)) 0).map (fun y => (y.image, decide (y.phase = .spilled))) = some ([[1, 0, 0, 4]], true) ∧
    (clu (after .restoreComplete (spillState true restoring)) 0).clv.pc = 0x210 ∧
    (clu (after .restoreComplete (spillState true restoring)) 0).xm.undef = [(0, 131072, 1)] := by decide

/-- Cluster 0 is windowed: window 3 of partition 2 (RADIO) from 2000 ns for 500 ns in a period of 10000 ns, FLOOR_GUARD 900 ns; it is `t` ns. -/
def floorState (t : Nat) (jobs : Tab (Option Job)) : State :=
  let s := withRegs (dispState jobs) [(SYS_FLOOR_CFG, 0, 0, 0x80000000), (SYS_FLOOR_PERIOD, 0, 0, 10000), (SYS_FLOOR_GUARD, 0, 0, 900),
    (SYS_WIN_CFG, 0, 48, w32 (2 ^ 31 + 2 * 2 ^ 26 + 500)), (SYS_WIN_START, 0, 48, 2000)]
  { s with tmu := { s.tmu with time := t * 2 ^ 40 }, disp := { s.disp with parts := [(0, some { cls := .mgmt }), (2, some { cls := .radio })] } }
/-- An edge job that runs; a RADIO job of the window. -/
def edgeJob : Job := { queuedJob with phase := .running, phys := [0], lateOk := true }
/-- The RADIO job. -/
def radioJob : Job := { edgeJob with part := 2, win := some (0, 3), lateOk := false }
/-- The window is open. -/
def floorOpen (t : Nat) (jobs : Tab (Option Job)) : State := let s := floorState t jobs; { s with disp := { s.disp with winOpen := [(0, some 3)] } }
theorem handedOk_of {s : State} (h : s.safe.rot = []) : handedOk s := by
  intro n q e
  rw [h] at e
  cases e
theorem test_witness_floors : (floorState 0 []).disp.tpls = [] ∧ (floorState 0 []).disp.tplTodo = [] ∧ handedOk (floorState 0 []) ∧ floorMode (floorState 0 []) 0 = 2 ∧
    inGuard (floorState 1100 []) 0 3 = true ∧ inGuard (floorState 1099 []) 0 3 = false ∧ inWindow (floorState 2000 []) 0 3 = true ∧ inWindow (floorState 1999 []) 0 3 = false ∧
    inWindow (floorState 2499 []) 0 3 = true ∧ inWindow (floorOpen 2500 []) 0 3 = false ∧ openWin (floorState 2000 []) 0 = none ∧
    jobsOn (floorState 2000 [(0, some edgeJob)]) 0 (fun x => mustLeave (floorState 2000 [(0, some edgeJob)]) 0 3 x && !replaying (floorState 2000 [(0, some edgeJob)]) x.part) = [(0, edgeJob)] ∧
    jobsOn (floorOpen 2500 [(0, some radioJob)]) 0 (fun x => decide (x.win = some (0, 3))) = [(0, radioJob)] ∧ isRS (floorState 0 []) 2 = true :=
  ⟨by decide, by decide, handedOk_of (by decide), by decide, by decide, by decide, by decide, by decide, by decide, by decide, by decide, by decide, by decide, by decide⟩
/-- R276 to R278: the guard; the edge job is gone; the overrun counts and the job goes on. -/
theorem test_floors : (after (.floorGuard 0 3) (floorState 1100 [])).disp.guard = [(0, true)] ∧
    job? (after (.floorWindowStart 0 3) (floorState 2000 [(0, some edgeJob)])) 0 = none ∧
    job? (after (.floorWindowStart 0 3) (floorState 2000 [(0, some radioJob)])) 0 = some radioJob ∧
    rg (after (.floorWindowEnd 0 3) (floorOpen 2500 [(0, some radioJob)])) SYS_FLOOR_STAT 0 0 = 0x10000 ∧
    job? (after (.floorWindowEnd 0 3) (floorOpen 2500 [(0, some radioJob)])) 0 = some radioJob := by decide
theorem test_witness_deadlines : ∀ x ∈ [edgeJob, { edgeJob with lateOk := false }, radioJob], let s := floorOpen 5000 [(0, some x)]
    job? s 0 = some x ∧ x.deadline ≤ nowNs s ∧ x.late = false ∧ replaying s x.part = false ∧ x.part < 32 ∧
      (isRS s x.part = false ∧ x.lateOk = true ∨ isRS s x.part = true ∨ x.lateOk = false) := by decide
/-- R299: LATE_OK moves the deadline by the budget, 100 a-cycles at divider 4; otherwise the job is aborted. -/
theorem test_deadlines : (job? (after (.deadlineExpire 0) (floorOpen 5000 [(0, some edgeJob)])) 0).map (fun y => (y.deadline, y.late)) = some (5102, true) ∧
    job? (after (.deadlineExpire 0) (floorOpen 5000 [(0, some radioJob)])) 0 = none ∧
    rg (after (.deadlineExpire 0) (floorOpen 5000 [(0, some radioJob)])) SYS_DL_ABORT_CNT 0 2 = 1 := by decide

/-! ### The time unit -/

/-- Control registers respond once the device is ready. -/
def readyState : State := withRegs State.reset [(PWC_PWC_STAT, 0, 0, 0x80000000)]
theorem pageOpen_of {s : State} {p c i : Nat} (h1 : responds s c = true) (h2 : pageExists s c i = true) (h3 : mayWrite s p c i = true) : pageOpen s p c i := ⟨h1, h2, h3⟩
/-- Ready, in free run since 2 ms, with a slew left. -/
def tmuState : State :=
  { readyState with tmu := { ticks := 1000000, time := 3000000 * 2 ^ 40, phaseLeft := 5, freeRun := true, tsq := [(1, 2, 77)], grid := 24 } }
/-- The watchdog of 1 ms, outside free run. -/
def dogState : State := let s := setRg tmuState TMU_TMU_CTL 0 0 1; { s with tmu := { s.tmu with freeRun := false } }
theorem test_witness_servo : State.reset.pending = [] ∧ pageOpen tmuState 0 3 0 ∧ tmuState.trace.run = none ∧ dogState.tmu.freeRun = false ∧ fld (rg dogState TMU_TMU_CTL 0 0) 15 0 = 1 ∧
    passed dogState 0 1000000 = true ∧ passed readyState 0 1000000 = false ∧ dogState.pwr.refLost = [] ∧ dogState.pwr.holdAt = none ∧ dogState.pwr.refUse = 0 :=
  ⟨by decide, pageOpen_of (by decide) (by decide) (by decide), by decide, by decide, by decide, by decide, by decide, by decide, by decide, by decide⟩
/-- R505: 12 ppm is the bound, 13,194,139 in units of 2^-40; a write beyond it sets ADJ_CLAMP. -/
theorem test_servo : (after (.freqAdj 0 13194139) tmuState).tmu.rate = 13194139 ∧ (after (.freqAdj 0 13194140) tmuState).tmu.rate = 13194139 ∧
    evtBit (after (.freqAdj 0 13194140) tmuState) 3 0 3 = true ∧ evtBit (after (.freqAdj 0 13194139) tmuState) 3 0 3 = false ∧
    (after (.freqAdj 0 (-20000000)) tmuState).tmu.rate = -13194139 := by decide
/-- One tick at rate 0 is 3125/1536 ns. -/
theorem test_tick : (match step State.reset with | .next t => decide (t.tmu.ticks = 1 ∧ t.tmu.time = 2236962133333) | _ => false) = true := by decide
theorem test_servo_commands : (after (.phaseAdj 0 0xFFFFFFFF) tmuState).tmu.phaseLeft = -(2 ^ 40) ∧ (after (.tmuCtl 0 0x80000000) dogState).tmu.cause = 2 ∧
    (after .servoTimeout dogState).tmu.freeRun = true ∧ (after (.refLoss 0) dogState).tmu.cause = 3 ∧ (after (.refLoss 0) dogState).pwr.refLost = [0] ∧
    (after (.refReturn 0) (after (.refLoss 0) dogState)).pwr.locking = some 0 ∧
    (after .refSwitch (after (.refReturn 0) (after (.refLoss 0) dogState))).pwr.locking = none ∧
    (after .slewEnd { tmuState with tmu := { tmuState.tmu with slewing := true, phaseLeft := 0 } }).tmu.slewing = false := by decide
theorem test_witness_refs : let s := after (.refLoss 0) dogState
    s.pwr.refLost = [0] ∧ s.pwr.holdAt.isSome = true ∧ s.pwr.locking = none ∧ (after (.refReturn 0) s).pwr.locking = some 0 ∧ refValid (after (.refReturn 0) s) 0 = true := by decide
/-- TIME_SET to 7 ns, with a job whose deadline is 3,000,500 ns. -/
def setState : State := let s := setRg tmuState TMU_SET_NS 0 0 7; { s with disp := { s.disp with jobs := [(0, some { queuedJob with deadline := 3000500 })] } }
theorem test_witness_time_set : responds setState 3 = true ∧ pageOpen setState 0 3 0 ∧ (setState.radio.cells.any (fun e => decide ((cellOf setState e.1).st = .running) || (cellOf setState e.1).startAt.isSome)) = false ∧
    (∀ l, 8 ≤ l → l < 16 → bit (rg setState JCL_LINK_CFG 0 l) 31 = false) ∧ setState.fh.pa = [] ∧
    txQuiet { setState with fh := { setState.fh with pa := [(3, true)] } } = false ∧ mayRead setState 0 3 0 0x40 = true ∧ mayRead setState 0 3 0 0xA0 = true ∧
    setState.tmu.tsq = [(1, 2, 77)] ∧ setState.pg.ering.length < 16384 := by
  refine ⟨by decide, pageOpen_of (by decide) (by decide) (by decide), by decide, ?_, by decide, by decide, by decide, by decide, by decide, by decide⟩
  intro l h1 h2
  interval_cases l <;> decide
/-- R506, R507: the time is 7 ns and the deadline has moved with it; a refused step is recorded. -/
theorem test_time_set : nowNs (after (.timeSet 0) setState) = 7 ∧ (job? (after (.timeSet 0) setState) 0).map (fun y => y.deadline) = some 507 ∧
    evtBit (after (.timeSet 0) { setState with fh := { setState.fh with pa := [(3, true)] } }) 3 0 1 = true ∧
    (after (.timeNs 0) setState).out = [.reply 3000000] ∧ (after (.tsqStamp 0) setState).out = [.reply 77] ∧ (after (.tsqStamp 0) setState).tmu.tsq = [] := by decide

/-! ### FAPI -/

/-- A FAPI descriptor for cell 0. -/
def fapiDesc : List Word := [0x30000000, 7, 0, 0x1000, 0, 64, 0] ++ List.replicate 25 0
/-- A supported configuration: NR, 30 kHz, 100 PRBs, 4 and 4 antennas. -/
def cfg0 : CellConfig := ⟨false, 1, false, 100, 4, 4, false, false, false, none, none, none, none, none, none⟩
/-- RADIO partition 1 on function 1, with the descriptor picked up; cell 0 as given, at `t` ns. Its timing page has slots of 1 ms. -/
def radioState (k : Cell) (t : Nat) : State :=
  let s := setRg readyState HIF_RXBUF_SIZE 1 0 0
  { s with disp := { s.disp with parts := [(0, some { cls := .mgmt }), (1, some { cls := .radio, vf := 1 })] }
           host := { s.host with linkUp := true, busMaster := [(1, true)], picked := [(1, [fapiDesc])] }
           radio := { s.radio with cells := if k = {} then [] else [(0, k)] }, tmu := { s.tmu with time := t * 2 ^ 40 } }
/-- The cell, configured and running. -/
def conf0 : Cell := { part := some 1, st := .configured, cfg := some cfg0 }
/-- Running. -/
def run0 : Cell := { conf0 with st := .running }
theorem fapiReady_of {s : State} (h : headDesc s 1 = some fapiDesc ∧ tgetD [] s.host.picked 1 = [fapiDesc] ∧ mayWriteHost s 1 = true ∧
    ((cellOf s 0).part = none ∨ (cellOf s 0).part = some 1) ∧ s.trace.run = none ∧ s.trace.replay = none) : FapiReady s 1 0 :=
  ⟨fapiDesc, h.2.1, by decide, by decide, by decide, h.2.2.1, h.2.2.2.1, h.2.2.2.2⟩
theorem test_witness_fapi : FapiReady (radioState {} 0) 1 0 ∧ FapiReady (radioState conf0 0) 1 0 ∧ FapiReady (radioState run0 0) 1 0 ∧
    cfgOk (radioState {} 0) 0 cfg0 = true ∧ cfgOk (radioState {} 0) 0 { cfg0 with prbs := 273 } = true ∧ cfgOk (radioState {} 0) 0 { cfg0 with prbs := 274 } = false ∧
    tlvsOk { cfg0 with slotIndAdv := some 8 } 4 = true ∧ tlvsOk { cfg0 with slotIndAdv := some 9 } 4 = false ∧
    conf0.startAt = none ∧ conf0.stopAt = none ∧ (cellOf (radioState {} 0) 0).st ≠ .configured :=
  ⟨fapiReady_of (by decide), fapiReady_of (by decide), fapiReady_of (by decide), by decide, by decide, by decide, by decide, by decide, by decide, by decide, by decide⟩
/-- R336: IDLE to CONFIGURED; START names frame 2 of frame 0; a refused START changes nothing. -/
theorem test_fapi_states : (cellOf (after (.configRequest 1 0 cfg0) (radioState {} 0)) 0).st = .configured ∧
    (cellOf (after (.startRequest 1 0) (radioState conf0 0)) 0).startAt = some 2 ∧ (cellOf (after (.stopRequest 1 0) (radioState run0 0)) 0).stopAt = some 0 ∧
    (after (.startRequest 1 0) (radioState run0 0)).radio.cells = [(0, run0)] ∧
    ((cellOf (after (.configRequest 1 0 { cfg0 with learnedRx := some 0 }) (radioState run0 0)) 0).todo.bind (fun x => x.learnedRx)) = some 0 ∧
    (after (.paramRequest 1 0) (radioState run0 0)).radio.cells = [(0, run0)] ∧ tgetD [] (after (.fapi 1 0 99) (radioState run0 0)).host.picked 1 = [] := by decide

/-- A PDSCH of one layer; a PUCCH of one PRB. -/
def dlp : DlPdu := ⟨.pdsch, 1, 1, 24, 1, true, 8, 2, 0, 40, false⟩
/-- The PUCCH. -/
def ulp : UlPdu := ⟨.pucch, 0, none, 1, 0, 1, [0], [], 0, false, 0, 0, 0, false, 0, 2, 2, 0, false, false, false⟩
theorem test_witness_slots : slotOpen (radioState run0 0) 0 1 false ∧ ¬ slotOpen (radioState run0 1) 0 1 false ∧ slotLate (radioState run0 1) 0 1 false ∧
    slotOpen (radioState run0 500000) 0 1 true ∧ slotLate (radioState run0 500001) 0 1 true ∧ farAhead (radioState run0 0) 0 8 = false ∧
    farAhead (radioState run0 0) 0 9 = true ∧ dlBad [dlp] = none ∧ ulBad false [ulp] = none ∧ dlOf (radioState run0 0) 0 1 = none ∧
    ulOf (radioState run0 0) 0 1 = none ∧ (radioState run0 0).mem.ue = [] := by unfold slotOpen slotLate; decide
/-- The downlink of slot 1 has been asked for; the payload stands at 0x10 of host memory. -/
def txState (t : Nat) : State :=
  let s := radioState run0 t
  { s with radio := { s.radio with dl := [⟨1, 0, 1, [{ pdu := dlp }], 0, true⟩] }, mem := { s.mem with host := [(0x10, 0xAB)] } }
theorem test_witness_tx : FapiReady (txState 0) 1 0 ∧ slotOpen (txState 0) 0 1 false ∧ dlItem (txState 0) 0 1 0 = some { pdu := dlp } ∧ slotLate (txState 1) 0 1 false :=
  ⟨fapiReady_of (by decide), by unfold slotOpen; decide, by decide, by unfold slotLate; decide⟩
/-- R333, R334: the requests give the slot its items; one a nanosecond late gives nothing. -/
theorem test_slots : ((dlOf (after (.dlTtiRequest 1 0 1 [dlp]) (radioState run0 0)) 0 1).map (fun u => u.items.length)) = some 1 ∧
    (dlOf (after (.dlTtiRequest 1 0 1 [dlp]) (radioState run0 1)) 0 1).isNone = true ∧
    ((ulOf (after (.ulTtiRequest 1 0 1 [ulp]) (radioState run0 0)) 0 1).map (fun u => u.items.length)) = some 1 ∧
    ((dlOf (after (.ulDciRequest 1 0 1 64) (radioState run0 0)) 0 1).map (fun u => u.dcis)) = some 64 ∧
    ((dlItem (after (.txDataRequest 1 0 1 [⟨0, 0x10, 3⟩]) (txState 0)) 0 1 0).bind (fun x => x.payload)) = some [0xAB, 0, 0] ∧
    ((dlItem (after (.txDataRequest 1 0 1 [⟨0, 0x10, 3⟩]) (txState 1)) 0 1 0).map (fun x => (x.payload, x.told))) = some (none, true) := by decide

/-! ### Boundaries and commits -/

/-- At 30 ms (frame 3) a cell is to start with frame 2, 3 or 4, or to stop after frame 2. -/
theorem test_witness_frames : let s := radioState { conf0 with startAt := some 2 } 30000000
    s.pg.commits = [] ∧ s.disp.tplTodo = [] ∧ s.trace.run = none ∧ frameCnt s = 3 ∧ frameCnt s ≠ s.tmu.frame ∧ s.radio.cells = [(0, { conf0 with startAt := some 2 })] ∧
      conf0.saff = none ∧ conf0.engaged = none ∧ bit (rg s SYS_SAFF_CFG 0 0) 31 = false ∧ conf0.todo = none ∧ s.radio.ul = [] ∧
      objOwner s (fld (rg s BEQ_CELL_CFG 0 0) 13 0) ≠ some 1 := by decide
theorem test_frames : (cellOf (after .frameBoundary (radioState { conf0 with startAt := some 3 } 30000000)) 0).st = .running ∧
    (cellOf (after .frameBoundary (radioState { conf0 with startAt := some 4 } 30000000)) 0).st = .configured ∧
    (cellOf (after .frameBoundary (radioState { run0 with stopAt := some 2 } 30000000)) 0).st = .configured ∧
    (cellOf (after .frameBoundary (radioState { run0 with stopAt := some 3 } 30000000)) 0).st = .running ∧
    ((cellOf (after .frameBoundary (radioState { run0 with todo := some { cfg0 with slotIndAdv := some 3 } } 30000000)) 0).cfg.bind (fun x => x.slotIndAdv)) = some 3 := by decide
/-- Object 5 of the cell's partition asks for bank 1, with REJ_SEQ 2. -/
def swapState : State :=
  let s := withRegs (radioState run0 30000000) [(SYU_BLK_OWNER, 0, 0, 0x80000001), (BEQ_CELL_CFG, 0, 0, 0x80000005)]
  { s with sync := { s.sync with objs := [(5, 0x80000201)] } }
theorem test_witness_swap : objOwner swapState 5 = some 1 ∧ objVal swapState 5 = 0x80000201 ∧ fld (rg swapState BEQ_CELL_CFG 0 0) 13 0 = 5 ∧ (cellOf swapState 0).bank = 0 ∧ beqEn swapState 0 = true := by decide
/-- R366: bank 1 is active, two rejections are counted. -/
theorem test_swap : (cellOf (after .frameBoundary swapState) 0).bank = 1 ∧ rg (after .frameBoundary swapState) BEQ_VAL_REJECT 0 0 = 2 := by decide
/-- Slot 3 of a running cell begins; slot 2 of the timer of partition 1, whose job runs on cluster 0. -/
def slotState : State :=
  let s := radioState run0 3000000
  { s with cl := [(0, demoCluster demoCore)], disp := { s.disp with jobs := [(1, some { demoJob with part := 1, phys := [0] })] } }
theorem test_witness_slot_boundary : cellSlotNow slotState 0 = 3 ∧ 3 ≠ tgetD 0 slotState.tmu.cellSlot 0 ∧ slotState.units.leaving = [] ∧ slotState.units.engLeaving = [] ∧
    slotState.units.engBack = [] ∧ heldSlots slotState 0 = [] ∧ (∀ l, l < 16 → linkEn slotState l = false) ∧ partSlotNow slotState 1 = 6 ∧
    6 ≠ tgetD 0 slotState.tmu.partSlot 1 ∧ isRS slotState 1 = true ∧ gridNow State.reset = State.reset.tmu.grid := by decide
theorem test_slot_boundary : tgetD 0 (after (.slotBoundary 0) slotState).tmu.cellSlot 0 = 3 ∧ (clu (after (.slotTimer 1) slotState) 0).clv.irq.getLsbD 2 = true ∧
    (after .deviceGridBoundary slotState).tmu.grid = 24 := by decide

/-- The power page's commit of PWR_CAP with the shadow `v`, as the first grid boundary comes. -/
def commitState (v : Word) : State :=
  let s := readyState
  { s with tmu := { s.tmu with time := 125000 * 2 ^ 40 }, pg := { s.pg with commits := [(256, { requested := true })], shadow := [(rkey PWC_PWR_CAP 0 0, some v)] } }
theorem test_witness_commit : let s := commitState 0x00690064
    gridNow s ≠ s.tmu.grid ∧ pageOn s 1 0 = true ∧ fwWaits s = false ∧ s.sec.fwNext = none ∧ s.trace.run = none ∧ s.safe.rot = [] ∧
      (s.pg.shadow.map (fun e => e.1)).Pairwise (· < ·) ∧ pageShadow s 1 0 = [(rkey PWC_PWR_CAP 0 0, 0x00690064)] ∧ governs s (rkey PWC_PWR_CAP 0 0) = .grid ∧
      ¬ actsWhenApplied (keyReg (rkey PWC_PWR_CAP 0 0)).1 ∧ 0x40 ≤ (keyReg (rkey PWC_PWR_CAP 0 0)).1 % 4096 :=
  ⟨by decide, by decide, by decide, by decide, by decide, by decide, by decide, by decide, by decide, by unfold actsWhenApplied; decide, by decide⟩
theorem test_witness_offender : offender { commitState 0x00690064 with tmu := { (commitState 0x00690064).tmu with grid := 1 } } 1 0 [(rkey PWC_PWR_CAP 0 0, 0x00690064)] = none ∧
    offender { commitState 0x00690063 with tmu := { (commitState 0x00690063).tmu with grid := 1 } } 1 0 [(rkey PWC_PWR_CAP 0 0, 0x00690063)] = some 0x48 := by decide
/-- R712: a cap of 100 W comes into force; one of 99 W is refused at offset 0x48. -/
theorem test_commit : rg (after .deviceGridBoundary (commitState 0x00690064)) PWC_PWR_CAP 0 0 = 0x00690064 ∧
    rg (after .deviceGridBoundary (commitState 0x00690063)) PWC_PWR_CAP 0 0 = rg readyState PWC_PWR_CAP 0 0 ∧
    rg (after .deviceGridBoundary (commitState 0x00690063)) (0x1000 + HDR_COMMIT_STAT) 0 0 = 0x40480000 := by decide

/-! ### Power, resets, the test port and the memory's upkeep -/

/-- Capping at 100 W after `n` intervals over the cap; cluster 2 is CAPPED with DIV 4 and CAP_DIV 8. -/
def capState (n : Nat) : State :=
  let s := withRegs readyState [(PWC_PWR_CAP, 0, 0, 0x80690064), (PWC_CLK_CFG, 0, 2, 0x80000084)]
  { s with pwr := { s.pwr with overRun := n } }
theorem test_witness_capping : ready (capState 3) = true ∧ bit (rg (capState 3) PWC_PWR_CAP 0 0) 31 = true ∧ fld (rg (capState 3) PWC_PWR_CAP 0 0) 15 0 * 10 < 1001 ∧
    stepable (capState 3) true = [2] ∧ stepable readyState true = [] ∧ (capState 3).pwr.tripped = false ∧ bit (rg readyState PWC_PWR_CAP 0 0) 31 = false := by decide
/-- R680, R681: with nothing left to step the fourth interval saturates, the third does not; 120 °C trips. -/
theorem test_capping : evtBit (after (.powerCapInterval 1001 [100] []) (setRg (capState 3) PWC_CLK_CFG 0 2 0x80000044)) 1 0 4 = true ∧
    evtBit (after (.powerCapInterval 1001 [100] []) (setRg (capState 2) PWC_CLK_CFG 0 2 0x80000044)) 1 0 4 = false ∧
    (after (.powerCapInterval 900 [959, 960] []) (capState 0)).pwr.tripped = true ∧ (after (.powerCapInterval 900 [959] []) (capState 0)).pwr.tripped = false := by decide
theorem test_avs : (after (.avsAcknowledge 800) { readyState with pwr := { readyState.pwr with avsAsk := some 800 } }).pwr.avsMv = 800 ∧
    (after (.avsAcknowledge 801) { readyState with pwr := { readyState.pwr with avsAsk := some 800 } }).pwr.avsMv = 750 := by decide
/-- Nothing is on and cluster 0's domain waits; and it is powering up since tick 0. -/
def upState (t : Nat) : State := { readyState with tmu := { readyState.tmu with ticks := t }, pwr := { readyState.pwr with powering := [(0, some 0)] } }
theorem test_witness_domains : ready readyState = true ∧ readyState.pwr.switched = none ∧ wantOn readyState 0 = true ∧ domOn readyState 0 = false ∧
    tgetD none readyState.pwr.powering 0 = none ∧ tgetD none (upState 0).pwr.powering 0 = some 0 ∧ passed (upState 9831) 0 (powerNs 0) = true ∧
    passed (upState 9830) 0 (powerNs 0) = false := by decide
/-- A scratchpad domain that is not wanted any more. -/
def offState : State :=
  let s := setRg readyState PWC_DOM_STAT 0 37 0x80000001
  let s := (List.range 37).foldl (fun s d => setRg s PWC_DOM_STAT 0 d 0x80000001) s
  { s with units := { s.units with map := [(1, none)], out := [1] }, cl := [(1, { sp := { bytes := [(5, 9)] } })] }
theorem test_witness_off : wantOn (setRg offState PWC_DOM_STAT 0 1 0) 1 = false ∧ wantOn offState 37 = false ∧ domOn offState 37 = true := by decide
theorem test_domains : (after .domainSwitch readyState).pwr.powering = [(0, some 0)] ∧ domOn (after (.powerUp 0) (upState 9831)) 0 = true ∧
    domOn (after (.powerUp 0) (upState 9830)) 0 = false ∧ (clu (loseSram offState 37) 1).sp.get 5 = 0 := by decide
/-- A start-up whose steps all pass rests on the fuse field PK_HASH, an opaque constant of Config (log 2), so that it cannot be evaluated here;
the failing steps can. -/
theorem test_witness_resets : (bootRom (straps (powerLost readyState) false false 0) true false).1 = false ∧ ready readyState = true ∧ State.reset.sec.fuses.repCl = 0 := by decide
/-- R651, R687, R689: the strap stops the start-up; erased flash stops it at step 2; the watchdog restarts the firmware. -/
theorem test_resets : rg (after (.powerOnReset true false 0 1 false true true 0 0 0) readyState) PWC_RST_CAUSE 0 0 = 0x80000000 ∧
    rg (after (.powerOnReset false false 0 1 false true false 0 0 0) readyState) PWC_PWC_STAT 0 0 = 2 ∧
    (after .supplyMonitor readyState).pg.regs = [] ∧ fwWaits (after .wdtRestart readyState) = true ∧ fld (rg (after .wdtRestart readyState) PWC_RST_CAUSE 0 0) 15 0 = 1 := by decide
/-- IEEE 1149.1: Shift-DR shifts; from Update-IR with TMS 0 to Run-Test/Idle; TRST_N. -/
theorem test_tap : (after (.testAccessPort true true) { readyState with pwr := { readyState.pwr with tap := 4, tapSh := [false, true] } }).pwr.tapSh = [true, true] ∧
    (after (.testAccessPort true true) { readyState with pwr := { readyState.pwr with tap := 4, tapSh := [false, true] } }).pwr.tap = 5 ∧
    (after (.testAccessPort false true) { readyState with pwr := { readyState.pwr with tap := 3, tapIr := 1 } }).pwr.tapSh = [false] ∧
    (after .testAccessReset { readyState with pwr := { readyState.pwr with tap := 4, tapIr := 2 } }).pwr.tap = 0 := by decide
/-- 448 lines are usable, and channels 0 to 3 are trained. -/
def memState : State := let s := setRg readyState MEM_MEMC_STAT 0 0 0x80000000; { s with mem := { s.mem with usable := 28672 } }
theorem test_witness_scrub : bit (rg memState MEM_SCRUB_PERIOD 0 0) 31 = false ∧ 447 * 64 < memState.mem.usable ∧ memState.mem.usable ≤ 448 * 64 ∧ memState.mem.ue = [] ∧
    bit (rg memState MEM_MEMC_STAT 0 0) 31 = true := by decide
/-- R548, R549: line 447 is of channel 31 + 1 = 0 … by R549's formula (63 + 1) mod 32 = 0. -/
theorem test_scrub : (after (.scrubVisit 447 .uncorrectable) memState).mem.ue = [447] ∧ rg (after (.scrubVisit 447 .uncorrectable) memState) MEM_UE_COUNT 0 0 = 1 ∧
    rg (after (.scrubVisit 447 .corrected) memState) MEM_CE_COUNT 0 0 = 1 ∧ after (.scrubVisit 448 .uncorrectable) memState = memState ∧
    after (.zqCalibration 3) memState = memState ∧ rg (after (.dqsOscRead 3 true) memState) MEM_MEMC_STAT 0 0 = 0x82000000 ∧
    evtBit (after (.dqsOscRead 3 false) memState) 8 0 2 = true ∧ (after (.refresh 3) memState).freeCtr = 1 := by decide

/-! ### Register pages, snapshots and flash -/

/-- The time page with an event that is set, owned by partition 0. -/
def pageState : State := withRegs readyState [(0x3000 + HDR_EVT, 0, 0, 5), (0x3000 + HDR_EVT_EN, 0, 0, 2), (0x3000 + HDR_PAGE_CTL, 0, 0, 1)]
theorem test_witness_pages : pageOpen pageState 0 3 0 ∧ pageOpen pageState 0 17 2 ∧ responds pageState 3 = true ∧ mayWrite pageState 1 3 0 = false ∧ pageExists pageState 3 1 = false ∧
    pageOpen pageState 0 1 0 ∧ (part? pageState 0).isSome = true ∧ pageOn pageState 1 0 = true ∧ (regRow? 1 0 0x48).map (fun x => x.acc) = some .rws ∧
    (regRow? 20 0 0x48).isSome = true ∧ pagePending pageState 3 0 = false ∧ responds pageState 1 = true :=
  ⟨pageOpen_of (by decide) (by decide) (by decide), pageOpen_of (by decide) (by decide) (by decide), by decide, by decide, by decide,
    pageOpen_of (by decide) (by decide) (by decide), by decide, by decide, by decide, by decide, by decide, by decide⟩
/-- R17, R706, R707: of EVT's bits 0 and 2 the first is cleared, and bit 1 raised in the same cycle stands and counts; EVT_FORCE counts nothing. -/
theorem test_pages : rg (after (.evt 0 ⟨3, 0⟩ 3 2) pageState) (0x3000 + HDR_EVT) 0 0 = 6 ∧ rg (after (.evt 0 ⟨3, 0⟩ 3 2) pageState) (0x3000 + HDR_EVT_COUNT) 0 0 = 1 ∧
    (after (.evt 0 ⟨3, 0⟩ 3 2) pageState).out = [.msix 0 5] ∧ rg (after (.evtForce 0 ⟨3, 0⟩ 8) pageState) (0x3000 + HDR_EVT) 0 0 = 13 ∧
    rg (after (.pageCtl 0 ⟨3, 0⟩ 0xFF) pageState) (0x3000 + HDR_PAGE_CTL) 0 0 = 3 ∧ ownerOf (after (.owner 0 ⟨17, 2⟩ 3) pageState) 17 2 = 3 ∧
    ownerOf (after (.owner 0 ⟨3, 0⟩ 3) pageState) 3 0 = 0 := by decide
/-- R711: GO and DISCARD; a write to an RWS register goes to its shadow; the sideband sets PWR_CAP's shadow. -/
theorem test_page_commands : (commitOf (after (.commit 0 ⟨1, 0⟩) pageState) 1 0).requested = true ∧
    shadow (after (.registerWrite 0 0x100048 0xFFFFFFFF 0xF) pageState) PWC_PWR_CAP 0 0 = 0x80FFFFFF ∧
    rg (after (.registerWrite 0 0x100048 0xFFFFFFFF 0xF) pageState) PWC_PWR_CAP 0 0 = rg pageState PWC_PWR_CAP 0 0 ∧
    pageShadow (after (.discard 0 ⟨1, 0⟩) (after (.registerWrite 0 0x100048 0xFFFFFFFF 0xF) pageState)) 1 0 = [] ∧
    shadow (after (.sidebandAccess 0x100048 (some 1) true) pageState) PWC_PWR_CAP 0 0 = 1 ∧
    (after (.sidebandAccess 0x300008 none true) pageState).out = [.reply (regVal pageState 0 3 0 8)] ∧ after (.sidebandAccess 0x100048 (some 1) false) pageState = pageState := by decide

/-- A record in the error ring and a host ring of 16 records; FL_ADDR 0x1FF0000 − 4; object 7 is selected and holds 5. -/
def snapState : State :=
  let s := withRegs readyState [(SYS_ERR_CFG, 0, 0, 0x84000000), (SYS_FL_ADDR, 0, 0, 0x1FEFFFE), (SYU_OBJ_SEL, 0, 0, 7), (SYS_SNAP_PERIOD, 0, 0, 1)]
  { s with host := { s.host with linkUp := true, busMaster := [(0, true)] }, pg := { s.pg with ering := [⟨1, 2, 3, 4, 5, 6, 7, 8⟩] }
           sync := { s.sync with objs := [(7, 5)] }, sec := { s.sec with fwCopy := 0 }, tmu := { s.tmu with ticks := 491520 } }
theorem test_witness_snapshots : responds snapState 4 = true ∧ pageOpen snapState 0 0 0 ∧ fwWaits snapState = false ∧ fwWaits (after .wdtRestart snapState) = true ∧
    snapState.mem.buckets = [] ∧ snapState.pod.pods = [] ∧ ready snapState = true ∧ snapState.pg.snap = none ∧ passed snapState 0 1000000 = true ∧
    errRoom snapState = true ∧ errRoom readyState = false ∧ snapState.pg.dropped = 0 ∧ snapState.sync.waits = [] ∧ noSaff snapState 7 :=
  ⟨by decide, pageOpen_of (by decide) (by decide) (by decide), by decide, by decide, by decide, by decide, by decide, by decide, by decide, by decide, by decide,
    by decide, by decide, noSaff_of (by decide)⟩
/-- R666, R668: the copy is held; the record goes to the host; R658: FL_DATA. -/
theorem test_snapshots : (after (.take 0) snapState).pg.snap.isSome = true ∧ (after (.release 0) (after (.take 0) snapState)).pg.snap = none ∧
    fld (rg (after .automaticSnapshot snapState) SYS_SNAP_STAT 0 0) 15 0 = 1 ∧ (after .errRingCopy snapState).pg.ering = [] ∧
    hostRead (after .errRingCopy snapState) 28 1 = [8] ∧ rg (after (.errHead 0 9) snapState) SYS_ERR_HEAD 0 0 = 9 := by decide
theorem test_objects_and_flash : objVal (after (.objWrite 0 9) snapState) 7 = 9 ∧ objVal (after (.objAdd 0 9) snapState) 7 = 14 ∧ (after (.objVal 0) snapState).out = [.reply 5] ∧
    bit (rg (after (.flData 0 0) snapState) SYS_FL_STAT 0 0) 30 = true ∧
    mget 0xFF (after (.flData 0 0x12345678) (setRg snapState SYS_FL_ADDR 0 0 0x1000000)).mem.flash 0x1000001 = 0x56 ∧
    (after (.erase 0) (setRg { snapState with mem := { snapState.mem with flash := [(0x1000001, 0)] } } SYS_FL_ADDR 0 0 0x1000005)).mem.flash = [] := by decide

/-! ### The host interface -/

/-- A descriptor of type `t` with words 3 to 7. -/
def hostDesc (t : Nat) (ws : List Word) : List Word := [w32 (t * 2 ^ 24), 7, 0] ++ ws ++ List.replicate (29 - ws.length) 0
/-- EDGE partition 4 on function 4 with the descriptor picked up; ring 0 of partitions 0 and 4 holds 16 records, record 15 is next;
partition 4's region starts at 2 MiB and holds a small image: header, table, CODE, one entry, no yields. -/
def hostState (d : List Word) : State :=
  let s := withRegs readyState [(HIF_CQ_CFG, 0, 0, 0x84200001), (HIF_CQ_CFG, 4, 0, 0x84200001), (HIF_CQ_BASE_LO, 0, 0, 0x1000), (HIF_CQ_BASE_LO, 4, 0, 0x2000), (MEM_RGN_CFG, 0, 0, 0x80000004),
    (MEM_RGN_BASE, 0, 0, 1), (MEM_RGN_SIZE, 0, 0, 1), (HIF_RXBUF_SIZE, 4, 0, 1), (HIF_CQ_HEAD, 4, 0, 5), (0x7000 + HDR_OWNER, 4, 0, 4), (FHP_PORT_CFG, 4, 0, 0x10000000)]
  { s with host := { s.host with linkUp := true, busMaster := [(0, true), (4, true)], picked := [(0, [d]), (4, [d])], rings := [(16, { tail := 15, phase := true })] }
           disp := { s.disp with parts := [(0, some { cls := .mgmt }), (4, some { cls := .edge, vf := 4 })] }
           fh := { s.fh with up := [(4, true)] }
           mem := { s.mem with ext := [(0, 0x46504B41), (4, 0x100), (8, 0x140), (0xC, 8), (0x14, 3), (0x18, 0x40), (0x1C, 1), (0x40, 0x01000000), (0x44, 0x80), (0x48, 64), (0x50, 0x04000000),
             (0x54, 0xC0), (0x58, 64), (0x60, 0x05000000), (0x64, 0x100), (0x68, 64), (0xC0, 0x80), (0xC4, 0x20000001), (0xC8, 0x00800080), (0xD0, 0xFFFFFFFF), (0xD4, 0xFFFFFFFF),
             (0xD8, 0xFFFFFFFF), (0xDC, 0xFFFFFFFF), (0xE0, 0xFFFF), (0xE4, 0xFFFF), (0xE8, 4096)].foldl (fun m (e : Nat × Nat) => mwrite 0 m (0x200000 + e.1) (wordLe (w32 e.2))) [] } }
def tplDesc : List Word := hostDesc 2 [0x05000100, 0x0C000000, 0, 0, 0x00010000]
def imgDesc : List Word := hostDesc 0x10 [63, 0, 0, 0x140]
def relDesc : List Word := hostDesc 0x11 [63]
def queryDesc : List Word := hostDesc 0x12 [0x1801, 0x4000, 0]
def bufDesc : List Word := hostDesc 0x31 [0x8000, 0, 0]
def excDesc : List Word := hostDesc 0x38 [0x10, 0, 0x80040007, 9600]
/-- An image in slot 63. -/
def relState : State := let s := hostState relDesc; { s with img := { s.img with gens := [{ demoGen with part := 4, slot := 63 }] } }
/-- A message waits. -/
def waitMsg : State := let s := hostState bufDesc; { s with host := { s.host with rxWait := [(4, [([1, 2, 3], none)])] } }
theorem test_witness_host : hasDesc (hostState (hostDesc 2 [0, 0, 1] |>.set 31 1)) 4 2 (hostDesc 2 [0, 0, 1] |>.set 31 1) ∧ dtypeOk (hostDesc 2 [0, 0, 1] |>.set 31 1) = false ∧
    hasDesc (hostState tplDesc) 4 2 tplDesc ∧ tplOk tplDesc = true ∧ hasDesc (hostState (hostDesc 3 [255])) 4 3 (hostDesc 3 [255]) ∧ dtypeOk (hostDesc 3 [255]) = true ∧
    zeroWords (hostDesc 3 [255]) 4 30 = true ∧ hasDesc (hostState imgDesc) 4 0x10 imgDesc ∧ dtypeOk imgDesc = true ∧ tailZero (hostState imgDesc) 4 imgDesc 7 = true ∧
    (partRegion (hostState imgDesc) 4).isSome = true ∧ hasDesc relState 4 0x11 relDesc ∧ dtypeOk relDesc = true ∧ tailZero relState 4 relDesc 4 = true ∧
    hasDesc (hostState relDesc) 4 0x11 relDesc ∧ (hostState relDesc).img.gens = [] := by unfold hasDesc; decide
theorem test_witness_image : apfStatus (hostState imgDesc) 4 63 0 0x140 = 0 := by decide
theorem test_witness_query : hasDesc (hostState queryDesc) 4 0x12 queryDesc ∧ dtypeOk queryDesc = true ∧ tailZero (hostState queryDesc) 4 queryDesc 6 = true ∧
    mayWriteHost (hostState queryDesc) 4 = true ∧ wd queryDesc 3 = handle (hostState queryDesc) 0 0x1801 ∧ unitExists (hostState queryDesc) 0 0x1801 = true ∧
    unitExists (hostState queryDesc) 0 0x18FF = false ∧ hasDesc (hostState bufDesc) 4 0x31 bufDesc ∧ dtypeOk bufDesc = true ∧ zeroWords bufDesc 5 30 = true ∧ rxSize waitMsg 4 = 1024 ∧
    hasDesc waitMsg 4 0x31 bufDesc ∧ tgetD [] waitMsg.host.rxWait 4 = [([1, 2, 3], none)] ∧ tgetD [] waitMsg.host.rxbufs 4 = [] ∧ mayWriteHost waitMsg 4 = true ∧
    hasDesc (hostState excDesc) 0 0x38 excDesc ∧ dtypeOk excDesc = true ∧ zeroWords excDesc 7 30 = true ∧ mayWriteHost (hostState excDesc) 0 = true ∧
    portUp (hostState excDesc) 4 = true ∧ portUp (hostState excDesc) 3 = false := by unfold hasDesc; decide
/-- A change that was asked for in slot 1 of cell 0's timer is applied in slot 0. -/
theorem test_witness_commit_tpl : let s := { readyState with disp := { readyState.disp with tplTodo := [⟨4, 5, some ⟨tplDesc⟩, 1⟩] } }
    s.disp.tplTodo = [⟨4, 5, some ⟨tplDesc⟩, 1⟩] ∧ tplSlot s 4 tplDesc ≠ 1 ∧ tplSlot s 4 tplDesc = 0 := by decide
/-- R525, R532: record 15 takes PHASE 1, type 3 and status 0x20, and the tail wraps. -/
theorem test_host_records : hostRead (after (.tplReg 4) (hostState (hostDesc 2 [0, 0, 1] |>.set 31 1))) 0x21E0 8 = [1, 0, 0x20, 3, 7, 0, 0, 0] ∧
    (ring (after (.tplReg 4) (hostState tplDesc)) 4 0).tail = 0 ∧ (ring (after (.tplReg 4) (hostState tplDesc)) 4 0).phase = false ∧
    ((after (.tplReg 4) (hostState tplDesc)).disp.tplTodo.map (fun q => (q.part, q.idx))) = [(4, 5)] ∧
    ((after (.tplDel 4) (hostState (hostDesc 3 [255]))).disp.tplTodo.map (fun q => (q.idx, q.body.isSome))) = [(255, false)] ∧
    (commitTpls { readyState with disp := { readyState.disp with tplTodo := [⟨4, 5, some ⟨tplDesc⟩, 1⟩] } }).disp.tplTodo = [] := by decide
theorem test_images : (after (.imageRel 4) relState).img.gens = [] ∧ hostRead (after (.imageRel 4) relState) 0x21E2 1 = [0] ∧
    hostRead (after (.imageRel 4) (hostState relDesc)) 0x21E2 1 = [1] ∧ tgetD 0 (after (.imageReg 4) (hostState imgDesc)).img.genNo (4 * 64 + 63) = 1 := by decide
/-- R539: the message goes to the buffer; the frame waits at its port with its tag. -/
theorem test_host_commands : hostRead (after (.unitQuery 4) (hostState queryDesc)) 0x4000 4 = [1, 0x18, 0, 0] ∧ hostRead (after (.rxbuf 4) waitMsg) 0x8000 3 = [1, 2, 3] ∧
    tgetD [] (after (.rxbuf 4) waitMsg).host.rxWait 4 = [] ∧ (tgetD [] (after (.rxbuf 4) (hostState bufDesc)).host.rxbufs 4) = [(0x8000, 7, 0, 0)] ∧
    ((after (.excTx 0) (hostState excDesc)).fh.txq.map (fun x => (x.port, x.ts))) = [(4, some 7)] := by decide

/-- Ring 0 of partition 4 holds one unannounced record since reset; it is 1 µs; a record is staged while the ring is full. -/
def ringState (t head : Nat) : State :=
  let s := setRg (hostState tplDesc) HIF_CQ_HEAD 4 0 (w32 head)
  { s with host := { s.host with picked := [], rings := [(16, { tail := 14, phase := true, since := 1, first := some 0 })], staged := [(4, [(0, List.replicate 8 0x11)])] }, tmu := { s.tmu with ticks := t } }
def offered : State := setRg (ringState 0 0) HIF_PROTO_AGREED 4 0 0x80000002
theorem test_witness_rings : (ring (ringState 492 0) 4 0).first = some 0 ∧ fld (rg (ringState 492 0) HIF_CQ_CFG 4 0) 15 0 = 1 ∧ 0 < (ring (ringState 492 0) 4 0).since ∧
    passed (ringState 492 0) 0 1000 = true ∧ (ring (hostState tplDesc) 4 0).first = none ∧ pageOpen (ringState 0 15) 4 7 4 ∧ pageOpen (hostState tplDesc) 4 7 4 ∧
    staged (hostState tplDesc) 4 = [] ∧ staged (ringState 0 15) 4 = [(0, List.replicate 8 0x11)] ∧ ringRoom (ringState 0 15) 4 0 = false ∧
    ringRoom (setRg (ringState 0 15) HIF_CQ_HEAD 4 0 0) 4 0 = true ∧ pageOpen offered 4 7 4 ∧ bit (rg offered HIF_PROTO_AGREED 4 0) 31 = true ∧
    bit (rg (ringState 0 0) HIF_PROTO_AGREED 4 0) 31 = false :=
  ⟨by decide, by decide, by decide, by decide, by decide, pageOpen_of (by decide) (by decide) (by decide), pageOpen_of (by decide) (by decide) (by decide), by decide, by decide, by decide,
    by decide, pageOpen_of (by decide) (by decide) (by decide), by decide, by decide⟩
theorem test_witness_functions : fnPart (hostState tplDesc) 5 = none ∧ fnPart (hostState tplDesc) 4 = some 4 ∧ (hostState tplDesc).safe.resets = [] ∧ (hostState tplDesc).host.linkUp = true ∧
    (hostState tplDesc).host.staged = [] ∧ (hostState tplDesc).host.rxWait = [] ∧ State.reset.host.linkUp = false := by decide
/-- R521, R534, R535. -/
theorem test_rings : (ring (after (.cqTimer 4 0) (ringState 492 0)) 4 0).since = 0 ∧ (after (.cqTimer 4 0) (ringState 492 0)).out = [.msix 4 0] ∧
    after (.cqTimer 4 0) (ringState 491 0) = ringState 491 0 ∧ staged (after (.cqHead 4 0 0) (ringState 0 15)) 4 = [] ∧
    hostRead (after (.cqHead 4 0 0) (ringState 0 15)) 0x21C0 2 = [0x11, 0] ∧ protoVer (after (.protoOffer 4 0x209) (ringState 0 0)) 4 = some 2 ∧
    protoVer (after (.protoOffer 4 0x309) (ringState 0 0)) 4 = none ∧ evtBit (after (.protoOffer 4 0x309) (ringState 0 0)) 7 4 3 = true ∧ after (.protoOffer 4 1) offered = offered := by decide
/-- R519, R687. -/
theorem test_witness_flr_again : let s := after (.functionLevelReset 4) (hostState tplDesc)
    fnPart s 4 = some 4 ∧ ∃ e ∈ s.safe.resets, e.part = 4 := by decide
theorem test_pcie_functions : (ring (after (.functionLevelReset 0) (hostState tplDesc)) 0 0).tail = 0 ∧ (ringCfg (after (.functionLevelReset 0) (hostState tplDesc)) 0 0).1 = false ∧
    4 ∈ (after (.functionLevelReset 4) (hostState tplDesc)).disp.resetting ∧ mayWriteHost (after (.functionLevelReset 5) (hostState tplDesc)) 4 = true ∧
    mayWriteHost (after (.pcieConventionalReset true) (hostState tplDesc)) 4 = false ∧ mayWriteHost (after (.configurationRequest 4 false) (hostState tplDesc)) 4 = false := by decide

/-! ### The context store -/

/-- Partition 2, RADIO, owns contexts 0 to 1023 and has the descriptor picked up; context 5 is of generation 9, in state `st`, with one HARQ
entry, 7, as code block 151 of process 3. It is `t` ns. -/
def ctxTest (st : Nat) (d : List Word) (t : Nat) : State :=
  let s := withRegs readyState [(CXS_BLK_OWNER, 0, 0, 0x80000002), (CXS_PART_CTX, 0, 2, 255), (HIF_CQ_CFG, 2, 0, 0x84200001)]
  { s with host := { s.host with linkUp := true, busMaster := [(2, true)], picked := [(2, [d]), (3, [d])] }, tmu := { s.tmu with time := t * 2 ^ 40 }
           disp := { s.disp with parts := [(0, some { cls := .mgmt }), (2, some { cls := .radio, vf := 2 })] }
           cxs := { s.cxs with active := [(2, 3)] }, radio := { s.radio with harq := [(2, [7, 8])] }
           mem := { s.mem with ext := [(4, w32 (st * 2 ^ 30 + 2 * 2 ^ 25 + 5)), (8, 9), (0x100 + 3 * 640 + 0x20 + 4 * 151, 0x80000007), (0x3000, 0x55)].foldl (fun m (e : Nat × Word) => mwrite 0 m (0x50000 + e.1) (wordLe e.2)) [] } }
def createDesc : List Word := hostDesc 0x20 [5, 95, 65535, 0x140]
def freeDesc : List Word := hostDesc 0x21 [5]
def readDesc : List Word := hostDesc 0x22 [5, 0x00C00001, 0x4000, 0]
def harqDesc : List Word := hostDesc 0x23 [5, 8]
theorem test_witness_contexts : hasDesc (ctxTest 0 createDesc 0) 2 0x20 createDesc ∧ indexOk createDesc = true ∧ zeroWords createDesc 7 30 = true ∧ ctxOwner (ctxTest 0 createDesc 0) 5 = some 2 ∧
    ctxOwner (ctxTest 0 createDesc 0) 5 ≠ some 3 ∧ ctxState (ctxTest 0 createDesc 0) 5 = 0 ∧ ctxState (ctxTest 1 createDesc 0) 5 ≠ 0 ∧ (ctxTest 0 createDesc 0).mem.ue = [] ∧
    (wd createDesc 4).toNat = 95 ∧ (wd createDesc 5).toNat = 65535 ∧ (wd createDesc 6).toNat = 256 + 64 ∧
    hasDesc (ctxTest 1 freeDesc 0) 2 0x21 freeDesc ∧ indexOk freeDesc = true ∧ zeroWords freeDesc 4 30 = true ∧ hasDesc (ctxTest 1 readDesc 0) 2 0x22 readDesc ∧ indexOk readDesc = true ∧
    zeroWords readDesc 7 30 = true ∧ mayWriteHost (ctxTest 1 readDesc 0) 2 = true ∧ hasDesc (ctxTest 1 harqDesc 0) 2 0x23 harqDesc ∧ indexOk harqDesc = true ∧
    zeroWords harqDesc 5 30 = true ∧ hasDesc (ctxTest 1 harqDesc 0) 3 0x23 harqDesc := by unfold hasDesc; decide
/-- R440: ACTIVE, generation 10, CELL and RING_CTRL, and the rest is zero. -/
theorem test_ctx_create : ctxState (after (.ctxCreate 2) (ctxTest 0 createDesc 0)) 5 = 1 ∧ ctxWord (after (.ctxCreate 2) (ctxTest 0 createDesc 0)) 5 8 = 10 ∧
    fld (ctxWord (after (.ctxCreate 2) (ctxTest 0 createDesc 0)) 5 4) 24 18 = 95 ∧ ctxWord (after (.ctxCreate 2) (ctxTest 0 createDesc 0)) 5 0x5900 = 0x01400000 ∧
    ctxByte (after (.ctxCreate 2) (ctxTest 0 createDesc 0)) 5 0x3000 = 0 ∧ tgetD 0 (after (.ctxCreate 2) (ctxTest 0 createDesc 0)).cxs.active 2 = 4 := by decide
/-- R422, R440, R443: entry 7 returns to the pool; the sector goes to the host. -/
theorem test_ctx_commands : hqUsed (after (.harqRel 2) (ctxTest 1 harqDesc 0)) 2 = [8] ∧ entryAt (after (.harqRel 2) (ctxTest 1 harqDesc 0)) 5 3 151 = 0 ∧
    hostRead (after (.ctxRead 2) (ctxTest 1 readDesc 0)) 0x4000 1 = [0x55] ∧ evtBit (after (.harqRel 3) (ctxTest 1 harqDesc 0)) 8 0 3 = true := by decide
theorem test_ctx_release : tgetD 0 (after (.ctxRelease 2) (ctxTest 1 freeDesc 0)).cxs.active 2 = 2 ∧ hostRead (after (.ctxRelease 2) (ctxTest 0 freeDesc 0)) 2 1 = [3] := by decide

/-- A copy has staged an update of one segment of 4 bytes at 0x3000, for generation `g`, with `n` segments named. -/
def updDesc (n g : Nat) : CopyDesc :=
  { ins := copyIns 0x204B0040 0x10 0 132 0, serial := 0, started := true, src := (4, 0x10), dst := (0xB, 0x50000), units := [0], range := 1, runs := 1, part := 2,
    staged := (mwrite 0 (mwrite 0 (mwrite 0 (mwrite 0 [] 0 (wordLe (w32 (n * 2 ^ 16)))) 4 (wordLe (w32 g))) 16 (wordLe 0x30000004)) 128 [1, 2, 3, 4]) }
def updState (n g : Nat) : State := { ctxTest 1 freeDesc 0 with eng := [(0, { q := [updDesc n g], issued := 1 })] }
theorem test_witness_update : (engOf (updState 1 9) 0).q.find? (fun q => !isPod q.ins.words && decide (q.dst.1 = 0xB) && allStarted q && !q.skipped && !q.acted) = some (updDesc 1 9) ∧
    slotFree (updState 1 9) (updDesc 1 9).lastRun = true ∧ ctxReading (updState 1 9) 5 = false ∧ updOk (updDesc 1 9).ins.words (updBlock (updDesc 1 9)) = true ∧
    updStale (updState 1 9) 5 (updBlock (updDesc 1 9)) = false ∧ updStale (updState 1 8) 5 (updBlock (updDesc 1 8)) = true ∧
    updOk (updDesc 0 9).ins.words (updBlock (updDesc 0 9)) = false ∧ updOk (updDesc 17 9).ins.words (updBlock (updDesc 17 9)) = false ∧ (updState 1 9).trace.run = none := by decide
/-- R445, R446: SEQ goes up by 2; a stale update is counted for its cell. -/
theorem test_update : ctxWord (after (.contextUpdate 0) (updState 1 9)) 5 0x3000 = 0x04030201 ∧ ctxWord (after (.contextUpdate 0) (updState 1 9)) 5 0 = 2 ∧
    ctxWord (after (.contextUpdate 0) (updState 1 8)) 5 0x3000 = 0x55 ∧ rg (after (.contextUpdate 0) (updState 1 8)) CXS_PRED_STALE 0 0 = 1 ∧
    bit (engReg (after (.contextUpdate 0) (updState 0 9)) 0 HDR_EVT) 0 = true := by decide
/-- At frame 256 the context is 256 frames old; the limit is 255, or 256. -/
theorem test_witness_sweep : (frameCnt (ctxTest 1 freeDesc 2560000000) + 2 ^ 32 - 0) % 2 ^ 32 = 256 ∧ (frameCnt (ctxTest 1 freeDesc 2559999999) + 2 ^ 32 - 0) % 2 ^ 32 = 255 ∧
    liveCtxs (ctxTest 1 freeDesc 2560000000) = [5] ∧ fld (rg (ctxTest 1 freeDesc 2560000000) CXS_PART_CTX 0 2) 23 0 = 255 ∧
    (ageNow (ctxTest 1 freeDesc 2560000000) - ctxWord (ctxTest 1 freeDesc 2560000000) 5 0x10).toNat = 256 := by decide
/-- R441. -/
theorem test_sweep : ctxState (after .ageSweep (ctxTest 1 freeDesc 2560000000)) 5 = 2 ∧ rg (after .ageSweep (ctxTest 1 freeDesc 2560000000)) CXS_AGED_IDX 0 0 = 0x80000005 ∧
    ctxState (after .ageSweep (setRg (ctxTest 1 freeDesc 2560000000) CXS_PART_CTX 0 2 256)) 5 = 1 ∧ ctxState (after .ageSweep (ctxTest 1 freeDesc 2559999999)) 5 = 1 := by decide

/-! ### Fronthaul -/

/-- Association 3 carries cell 0 on port 4: one stream each way, antenna 2; uplink method 0 of 8 bits, downlink method 1 of 9 bits; the reception
window is 100 to 5000 ns after a symbol. The cell is in slot 3; its symbol 2 of slot 3 ends at 3214583 ns; PRBs 7 and 8 were announced as section 1. -/
def fhState (t : Nat) : State :=
  let s := withRegs (radioState run0 t) [(FHP_PORT_CFG, 4, 0, 0x10000000), (FHP_ASSOC_CFG, 0, 3, 0xA0000000), (FHP_ASSOC_ANT, 0, 3, 0x01010002), (FHP_ASSOC_COMP, 0, 3, 0x08190000),
    (FHP_ASSOC_EAXC, 0, 3, 0x01002000), (FHP_RU_MAC_LO, 0, 3, 0x22), (FHP_RX_WIN, 0, 3, 0x00641388), (FHP_FB_QUOTA, 4, 0, 3), (FHP_UP_ADV_MAX, 0, 3, 200000), (FHP_UP_ADV_MIN, 0, 3, 100000)]
  { s with fh := { s.fh with up := [(4, true)], cplane := [⟨3, 3, 2, 1, 7, 2⟩] }
           radio := { s.radio with ul := [⟨1, 0, 3, [{ pdu := ulp }], false⟩], dl := [⟨1, 0, 3, [{ pdu := dlp }], 0, true⟩] } }
/-- A section that brings PRB 7 with payload 0, 1, 2, …; its eCPRI header; its frame, whose stamp is `raw` after the 142 ns of R498. -/
def fhSect : Section := ⟨1, 7, 1, 0, 8, true, (List.range 24).map (BitVec.ofNat 8)⟩
def fhHdr : ECpri := ⟨1, false, 0, 40, 40, 0x100, 0, true, 3, 2, 0, [fhSect]⟩
def fhFrame (e : ECpri) (raw : Nat) : RxFrame := { rxf with src := 0x22, etype := 0xAEFE, len := 100, rawNs := raw + 142, ecpri := some e }
/-- The section, held. -/
def heldSect (bad : Bool) : RxSect := ⟨3, 2, 3, 2, 1, 7, 1, bad, 0, 8, fhSect.payload⟩
theorem test_witness_frame : portUp (fhState 3219583) 4 = true ∧ portUp (fhState 3219583) 5 = false ∧ frameOk (fhState 3219583) 4 (fhFrame fhHdr 3214683) = true ∧
    frameOk (fhState 3219583) 4 { fhFrame fhHdr 3214683 with len := 9601 } = false ∧ frameOk (fhState 3219583) 4 { fhFrame fhHdr 3214683 with etype := 0x88F7, bytes := [1], len := 9600 } = true ∧
    tgetD [] (fhState 3219583).host.rxbufs 0 = [] ∧ fbFree (fhState 3219583) 4 = 3 ∧ ceilDiv 9600 2048 = 5 ∧ assocOf (fhState 3219583) 4 (fhFrame fhHdr 3214683) fhHdr = some 3 ∧
    assocOf (fhState 3219583) 4 { fhFrame fhHdr 3214683 with src := 0x23 } fhHdr = none ∧ headerBad fhHdr = false ∧ streamBad (fhState 3219583) 3 fhHdr = false ∧
    headerBad { fhHdr with concat := true } = true ∧ streamBad (fhState 3219583) 3 { fhHdr with sym := 14 } = true ∧ (fhState 3219583).trace.run = none ∧ (fhState 3219583).fh.begun = [] ∧
    ulOf (fhState 3219583) (aCell (fhState 3219583) 3) 3 ≠ none := by decide
theorem test_witness_window : windowSym (fhState 3219583) 3 fhHdr = 2 ∧ rxWindow (fhState 3219583) 3 3 2 = (3214683, 3219583) ∧
    rxStamp (fhState 3219583) 4 3214824 = 3214682 := by decide
/-- R465, R467: both ends of the window are inside it; a section that was not announced is corrupt. -/
theorem test_frames_judged : (after (.frameReceive 4 (fhFrame fhHdr 3214683)) (fhState 3219583)).fh.sects = [heldSect false] ∧
    rg (after (.frameReceive 4 (fhFrame fhHdr 3219583)) (fhState 3219583)) FHP_RX_ON_TIME 0 3 = 1 ∧
    rg (after (.frameReceive 4 (fhFrame fhHdr 3214682)) (fhState 3219583)) FHP_RX_EARLY 0 3 = 1 ∧
    rg (after (.frameReceive 4 (fhFrame fhHdr 3219584)) (fhState 3219583)) FHP_RX_LATE 0 3 = 1 ∧
    rg (after (.frameReceive 4 (fhFrame { fhHdr with sym := 14 } 3214683)) (fhState 3219583)) FHP_RX_CORRUPT 0 3 = 1 ∧
    ((after (.frameReceive 4 (fhFrame { fhHdr with sections := [{ fhSect with numPrb := 3 }] } 3214683)) (fhState 3219583)).fh.sects.map (fun q => q.bad)) = [true] ∧
    ((after (.frameReceive 4 (fhFrame { fhHdr with msgType := 5 } 77)) (fhState 3219583)).fh.txq.map (fun x => (x.port, x.bytes))) = [(4, [77, 0, 0, 0])] ∧
    rg (after (.frameReceive 4 (fhFrame { fhHdr with msgType := 3 } 77)) (fhState 3219583)) FHP_UNK_MSG 4 0 = 1 := by decide
/-- PRB 7 has come; the window has been shut for 999 ns or for 1.0 µs. -/
def stageTwo (t : Nat) : State := let s := fhState t; { s with fh := { s.fh with sects := [heldSect false] } }
theorem test_witness_stage_two : aServes (stageTwo 3220583) 3 = true ∧ ulOf (stageTwo 3220583) (aCell (stageTwo 3220583) 3) 3 ≠ none ∧ stageTwoDue (stageTwo 3220582) 3 3 2 = false ∧
    stageTwoDue (stageTwo 3220583) 3 3 2 = true ∧ (∀ q ∈ (stageTwo 3220583).fh.sects, q.meth ≤ 1) ∧ wanted (stageTwo 3220583) 3 3 2 = [7, 8] ∧ rxStreams (stageTwo 3220583) 3 = [2] := by decide
/-- R463, R466: PRB 7's first subcarrier is 0 + 1j, its last 22 + 23j; PRB 8 is erased. -/
theorem test_stage_two : ((gridOf (after (.decompress 3 3 2) (stageTwo 3220583)) 0 3 2 2).map (fun g => (tgetD (0, 0) g.vals 84, tgetD (0, 0) g.vals 95, g.erased))) =
      some ((0, 1), (22, 23), [8]) ∧ (after (.decompress 3 3 2) (stageTwo 3220583)).fh.sects = [] ∧ after (.decompress 3 3 2) (stageTwo 3220582) = stageTwo 3220582 := by decide

/-- One PRB whose components are 1 to 24, and one with -32768. -/
def onePrb : List (Int × Int) := (List.range 12).map (fun k => ((2 * k + 1 : Nat), (2 * k + 2 : Nat)))
/-- Symbol 2 of slot 3 starts at 3143229 ns; its output of two bytes is at hand. -/
def sendState (t : Nat) : State :=
  let s := fhState t
  { s with fh := { s.fh with txSyms := [⟨3, 2, 3, 2, [0xAA, 0xBB]⟩], bufs := [⟨4, 1, true, (3 * 128 + 2, 3, 2)⟩] } }
theorem test_witness_send : symEdge (sendState 2943229) 0 3 2 = 3143229 ∧ aEn (sendState 2943229) 3 = true ∧ portUp (sendState 2943229) (aPort (sendState 2943229) 3) = true ∧
    dlOf (sendState 2943229) (aCell (sendState 2943229) 3) 3 ≠ none ∧ txReady (fhState 2943229) 3 2 3 2 = none ∧ (txReady (sendState 2943229) 3 2 3 2).isSome = true ∧
    (aReg (sendState 2943229) FHP_UP_ADV_MAX 3).toNat = 200000 ∧ nowNs (sendState 2943229) = 2943229 ∧ nowNs (sendState 3043229) = 3043229 ∧ nowNs (sendState 3043230) = 3043230 ∧
    (aAnts (sendState 2943229) 3).1 ≤ 2 ∧ aPort (sendState 2943229) 3 = 4 ∧ fbFree (sendState 2943229) 4 = 2 ∧
    (∀ x ∈ onePrb.flatMap (fun q => [q.1, q.2]), (-32768 : Int) ≤ x ∧ x ≤ 32767) ∧ bfpExp 8 [32767, -32768] = 9 ∧ bfpExp 8 [127, -128] = 0 := by decide
/-- R463, R470, R471: BFP of 9 bits takes exponent 0 here; launched from UP_ADV_MAX to UP_ADV_MIN before the symbol. -/
theorem test_uplane : ((after (.compression 3 2 3 2 [onePrb]) (fhState 2943229)).fh.txSyms.map (fun x => (x.bytes.length, x.bytes.take 3))) = [(28, [0, 0, 0x80])] ∧
    (after (.uplaneSend 3 2 3 2) (sendState 2943229)).out = [.frame 4 0 [0, 1, 0, 3, 0, 0, 0, 2, 0xAA, 0xBB]] ∧ (after (.uplaneSend 3 2 3 2) (sendState 3043229)).fh.bufs = [] ∧
    after (.uplaneSend 3 2 3 2) (sendState 2943228) = sendState 2943228 ∧ rg (after (.uplaneSend 3 2 3 2) (sendState 3043230)) FHP_TX_LATE 0 3 = 1 := by decide
theorem test_cplane : (after (.cplaneSend 3 false 3 2 [(1, 7, 2)]) (fhState 3143229)).out = [.frame 4 2 [0, 1, 0, 3, 0, 0, 0, 2, 1, 0, 7, 0, 2, 0]] ∧
    (after (.cplaneSend 3 false 3 2 [(1, 7, 2)]) (fhState 3143229)).fh.cplane.length = 2 ∧ after (.cplaneSend 3 true 3 2 []) (fhState 3143228) = fhState 3143228 := by decide
/-- A frame of the host and one of the port itself wait; the stamp queue holds 63 or 64 stamps. -/
def txqState (n : Nat) (d : Option (List Word)) : State :=
  let s := fhState 0
  { s with fh := { s.fh with txq := [⟨4, some 7, [0xC0], d⟩] }, tmu := { s.tmu with tsq := List.replicate n (0, 0, 0) } }
theorem test_witness_transmit : portUp (txqState 63 none) 4 = true ∧ ((txqState 63 none).fh.txq.find? (fun x => decide (x.port = 4))).isSome = true ∧
    (txqState 63 none).tmu.tsq.length < 64 ∧ (fhState 0).fh.txq = [] ∧ portExists (fhState 0) 4 = true ∧ bit (rg (fhState 0) FHP_PORT_CFG 4 0) 28 = true ∧
    tgetD false (fhState 0).fh.up 4 = true ∧ tgetD false (fhState 0).fh.up 5 = false := by decide
theorem test_transmit : (after (.frameTransmit 4 99) (txqState 63 none)).tmu.tsq.getLast? = some (4, 7, 197) ∧ (after (.frameTransmit 4 99) (txqState 63 none)).out = [.frame 4 5 [0xC0]] ∧
    rg (after (.frameTransmit 4 99) (txqState 64 none)) TMU_TSQ_DISCARD 0 0 = 1 ∧ (after (.frameTransmit 4 99) (txqState 63 (some excDesc))).out = [.frame 4 1 [0xC0]] ∧
    tgetD false (after (.linkUp 4) { fhState 0 with fh := {} }).fh.up 4 = true ∧ tgetD false (after (.linkDown 4) (fhState 0)).fh.up 4 = false ∧
    evtBit (after (.linkDown 4) (fhState 0)) 9 4 2 = true := by decide

/-! ### Converters -/

/-- Receive link 0 and transmit link 8: one lane, two converters, fs code 4, antenna 2 of cell 0, which has 1 PRB, in slot 3; gain code 3 of
group 0 multiplies by 1. -/
def jclState (x : Link) : State :=
  let s := withRegs (fhState 3219583) [(JCL_LINK_CFG, 0, 0, 0x80002004), (JCL_LINK_CFG, 0, 8, 0x80002004), (JCL_LINK_MAP, 0, 0, 0x00080000), (JCL_LINK_MAP, 0, 8, 0x00080000)]
  { s with fh := { s.fh with links := [(0, x)] }, radio := { s.radio with cells := [(0, { run0 with cfg := some { cfg0 with prbs := 1 } })] } }
def linkUpSt : Link := { aligned := true, sysref := true, lat := 5, since := 0 }
theorem test_witness_links : linkEn (jclState {}) 0 = true ∧ linkEn (jclState {}) 1 = false ∧ linkHas (jclState {}) 0 2 = true ∧ linkHas (jclState {}) 8 2 = true ∧ ffeUp (jclState {}) = true ∧
    ulOf (jclState {}) (linkMap (jclState {}) 0).1 3 ≠ none ∧ dlOf (jclState {}) (linkMap (jclState {}) 8).1 3 ≠ none ∧ (linkSt (jclState {}) 0).aligned = false ∧
    (linkSt (jclState linkUpSt) 0).aligned = true ∧ (linkSt (jclState linkUpSt) 0).sysref = true ∧ linkDead (jclState linkUpSt) 0 = false ∧
    (linkSt (jclState { linkUpSt with aligned := false }) 0).sysref = true ∧ laneAnts (jclState {}) 0 0 = [2] ∧ (28, 0) ∉ (jclState {}).units.engOut ∧ (jclState {}).trace.run = none ∧
    (28, 1) ∈ { jclState {} with units := { (jclState {}).units with engOut := [(28, 0), (28, 1), (28, 2), (28, 3)] } }.units.engOut ∧
    ffeUp { jclState {} with units := { (jclState {}).units with engOut := [(28, 0), (28, 1), (28, 2), (28, 3)] } } = false := by decide
/-- R475 to R477: the lane's stream is erased; SYSREF fixes the latency once; a link that is not aligned erases its stream. -/
theorem test_links : (after (.multiblock 0 0 3 2 true) (jclState {})).fh.erase = [(0, 3, 2, 2)] ∧ (linkSt (after (.linkLoss 0) (jclState linkUpSt)) 0).aligned = false ∧
    linkSt (after (.sysrefEdge 0 true 16389) (jclState {})) 0 = { linkUpSt with since := 3219583 } ∧ linkSt (after (.sysrefEdge 0 false 9) (jclState linkUpSt)) 0 = linkUpSt ∧
    evtBit (after (.sysrefEdge 0 false 9) (jclState linkUpSt)) 10 0 2 = true ∧ (linkSt (realign (jclState { linkUpSt with aligned := false }) 0) 0).since = 3219583 := by decide
/-- The same without a carrier, so that no bin of the transform, which is free, is asked for. -/
def bareState (x : Link) : State := let s := jclState x; { s with radio := { s.radio with cells := [(0, { run0 with cfg := some { cfg0 with prbs := 0 } })] } }
theorem test_converters : (after (.fftSymbol 0 2 3 2 [(100, -100)]) (bareState {})).fh.erase = [(0, 3, 2, 2)] ∧ (after (.fftSymbol 0 2 3 2 [(100, -100)]) (bareState linkUpSt)).fh.erase = [] ∧
    ((gridOf (after (.fftSymbol 0 2 3 2 [(100, -100)]) (bareState linkUpSt)) 0 3 2 2).map (fun g => g.ant)) = some 2 ∧
    ((after (.prachFrontEnd 0 0 1 2 [(1, 1)]) (jclState {})).fh.prachIn.map (fun y => (y.1, y.2.1, y.2.2.1))) = [(0, 1, 2)] ∧
    rg (after (.ifftSymbol 8 2 3 2 [] true true) (jclState {})) FFE_WORK_COUNT 0 0 = 1 ∧ (after (.ifftSymbol 8 2 3 2 [] true true) (jclState {})).out.length = 1 := by decide
/-- Group 31: ATTACK_CNT 2, FREEZE_MAX 1, CLIP_MAX 4, gain 15 at start; attack at 1000, decay below 10 over 2 evaluations, 3 apart. -/
def agcState (x : Agc) : State :=
  let s := withRegs (jclState {}) [(JCL_AGC_CFG, 0, 31, 0x8F000412), (JCL_AGC_THR, 0, 31, 0x03E8000A), (JCL_AGC_TIME, 0, 31, 0x00020003), (JCL_PDET_THR, 0, 31, 500)]
  { s with fh := { s.fh with agc := [(31, x)], clips := [(0, 3, 2, 1, 4)] } }
theorem test_witness_agc : agcEn (agcState {}) 31 = true ∧ agcEn (agcState {}) 30 = false ∧ (rg (agcState {}) JCL_PDET_THR 0 31).toNat = 500 ∧ (agcOf (agcState { gain := 15 }) 31).gain = 15 ∧
    (agcOf (jclState {}) 31).hits = 0 ∧ fld (rg (agcState {}) JCL_AGC_CFG 0 31) 3 0 = 2 ∧ fld (rg (agcState {}) JCL_AGC_CFG 0 31) 7 4 = 1 ∧ fld (rg (agcState {}) JCL_AGC_CFG 0 31) 15 8 = 4 ∧
    (∀ e ∈ (agcState {}).fh.clips, (e.1, e.2.1, e.2.2.1, e.2.2.2.1) ≠ (0, 3, 2, 2)) ∧ (agcOf (agcState { prach := 1 }) 31).prach ≠ 0 ∧ tgetD false (agcState {}).fh.pa 31 = false := by decide
/-- R481 to R485: the second peak steps the gain down, on the pins; quiet steps it up unless at 15; frozen decisions wait, clamped. -/
theorem test_agc : (agcOf (after (.agcEvaluate 31 1000 99 [] 3 2) (agcState { gain := 8, hits := 1 })) 31).gain = 7 ∧
    (agcOf (after (.agcEvaluate 31 1000 99 [] 3 2) (agcState { gain := 8 })) 31).gain = 8 ∧ (agcOf (after (.agcEvaluate 31 0 99 [] 3 2) (agcState { gain := 8, powers := [100], sinceStep := some 3 })) 31).gain = 9 ∧
    (agcOf (after (.agcEvaluate 31 0 100 [] 3 2) (agcState { gain := 8, powers := [100], sinceStep := some 3 })) 31).gain = 8 ∧
    (agcOf (after (.agcEvaluate 31 1000 99 [] 3 2) (agcState { gain := 8, hits := 1, frozen := true, pending := -1 })) 31).pending = -1 ∧
    (after (.agcEvaluate 31 0 99 [(0, 2, 5)] 3 2) (agcState {})).fh.erase = [(0, 3, 2, 2)] ∧ (after (.agcEvaluate 31 0 99 [(0, 2, 4)] 3 2) (agcState {})).fh.erase = [] := by decide
theorem test_agc_freeze : (agcOf (after (.agcFreeze 31 false) (agcState { gain := 8, pending := -1 })) 31).gain = 7 ∧ (agcOf (after (.agcFreeze 31 false) (agcState { gain := 8, pending := -1, prach := 1 })) 31).gain = 8 ∧
    (agcOf (after (.agcFreeze 31 true) (agcState { frozen := true, prach := 2, clipped := 6 })) 31) = { prach := 1, clipLast := 6 } ∧
    (agcOf (after (.energyDetect 31 0 500 2) (agcState {})) 31).prach = 2 ∧ after (.energyDetect 31 0 499 2) (agcState {}) = agcState {} ∧
    (after (.paEnAssert 31) (agcState {})).out = [.pin 0 31 true] ∧ after (.paEnDeassert 31) (agcState {}) = agcState {} ∧ rampLen 4 = 246 := by decide

/-! ### The uplink and the downlink -/

/-- A PUSCH of one PRB, one data symbol and one code block of 4 bits, for context 5 and process 3. -/
def pusch : UlPdu := { ulp with kind := .pusch, ctx := some 5, syms := [2], codeBlocks := 1, bg2 := true, zc := 2, tbs := 4, harq := 3, qm := 2, bits := 24 }
/-- The uplink of slot 3 of cell 0, which is of partition 1, holds the item; it is `t` ns; Baseline Equaliser 1 serves the cell hot; the grids of `ants`
stand; job 9 has ended with item 0 marked `m`. -/
def ulState (x : UlItem) (ants : List Nat) (m : List (Nat × Nat)) (t : Nat) : State :=
  let s := withRegs (radioState run0 t) [(BEQ_CELL_CFG, 0, 0, 0xD0000000), (LDD_HQ_BASE_LO, 0, 1, 0x100000), (LDD_HQ_ENTRIES, 0, 1, 2)]
  { s with fh := { s.fh with grids := ants.map (fun a => { cell := 0, slot := 3, sym := 2, ant := a }) }
           radio := { s.radio with ul := [⟨1, 0, 3, [x], false⟩], rx := if m = [] then [] else [⟨9, 1, 3, m, [], 70⟩] } }
/-- Half of the antennas are erased, or three of four. -/
theorem test_witness_beq : (let s := ulState { pdu := pusch } [0, 1] [] 4000000
    itemOf s 0 3 0 = some { pdu := pusch } ∧ s.trace.run = none ∧ s.trace.replay = none ∧ beqServes s 0 3 = true ∧ isCorrupt s 0 3 pusch = false ∧ beqUnit s 0 = 1 ∧ (30, 1) ∉ s.units.engOut) ∧
    isCorrupt (ulState { pdu := pusch } [0] [] 4000000) 0 3 pusch = true ∧ beqServes (radioState run0 4000000) 0 3 = false ∧
    (30, 1) ∈ (let s := ulState { pdu := pusch } [0, 1] [] 4000000; { s with units := { s.units with engOut := [(30, 1)] } }).units.engOut := by decide
theorem test_beq : ((itemOf (after (.beqAllocation 0 3 0 false) (ulState { pdu := pusch } [0, 1] [] 4000000)) 0 3 0).bind (fun x => x.beq)) = some true ∧
    ((itemOf (after (.beqAllocation 0 3 0 true) (ulState { pdu := pusch } [0, 1] [] 4000000)) 0 3 0).bind (fun x => x.beq)) = some false ∧
    ((itemOf (after (.beqAllocation 0 3 0 false) (ulState { pdu := pusch } [0] [] 4000000)) 0 3 0).bind (fun x => x.status)) = some 2 ∧
    rg (after (.beqAllocation 0 3 0 false) (ulState { pdu := pusch } [0, 1] [] 4000000)) BEQ_ALLOC_COUNT 1 0 = 1 := by decide
/-- The graph's deadline of slot 3 is at 4.52 ms. -/
theorem test_witness_path : rxOutcome (ulState { pdu := pusch } [0, 1] [(0, 1)] 4000000) 0 3 1 9 0 = some (1, 0, 70) ∧ rxOutcome (ulState { pdu := pusch } [0, 1] [(0, 2)] 4000000) 0 3 1 9 0 = some (2, 5, 70) ∧
    rxOutcome (ulState { pdu := pusch } [0, 1] [] 4519999) 0 3 1 9 0 = none ∧ ((rxOutcome (ulState { pdu := pusch } [0, 1] [] 4520000) 0 3 1 9 0).map (fun q => q.2.1)) = some 4 ∧
    firstCause ([] ++ cellCauses (ulState { pdu := pusch } [0, 1] [(0, 1)] 4000000) 0 3) = 0 ∧ firstCause [(6, 70), (5, 70), (7, 69)] = 7 ∧ firstCause [(6, 70), (5, 70)] = 5 ∧
    ulOf (ulState { pdu := pusch } [0, 1] [] 4519999) 0 3 ≠ none ∧ (rxOutcome (ulState { pdu := { ulp with kind := .pucch, fmt := 1 } } [] [(0, 2)] 4000000) 0 3 1 9 0).isSome = true := by decide
/-- R356 to R362. -/
theorem test_path : ((itemOf (after (.pathSelect 0 3 0 9 0 []) (ulState { pdu := pusch } [0, 1] [(0, 1)] 4000000)) 0 3 0).bind (fun x => x.path)) = some false ∧
    ((itemOf (after (.pathSelect 0 3 0 9 0 []) (ulState { pdu := pusch, beq := some true } [0, 1] [(0, 2)] 4000000)) 0 3 0).map (fun x => (x.path, x.cause))) = some (some true, 5) ∧
    ((itemOf (after (.pathSelect 0 3 0 9 0 []) (ulState { pdu := pusch } [0, 1] [] 4520000)) 0 3 0).map (fun x => (x.status, x.cause))) = some (some 1, 4) ∧
    rg (after (.pathSelect 0 3 0 9 0 []) (ulState { pdu := pusch } [0, 1] [] 4520000)) BEQ_FB_DEADLINE 0 0 = 1 ∧
    ((itemOf (after (.pathSelect 0 3 0 9 0 []) (ulState { pdu := ulp } [] [(0, 2)] 4000000)) 0 3 0).bind (fun x => x.status)) = some 1 := by decide
def prachPdu : UlPdu := { ulp with kind := .prach, roots := 1 }
/-- A detection reaches the threshold exactly: 256/256 times the noise of 2. -/
theorem test_witness_prach : (let s := ulState { pdu := prachPdu } [] [] 4000000
    itemOf s 0 3 0 = some { pdu := prachPdu } ∧ (29, 3) ∉ s.units.engOut ∧ s.fh.prach = [] ∧ rxAnts s 0 = 4 ∧ (ulOf s 0 3).map (fun v => v.rach) = some false) ∧
    detect 256 [2, 2, 2, 2] [(7, 0, 1)] = [(7, 0, 6, 6)] ∧ detect 257 [2, 2, 2, 2] [(7, 0, 1)] = [] := by decide
/-- R327, R330: without an antenna the occasion is CORRUPT. -/
theorem test_prach : ((itemOf (after (.prachCorrelate 3 0 3 0 [0, 1, 2, 3]) (ulState { pdu := prachPdu } [] [] 4000000)) 0 3 0).bind (fun x => x.status)) = some 2 ∧
    rg (after (.prachCorrelate 3 0 3 0 [0, 1, 2, 3]) (ulState { pdu := prachPdu } [] [] 4000000)) PXC_OCC_CORRUPT 3 0 = 1 := by decide

/-- Rate recovery: the item with its path, and LLRs or none. -/
def cbItem (b : CodeBlock) : UlItem := { pdu := pusch, path := some false, llrs := [[1, 2]], cbs := [(0, b)] }
theorem test_witness_recovery : (let s := ulState (cbItem {}) [0, 1] [] 4000000
    itemOf s 0 3 0 = some (cbItem {}) ∧ (cbItem {}).path ≠ none ∧ (tgetD {} (cbItem {}).cbs 0).stage = 0 ∧ (cbItem {}).llrs.getD 0 [] ≠ [] ∧ cellLte s 0 = false) ∧
    isFiller true 2 20 0 = false ∧ isFiller true 2 19 15 = true ∧ isFiller true 2 19 14 = false := by decide
theorem test_recovery : ((itemOf (after (.rateRecovery 0 3 0 0) (ulState { cbItem {} with llrs := [] } [] [] 0)) 0 3 0).map (fun x => tgetD {} x.cbs 0)) = some { stage := 3, failed := true } ∧
    ((itemOf (after (.rateRecovery 0 3 0 0) (ulState (cbItem {}) [] [] 0)) 0 3 0).map (fun x => (tgetD {} x.cbs 0).stage)) = some 1 ∧
    after (.rateRecovery 0 3 0 1) (ulState (cbItem {}) [] [] 0) = ulState (cbItem {}) [] [] 0 := by decide
/-- Block 0 is recovered; context 5's process 3 holds the PDU's, its entry for block 0 is `e`, and the pool's entries `used` are taken. Entry 1 holds 100 and -100. -/
def combState (new : Bool) (e : Word) (used : List Nat) : State :=
  let s := ulState { cbItem { stage := 1, llr := [50, 0xCE] } with pdu := { pusch with newData := new } } [] [] 4000000
  { s with radio := { s.radio with harq := [(1, used)] }
           mem := { s.mem with ext := mwrite 0 (mwrite 0 (mwrite 0 (mwrite 0 [] 0x50880 (wordLe 0x88000100)) 0x50884 (wordLe 4)) 0x508A0 (wordLe e)) (0x100000 + 25344) [100, 0x9C] } }
theorem test_witness_combine : procMatches (combState false 0x80000001 [1]) 5 (procOff 3) pusch false = true ∧ bit (entryAt (combState false 0x80000001 [1]) 5 3 0) 31 = true ∧
    hqAddr (combState false 0x80000001 [1]) 1 1 = 0x106300 ∧ hqEntries (combState true 0 [0]) 1 = 2 ∧ hqUsed (combState true 0 [0]) 1 = [0] ∧ hqUsed (combState true 0 [0, 1]) 1 = [0, 1] ∧
    (∀ o, o < 65536 → ctxAddr (combState true 0 [0]) 5 o < 0x106300 ∨ 0x106300 + 2 ≤ ctxAddr (combState true 0 [0]) 5 o) ∧ (combState true 0 [0]).mem.ue = [] :=
  ⟨by decide, by decide, by decide, by decide, by decide, by decide, fun o h => Or.inl (by have : ctxAddr (combState true 0 [0]) 5 o = 0x50000 + o := (by unfold ctxAddr; rw [show ctxBase (combState true 0 [0]) = 0 by decide]); omega), by decide⟩
theorem test_witness_combine_new : ∀ j, j < 152 → bit (entryAt (combState true 0 [0]) 5 3 j) 31 = false := by decide
/-- R422, R423: 50 + 100 saturates at 127 and -50 - 100 at -127; new data takes the lowest free entry, or none. -/
theorem test_combine : ((itemOf (after (.harqCombine 0 3 0 0) (combState false 0x80000001 [1])) 0 3 0).map (fun x => (tgetD {} x.cbs 0).comb)) = some [127, 0x81] ∧
    hqUsed (after (.harqCombine 0 3 0 0) (combState true 0 [0])) 1 = [0, 1] ∧ rg (after (.harqCombine 0 3 0 0) (combState true 0 [0, 1])) LDD_POOL_EXHAUST 0 1 = 1 := by decide
/-- A pass without rows, which takes 120 cycles whatever the base graph; its decode point is at 4.56 ms. -/
def pass0 : LdpcPass := ⟨1, 0, 3, true, 2, [], [(0, 0)], 0⟩
def passState (t : Nat) : State :=
  let s := ulState (cbItem { stage := 2, comb := [1, 0xFF] }) [] [] t
  { s with radio := { s.radio with passes := [pass0], runs := [(15, some (pass0, 0))] } }
theorem test_witness_passes : nextPass (passState 4559877) 0 = some pass0 ∧ nextPass (passState 4559877) 15 = none ∧ lddNs 120 = 123 ∧ decodePoint (passState 4559877) 0 3 = 4560000 ∧
    (decodeBlock (passState 4559877) pass0 (iterCap (passState 4559877) 0) (cbItem { stage := 2, comb := [1, 0xFF] }) 0).2.1 = 1 ∧ passCycles pass0 1 = 120 ∧
    nowNs (passState 4559877) = 4559877 ∧ nowNs (passState 4559878) = 4559878 ∧ tgetD none (passState 4560000).radio.runs 15 = some (pass0, 0) ∧ tgetD none (passState 4560000).radio.runs 0 = none := by decide
/-- R412, R416: before the point the decisions stand; a pass that would end after it stays; a failed check puts it back. -/
theorem test_passes : ((itemOf (after (.ldpcPass 0 false) (passState 4559877)) 0 3 0).map (fun x => (tgetD {} x.cbs 0).stage)) = some 3 ∧
    ((tgetD none (after (.ldpcPass 0 false) (passState 4559878)).radio.runs 0).map (fun q => q.1)) = some pass0 ∧ (after (.ldpcPass 0 true) (passState 4559877)).radio.passes = [pass0] ∧
    rg (after (.ldpcPass 0 true) (passState 4559877)) LDD_RESTARTS 0 0 = 1 ∧ tgetD none (after (.decLate 15) (passState 4560000)).radio.runs 15 = none ∧
    after (.decLate 15) (passState 4559999) = passState 4559999 := by decide
/-- The same cell in LTE mode, and a PUCCH of format 2. -/
theorem test_witness_decoders : (let s := passState 4000000
    cellLte { s with radio := { s.radio with cells := [(0, { run0 with cfg := some { cfg0 with lte := true } })] } } 0 = true) ∧ (tgetD {} (cbItem { stage := 2 }).cbs 0).stage = 2 ∧
    (27, 1) ∉ (passState 4000000).units.engOut ∧ (26, 1) ∉ (passState 4000000).units.engOut ∧ 2 ≤ ({ ulp with fmt := 2 } : UlPdu).fmt := by decide
theorem test_polar : rg (after (.polarDecode 1 0 3 0) (ulState { pdu := { ulp with fmt := 2 } } [] [] 0)) PLC_WORK_COUNT 1 0 = 1 ∧
    after (.polarDecode 2 0 3 0) (ulState { pdu := { ulp with fmt := 2 } } [] [] 0) = ulState { pdu := { ulp with fmt := 2 } } [] [] 0 := by decide
/-- R316: UCI on PUSCH, once its path is selected; it keeps the batch waiting. -/
def uciItem : UlItem := { pdu := { pusch with uci := true }, path := some false, status := some 0 }
theorem test_pusch_uci : rg (after (.polarDecode 1 0 3 0) (ulState uciItem [] [] 0)) PLC_WORK_COUNT 1 0 = 1 ∧ uciItem.uciSt = none ∧
    after (.batchDeliver 0 3) (ulState uciItem [] [] 4000000) = ulState uciItem [] [] 4000000 ∧
    ulOf (after (.batchDeliver 0 3) (ulState { uciItem with uciSt := some 3 } [] [] 4000000)) 0 3 = none := by decide
/-- R416: the pass goes to the next free decoder. -/
theorem test_restart : nextPass (after (.ldpcPass 0 true) (passState 4559877)) 0 = none ∧ nextPass (after (.ldpcPass 0 true) (passState 4559877)) 1 = some pass0 := by decide
/-- Four bits with their checksum, decided. -/
def goodBits : List Bool := [true, false, true, true] ++ tbCrc false [true, false, true, true]
def crcState (b : CodeBlock) : State := combState false 0x80000001 [1] |> fun s => { s with radio := { s.radio with ul := [⟨1, 0, 3, [cbItem b], false⟩] } }
theorem test_witness_crc : tbBits false (cbItem { stage := 3, hard := goodBits }) = goodBits ∧ goodBits.drop 4 = tbCrc false (goodBits.take 4) ∧ goodBits.length = 20 ∧ cellLte (crcState {}) 0 = false ∧
    tbCrc false (List.replicate 8 false) ≠ List.replicate 16 true ∧ itemOf (crcState { stage := 3, hard := goodBits }) 0 3 0 = some (cbItem { stage := 3, hard := goodBits }) := by decide
theorem test_crc : ((itemOf (after (.crcCheck 0 3 0) (crcState { stage := 3, hard := goodBits })) 0 3 0).map (fun x => (x.status, x.data))) = some (some 0, [0xB0]) ∧
    hqUsed (after (.crcCheck 0 3 0) (crcState { stage := 3, hard := goodBits })) 1 = [] ∧
    ((itemOf (after (.crcCheck 0 3 0) (crcState { stage := 3, hard := false :: goodBits.tail })) 0 3 0).bind (fun x => x.status)) = some 3 ∧
    ((itemOf (after (.crcCheck 0 3 0) (crcState { stage := 3, failed := true })) 0 3 0).bind (fun x => x.status)) = some 1 := by decide
/-- The batch's point of slot 3 is at 4.6 ms. -/
theorem test_witness_batch : reached (ulState { pdu := pusch } [] [] 4600000) 0 3 (points (ulState { pdu := pusch } [] [] 4600000) 0).2.2.2 = true ∧
    reached (ulState { pdu := pusch } [] [] 4599999) 0 3 (points (ulState { pdu := pusch } [] [] 4599999) 0).2.2.2 = false ∧ ulOf (ulState { pdu := pusch } [] [] 0) 0 4 = none := by decide
theorem test_batch : ulOf (after (.batchDeliver 0 3) (ulState { pdu := pusch } [0] [] 4600000)) 0 3 = none ∧ gridOf (after (.batchDeliver 0 3) (ulState { pdu := pusch } [0] [] 4600000)) 0 3 2 0 = none ∧
    after (.batchDeliver 0 3) (ulState { pdu := pusch } [0] [] 4599999) = ulState { pdu := pusch } [0] [] 4599999 ∧
    ulOf (after (.batchDeliver 0 3) (ulState { pdu := pusch, status := some 1 } [0] [] 3000000)) 0 3 = none := by decide
/-- A PDSCH of 24 bits and one block; a control block. -/
def dlState (x : DlItem) : State := let s := radioState run0 0; { s with radio := { s.radio with dl := [⟨1, 0, 1, [x], 0, true⟩] } }
def dlItem0 : DlItem := { pdu := dlp, payload := some [0xA5, 0, 0xFF], blocks := [[some true]], coded := [(0, [some true])], matched := [(0, [true, false, true])] }
def dciItem : DlItem := { pdu := { dlp with kind := .pdcch }, enc := [true, false, true] }
theorem test_witness_downlink : dlItem (dlState dlItem0) 0 1 0 = some dlItem0 ∧ cellLte (dlState dlItem0) 0 = false ∧ dlItem0.blocks[0]? = some [some true] ∧ (25, 1) ∉ (dlState dlItem0).units.engOut ∧
    tgetD [] dlItem0.coded 0 ≠ [] ∧ dciItem.pdu.kind = .pdcch ∧ (∀ k, k < dlItem0.pdu.codeBlocks → tgetD [] dlItem0.matched k ≠ []) ∧ dciItem.enc ≠ [] ∧ dlp.tbs = 24 ∧
    dlItem (dlState { pdu := dlp }) 0 1 0 = some { pdu := dlp } := by decide
/-- R331: 24 bits, 16 of checksum, filled up to 10 columns of 8; QM 2 takes 2, 2 and the rest. -/
theorem test_downlink : ((dlItem (after (.segmentation 0 1 0) (dlState dlItem0)) 0 1 0).map (fun x => x.blocks.map (fun b => (b.length, b.take 4, b.getD 40 (some true))))) =
      some [(80, [some true, some false, some true, some false], none)] ∧ rg (after (.ldpcEncode 1 0 1 0 0) (dlState dlItem0)) LDE_WORK_COUNT 1 0 = 1 ∧
    rg (after (.polarEncode 1 0 1 0) (dlState dciItem)) PLC_WORK_COUNT 1 0 = 1 ∧
    ((dlItem (after (.rateMatching 0 1 0 0) (dlState dlItem0)) 0 1 0).map (fun x => (tgetD [] x.matched 0).length)) = some 40 ∧
    ((dlItem (after (.modulationMapping 0 1 0) (dlState dlItem0)) 0 1 0).map (fun x => x.symbols)) = some [[true, false], [true]] ∧
    ((dlItem (after (.modulationMapping 0 1 0) (dlState dciItem)) 0 1 0).map (fun x => x.symbols)) = some [[true, false], [true]] := by decide

/-! ### Critical commands -/

/-- A critical command of type `t` with counter 9 and session 5, a parameter block at 0x100 of `n` bytes, and parameters. -/
def critDesc (t n : Nat) (ps : List Word) : List Word := [w32 (t * 2 ^ 24), 7, 0, 9, 5, if n = 0 then 0 else 0x100, 0, w32 n] ++ ps ++ List.replicate (24 - ps.length) 0
/-- In MANUFACTURE, session 5, the last accepted counter 8: partition 0's region of 128 MiB, those of SAFETY partition 3, of EDGE partition 4, which serves
function 4, and of 6, which does not exist. -/
def secState (d : List Word) : State :=
  let s := withRegs readyState [(HIF_CQ_CFG, 0, 0, 0x84200001), (HIF_CQ_BASE_LO, 0, 0, 0x8000), (HIF_CQ_HEAD, 0, 0, 5), (MEM_RGN_CFG, 0, 0, 0x80000000), (MEM_RGN_BASE, 0, 0, 1), (MEM_RGN_SIZE, 0, 0, 64),
    (MEM_RGN_CFG, 0, 1, 0x80000004), (MEM_RGN_BASE, 0, 1, 65), (MEM_RGN_SIZE, 0, 1, 1), (MEM_RGN_CFG, 0, 2, 0x80000006), (MEM_RGN_BASE, 0, 2, 66), (MEM_RGN_SIZE, 0, 2, 1)]
  { s with host := { s.host with linkUp := true, busMaster := [(0, true)], picked := [(0, [d])] }, sec := { s.sec with session := 5, ctr := 8, keyIdx := 1, svnStage := 3, fwSvn := 2 }
           disp := { s.disp with parts := [(0, some { cls := .mgmt }), (3, some { cls := .safety, vf := 3 }), (4, some { cls := .edge, vf := 4 })] }
           mem := { s.mem with host := mwrite 0 [] 0x100 (natBe 48 bpG.1 ++ natBe 48 bpG.2) } }
/-- Row `n` of the critical commands passes its checks, once its own conditions are shown. -/
theorem passes_of {s : State} {d : List Word} {bad : Option (Nat × Nat)} {wrong : Bool} {i : Instr} {t : Nat} {A B : Prop} (n : Nat) (h : (critRows s d bad wrong)[n]? = some (i, t, A, B))
    (h1 : tgetD [] s.host.picked 0 = [d] ∧ dtype d = t) (hA : A) (hB : B)
    (h2 : secBusy s = false ∧ critOk d = true ∧ ((wd d 7).toNat = 0 ∨ mayWriteHost s 0 = true) ∧ authHold s = false ∧ wd d 4 = s.sec.session ∧ macOk s d = true ∧ s.sec.ctr.toNat < (wd d 3).toNat) :
    CritPasses s d bad wrong i := ⟨⟨_, List.mem_of_getElem? h, rfl, h1, hA, hB⟩, h2⟩
def sessionDesc : List Word := critDesc 0x5B 0 []
/-- The same with AUTH_BAD's run of 14 or 15, in AUTH_HOLD, with another session, with a check that is not zero, and with the counter that was accepted last. -/
def judged (run : Nat) (hold : Option Nat) (d : List Word) (t : Nat) : State :=
  let s := secState d
  { s with sec := { s.sec with badRun := run, hold := hold }, tmu := { s.tmu with ticks := t } }
def badMacDesc : List Word := sessionDesc.set 24 1
theorem test_witness_judged : secBusy { secState sessionDesc with sec := { (secState sessionDesc).sec with fwBusy := some (0, 1) } } = true ∧ secBusy (secState sessionDesc) = false ∧
    critOk sessionDesc = true ∧ critOk (sessionDesc.set 28 1) = false ∧ authHold (judged 0 (some 0) sessionDesc 491519999) = true ∧ authHold (judged 0 (some 0) sessionDesc 491520000) = false ∧
    passed (judged 0 (some 0) sessionDesc 491520000) 0 1000000000 = true ∧ wd (sessionDesc.set 4 6) 4 ≠ (secState sessionDesc).sec.session ∧ macOk (secState badMacDesc) badMacDesc = false ∧
    macOk (secState sessionDesc) sessionDesc = true ∧ (wd (sessionDesc.set 3 8) 3).toNat ≤ (secState sessionDesc).sec.ctr.toNat ∧ (secState sessionDesc).sec.hold = none := by decide
/-- R646, R647: 0x43, 0x42, 0x40 and 0x41 in this order; the sixteenth AUTH_BAD holds. -/
theorem test_judged : hostRead (after .session (judged 0 (some 0) (badMacDesc.set 4 6) 1)) 0x8002 1 = [0x43] ∧ hostRead (after .session (secState (badMacDesc.set 4 6))) 0x8002 1 = [0x42] ∧
    hostRead (after .session (secState (badMacDesc.set 3 8))) 0x8002 1 = [0x40] ∧ hostRead (after .session (secState (sessionDesc.set 3 8))) 0x8002 1 = [0x41] ∧
    hostRead (after .session (secState (sessionDesc.set 28 1))) 0x8002 1 = [0x20] ∧ (after .session (judged 14 none badMacDesc 1)).sec.badRun = 15 ∧
    (after .session (judged 15 none badMacDesc 1)).sec.hold = some 1 ∧ (after .authHoldEnd (judged 0 (some 0) sessionDesc 491520000)).sec.hold = none ∧
    after .authHoldEnd (judged 0 (some 0) sessionDesc 491519999) = judged 0 (some 0) sessionDesc 491519999 ∧ rg (after .session (secState badMacDesc)) SEC_AUTH_FAILS 0 0 = 1 := by decide
def debugDesc : List Word := critDesc 0x5A 0 [4]
def keyDesc (w : Word) : List Word := critDesc 0x53 96 [w]
def unkeyDesc : List Word := critDesc 0x54 0 [77, 0]
def fuseDesc (c t : Nat) : List Word := critDesc 0x55 (if c = 4 then 48 else 0) [w32 c, w32 t]
def attestDesc (n : Nat) : List Word := critDesc 0x59 0 (List.replicate 12 0x11 ++ [0x9000, 0, w32 n])
/-- Key 77 of partition 4 is in the table. -/
def keyState (d : List Word) : State := let s := secState d; { s with sec := { s.sec with keys := [⟨77, 2, false, 4, 1, 2⟩] } }
theorem test_witness_security : CritPasses (secState sessionDesc) sessionDesc none false .session ∧ CritPasses (secState debugDesc) debugDesc none false .debugPart ∧
    CritPasses (keyState unkeyDesc) unkeyDesc none false .keyUnload ∧ CritPasses (secState (keyDesc 1)) (keyDesc 1) none false .keyLoad ∧
    CritPasses (secState (fuseDesc 2 3)) (fuseDesc 2 3) none false (.fuseProg false) ∧ CritPasses (secState (fuseDesc 2 4)) (fuseDesc 2 4) none true (.fuseProg true) ∧
    CritPasses (secState (fuseDesc 4 0)) (fuseDesc 4 0) none false (.fuseProg false) ∧ CritPasses (secState (critDesc 0x52 0 [1])) (critDesc 0x52 0 [1]) none false .fwActivate ∧
    CritPasses (secState (attestDesc 4096)) (attestDesc 4096) none false .attest :=
  ⟨passes_of 13 rfl (by decide) (by decide) (by decide) (by decide), passes_of 12 rfl (by decide) (by decide) (by decide) (by decide), passes_of 4 rfl (by decide) (by decide) (by decide) (by decide),
    passes_of 3 rfl (by decide) (by decide) (by decide) (by decide), passes_of 5 rfl (by decide) (by decide) (by decide) (by decide), passes_of 5 rfl (by decide) (by decide) (by decide) (by decide),
    passes_of 5 rfl (by decide) (by decide) (by decide) (by decide), passes_of 2 rfl (by decide) (by decide) (by decide) (by decide), passes_of 11 rfl (by decide) (by decide) (by decide) (by decide)⟩
/-- FW_ACTIVATE of a set that passes rests on PK_HASH in the same way; of one that fails it does not. -/
theorem test_witness_security_values : part? (secState debugDesc) 4 = some { cls := .edge, vf := 4 } ∧ part? (secState debugDesc) 5 = none ∧ onCurve bpG.1 bpG.2 = true ∧ onCurve bpG.1 (bpG.2 + 1) = false ∧
    bytesBe ((pblk (secState (keyDesc 1)) (keyDesc 1)).take 48) = bpG.1 ∧ (secState (keyDesc 1)).sec.keys = [] ∧ fuseTarget (secState (fuseDesc 1 0)) (fuseDesc 1 0) = 1 ∧
    ((keyState unkeyDesc).sec.keys.find? (fun q => decide (q.id = 77))).isSome = true ∧ judgeBoot (secState []) (setBase (secState []) 1) (setRoom (secState []) 1) 0 = 2 := by decide
/-- R648 to R652: a partition opens, a key leaves, a point off the curve and a version above the running one are refused. -/
theorem test_security : ((part? (after .debugPart (secState debugDesc)) 4).map (fun x => x.debug)) = some true ∧ hostRead (after .debugPart (secState (critDesc 0x5A 0 [3]))) 0x8002 1 = [3] ∧
    (after .keyUnload (keyState unkeyDesc)).sec.keys = [] ∧ hostRead (after .keyLoad (secState (keyDesc 0x12))) 0x8002 1 = [3] ∧
    (after .session (secState sessionDesc)).sec.ctr = 0 ∧ hostRead (after .attest (secState (attestDesc 4095))) 0x8002 1 = [0x20] := by decide
theorem test_fuses : (after (.fuseProg false) (secState (fuseDesc 2 3))).sec.fuses.svnBoot = 3 ∧ hostRead (after (.fuseProg false) (secState (fuseDesc 2 4))) 0x8002 1 = [3] ∧
    hostRead (after (.fuseProg false) (secState (fuseDesc 1 1))) 0x8002 1 = [3] ∧ (after (.fuseProg false) (secState (fuseDesc 1 3))).sec.fuses.revoke = 8 ∧
    hostRead (after (.fuseProg true) (secState (fuseDesc 1 3))) 0x8002 1 = [1] ∧ hostRead (after .fwActivate (secState (critDesc 0x52 0 [1]))) 0x8002 1 = [1] := by decide

/-! ### Partitions and recordings -/

/-- PART_CREATE of partition 6: class, REQ_SIG and function 5 in the word. -/
def createPDesc (w : Word) : List Word := critDesc 0x50 128 [w]
def recDesc : List Word := critDesc 0x57 0 [4, 0x1000, 0, 0x4000000, 0, 1, 0, 0, 0, 0, 0]
/-- A recording of partition 4. -/
def runState (since : Option Nat) (d : List Word) : State :=
  let s := secState d
  { s with trace := { s.trace with run := some { part := 4, base := 0x201000, size := 0x4000000, wrap := false, cells := [0], ranges := [], since := since } } }
/-- The parameter block names no slice. -/
def noSlices (d : List Word) : State := let s := secState d; { s with mem := { s.mem with host := [] } }
theorem test_witness_partitions : CritPasses (noSlices (createPDesc 0xE5000006)) (createPDesc 0xE5000006) none false (.partCreate none) ∧
    CritPasses (noSlices (createPDesc 0x85000006)) (createPDesc 0x85000006) (some (6, 0)) false (.partCreate (some (6, 0))) ∧
    CritPasses (secState (critDesc 0x51 0 [4])) (critDesc 0x51 0 [4]) none false .partDestroy ∧ CritPasses (secState recDesc) recDesc none false .recStart ∧
    CritPasses (runState (some 0) (critDesc 0x58 0 [])) (critDesc 0x58 0 []) none false .recStop :=
  ⟨passes_of 0 rfl (by decide) (by decide) (by decide) (by decide), passes_of 0 rfl (by decide) (by decide) (by decide) (by decide), passes_of 1 rfl (by decide) (by decide) (by decide) (by decide),
    passes_of 9 rfl (by decide) (by decide) (by decide) (by decide), passes_of 10 rfl (by decide) (by decide) (by decide) (by decide)⟩
/-- What makes a creation refused holds of none of these; recording in 16 KiB less than the region would not fit. -/
theorem test_witness_refusals : part? (noSlices []) 6 = none ∧ part? (noSlices []) 4 ≠ none ∧ (∀ e ∈ (noSlices []).disp.parts, ∀ y, e.2 = some y → y.vf ≠ 5) ∧
    (partRegion (taken (noSlices (createPDesc 0xE5000006)) (createPDesc 0xE5000006)) 6).isSome = true ∧ (∀ q ∈ slicesOf (pblk (noSlices (createPDesc 0xE5000006)) (createPDesc 0xE5000006)), sliceOk (noSlices []) 6 q = true) ∧
    (traceOf (createPDesc 0xE5000006)).2 = 0 ∧ (secState recDesc).trace.run = none ∧ partRegion (taken (secState recDesc) recDesc) 0 = some (0x200000, 0x8000000, 0) ∧
    (partRegion (taken (secState recDesc) recDesc) 4).isSome = true ∧ 0x1000 + 0x4000000 ≤ 0x8000000 ∧ pageOpen (secState []) 0 0 0 ∧ (secState []).disp.resetting = [] ∧ (secState []).safe.resets = [] :=
  ⟨by decide, by decide, by decide, by decide, by decide, by decide, by decide, by decide, by decide, by decide, pageOpen_of (by decide) (by decide) (by decide), by decide, by decide⟩
/-- R664, R622: EDGE with REQ_SIG; SAFETY whose injection fails stays in the safe state. -/
theorem test_part_create : ((part? (after (.partCreate none) (noSlices (createPDesc 0xE5000006))) 6).map (fun x => (x.cls, x.vf, x.requireSig))) = some (.edge, 5, true) ∧
    ownerOf (after (.partCreate none) (noSlices (createPDesc 0xE5000006))) 7 6 = 6 ∧ hostRead (after (.partCreate none) (noSlices (createPDesc 0xE4000006))) 0x8002 1 = [3] ∧
    bit (rg (after (.partCreate (some (6, 0))) (noSlices (createPDesc 0x85000006))) SYS_SAF_STAT 0 6) 31 = true := by decide
theorem test_partitions : part? (after .partDestroy (secState (critDesc 0x51 0 [4]))) 4 = none ∧ hostRead (after .partDestroy (secState (critDesc 0x51 0 [5]))) 0x8002 1 = [3] ∧
    (after (.partReset 0 4) (secState [])).disp.resetting = [4] ∧ after (.partReset 0 0) (secState []) = secState [] ∧
    tgetD 0 (endReset { demoS demoCore with sync := { objs := [(7, 5)] } } { part := 0, full := false, trig := 0, since := 0 }).sync.objs 7 = 0 := by decide
/-- R594, R600. -/
theorem test_recordings : ((after .recStart (secState recDesc)).trace.run.map (fun r => (r.part, r.base, r.size, r.cells))) = some (4, 0x201000, 0x4000000, [0]) ∧
    hostRead (after .recStart (runState none recDesc)) 0x8002 1 = [3] ∧ (after .recStop (runState none (critDesc 0x58 0 []))).trace.run = none ∧
    ((after .recStop (runState (some 0) (critDesc 0x58 0 []))).trace.run.map (fun r => r.closing)) = some true := by decide

/-! ### Misfit decisions -/

/-- Layer 0 of the job's image has SAT_LIMIT 5, RERUN, and takes 100 and 50 a-cycles; its counter, object 3, holds `v`; it is `t` ns. -/
def misfitState (v t : Nat) (y : Job) : State :=
  let s := demoS demoCore
  { s with img := { s.img with gens := [{ demoGen with sects := ⟨9, false, 0x180, 32, 0⟩ :: demoGen.sects }] }, sync := { s.sync with objs := [(3, v)] }, disp := { s.disp with jobs := [(1, some y)] }
           mem := { s.mem with ext := [(0x100180, 5), (0x100184, 1), (0x100188, 100), (0x10018C, 50)] }, tmu := { s.tmu with time := t * 2 ^ 40 } }
/-- 150 a-cycles take 153 ns. -/
theorem test_witness_misfit : (let s := misfitState 6 847 { demoJob with deadline := 1000 }
    (running s 0).isSome = true ∧ jobObj s { demoJob with deadline := 1000 } 3 = some 3 ∧ layerDrained s { demoJob with deadline := 1000 } 3 = true ∧ logOf s 0 = some 0 ∧ replaying s 0 = false ∧
      s.sync.waits = [] ∧ objVal s 3 = 6 ∧ divOf s 0 = 4 ∧ nowNs s + acycNs 150 4 = 1000) ∧ objVal (misfitState 5 0 demoJob) 3 = 5 := by decide
/-- R66 to R69: the layer runs again while there is time, once; otherwise the item falls back. -/
theorem test_misfit : ((job? (after (.misfitDecision 0 0 3 1) (misfitState 6 847 { demoJob with deadline := 1000 })) 1).map (fun z => (z.reran, z.misfits, tgetD 0 z.marks 1))) = some ([(0, 3)], [], 0) ∧
    ((job? (after (.misfitDecision 0 0 3 1) (misfitState 6 848 { demoJob with deadline := 1000 })) 1).map (fun z => (z.reran, tgetD 0 z.marks 1))) = some ([], 1) ∧
    ((job? (after (.misfitDecision 0 0 3 1) (misfitState 6 847 { demoJob with deadline := 1000, reran := [(0, 3)] })) 1).map (fun z => tgetD 0 z.marks 1)) = some 1 ∧
    after (.misfitDecision 0 0 3 1) (misfitState 5 0 demoJob) = misfitState 5 0 demoJob := by decide

/-! ### Units and lanes -/

/-- REPAIR: KIND, ACTION, quad, instance. -/
def repDesc (k act q i : Nat) : List Word := critDesc 0x56 0 [w32 (k * 2 ^ 28 + act * 2 ^ 26 + q * 2 ^ 8 + i)]
/-- Clusters 5 and LDPC decoder 3 are out, and the lane entries and lanes are as given. -/
def repState (d : List Word) (fused : Tab Nat) (lanes : List (Nat × Nat × Nat × Nat)) : State :=
  let s := secState d
  { s with sec := { s.sec with fuses := { s.sec.fuses with repLane := fused, repCl := 2 } }, units := { s.units with out := [1, 5], engOut := [(24, 3)] }, fh := { s.fh with lanes := lanes, up := [(4, true)] } }
theorem test_witness_repair : CritPasses (repState (repDesc 1 0 0 17) [] []) (repDesc 1 0 0 17) none false .takeOutOfService ∧
    CritPasses (repState (repDesc 2 1 0 15) [] []) (repDesc 2 1 0 15) none false .takeOutAndFuse ∧ CritPasses (repState (repDesc 9 1 19 3) [(19, 3)] []) (repDesc 9 1 19 3) none false .takeOutAndFuse ∧
    CritPasses (repState (repDesc 1 2 0 5) [] []) (repDesc 1 2 0 5) none false .returnToService ∧ CritPasses (repState (repDesc 9 2 1 0) [] [(1, 0, 1, 3)]) (repDesc 9 2 1 0) none false .returnToService :=
  ⟨passes_of 6 rfl (by decide) (by decide) (by decide) (by decide), passes_of 7 rfl (by decide) (by decide) (by decide) (by decide), passes_of 7 rfl (by decide) (by decide) (by decide) (by decide),
    passes_of 8 rfl (by decide) (by decide) (by decide) (by decide), passes_of 8 rfl (by decide) (by decide) (by decide) (by decide)⟩
theorem test_witness_repair_values : fusedOut (repState [] [] []) 1 1 = true ∧ fusedOut (repState [] [] []) 1 5 = false ∧ 5 ∈ (repState [] [] []).units.out ∧ 6 ∉ (repState [] [] []).units.out ∧
    (codeOf 2, 3) ∈ (repState [] [] []).units.engOut ∧ (codeOf 2, 4) ∉ (repState [] [] []).units.engOut ∧ laneSt (repState [] [] [(1, 0, 1, 3)]) 1 0 = some 1 ∧ laneSt (repState [] [] []) 1 0 = none ∧
    tgetD 0 (repState [] [(19, 3)] []).sec.fuses.repLane 19 = 3 := by decide
/-- R659 to R662: a unit leaves at the slot boundary; a fused one stays out; a quad's entry holds one lane. -/
theorem test_repair : (after .takeOutOfService (repState (repDesc 1 0 0 17) [] [])).units.leaving = [(17, 6)] ∧ (after .takeOutOfService (repState (repDesc 2 0 0 15) [] [])).units.engLeaving = [(24, 15, 6)] ∧
    (after .takeOutAndFuse (repState (repDesc 2 1 0 15) [] [])).sec.fuses.repLdd = 0x8000 ∧ hostRead (after .takeOutAndFuse (repState (repDesc 9 1 19 3) [(19, 3)] [])) 0x8002 1 = [3] := by decide
theorem test_return : (rotOf (after .returnToService (repState (repDesc 1 2 0 5) [] [])) 5).returning = true ∧ hostRead (after .returnToService (repState (repDesc 1 2 0 1) [] [])) 0x8002 1 = [3] ∧
    (after .returnToService (repState (repDesc 2 2 0 3) [] [])).units.engBack = [(24, 3, 6)] ∧ laneSt (after .returnToService (repState (repDesc 9 2 1 0) [] [(1, 0, 1, 3)])) 1 0 = none := by decide
/-- The first faulty lane of a quad takes its spare slice, a second one is down; PCI Express waits for the host. -/
theorem test_witness_lanes : laneSt (repState [] [] []) (quadNo 0 1) 0 = none ∧ (∀ e ∈ (repState [] [] [(1, 3, 1, 3)]).fh.lanes, e.1 = 1 → e.2.2.1 = 1) ∧
    ¬ (∀ e ∈ (repState [] [] [(1, 3, 0, 3)]).fh.lanes, e.1 = 1 → e.2.2.1 = 1) ∧ laneSt (repState [] [] [(16, 0, 2, 3)]) (quadNo 3 0) 0 = some 2 ∧ laneSt (repState [] [] [(1, 0, 0, 3)]) 1 0 = some 0 := by decide
theorem test_lanes : laneSt (after (.laneFault 0 1 0 3) (repState [] [] [])) 1 0 = some 0 ∧ tgetD false (after (.laneFault 0 1 0 3) (repState [] [] [])).fh.up 4 = false ∧
    laneSt (after (.laneFault 0 1 0 3) (repState [] [] [(1, 3, 0, 3)])) 1 0 = some 1 ∧ laneSt (after (.laneFault 3 0 0 3) (repState [] [] [])) 16 0 = some 2 ∧
    laneSt (after .linkRetraining (repState [] [] [(16, 0, 2, 3)])) 16 0 = some 0 := by decide

/-! ### The rotor and the safe state -/

/-- Cluster 0 at `t` ns and `k` ticks with a window of partition `p` from 2000 ns for 500 ns in every `per` ns, its domains on; cluster `c` runs nothing but `jobs`. -/
def rotState (t k p per : Nat) (cl : Tab Cluster) (jobs : Tab (Option Job)) (r : Rot) : State :=
  let s := withRegs (floorState t jobs) [(SYS_FLOOR_PERIOD, 0, 0, w32 per), (SYS_WIN_CFG, 0, 48, w32 (2 ^ 31 + p * 2 ^ 26 + 500)), (PWC_DOM_STAT, 0, 0, 0x80000000), (PWC_DOM_STAT, 0, 18, 0x80000000)]
  { s with tmu := { s.tmu with ticks := k }, cl := cl, safe := { s.safe with rot := if r = {} then [] else [(0, r)] } }
/-- The window of partition 0 opens at 2000 ns; a slice lasts 150 µs; without a window it is due from 2 ms after the last. -/
theorem test_witness_rotor : sliceOf (rotState 2000 0 0 1000000 [] [] {}) 0 = [0] ∧ sliceNs (rotState 2000 0 0 1000000 [] [] {}) 0 = 150000 ∧ logOf (rotState 2000 0 0 1000000 [] [] {}) 0 = some 0 ∧
    takesSlices (rotState 2000 0 0 1000000 [] [] {}) 0 = true ∧ domOn (rotState 2000 0 0 1000000 [] [] {}) 0 = true ∧ domOn (rotState 2000 0 0 1000000 [] [] {}) 18 = true ∧
    (rotState 2000 0 0 1000000 [] [] {}).units.testing = [] ∧ testWindow (rotState 2000 0 0 1000000 [] [] {}) 0 = true ∧ testWindow (rotState 1999 0 0 1000000 [] [] {}) 0 = false ∧
    floorSoon (rotState 2000 0 0 1000000 [] [] {}) 0 150000 = false ∧ floorSoon (rotState 2000 0 0 149999 [] [] {}) 0 150000 = true ∧ floorSoon (rotState 2000 0 2 1000000 [] [] {}) 0 150000 = true ∧
    sincePass (rotState 3000 983040 2 1000000 [] [] {}) 0 = 2000000 ∧ sincePass (rotState 3000 983039 2 1000000 [] [] {}) 0 < 2000000 ∧
    (jobThere (rotState 2000 0 0 1000000 [(0, { job := some 0 })] [(0, some radioJob)] {}) 0).isSome = true := by decide
theorem test_rotor : (after (.rotorSlice 0) (rotState 2000 7 0 1000000 [] [] {})).units.testing = [0] ∧ (rotOf (after (.rotorSlice 0) (rotState 2000 7 0 1000000 [] [] {})) 0).start = some 7 ∧
    rg (after (.rotorSlice 0) (rotState 2000 7 0 149999 [] [] {})) SYS_ROT_DEFER 0 0 = 1 ∧ (after (.rotorSlice 0) (rotState 3000 983040 2 1000000 [] [] {})).units.testing = [0] ∧
    after (.rotorSlice 0) (rotState 3000 983039 2 1000000 [] [] {}) = rotState 3000 983039 2 1000000 [] [] {} ∧
    after (.rotorSlice 0) (rotState 2000 7 0 1000000 [(0, { job := some 0 })] [(0, some radioJob)] {}) = rotState 2000 7 0 1000000 [(0, { job := some 0 })] [(0, some radioJob)] {} := by decide
/-- A slice that began at tick 0 ends after 73,728 ticks; job 0 ran on the cluster since the slice before. -/
def slicing (k : Nat) (ret : Bool) : State :=
  let s := rotState 150000 k 0 1000000 [] [(0, some { queuedJob with phase := .running, nitems := 2 })] { start := some 0, ran := [(0, 0)], returning := ret, untested := true }
  { s with units := { s.units with testing := [0] } }
theorem test_witness_slice_end : (rotOf (slicing 73728 false) 0).start = some 0 ∧ 0 ∈ (slicing 73728 false).units.testing ∧ passed (slicing 73728 false) 0 150000 = true ∧
    passed (slicing 73727 false) 0 150000 = false ∧ (rotOf (slicing 73728 true) 0).returning = true ∧ (job? (slicing 73728 false) 0).isSome = true := by decide
/-- R618, R619. -/
theorem test_slice_end : (rotOf (after (.rotorSliceEnd 0 true) (slicing 73728 false)) 0).passAt = 73728 ∧ (rotOf (after (.rotorSliceEnd 0 true) (slicing 73728 false)) 0).untested = false ∧
    0 ∈ (after (.rotorSliceEnd 0 true) (slicing 73728 true)).units.spares ∧ (after (.rotorSliceEnd 0 false) (slicing 73728 false)).units.leaving = [(0, 2)] ∧
    ((job? (after (.rotorSliceEnd 0 false) (slicing 73728 false)) 0).map (fun y => tgetD 0 y.marks 1)) = some 2 ∧ after (.rotorSliceEnd 0 true) (slicing 73727 false) = slicing 73727 false := by decide
/-- 2.5 ms after its last pass the work of cluster 0 moves to spare 16; 4 ms after it the cluster is untested. -/
theorem test_witness_handover : readySpares (rotState 3000 1228800 2 1000000 [] [] {}) = [16, 17] ∧ sincePass (rotState 3000 1228800 2 1000000 [] [] {}) 0 = 2500000 ∧
    physOf (rotState 3000 1228800 2 1000000 [] [] {}) 0 = some 0 ∧ (rotState 3000 1228800 2 1000000 [] [] {}).units.leaving = [] ∧ (rotState 3000 1228800 2 1000000 [] [] {}).safe.rot = [] ∧
    sincePass (rotState 3000 1966080 2 1000000 [] [] {}) 0 = 4000000 ∧ takesSlices (rotState 3000 1966080 2 1000000 [] [] {}) 0 = true := by decide
theorem test_handover : physOf (after (.handover 0) (rotState 3000 1228800 2 1000000 [] [] {})) 0 = some 16 ∧ (rotOf (after (.handover 0) (rotState 3000 1228800 2 1000000 [] [] {})) 0).handed = some (0, 16) ∧
    physOf (after (.handover 0) (rotState 3000 1228799 2 1000000 [] [] {})) 0 = some 0 ∧ (rotOf (after (.rotorLate 0) (rotState 3000 1966080 2 1000000 [] [] {})) 0).untested = true ∧
    after (.rotorLate 0) (rotState 3000 1966079 2 1000000 [] [] {}) = rotState 3000 1966079 2 1000000 [] [] {} := by decide
/-- SAFETY partition 3 with 2^24 − 1 or no entries counted, in the safe state or not. -/
def safState (w : Word) : State := setRg (secState []) SYS_SAF_STAT 0 3 w
theorem test_witness_enter : pageOpen (safState 0) 0 0 0 ∧ part? (safState 0) 3 ≠ none ∧ pclass (safState 0) 3 = .safety ∧ pclass (safState 0) 4 ≠ .safety ∧ bit (rg (safState 0) SYS_SAF_STAT 0 3) 31 = false ∧
    bit (rg (safState 0x80FFFFFF) SYS_SAF_STAT 0 3) 31 = true ∧ (safState 0).safe.resets = [] :=
  ⟨pageOpen_of (by decide) (by decide) (by decide), by decide, by decide, by decide, by decide, by decide, by decide⟩
/-- R630, R632: trigger 6; the count saturates. -/
theorem test_enter : rg (after (.enter 0 3 none) (safState 0)) SYS_SAF_STAT 0 3 = 0x86000001 ∧ (after (.enter 0 3 none) (safState 0)).disp.resetting = [3] ∧
    rg (after (.enter 0 3 none) (safState 0x80FFFFFF)) SYS_SAF_STAT 0 3 = 0x80FFFFFF ∧ evtBit (after (.enter 0 3 (some (6, 0))) (safState 0)) 0 0 20 = true ∧ after (.enter 0 4 none) (safState 0) = safState 0 := by decide

/-! ### Replay -/

/-- Partition 1, which serves the cell, replays a trace; its record 7 was the last; its job 0 waits on object 3 since tick 0, and REPLAY_STALL is 1 ms. -/
def repl (begun ended : Bool) : Replay := { part := 1, base := 0x10000, size := 0x1000, last := 7, begun := begun, ended := ended }
def replState (r : Replay) (k : Nat) : State :=
  let s := withRegs (fhState 0) [(SYS_REPLAY_STALL, 0, 0, 1)]
  { s with trace := { s.trace with replay := some r }, tmu := { s.tmu with ticks := k }, cl := [(0, demoCluster demoCore)], disp := { s.disp with jobs := [(1, some { demoJob with part := 1 })] }
           sync := { s.sync with waits := [acqEnt 1 0 1 false] } }
theorem test_witness_replay : (replState (repl true false) 0).trace.replay = some (repl true false) ∧ (fhState 0).trace.replay = none ∧
    (traceRec (replState (repl false false) 0) 0x10000 65536 0).1 ≠ 1 ∧ physOf (replState (repl true false) 0) 0 = some 0 ∧ objOwner (replState (repl true false) 0) 3 ≠ some 1 ∧
    (cellOf (replState (repl true false) 0) 0).cfg = some cfg0 ∧ (job? (replState (repl true false) 0) 1).isSome = true ∧ replayStalled (replState (repl true false) 491520) 1 = true ∧
    replayStalled (replState (repl true false) 491519) 1 = false := by decide
theorem test_replay : (after (.replayRecord (.recorded 3 3 2 7 1 2 true fhSect.payload)) (replState (repl true false) 0)).fh.sects.map (fun q => (q.ant, q.prb0)) = [(2, 7)] ∧
    ((after (.replayRecord (.time 2 5)) (replState (repl true false) 0)).trace.replay.map (fun y => (y.last, y.clock))) = some (8, (2, 5)) ∧
    ((after (.replayRecord (.stop 0)) (replState (repl true false) 0)).trace.replay.map (fun y => y.ended)) = some true ∧
    ((after (.replayRecord (.hostRead 0x10 [9])) (replState (repl true false) 0)).trace.replay.map (fun y => y.reads)) = some [(0x10, 9)] ∧
    after (.replayRecord (.time 2 5)) (replState (repl false false) 0) = replState (repl false false) 0 := by decide
theorem test_diverge : rg (after (.replayDiverge 1) (replState (repl true false) 491520)) SYS_REPLAY_STAT 0 0 = 7 ∧
    after (.replayDiverge 1) (replState (repl true false) 491519) = replState (repl true false) 491519 := by decide

/-! ### Ilush links -/

/-- Port 0 is up to chip 1 at version `v`, lanes 0 and 1; remote partition 5 is partition 0 here; chips 0 and 1 are to form domain 7; two flits of channel 0 wait for their credit. -/
def ilkState (v : Nat) (n : Nat) : State :=
  let s := withRegs (demoS demoCore) [(ILK_ILK_STAT, 0, 0, w32 (0xE0000100 + v * 2 ^ 16)), (ILK_ILK_CFG, 0, 0, 0x00800000), (ILK_PART_MAP, 0, 5, 0x80000000), (ILK_CR_AVAIL, 0, 0, 10), (ILK_CR_OUT, 0, 0, 2),
    (ILK_DOM_CFG, 0, 0, 0x80070300)]
  { s with ilk := { s.ilk with unacked := [(0, [(0, 1), (0, 2)])], replays := [(1, n)], range := [(0, (0x10, 0x20))] } }
/-- The port is down. -/
def ilkDown : State := setRg (ilkState 0x20 0) ILK_ILK_STAT 0 0 0
theorem test_witness_links_up : linkPeer (ilkState 0x20 0) 0 = some 1 ∧ linkPeer ilkDown 0 = none ∧ (ilkState 0x20 0).ilk.bad = [] ∧ linkVer (ilkState 0x10 0) 0 = 0x10 ∧ linkVer (ilkState 0x11 0) 0 = 0x11 ∧
    tgetD 0 (ilkState 0x20 7).ilk.replays 1 + 1 = 8 ∧ laneSt (ilkState 0x20 0) 4 1 = none ∧ mapPart (ilkState 0x20 0) 0 5 = some 0 ∧ mapPart (ilkState 0x20 0) 0 4 = none ∧
    physOf (ilkState 0x20 0) 0 = some 0 ∧ nsLoc (ilkState 0x20 0) 0 0x7FFFFE = some (0, 0x7FFFFE) ∧ spAdmit (ilkState 0x20 0) 0 0 0x7FFFFE 2 = true ∧ (ilkState 0x20 0).trace.run = none ∧
    unacked (ilkState 0x20 0) 1 0 = [] ∧ agreed (0x10, 0x20) (0x10, 0x11) = some 0x11 ∧ agreed (0x10, 0x10) (0x11, 0x20) = none ∧ deadLanes ilkDown 0 = [] ∧
    bit (rg ilkDown ILK_ILK_CFG 0 0) 23 = true := by decide
theorem test_witness_domain : domPeers (ilkState 0x20 0) = [1] ∧ bit (rg (ilkState 0x20 0) ILK_DOM_CFG 0 0) 31 = true ∧ fld (rg (ilkState 0x20 0) ILK_DOM_CFG 0 0) 23 8 = 0x0703 ∧
    fld (0x80070301 : Word) 23 8 = 0x0703 ∧ fld (0x80070301 : Word) 2 0 = 1 ∧ (ilkState 0x20 0).ilk.mismatch = [] ∧ (ilkState 0x20 0).ilk.joined = [] := by decide
/-- R570, R573, R577: the eighth replay in a row; a write of two bytes at the end of the scratchpad; no mapping; two credits of three. -/
theorem test_flits : (after (.flitReceive 0 0 false 1 .management) (ilkState 0x20 6)).ilk.replays = [(1, 7)] ∧ 1 ∈ (after (.flitReceive 0 0 false 1 .management) (ilkState 0x20 7)).ilk.bad ∧
    linkPeer (after (.flitReceive 0 0 false 1 .management) (ilkState 0x11 7)) 0 = none ∧ (clu (after (.flitReceive 0 0 true 0 (.write 5 0 0x7FFFFE [1, 2])) (ilkState 0x20 0)) 0).sp.get 0x7FFFFF = 2 ∧
    evtBit (after (.flitReceive 0 0 true 0 (.write 4 0 0 [1])) (ilkState 0x20 0)) 11 0 2 = true ∧ rg (after (.flitReceive 0 0 true 0 (.credits 0 3)) (ilkState 0x20 0)) ILK_CR_AVAIL 0 0 = 12 := by decide
theorem test_domain : (after (.heartbeat 0 1 0x80070301 5) (ilkState 0x20 0)).ilk.joined = [1] ∧ domFormed (after (.heartbeat 0 1 0x80070301 5) (ilkState 0x20 0)) = true ∧
    (after (.heartbeat 0 1 0x80080301 5) (ilkState 0x20 0)).ilk.mismatch = [1] ∧ linkPeer (after (.linkLost 0) (ilkState 0x20 0)) 0 = none ∧ rg (after (.linkLost 0) (ilkState 0x20 0)) ILK_CR_AVAIL 0 0 = 384 ∧
    linkVer (after (.portTraining 0 0x10 0x11) ilkDown) 0 = 0x11 ∧ rg (after (.portTraining 0 0x10 0x10) ilkDown) ILK_CR_AVAIL 0 0 = 448 ∧ linkPeer (after (.portTraining 0 0x21 0x30) ilkDown) 0 = none := by decide

/-! ### The whole -/

theorem test_witness_step : ({ State.reset with pending := [.refresh 3, .linkUp 0] } : State).pending = [.refresh 3, .linkUp 0] ∧ State.reset.pending = [] := by decide
/-- Of two commands the first is carried out and the second waits. -/
theorem test_step : (match step { memState with pending := [.refresh 3, .linkUp 0] } with | .next t => t.freeCtr == 1 && decide (t.pending = [.linkUp 0]) | _ => false) = true := by decide
theorem test_reset : rg State.reset TMU_TS_CORR_ING 0 0 = 0x008E0000 ∧ part? State.reset 0 ≠ none ∧ part? State.reset 1 = none ∧ State.reset.out = [] := by decide
theorem reset_inv : Inv State.reset := by unfold Inv; decide
/-- A step from a state that keeps the invariant. -/
theorem test_witness_invariant : Inv { State.reset with pending := [.refresh 3] } ∧ ∃ t, step { State.reset with pending := [.refresh 3] } = .next t :=
  ⟨by unfold Inv; decide, _, rfl⟩

end Sys2Proof.Tests
end

section
/-! What a write to EVT of a page does (00 R17, 25 R706, R708, R709), and O37, which follows from it. -/

namespace Sys2Proof.Machine

open Sys2Proof

variable (s : State)

/-! ### Registers of one page header -/

/-- Writing a register leaves every other register of the same instance and selector. -/
theorem rg_setRg_of_reg_ne {r r' : Nat} (i sel : Nat) (w : Word) (h : r' ≠ r) : rg (setRg s r i sel w) r' i sel = rg s r' i sel :=
  rg_setRg_ne s w (by unfold rkey; omega)

/-- IRQ_SEL as it acts depends on OWNER and PAGE_CTL of the page alone. -/
theorem irqSel_congr {s t : State} {c i : Nat} (hown : ownerOf t c i = ownerOf s c i)
    (hctl : rg t (c * 4096 + HDR_PAGE_CTL) i 0 = rg s (c * 4096 + HDR_PAGE_CTL) i 0) : irqSel t c i = irqSel s c i := by
  unfold irqSel; rw [hown, hctl]

/-- The page header's gate lets a permitted write through, and changes nothing. -/
theorem pageGate_of_pageOpen {s : State} {p c i : Nat} (h : pageOpen s p c i) (unit : Word) (o : Nat) :
    pageGate s unit p c i o = (true, s) := by
  obtain ⟨hresp, hexists, hwrite⟩ := h
  simp [pageGate, hresp, hexists, hwrite]

/-! ### What follows a write to the page header (R708, R709) -/

/-- A page whose IRQ_SEL asks for MSI-X sends one message. -/
theorem sendIrq_of_msix {s : State} {c i : Nat} (h : irqSel s c i = 1 ∨ irqSel s c i = 2) :
    sendIrq s c i = emit s (.msix (fnOf s (ownerOf s c i)) (pageVector c)) := if_pos h

theorem sendIrq_eq (c i : Nat) : ∃ l, sendIrq s c i = { s with out := l ++ s.out } := by
  by_cases h : irqSel s c i = 1 ∨ irqSel s c i = 2
  · exact ⟨[_], sendIrq_of_msix h⟩
  · exact ⟨[], if_neg h⟩

theorem alertRecheck_eq : ∃ l a, alertRecheck s = { s with out := l ++ s.out, pg := { s.pg with alert := a } } := by
  unfold alertRecheck
  simp only
  split
  · exact ⟨[], s.pg.alert, rfl⟩
  · exact ⟨[_], _, rfl⟩

/-- What follows a write sends messages and sets SB_ALERT_N; nothing else. -/
theorem afterWrite_eq (c i : Nat) :
    ∃ l a, afterWrite s c i = { s with out := l ++ s.out, pg := { s.pg with alert := a } } := by
  unfold afterWrite
  split
  · obtain ⟨l, hsend⟩ := sendIrq_eq s c i
    obtain ⟨l', a, halert⟩ := alertRecheck_eq (sendIrq s c i)
    refine ⟨l' ++ l, a, ?_⟩
    rw [halert, hsend, List.append_assoc]
  · exact alertRecheck_eq s

@[simp] theorem rg_afterWrite (c i r j sel : Nat) : rg (afterWrite s c i) r j sel = rg s r j sel := by
  obtain ⟨l, a, h⟩ := afterWrite_eq s c i
  rw [h]; rfl

@[simp] theorem pagePending_afterWrite (c i d j : Nat) : pagePending (afterWrite s c i) d j = pagePending s d j := by
  obtain ⟨l, a, h⟩ := afterWrite_eq s c i
  rw [h]; rfl

/-- A write that leaves the page pending sends MSI-X to the function of the page's owner (R708). -/
theorem afterWrite_sends_msix {s : State} {c i : Nat} (hpend : pagePending s c i = true)
    (hsel : irqSel s c i = 1 ∨ irqSel s c i = 2) :
    ∃ l, (afterWrite s c i).out = l ++ .msix (fnOf s (ownerOf s c i)) (pageVector c) :: s.out := by
  obtain ⟨l, a, halert⟩ := alertRecheck_eq (sendIrq s c i)
  refine ⟨l, ?_⟩
  simp only [afterWrite, hpend, if_true]
  rw [halert, sendIrq_of_msix hsel]
  rfl

/-! ### The registers after a write to EVT (R17, R706) -/

/-- FAULT_LOC is cleared, or takes a new mismatch: a register write, with a free value drawn (R94, R99). -/
theorem clearFaultLoc_eq (i : Nat) (again : Bool) :
    ∃ n w, clearFaultLoc s i again = setRg { s with freeCtr := n } MXE_FAULT_LOC i 0 w := by
  cases again
  · exact ⟨s.freeCtr, _, rfl⟩
  · exact ⟨s.freeCtr + 1, _, rfl⟩

/-- A write of `v` to EVT acts on FAULT_LOC where it clears ARRAY_FAULT of a matrix engine's page. -/
def faultAcked (s : State) (c i : Nat) (v set : Word) : State :=
  if c = 16 ∧ bit v 0 = true then clearFaultLoc s i (bit set 0) else s

theorem faultAcked_eq (c i : Nat) (v set : Word) :
    ∃ n r, faultAcked s c i v set = { s with freeCtr := n, pg := { s.pg with regs := r } } := by
  unfold faultAcked
  split
  · obtain ⟨n, w, h⟩ := clearFaultLoc_eq s i (bit set 0)
    exact ⟨n, _, h⟩
  · exact ⟨s.freeCtr, s.pg.regs, rfl⟩

/-- The page's header stays: FAULT_LOC lies beyond it. -/
theorem rg_faultAcked_header (c i : Nat) (v set : Word) {o : Nat} (ho : o < 0x40) :
    rg (faultAcked s c i v set) (c * 4096 + o) i 0 = rg s (c * 4096 + o) i 0 := by
  unfold faultAcked
  split
  · rename_i hc
    obtain ⟨n, w, h⟩ := clearFaultLoc_eq s i (bit set 0)
    rw [h, rg_setRg_of_reg_ne _ _ _ _ (by rw [hc.1]; unfold MXE_FAULT_LOC; omega)]
    rfl
  · rfl

/-- The state with the registers that a write of `v` to EVT leaves, where the hardware raises `set` in the same cycle. -/
def evtWritten (s : State) (c i : Nat) (v set : Word) : State :=
  let t := faultAcked (countEvt s c i ((List.range 32).filter (fun b => bit set b)).length) c i v set
  setRg t (c * 4096 + HDR_EVT) i 0 ((rg t (c * 4096 + HDR_EVT) i 0 &&& ~~~v) ||| set)

theorem writeEvt_eq (c i : Nat) (v set : Word) : writeEvt s c i v set = afterWrite (evtWritten s c i v set) c i := rfl

/-- Registers alone change, and the counter of free values. -/
theorem evtWritten_eq (c i : Nat) (v set : Word) :
    ∃ n r, evtWritten s c i v set = { s with freeCtr := n, pg := { s.pg with regs := r } } := by
  obtain ⟨n, r, h⟩ := faultAcked_eq (countEvt s c i ((List.range 32).filter (fun b => bit set b)).length) c i v set
  unfold evtWritten
  rw [h]
  exact ⟨n, _, rfl⟩

/-- Counting events leaves every other register of the instance. -/
theorem rg_countEvt_ne (c i n : Nat) {r : Nat} (h : r ≠ c * 4096 + HDR_EVT_COUNT) :
    rg (countEvt s c i n) r i 0 = rg s r i 0 := by
  unfold countEvt wrapRg
  exact rg_setRg_of_reg_ne _ _ _ _ h

/-- A set in the same cycle wins over the clear (R17). -/
theorem rg_evtWritten_evt (c i : Nat) (v set : Word) : rg (evtWritten s c i v set) (c * 4096 + HDR_EVT) i 0 =
    (rg s (c * 4096 + HDR_EVT) i 0 &&& ~~~v) ||| set := by
  unfold evtWritten
  rw [rg_setRg_self, rg_faultAcked_header _ _ _ _ _ (by decide), rg_countEvt_ne _ _ _ _ (by simp)]

/-- Each bit raised counts once (R706). -/
theorem rg_evtWritten_count (c i : Nat) (v set : Word) : rg (evtWritten s c i v set) (c * 4096 + HDR_EVT_COUNT) i 0 =
    rg s (c * 4096 + HDR_EVT_COUNT) i 0 + w32 ((List.range 32).filter (fun b => bit set b)).length := by
  unfold evtWritten
  rw [rg_setRg_of_reg_ne _ _ _ _ (by simp), rg_faultAcked_header _ _ _ _ _ (by decide)]
  exact rg_setRg_self _ _ _ _ _

/-- The rest of the page's header stays. -/
theorem rg_evtWritten_header (c i : Nat) (v set : Word) {o : Nat} (ho : o < 0x40) (hevt : o ≠ HDR_EVT)
    (hcount : o ≠ HDR_EVT_COUNT) : rg (evtWritten s c i v set) (c * 4096 + o) i 0 = rg s (c * 4096 + o) i 0 := by
  unfold evtWritten
  rw [rg_setRg_of_reg_ne _ _ _ _ (by omega), rg_faultAcked_header _ _ _ _ _ ho,
    rg_countEvt_ne _ _ _ _ (by omega)]

/-- OWNER of the page stays. -/
theorem ownerOf_evtWritten (c i : Nat) (v set : Word) : ownerOf (evtWritten s c i v set) c i = ownerOf s c i := by
  unfold ownerOf
  rw [rg_evtWritten_header _ _ _ _ _ (by decide) (by decide) (by decide)]

/-- IRQ_SEL stays. -/
theorem irqSel_evtWritten (c i : Nat) (v set : Word) : irqSel (evtWritten s c i v set) c i = irqSel s c i :=
  irqSel_congr (ownerOf_evtWritten s c i v set) (rg_evtWritten_header _ _ _ _ _ (by decide) (by decide) (by decide))

/-- The functions of the partitions stay. -/
theorem fnOf_evtWritten (c i p : Nat) (v set : Word) : fnOf (evtWritten s c i v set) p = fnOf s p := by
  obtain ⟨n, r, h⟩ := evtWritten_eq s c i v set
  rw [h]; rfl

/-! ### The write to EVT as a command -/

/-- Registers, what is sent, SB_ALERT_N and the counter of free values alone change. -/
theorem writeEvt_frame (c i : Nat) (v set : Word) : ∃ n l pg, writeEvt s c i v set =
    { s with freeCtr := n, out := l ++ s.out, pg := pg } := by
  obtain ⟨n, r, hw⟩ := evtWritten_eq s c i v set
  obtain ⟨l, a, ha⟩ := afterWrite_eq (evtWritten s c i v set) c i
  rw [writeEvt_eq, ha, hw]
  exact ⟨n, l, _, rfl⟩

/-- A write to EVT that leaves the page pending sends MSI-X to its owner's function. -/
theorem writeEvt_sends_msix {s : State} {c i : Nat} {v set : Word} (hpend : pagePending (writeEvt s c i v set) c i = true)
    (hsel : irqSel s c i = 1 ∨ irqSel s c i = 2) :
    ∃ l, (writeEvt s c i v set).out = l ++ .msix (fnOf s (ownerOf s c i)) (pageVector c) :: s.out := by
  rw [writeEvt_eq, pagePending_afterWrite] at hpend
  rw [← irqSel_evtWritten s c i v set] at hsel
  obtain ⟨l, h⟩ := afterWrite_sends_msix hpend hsel
  have hout : (evtWritten s c i v set).out = s.out := by
    obtain ⟨n, r, hw⟩ := evtWritten_eq s c i v set
    rw [hw]
  rw [ownerOf_evtWritten, fnOf_evtWritten, hout] at h
  exact ⟨l, h⟩

/-- EVT of a page that lets the write through: the bits raised that are not reserved meet the clear. -/
theorem exec_evt_of_pageOpen {s : State} {p c i : Nat} (h : pageOpen s p c i) (v same : Word) :
    exec (.evt p ⟨c, i⟩ v same) s = .next (writeEvt s c i v (same &&& w32 (evtMask c i))) := by
  have hexec : exec (.evt p ⟨c, i⟩ v same) s = execEvt p ⟨c, i⟩ v same s := rfl
  rw [hexec]
  simp [execEvt, pageGate_of_pageOpen h]

end Sys2Proof.Machine
end

section

namespace Sys2Proof.Proofs

open Sys2Proof Sys2Proof.Machine

/-- Settles O37: the write clears first and sets after, in one register write, and what is sent follows it. -/
theorem eventsOutliveTheirClear : Obligations.EventsOutliveTheirClear := by
  unfold Obligations.EventsOutliveTheirClear
  intro s p c i v same hopen r raised
  have hevt : rg (writeEvt s c i v raised) (r HDR_EVT) i 0 = (rg s (r HDR_EVT) i 0 &&& ~~~v) ||| raised := by
    rw [writeEvt_eq, rg_afterWrite]; exact rg_evtWritten_evt s c i v raised
  refine ⟨writeEvt s c i v raised, exec_evt_of_pageOpen hopen v same, ?_, hevt, ?_, ?_, writeEvt_sends_msix⟩
  · obtain ⟨n, l, pg, h⟩ := writeEvt_frame s c i v raised
    rw [h]
  · intro b hb
    have hstands : bit ((rg s (r HDR_EVT) i 0 &&& ~~~v) ||| raised) b = true := by
      unfold bit at hb ⊢
      rw [BitVec.getLsbD_or, hb, Bool.or_true]
    unfold evtBit
    exact hevt ▸ hstands
  · rw [writeEvt_eq, rg_afterWrite]; exact rg_evtWritten_count s c i v raised

end Sys2Proof.Proofs
end

section
/-! What an engine of a cluster reads and writes in its scratchpad (01 R25, R30), and what the completion of a vector
instruction changes (04 R109, R734). -/

namespace Sys2Proof.Machine

open Sys2Proof

/-! ### One cluster alone changes -/

theorem onlyClu_refl (s : State) (c : Nat) : OnlyClu s s c (clu s c) :=
  ⟨rfl, fun d => by split <;> simp_all⟩

theorem onlyClu_setClu_self (s : State) (c : Nat) (y : Cluster) : OnlyClu s (setClu s c y) c y :=
  onlyClu_setClu (onlyClu_refl s c) y

theorem OnlyClu.trans {s t u : State} {c : Nat} {x y : Cluster} (h : OnlyClu s t c x) (h' : OnlyClu t u c y) :
    OnlyClu s u c y := by
  obtain ⟨hframe, hclu⟩ := h
  obtain ⟨hframe', hclu'⟩ := h'
  refine ⟨?_, fun d => ?_⟩
  · rw [hframe] at hframe'; exact hframe'
  · rw [hclu' d]
    split
    · rfl
    · rename_i hd; rw [hclu d, if_neg hd]

theorem OnlyClu.clu_self {s t : State} {c : Nat} {x : Cluster} (h : OnlyClu s t c x) : clu t c = x := by
  rw [h.2 c, if_pos rfl]

/-- Changing that cluster once more changes it alone. -/
theorem OnlyClu.update {s t : State} {c : Nat} {x : Cluster} (h : OnlyClu s t c x) (f : Cluster → Cluster) :
    OnlyClu s (setClu t c (f (clu t c))) c (f x) := by
  rw [h.clu_self]; exact onlyClu_setClu h (f x)

theorem cherry_of_onlyClu {s t : State} {c : Nat} {x : Cluster} (h : OnlyClu s t c x) (d : Nat) : cherry t d = cherry s d := by
  rw [h.1]; rfl
theorem leadOf_of_onlyClu {s t : State} {c : Nat} {x : Cluster} (h : OnlyClu s t c x) (d : Nat) : leadOf t d = leadOf s d := by
  rw [h.1]; rfl
theorem job_of_onlyClu {s t : State} {c : Nat} {x : Cluster} (h : OnlyClu s t c x) (j : Nat) : job? t j = job? s j := by
  rw [h.1]; rfl
/-- The firewall judges by registers, jobs and the map of units. -/
theorem deniedLines_of_onlyClu {s t : State} {c : Nat} {x : Cluster} (h : OnlyClu s t c x) (p d a n : Nat) :
    deniedLines t p d a n = deniedLines s p d a n := by
  rw [h.1]; rfl

@[simp] theorem deniedLines_setClu (s : State) (c : Nat) (x : Cluster) (p d a n : Nat) :
    deniedLines (setClu s c x) p d a n = deniedLines s p d a n := rfl

theorem leadOf_of_not_cherry {s : State} {c : Nat} (h : cherry s c = false) : leadOf s c = c := by simp [leadOf, h]
theorem halves_of_not_cherry {s : State} {c : Nat} (h : cherry s c = false) : halves s c = [c] := by simp [halves, h]
theorem nsSize_of_not_cherry {s : State} {c : Nat} (h : cherry s c = false) : nsSize s c = Config.spadBytes := by
  simp [nsSize, h]

/-! ### Checks, and lists given place by place -/

/-- No reason applies to a consistent instruction. -/
theorem firstCode_eq_none {l : List (Nat × Bool)} : firstCode l = none ↔ ∀ e ∈ l, e.2 = false := by
  induction l with
  | nil => simp [firstCode]
  | cons e l ih =>
    obtain ⟨n, b⟩ := e
    cases b <;> simp [firstCode, ih]

theorem getD_map_range {α : Type} (f : Nat → α) (d : α) {n i : Nat} (hi : i < n) : ((List.range n).map f).getD i d = f i := by
  simp [hi]

/-! ### Bytes of a number -/

@[simp] theorem length_natLe (n v : Nat) : (natLe n v).length = n := by
  induction n generalizing v with
  | zero => rfl
  | succ n ih => simp [natLe, ih]

theorem getD_natLe (n v i : Nat) (h : i < n) : (natLe n v).getD i 0 = BitVec.ofNat 8 (v / 256 ^ i) := by
  induction n generalizing v i with
  | zero => omega
  | succ n ih =>
    cases i with
    | zero => simp [natLe]
    | succ i => rw [natLe, List.getD_cons_succ, ih _ _ (by omega), Nat.div_div_eq_div_mul, Nat.pow_succ']

/-! ### The 96-bit range (02 R48, R56) -/

/-- Inside the 96-bit range nothing is clamped. -/
theorem clamp96_of_inside {x : Int} (hmin : smin 96 ≤ x) (hmax : x ≤ smax 96) : clamp96 x = (x, false) := by
  simp only [clamp96, clampS, outS, gt_iff_lt, not_lt.2 hmax, not_lt.2 hmin, if_false, decide_false, Bool.or_false]

/-! ### A cluster's memory -/

theorem Ram.get_set (r : Ram) (a b : Nat) (v : Byte) : (r.set a v).get b = if b = a then v else r.get b := by
  unfold Ram.get Ram.set
  exact tget_tset _ _ _ _ _

theorem Ram.get_write (bs : List Byte) : ∀ (r : Ram) (a b : Nat),
    (r.write a bs).get b = if a ≤ b ∧ b < a + bs.length then bs.getD (b - a) 0 else r.get b := by
  induction bs with
  | nil => intro r a b; rw [Ram.write, if_neg (by simp)]
  | cons v bs ih =>
    intro r a b
    rw [Ram.write, ih, Ram.get_set, List.length_cons]
    by_cases hhead : b = a
    · simp [hhead]
    · by_cases htail : a + 1 ≤ b ∧ b < a + 1 + bs.length
      · obtain ⟨n, rfl⟩ : ∃ n, b = a + 1 + n := ⟨b - (a + 1), by omega⟩
        rw [if_pos htail, if_pos (by omega), show a + 1 + n - a = n + 1 by omega]
        simp
      · rw [if_neg htail, if_neg hhead, if_neg (by omega)]

/-! ### Accesses that the firewall lets through (R30) -/

theorem linesOf_subset {a n a' n' : Nat} (hlo : a ≤ a') (hhi : a' + n' ≤ a + n) : linesOf a' n' ⊆ linesOf a n := by
  intro l hl
  unfold linesOf at hl ⊢
  split at hl
  · simp at hl
  · rw [if_neg (by omega)]
    simp only [List.mem_map, List.mem_range] at hl ⊢
    obtain ⟨i, hi, rfl⟩ := hl
    exact ⟨a' / 64 + i - a / 64, by omega, by omega⟩

/-- Where a range may be reached, every part of it may. -/
theorem deniedLines_sub {s : State} {p c a n a' n' : Nat} (h : deniedLines s p c a n = []) (hlo : a ≤ a')
    (hhi : a' + n' ≤ a + n) : deniedLines s p c a' n' = [] := by
  unfold deniedLines at h ⊢
  rw [List.filter_eq_nil_iff] at h ⊢
  exact fun l hl => h l (List.map_subset _ (linesOf_subset hlo hhi) hl)

theorem unitDeny_nil (s : State) (j p c : Nat) (write : Bool) (items : List Nat) : unitDeny s j p c [] write items = s := rfl

theorem unitRead_of_admitted {s : State} {p c a n : Nat} (h : deniedLines s p c a n = []) :
    unitRead s p c a n = (List.range n).map (fun i => nsByte s c (a + i)) := by
  simp [unitRead, h]

theorem nsLoc_of_not_cherry {s : State} {c a : Nat} (hcherry : cherry s c = false) :
    nsLoc s c a = if a < Config.spadBytes then some (c, a) else none := by
  simp [nsLoc, hcherry, leadOf_of_not_cherry hcherry]

theorem nsByte_of_not_cherry {s : State} {c a : Nat} (hcherry : cherry s c = false) (ha : a < Config.spadBytes) :
    nsByte s c a = (clu s c).sp.get a := by
  simp [nsByte, nsLoc_of_not_cherry hcherry, ha]

theorem unitWrite_of_admitted {s : State} {p c a : Nat} {bs : List Byte} (hadm : deniedLines s p c a bs.length = [])
    (hcherry : cherry s c = false) (hne : 0 < bs.length) (hin : a + bs.length ≤ Config.spadBytes) :
    unitWrite s p c a bs = spWrite s c a bs := by
  have hend : a + (Config.spadBytes - a) = Config.spadBytes := by omega
  have hcherry' : cherry (spWrite s c a bs) c = false := hcherry
  simp only [unitWrite, hadm, if_true, nsWrite, nsLoc_of_not_cherry hcherry, if_pos (show a < Config.spadBytes by omega),
    List.take_of_length_le (show bs.length ≤ Config.spadBytes - a by omega), hend, nsLoc_of_not_cherry hcherry',
    lt_irrefl, if_false]

/-! ### Stores of single elements -/

/-- The byte that a store of the first `m` elements leaves at `b` (R102, R107). -/
def storedAt (r : Ram) (a size : Nat) (on : Nat → Bool) (els : List Nat) (m b : Nat) : Byte :=
  let k := (b - a) / size
  if a ≤ b ∧ k < m ∧ on k = true then BitVec.ofNat 8 (els.getD k 0 / 256 ^ ((b - a) % size)) else r.get b

theorem storedAt_map_range (r : Ram) (a size : Nat) (on : Nat → Bool) (f : Nat → Nat) (m b : Nat) :
    storedAt r a size on ((List.range m).map f) m b =
      if a ≤ b ∧ (b - a) / size < m ∧ on ((b - a) / size) = true then
        BitVec.ofNat 8 (f ((b - a) / size) / 256 ^ ((b - a) % size))
      else r.get b := by
  unfold storedAt
  refine ite_congr rfl (fun h => ?_) (fun _ => rfl)
  simp [h.2.1]

/-- One element more. -/
theorem storedAt_succ (r : Ram) {a size : Nat} (hsize : 0 < size) (on : Nat → Bool) (els : List Nat) (m b : Nat) :
    storedAt r a size on els (m + 1) b =
      if on m = true ∧ a + m * size ≤ b ∧ b < a + m * size + size then (natLe size (els.getD m 0)).getD (b - (a + m * size)) 0
      else storedAt r a size on els m b := by
  by_cases hab : a ≤ b
  · obtain ⟨d, rfl⟩ : ∃ d, b = a + d := ⟨b - a, by omega⟩
    have hdm := Nat.div_add_mod d size
    have hmod := Nat.mod_lt d hsize
    unfold storedAt
    simp only [Nat.add_sub_cancel_left]
    by_cases hk : d / size = m
    · rw [hk, Nat.mul_comm] at hdm
      by_cases hon : on m = true
      · rw [if_pos ⟨by omega, by omega, by rwa [hk]⟩, if_pos ⟨hon, by omega, by omega⟩, hk,
          show a + d - (a + m * size) = d % size by omega, getD_natLe _ _ _ hmod]
      · rw [if_neg (by rw [hk]; tauto), if_neg (by tauto), if_neg (by rw [hk]; tauto)]
    · have hout : ¬ (a + m * size ≤ a + d ∧ a + d < a + m * size + size) := by
        rintro ⟨hlo, hhi⟩
        exact hk (Nat.div_eq_of_lt_le (by omega) (by rw [Nat.succ_mul]; omega))
      have hlt : d / size < m + 1 ↔ d / size < m := by omega
      rw [if_neg (c := on m = true ∧ _) (fun h => hout h.2)]
      simp only [hlt]
  · unfold storedAt
    simp only
    rw [if_neg (by tauto), if_neg (by omega), if_neg (by tauto)]

/-- The pieces of the first `m` elements. -/
def firstPieces (size : Nat) (on : Nat → Bool) (els : List Nat) (m : Nat) : List (Nat × List Byte) :=
  (List.range m).filterMap (fun k => if on k then some (k * size, natLe size (els.getD k 0)) else none)

theorem firstPieces_succ (size : Nat) (on : Nat → Bool) (els : List Nat) (m : Nat) : firstPieces size on els (m + 1) =
    firstPieces size on els m ++ if on m = true then [(m * size, natLe size (els.getD m 0))] else [] := by
  unfold firstPieces
  rw [List.range_succ, List.filterMap_append]
  cases hon : on m <;> simp [hon]

/-- A store into a range that may be reached changes the scratchpad alone, element by element. -/
theorem storeAt_firstPieces {s : State} {p c a size : Nat} {els : List Nat} (hsize : 0 < size) (on : Nat → Bool)
    (hcherry : cherry s c = false) : ∀ m, a + m * size ≤ Config.spadBytes → deniedLines s p c a (m * size) = [] →
    ∃ r, OnlyClu s (storeAt s p c a (firstPieces size on els m)) c { clu s c with sp := r } ∧
      ∀ b, r.get b = storedAt (clu s c).sp a size on els m b := by
  intro m
  induction m with
  | zero =>
    intro _ _
    exact ⟨(clu s c).sp, onlyClu_refl s c, fun b => by simp [storedAt]⟩
  | succ m ih =>
    intro hin hadm
    rw [Nat.succ_mul] at hin hadm
    obtain ⟨r, hS, hr⟩ := ih (by omega) (deniedLines_sub hadm le_rfl (by omega))
    rw [firstPieces_succ]
    cases hon : on m with
    | false =>
      refine ⟨r, by simpa [hon] using hS, fun b => ?_⟩
      rw [storedAt_succ _ hsize, hr b, hon, if_neg (by simp)]
    | true =>
      set S := storeAt s p c a (firstPieces size on els m) with hSdef
      have hstep : storeAt s p c a (firstPieces size on els m ++ [(m * size, natLe size (els.getD m 0))]) =
          spWrite S c (a + m * size) (natLe size (els.getD m 0)) := by
        rw [← unitWrite_of_admitted (p := p) _ (by rw [cherry_of_onlyClu hS]; exact hcherry) (by simpa) (by simpa [Nat.add_assoc])]
        · simp [storeAt, hSdef]
        · rw [deniedLines_of_onlyClu hS, length_natLe]
          exact deniedLines_sub hadm (by omega) (by omega)
      rw [if_pos rfl, hstep]
      refine ⟨r.write (a + m * size) (natLe size (els.getD m 0)), ?_, fun b => ?_⟩
      · exact hS.update (fun x => { x with sp := x.sp.write (a + m * size) (natLe size (els.getD m 0)) })
      · rw [Ram.get_write, storedAt_succ _ hsize, hr b, hon, length_natLe]
        simp only [true_and]

/-- A store of whole elements. -/
theorem storeAt_storePieces {s : State} {p c a size : Nat} {els : List Nat} (hsize : 0 < size) (on : Nat → Bool)
    (hcherry : cherry s c = false) (hin : a + els.length * size ≤ Config.spadBytes)
    (hadm : deniedLines s p c a (els.length * size) = []) :
    ∃ r, OnlyClu s (storeAt s p c a (storePieces size on els)) c { clu s c with sp := r } ∧
      ∀ b, r.get b = storedAt (clu s c).sp a size on els els.length b :=
  storeAt_firstPieces hsize on hcherry els.length hin hadm

/-! ### A vector instruction completes -/

theorem tryYield_of_not_yielding {s : State} {j : Nat} (h : ∀ x, job? s j = some x → x.phase ≠ .yielding) : tryYield s j = s := by
  unfold tryYield
  cases hj : job? s j with
  | none => rfl
  | some x => simp only [if_pos (Or.inl (h x hj))]

theorem afterEngine_of_noYield {s : State} {c : Nat} (h : noYield s c) : afterEngine s c = s := by
  unfold afterEngine
  cases hj : (clu s (leadOf s c)).job with
  | none => rfl
  | some j => exact tryYield_of_not_yielding (h j · hj)

theorem noYield_of_onlyClu {s t : State} {c : Nat} {y : Cluster} (h : OnlyClu s t c y) (hjob : y.job = (clu s c).job)
    (hno : noYield s c) : noYield t c := by
  intro j x hj hx
  rw [job_of_onlyClu h] at hx
  refine hno j x ?_ hx
  rw [leadOf_of_onlyClu h, h.2] at hj
  split at hj
  · rename_i hlead; rw [hlead, ← hjob]; exact hj
  · exact hj

/-- Taking the head of the vector stream. -/
theorem OnlyClu.popVector {s t : State} {c : Nat} {x : Cluster} (h : OnlyClu s t c x) :
    OnlyClu s (popVector t c) c { x with vxq := x.vxq.tail, vxDone := x.vxDone + 1 } :=
  h.update (fun x => { x with vxq := x.vxq.tail, vxDone := x.vxDone + 1 })

/-- What the body of a vector instruction may change in its cluster: registers, tags and verdict states, and the scratchpad. -/
def VecBody (x y : Cluster) : Prop := y = { x with v := y.v, vm := y.vm, tags := y.tags, vst := y.vst, sp := y.sp }

theorem VecBody.trans {x y z : Cluster} (h : VecBody x y) (h' : VecBody y z) : VecBody x z := by
  unfold VecBody at h h'
  rw [h] at h'
  exact h'

section
variable {s : State} {c op : Nat} {i : Issued} {x : Job}

theorem opcode_of_vecReady (h : VecReady s c op i x) : opcodeOf i.words = op := h.2.2.1
theorem consistent_of_vecReady (h : VecReady s c op i x) : vecBad s x c i.words = none := h.2.2.2.1
theorem clear_of_vecReady (h : VecReady s c op i x) : ∀ k, tgetD none (clu s c).vst k = none := h.2.2.2.2.2.1

end

/-- A ready instruction whose body completes, having read nothing whose verdict is open, leaves the stream. -/
theorem vecStep_done {s S : State} {c op : Nat} {i : Issued} {x : Job} {y : Cluster}
    {body : Issued → Job → Cluster → State → VRes} (h : VecReady s c op i x) (hop : op ≠ 0xB2)
    (hbody : body i x (clu s c) s = .done S none) (hS : OnlyClu s S c y) (hy : VecBody (clu s c) y)
    (hclear : ∀ k, tgetD none y.vst k = none) : VecDone s (vecStep s c op body) c i y := by
  obtain ⟨⟨n, q, hvxq⟩, hjob, hopcode, hbad, hno, -, hhead⟩ := h
  have hqueue : ¬ (vReadsQ i.words = true ∧ (clu s c).ftq = []) := by
    rintro ⟨hreads, hempty⟩
    obtain ⟨e, r, hftq, -⟩ := hhead hreads
    rw [hftq] at hempty
    cases hempty
  have hT := (hS.update (fun z => { z with ftq := z.ftq.drop (if vPop i.words = true then 1 else 0) })).popVector
  set T := popVector (setClu S c { clu S c with ftq := (clu S c).ftq.drop (if vPop i.words = true then 1 else 0) }) c
  have hstep : vecStep s c op body = T := by
    have hafter : afterEngine T c = T := afterEngine_of_noYield (noYield_of_onlyClu hT (by rw [hy]) hno)
    unfold vecStep
    simp only [hvxq, hjob, hopcode, ne_eq, not_true_eq_false, false_and, if_false, hbad, if_neg hqueue, hbody, followVerdict, hop]
    exact hafter
  have hclu := hT.clu_self
  rw [hstep]
  refine ⟨hT.1, fun d hd => by rw [hT.2 d, if_neg hd], fun k => by rw [hclu]; exact hclear k, ?_⟩
  rw [hclu, hy]
  split <;> simp

end Sys2Proof.Machine
end

section
/-! Wide sums in register pairs (04 R103, R104, R124 to R126), and O17. -/

namespace Sys2Proof.Machine

open Sys2Proof

/-! ### Lanes -/

/-- A lane of a register as it is read. -/
theorem getD_vreg (x : Cluster) (n : Nat) {i : Nat} (hi : i < 128) : (x.vreg n).getD i 0 = (tgetD [] x.v n).getD i 0 :=
  getD_map_range _ _ hi

theorem getD_vtags (x : Cluster) (n : Nat) {p : Nat} (hp : p < 64) :
    (x.vtags n).getD p {} = (tgetD [] x.tags (n / 2)).getD p {} :=
  getD_map_range _ _ hp

/-- The mask bit of an even lane enables the pair. -/
theorem pairOn_eq_maskBit (x : Cluster) (ws : List Word) {p : Nat} (hp : p < 64) : pairOn x ws p = maskBit x (vMask ws) (2 * p) := by
  unfold pairOn vOn Cluster.vmask maskBit
  by_cases h : vMask ws = 0
  · simp only [h, if_true, allLanes, BitVec.getLsbD_allOnes, decide_true, Bool.true_or, decide_eq_true_eq]
    omega
  · simp [h]

/-! ### Four words as one sum -/

/-- The wide sum that four words hold. -/
def joinWords (a b c d : Word) : Nat := a.toNat + b.toNat * 2 ^ 32 + c.toNat * 2 ^ 64 + d.toNat * 2 ^ 96

theorem joinWords_lt (a b c d : Word) : joinWords a b c d < 2 ^ 128 := by
  have := a.isLt; have := b.isLt; have := c.isLt; have := d.isLt
  unfold joinWords
  omega

/-- A sum of 128 bits, cut into words, is joined again. -/
theorem joinWords_split {n : Nat} (h : n < 2 ^ 128) :
    joinWords (w32 (n / 2 ^ (32 * 0))) (w32 (n / 2 ^ (32 * 1))) (w32 (n / 2 ^ (32 * 2))) (w32 (n / 2 ^ (32 * 3))) = n := by
  simp only [joinWords, w32, BitVec.toNat_ofNat]
  omega

theorem wide_eq_joinWords (x : Cluster) (n : Nat) {p : Nat} (hp : p < 64) : x.wide n p =
    joinWords ((tgetD [] x.v n).getD (2 * p) 0) ((tgetD [] x.v n).getD (2 * p + 1) 0)
      ((tgetD [] x.v (n + 1)).getD (2 * p) 0) ((tgetD [] x.v (n + 1)).getD (2 * p + 1) 0) := by
  unfold Cluster.wide joinWords
  simp only [getD_vreg x _ (show 2 * p < 128 by omega), getD_vreg x _ (show 2 * p + 1 < 128 by omega)]

theorem wide_lt (x : Cluster) (n : Nat) {p : Nat} (hp : p < 64) : x.wide n p < 2 ^ 128 := by
  rw [wide_eq_joinWords x n hp]; exact joinWords_lt _ _ _ _

/-! ### A pair written -/

/-- Registers n and n + 1 hold new sums with their tags in the enabled lane pairs, and nothing else of the registers changes. -/
def PairWritten (x y : Cluster) (n : Nat) (on : Nat → Bool) (v : Nat → Nat) (g : Nat → WTag) : Prop :=
  (∀ r, r ≠ n → r ≠ n + 1 → tgetD [] y.v r = tgetD [] x.v r) ∧
    (∀ r, r ≠ n / 2 → tgetD [] y.tags r = tgetD [] x.tags r) ∧
    ∀ p, p < 64 → y.wide n p = (if on p then v p else x.wide n p) ∧
      (y.vtags n).getD p {} = (if on p then g p else (x.vtags n).getD p {})

theorem setVstate_clear {x : Cluster} (h : ∀ k, tgetD none x.vst k = none) (n : Nat) :
    ∀ k, tgetD none (x.setVstate n none).vst k = none := by
  intro k
  simp [Cluster.setVstate, h]

/-- Writing sums with no open verdict changes registers, tags and verdict states alone, and leaves the states clear. -/
theorem vecBody_setWide (x : Cluster) (n : Nat) (on : Nat → Bool) (vals : List Nat) (tags : List WTag) (st : Option VState) :
    VecBody x (x.setWide n on vals tags st) := rfl

theorem setWide_clear {x : Cluster} (h : ∀ k, tgetD none x.vst k = none) (n : Nat) (on : Nat → Bool) (vals : List Nat)
    (tags : List WTag) : ∀ k, tgetD none (x.setWide n on vals tags none).vst k = none :=
  setVstate_clear (setVstate_clear h n) (n + 1)

/-- One lane of a pair after a write of sums: word `base + i % 2` of the sum of its lane pair. -/
theorem lane_setWide (x : Cluster) (n : Nat) (on : Nat → Bool) (vals : List Nat) (tags : List WTag) (st : Option VState)
    {b i : Nat} (hb : b < 2) (hi : i < 128) : (tgetD [] (x.setWide n on vals tags st).v (n + b)).getD i 0 =
      if on (i / 2) then w32 (vals.getD (i / 2) 0 / 2 ^ (32 * (2 * b + i % 2))) else (tgetD [] x.v (n + b)).getD i 0 := by
  have hv : ∀ r, tgetD [] (x.setWide n on vals tags st).v r =
      if r = n + 1 then (List.range 128).map (fun i => if on (i / 2) then w32 (vals.getD (i / 2) 0 / 2 ^ (32 * (2 + i % 2)))
        else (x.vreg (n + 1)).getD i 0)
      else if r = n then (List.range 128).map (fun i => if on (i / 2) then w32 (vals.getD (i / 2) 0 / 2 ^ (32 * (0 + i % 2)))
        else (x.vreg n).getD i 0)
      else tgetD [] x.v r := fun r => by simp [Cluster.setWide, Cluster.setVstate]
  obtain rfl | rfl : b = 0 ∨ b = 1 := by omega
  · rw [hv, if_neg (by omega), if_pos (Nat.add_zero n), getD_map_range _ _ hi, getD_vreg x n hi]
    rfl
  · rw [hv, if_pos rfl, getD_map_range _ _ hi, getD_vreg x (n + 1) hi]

theorem pairWritten_setWide (x : Cluster) (n : Nat) (on : Nat → Bool) {vals : List Nat} (tags : List WTag) (st : Option VState)
    (hvals : ∀ p, vals.getD p 0 < 2 ^ 128) :
    PairWritten x (x.setWide n on vals tags st) n on (fun p => vals.getD p 0) (fun p => tags.getD p {}) := by
  refine ⟨fun r h h' => by simp [Cluster.setWide, Cluster.setVstate, h, h'],
    fun r h => by simp [Cluster.setWide, Cluster.setVstate, h], fun p hp => ⟨?_, ?_⟩⟩
  · rw [wide_eq_joinWords _ _ hp, wide_eq_joinWords _ _ hp]
    have lane := fun b hb i hi => lane_setWide x n on vals tags st (b := b) (i := i) hb hi
    have even : 2 * p / 2 = p ∧ 2 * p % 2 = 0 := by omega
    have odd : (2 * p + 1) / 2 = p ∧ (2 * p + 1) % 2 = 1 := by omega
    have h00 := lane 0 (by decide) (2 * p) (by omega)
    have h01 := lane 0 (by decide) (2 * p + 1) (by omega)
    have h10 := lane 1 (by decide) (2 * p) (by omega)
    have h11 := lane 1 (by decide) (2 * p + 1) (by omega)
    simp only [Nat.add_zero, even, odd] at h00 h01 h10 h11
    rw [h00, h01, h10, h11]
    cases on p with
    | false => rfl
    | true => exact joinWords_split (hvals p)
  · have htags : tgetD [] (x.setWide n on vals tags st).tags (n / 2) =
        (List.range 64).map (fun p => if on p then tags.getD p {} else (x.vtags n).getD p {}) := by
      simp [Cluster.setWide, Cluster.setVstate]
    rw [getD_vtags _ _ hp, htags, getD_map_range _ _ hp]

/-- The same where sums and tags are given pair by pair. -/
theorem pairWritten_setWide_map (x : Cluster) (n : Nat) (on : Nat → Bool) {v : Nat → Nat} (g : Nat → WTag) (st : Option VState)
    (hv : ∀ p, v p < 2 ^ 128) :
    PairWritten x (x.setWide n on ((List.range 64).map v) ((List.range 64).map g) st) n on v g := by
  have hvals : ∀ p, ((List.range 64).map v).getD p 0 < 2 ^ 128 := fun p => by
    by_cases hp : p < 64
    · rw [getD_map_range _ _ hp]; exact hv p
    · simp [hp]
  obtain ⟨hregs, htags, hpair⟩ := pairWritten_setWide x n on ((List.range 64).map g) st hvals
  refine ⟨hregs, htags, fun p hp => ?_⟩
  have h := hpair p hp
  simp only [getD_map_range _ _ hp] at h
  exact h

/-- What two registers do not change, their sums and tags do not change. -/
theorem wide_congr {x y : Cluster} {n p : Nat} (hp : p < 64) (h : tgetD [] y.v n = tgetD [] x.v n)
    (h' : tgetD [] y.v (n + 1) = tgetD [] x.v (n + 1)) : y.wide n p = x.wide n p := by
  rw [wide_eq_joinWords _ _ hp, wide_eq_joinWords _ _ hp, h, h']

theorem vtags_congr {x y : Cluster} {n : Nat} (h : tgetD [] y.tags (n / 2) = tgetD [] x.tags (n / 2)) : y.vtags n = x.vtags n := by
  unfold Cluster.vtags; rw [h]

/-! ### What the checks say of a wide instruction (R109) -/

/-- The registers of a ready wide-sum instruction are even pairs, or quads. -/
theorem vRegsBad_of_vecReady {s : State} {c op : Nat} {i : Issued} {x : Job} (h : VecReady s c op i x) : vRegsBad i.words = false := by
  have h3 := firstCode_eq_none.1 (consistent_of_vecReady h) _
    (List.mem_cons_of_mem _ (List.mem_cons_of_mem _ List.mem_cons_self))
  simp only [Bool.or_eq_false_iff] at h3
  obtain ⟨⟨⟨-, hregs⟩, -⟩, -⟩ := h3
  exact hregs

theorem vD_even_of_vpadd {s : State} {c : Nat} {i : Issued} {x : Job} (h : VecReady s c 0xB8 i x) : vD i.words % 2 = 0 := by
  have hregs := vRegsBad_of_vecReady h
  simp only [vRegsBad, opcode_of_vecReady h, decide_eq_false_iff_not] at hregs
  omega

theorem vD_quad_of_vpld {s : State} {c : Nat} {i : Issued} {x : Job} (h : VecReady s c 0xBA i x) : vD i.words % 4 = 0 := by
  have hregs := vRegsBad_of_vecReady h
  simp only [vRegsBad, opcode_of_vecReady h, decide_eq_false_iff_not] at hregs
  omega

/-- What a ready instruction reads or writes at ADDR lies in the scratchpad. -/
theorem fits_of_vecReady {s : State} {c op : Nat} {i : Issued} {x : Job} (h : VecReady s c op i x) (hcherry : cherry s c = false)
    {a n : Nat} (hext : vExtent i.words = some (a, n)) : a + n ≤ Config.spadBytes := by
  have h2 := firstCode_eq_none.1 (consistent_of_vecReady h) _ (List.mem_cons_of_mem _ List.mem_cons_self)
  simpa [hext, nsSize_of_not_cherry hcherry] using h2

theorem vstate_of_clear {x : Cluster} (h : ∀ k, tgetD none x.vst k = none) (k : Nat) : x.vstate k = none := by
  simp [Cluster.vstate, h]

/-- The completion of an instruction says nothing of the verdict states of the cluster it names. -/
theorem vecDone_of_same_but_vst {s t : State} {c : Nat} {i : Issued} {y z : Cluster} (h : VecDone s t c i y)
    (hz : y = { z with vst := y.vst }) : VecDone s t c i z := by
  obtain ⟨hframe, hothers, hvst, hclu⟩ := h
  refine ⟨hframe, hothers, hvst, ?_⟩
  rw [hz] at hclu
  exact hclu

/-! ### VPADD -/

/-- The sums and tags that VPADD makes of two pairs (R125). -/
def paddTag (a b : WTag) : WTag := ⟨a.fmt, a.eref, a.fe || b.fe, a.nf || b.nf, a.win || b.win, a.lsat || b.lsat⟩
def paddSum (x : Cluster) (ws : List Word) (p : Nat) : Nat := (x.wide (vA ws) p + x.wide (vB ws) p) % 2 ^ 128

/-- The cluster once VPADD has written. -/
def paddDone (x : Cluster) (ws : List Word) : Cluster :=
  x.setWide (vD ws) (pairOn x ws) ((List.range 64).map (paddSum x ws))
    ((List.range 64).map (fun p => paddTag ((x.vtags (vA ws)).getD p {}) ((x.vtags (vB ws)).getD p {}))) none

theorem exec_vpadd {s : State} {c : Nat} {i : Issued} {x : Job} (h : VecReady s c 0xB8 i x) :
    ∃ t, exec (.vpadd c) s = .next t ∧ VecDone s t c i (paddDone (clu s c) i.words) := by
  have hclear := clear_of_vecReady h
  refine ⟨_, rfl, vecStep_done h (by decide) ?_ (onlyClu_setClu_self s c _) (vecBody_setWide _ _ _ _ _ _)
    (setWide_clear hclear _ _ _ _)⟩
  simp only [vstate_of_clear hclear, maskState, worst, worse, List.foldl]
  rfl

/-- A row of sums that is written to one pair. -/
theorem writesWide_one {x y : Cluster} {ws : List Word} {v : Nat → Nat} {g : Nat → WTag} (heven : vD ws % 2 = 0)
    (h : PairWritten x y (vD ws) (pairOn x ws) v g) : WritesWide x { x with v := y.v, tags := y.tags } ws 1 v g := by
  obtain ⟨hregs, htags, hpair⟩ := h
  refine ⟨rfl, fun r hr => hregs r (by omega) (by omega), fun r hr => htags r (by omega), fun k hk => ?_⟩
  have hk' : k / 64 = 0 ∧ k % 64 = k := by omega
  simp only [hk', Nat.mul_zero, Nat.add_zero, ← pairOn_eq_maskBit x ws (show k < 64 by omega)]
  exact hpair k (by omega)

/-- A row of sums that is written to a quad, one pair after the other. -/
theorem writesWide_two {x y z : Cluster} {ws : List Word} {v : Nat → Nat} {g : Nat → WTag} (hquad : vD ws % 4 = 0)
    (hlow : PairWritten x y (vD ws) (pairOn x ws) v g)
    (hhigh : PairWritten y z (vD ws + 2) (pairOn x ws) (fun p => v (64 + p)) (fun p => g (64 + p))) :
    WritesWide x { x with v := z.v, tags := z.tags } ws 2 v g := by
  obtain ⟨hregs, htags, hpair⟩ := hlow
  obtain ⟨hregs', htags', hpair'⟩ := hhigh
  refine ⟨rfl, fun r hr => (hregs' r (by omega) (by omega)).trans (hregs r (by omega) (by omega)),
    fun r hr => (htags' r (by omega)).trans (htags r (by omega)), fun k hk => ?_⟩
  change z.wide _ _ = _ ∧ (z.vtags _).getD _ {} = _
  have hp : k % 64 < 64 := Nat.mod_lt _ (by decide)
  obtain hk' | hk' : k / 64 = 0 ∨ k / 64 = 1 := by omega
  · have hkp : k % 64 = k := by omega
    have hwide : z.wide (vD ws) k = y.wide (vD ws) k :=
      wide_congr (by omega) (hregs' _ (by omega) (by omega)) (hregs' _ (by omega) (by omega))
    have htag : z.vtags (vD ws) = y.vtags (vD ws) := vtags_congr (htags' _ (by omega))
    simp only [hk', Nat.mul_zero, Nat.add_zero, hkp, ← pairOn_eq_maskBit x ws (show k < 64 by omega), hwide, htag]
    exact hpair k (by omega)
  · have hkp : 64 + k % 64 = k := by omega
    have hwide : y.wide (vD ws + 2) (k % 64) = x.wide (vD ws + 2) (k % 64) :=
      wide_congr hp (hregs _ (by omega) (by omega)) (hregs _ (by omega) (by omega))
    have htag : y.vtags (vD ws + 2) = x.vtags (vD ws + 2) := vtags_congr (htags _ (by omega))
    have h := hpair' (k % 64) hp
    simp only [hkp, hwide, htag] at h
    simp only [hk', Nat.mul_one, ← pairOn_eq_maskBit x ws hp]
    exact h

/-! ### Partials (R53) -/

theorem partialSum_lt (n : Nat) : partialSum n < 2 ^ 128 := by
  unfold partialSum; split <;> omega

theorem widePartial_eq (n : Nat) : widePartial n = (partialSum n, partialTag n) := by
  have hsum : wrapN 128 (sgn 96 (n % 2 ^ 96)) = partialSum n := by
    unfold wrapN sgn partialSum
    split <;> split <;> omega
  simp only [widePartial, hsum, partialTag, Nat.testBit_eq_decide_div_mod_eq]

/-- The quad that a row of partials gives. -/
theorem setQuad_eq (x : Cluster) (n : Nat) (on : BitVec 128) (f : Nat → Nat) (st : Option VState) :
    setQuad x n on ((List.range 128).map f) st =
      (x.setWide n (fun k => on.getLsbD (2 * k)) ((List.range 64).map (fun p => partialSum (f p)))
        ((List.range 64).map (fun p => partialTag (f p))) st).setWide (n + 2) (fun k => on.getLsbD (2 * k))
        ((List.range 64).map (fun p => partialSum (f (64 + p)))) ((List.range 64).map (fun p => partialTag (f (64 + p)))) st := by
  have htake : (List.range 128).take 64 = List.range 64 := by decide
  have hdrop : (List.range 128).drop 64 = (List.range 64).map (64 + ·) := by decide
  unfold setQuad
  simp only [← List.map_take, ← List.map_drop, htake, hdrop, List.map_map]
  simp only [Function.comp_def, widePartial_eq]

/-- A row of partials written to a quad. -/
theorem writesWide_setQuad (x : Cluster) {ws : List Word} (f : Nat → Nat) (st : Option VState) (hquad : vD ws % 4 = 0) :
    let y := setQuad x (vD ws) (vOn x ws) ((List.range 128).map f) st
    WritesWide x { x with v := y.v, tags := y.tags } ws 2 (fun k => partialSum (f k)) (fun k => partialTag (f k)) := by
  rw [setQuad_eq]
  exact writesWide_two hquad (pairWritten_setWide_map _ _ _ _ _ (fun p => partialSum_lt (f p)))
    (pairWritten_setWide_map _ _ _ _ _ (fun p => partialSum_lt (f (64 + p))))

/-- The 16 bytes of partial `k` of a row of bytes. -/
theorem partialBytes_of_row (f : Nat → Byte) {k : Nat} (hk : k < 128) :
    ((((List.range 2048).map f).drop (16 * k)).take 16) = (List.range 16).map (fun d => f (16 * k + d)) := by
  refine List.ext_getElem (by simp; omega) (fun i hi hi' => by simp)

/-! ### VPLD -/

/-- The partial that 16 bytes of the scratchpad hold. -/
def partialAt (x : Cluster) (a k : Nat) : Nat := leNat ((List.range 16).map (fun d => x.sp.get (a + 16 * k + d)))

/-- The cluster once VPLD has written. -/
def pldDone (x : Cluster) (ws : List Word) : Cluster :=
  setQuad x (vD ws) (vOn x ws) ((List.range 128).map (partialAt x (vAddr ws))) none

theorem pldPartials {s : State} {p c a : Nat} (hcherry : cherry s c = false) (hin : a + 2048 ≤ Config.spadBytes)
    (hadm : deniedLines s p c a 2048 = []) :
    (List.range 128).map (fun k => leNat (((unitRead s p c a 2048).drop (16 * k)).take 16)) =
      (List.range 128).map (partialAt (clu s c) a) := by
  refine List.map_congr_left (fun k hk => ?_)
  have hk' := List.mem_range.1 hk
  rw [unitRead_of_admitted hadm, partialBytes_of_row _ hk']
  unfold partialAt
  refine congrArg leNat (List.map_congr_left (fun d hd => ?_))
  have hd' := List.mem_range.1 hd
  rw [nsByte_of_not_cherry hcherry (by omega), Nat.add_assoc]

theorem exec_vpld {s : State} {c : Nat} {i : Issued} {x : Job} (h : VecReady s c 0xBA i x) (hcherry : cherry s c = false)
    (hadm : deniedLines s (ownerOf s 17 c) c (vAddr i.words) 2048 = []) (hwaits : loadWaits s c i (vAddr i.words) 2048 = false)
    (htiles : readsTiles s c [(vAddr i.words, 2048)] = []) :
    ∃ t, exec (.vpld c) s = .next t ∧ VecDone s t c i (pldDone (clu s c) i.words) := by
  have hclear := clear_of_vecReady h
  have hin : vAddr i.words + 2048 ≤ Config.spadBytes := fits_of_vecReady h hcherry (by simp [vExtent, opcode_of_vecReady h])
  refine ⟨_, rfl, vecStep_done h (by decide) ?_ (onlyClu_setClu_self s c _) ?_ ?_⟩
  · simp only [hwaits, Bool.false_eq_true, if_false, deniedLines_setClu, hadm, unitDeny_nil, loadState, htiles, maskState,
      vstate_of_clear hclear, worse, pldPartials hcherry hin hadm]
    rfl
  · rw [pldDone, setQuad_eq]
    exact (vecBody_setWide _ _ _ _ _ _).trans (vecBody_setWide _ _ _ _ _ _)
  · rw [pldDone, setQuad_eq]
    exact setWide_clear (setWide_clear hclear _ _ _ _) _ _ _ _

/-! ### VPST -/

/-- A sum inside the 96-bit range is stored as it is. -/
theorem widePack_of_inside {v : Nat} (hv : v < 2 ^ 128) (t : WTag) (hin : v < 2 ^ 95 ∨ 2 ^ 128 - 2 ^ 95 ≤ v) :
    widePack v t = (partialOf v t, false) := by
  have hrange : smin 96 ≤ sgn 128 v ∧ sgn 128 v ≤ smax 96 ∧ wrapN 96 (sgn 128 v) = v % 2 ^ 96 := by
    unfold smin smax wrapN sgn
    split <;> omega
  obtain ⟨hmin, hmax, hwrap⟩ := hrange
  simp only [widePack, clamp96_of_inside hmin hmax, partialNat, hwrap, Bool.or_false, partialOf, b2n, ite_mul, Nat.one_mul, Nat.zero_mul]

/-- Partial `k` that VPST makes of the quad at VA (R126). -/
def pstPack (x : Cluster) (ws : List Word) (k : Nat) : Nat × Bool :=
  widePack (x.wide (vA ws + 2 * (k / 64)) (k % 64)) ((x.vtags (vA ws + 2 * (k / 64))).getD (k % 64) {})

/-- An enabled sum inside the 96-bit range does not saturate. -/
theorem pstPack_of_inside (x : Cluster) (ws : List Word) {k : Nat}
    (hin : x.wide (vA ws + 2 * (k / 64)) (k % 64) < 2 ^ 95 ∨ 2 ^ 128 - 2 ^ 95 ≤ x.wide (vA ws + 2 * (k / 64)) (k % 64)) :
    pstPack x ws k = 
      (partialOf (x.wide (vA ws + 2 * (k / 64)) (k % 64)) ((x.vtags (vA ws + 2 * (k / 64))).getD (k % 64) {}), false) :=
  widePack_of_inside (wide_lt _ _ (Nat.mod_lt _ (by decide))) _ hin

theorem exec_vpst {s : State} {c : Nat} {i : Issued} {x : Job} (h : VecReady s c 0xBB i x) (hcherry : cherry s c = false)
    (hadm : deniedLines s (ownerOf s 17 c) c (vAddr i.words) 2048 = [])
    (hin : ∀ k, k < 128 → pairOn (clu s c) i.words (k % 64) = true → (pstPack (clu s c) i.words k).2 = false) :
    ∃ t r, exec (.vpst c) s = .next t ∧ VecDone s t c i { clu s c with sp := r } ∧
      ∀ b, r.get b = storedAt (clu s c).sp (vAddr i.words) 16 (fun k => pairOn (clu s c) i.words (k % 64))
        ((List.range 128).map (fun k => (pstPack (clu s c) i.words k).1)) 128 b := by
  have hclear := clear_of_vecReady h
  have hfit : vAddr i.words + 2048 ≤ Config.spadBytes :=
    fits_of_vecReady h hcherry (by simp [vExtent, opcode_of_vecReady h])
  have hnohit : (List.range 128).filter (fun k => pairOn (clu s c) i.words (k % 64) &&
      (((List.range 128).map (pstPack (clu s c) i.words)).getD k (0, false)).2) = [] := by
    rw [List.filter_eq_nil_iff]
    intro k hk
    have hk' := List.mem_range.1 hk
    rw [getD_map_range _ _ hk', Bool.and_eq_true]
    rintro ⟨hon, hhit⟩
    rw [hin k hk' hon] at hhit
    cases hhit
  obtain ⟨r, hS, hr⟩ := storeAt_storePieces (s := s) (p := ownerOf s 17 c) (c := c) (a := vAddr i.words) (size := 16)
    (els := (List.range 128).map (fun k => (pstPack (clu s c) i.words k).1)) (by decide)
    (fun k => pairOn (clu s c) i.words (k % 64)) hcherry (by simpa using hfit) (by simpa using hadm)
  refine ⟨_, r, rfl, vecStep_done h (by decide) ?_ hS rfl hclear, by simpa using hr⟩
  have hels : ((List.range 128).map (pstPack (clu s c) i.words)).map (fun e => e.1) =
      (List.range 128).map (fun k => (pstPack (clu s c) i.words k).1) := by rw [List.map_map]; rfl
  have hpack : ∀ k, widePack ((clu s c).wide (vA i.words + 2 * (k / 64)) (k % 64))
      (((clu s c).vtags (vA i.words + 2 * (k / 64))).getD (k % 64) {}) = pstPack (clu s c) i.words k := fun _ => rfl
  simp only [hpack, hels, hnohit, if_true, hadm, unitDeny_nil, maskState, vstate_of_clear hclear, worst, worse, List.foldl]

end Sys2Proof.Machine
end

section

namespace Sys2Proof.Proofs

open Sys2Proof Sys2Proof.Machine

/-- Settles O17: sums are split into words and joined again, and partials are packed and unpacked, without loss inside the
range. -/
theorem wideSumsAddLoadAndStore : Obligations.WideSumsAddLoadAndStore := by
  unfold Obligations.WideSumsAddLoadAndStore
  intro s c i x hcherry q ws a tag
  refine ⟨fun hready => ?vpadd, fun hadm => ⟨fun hready hwaits htiles => ?vpld, fun hready => ?vpst⟩⟩
  case vpadd =>
    obtain ⟨t, hexec, hdone⟩ := exec_vpadd hready
    exact ⟨t, { q with v := (paddDone q ws).v, tags := (paddDone q ws).tags }, hexec, vecDone_of_same_but_vst hdone rfl,
      writesWide_one (vD_even_of_vpadd hready)
        (pairWritten_setWide_map q (vD ws) (pairOn q ws) _ none (fun p => Nat.mod_lt _ (by decide)))⟩
  case vpld =>
    obtain ⟨t, hexec, hdone⟩ := exec_vpld hready hcherry hadm hwaits htiles
    exact ⟨t, { q with v := (pldDone q ws).v, tags := (pldDone q ws).tags }, hexec, vecDone_of_same_but_vst hdone rfl,
      writesWide_setQuad q (partialAt q a) none (vD_quad_of_vpld hready)⟩
  case vpst =>
    intro wide on hin
    have hpack : ∀ k, k < 128 → on k = true →
        pstPack (clu s c) i.words k = (partialOf (wide k) (tag (vA ws + 2 * (k / 64)) (k % 64)), false) :=
      fun k hk hon => pstPack_of_inside q ws (hin k hk hon)
    have hon : ∀ k, pairOn (clu s c) i.words (k % 64) = on k := fun k =>
      pairOn_eq_maskBit q ws (Nat.mod_lt _ (by decide))
    obtain ⟨t, r, hexec, hdone, hr⟩ := exec_vpst hready hcherry hadm
      (fun k hk h => by rw [hpack k hk ((hon k).symm.trans h)])
    refine ⟨t, { q with sp := r }, hexec, hdone, rfl, fun b => ?_⟩
    rw [hr b, storedAt_map_range]
    simp only [hon]
    refine ite_congr rfl (fun hcond => ?_) (fun _ => rfl)
    rw [hpack _ hcond.2.1 hcond.2.2]

end Sys2Proof.Proofs
end

section
/-! Integer tiles (02 R47; 03 R70, R80, R84): exact sums in the Long Registers, the start of a tile, and O10. -/

namespace Sys2Proof.Machine

open Sys2Proof

/-! ### Integer elements (R38) -/

theorem sgn_toNat {n : Nat} (x : BitVec (n + 1)) : sgn (n + 1) x.toNat = x.toInt := by
  have hlt := x.isLt
  rw [BitVec.toInt_eq_toNat_cond, sgn, Nat.mod_eq_of_lt hlt, Nat.add_sub_cancel]
  rw [Nat.pow_succ] at *
  split <;> split <;> omega

/-- A halfword, low byte first. -/
theorem toNat_append_bytes (hi lo : Byte) : (hi ++ lo : BitVec 16).toNat = lo.toNat + 256 * hi.toNat := by
  rw [BitVec.toNat_append, ← Nat.shiftLeft_add_eq_or_of_lt lo.isLt, Nat.shiftLeft_eq]
  omega

/-- The operand formats of INT8 and INT16. -/
def intFmt (wide : Bool) : OpFmt := if wide then .int16 else .int8

theorem intElem_bound (s : State) (c : Nat) (wide : Bool) (a k : Nat) : |intElem s c wide a k| ≤ 2 ^ 15 := by
  unfold intElem
  cases wide
  case false =>
    have hlo := BitVec.le_toInt (nsByte s c (a + k))
    have hhi := BitVec.toInt_lt (x := nsByte s c (a + k))
    simp only [Bool.false_eq_true, if_false, abs_le]
    omega
  case true =>
    have hlo := BitVec.le_toInt (nsByte s c (a + 2 * k + 1) ++ nsByte s c (a + 2 * k) : BitVec 16)
    have hhi := BitVec.toInt_lt (x := (nsByte s c (a + 2 * k + 1) ++ nsByte s c (a + 2 * k) : BitVec 16))
    simp only [if_true, abs_le]
    omega

/-- An element that is an integer and nothing else. -/
def intEl (x : Int) : El := { re := x }

/-- A row of elements that may be read holds the integers of its bytes. -/
theorem elsAt_int {s : State} {p c a k : Nat} {wide : Bool} (conj : Bool) (ea : Nat)
    (hadm : deniedLines s p c a (k * (intFmt wide).bytes) = []) :
    elsAt s p c (intFmt wide) conj k a ea = (List.range k).map (fun e => intEl (intElem s c wide a e)) := by
  unfold elsAt
  refine List.map_congr_left (fun e he => ?_)
  have he' := List.mem_range.1 he
  rw [unitRead_of_admitted hadm]
  cases wide
  case false =>
    have hb : (((List.range (k * (intFmt false).bytes)).map (fun i => nsByte s c (a + i))).getD e 0) = nsByte s c (a + e) :=
      getD_map_range _ _ (by simpa [intFmt, OpFmt.bytes] using he')
    simp only [intFmt, Bool.false_eq_true, if_false, elAt, intEl, intElem] at hb ⊢
    rw [hb, sgn_toNat]
  case true =>
    have hb : ∀ d, d < 2 → (((List.range (k * (intFmt true).bytes)).map (fun i => nsByte s c (a + i))).getD (2 * e + d) 0) =
        nsByte s c (a + (2 * e + d)) := fun d hd =>
      getD_map_range _ _ (by simp only [intFmt, if_true, OpFmt.bytes]; omega)
    have hlo := hb 0 (by decide)
    have hhi := hb 1 (by decide)
    simp only [intFmt, if_true, elAt, half16, intEl, intElem, Nat.add_zero, Nat.add_assoc] at hlo hhi ⊢
    rw [hlo, hhi, ← toNat_append_bytes, sgn_toNat]

/-! ### Exact sums (R47, R70) -/

theorem wrapS96_of_inside {x : Int} (h : |x| < 2 ^ 95) : wrapS 96 x = x := by
  rw [abs_lt] at h
  unfold wrapS sgn wrapN
  split <;> omega

/-- A Long Register without flags. -/
def plainSum (x : Int) : LSum := { v := x }

theorem add_plainSum {v x : Int} (h : |v + x| < 2 ^ 95) : (plainSum v).add x false false false = plainSum (v + x) := by
  rw [abs_lt] at h
  have hmin : smin 96 ≤ v + x := by unfold smin; omega
  have hmax : v + x ≤ smax 96 := by unfold smax; omega
  simp [LSum.add, plainSum, clamp96_of_inside hmin hmax]

theorem term_int (wide : Bool) (fb : OpFmt) (eref : Nat) (x y : Int) :
    term (intFmt wide) fb eref (intEl x) (intEl y) = (x * y, 0, false) := by
  cases wide <;> simp [term, intFmt, intEl, OpFmt.fp8]

/-- A product of two INT16 elements. -/
theorem abs_mul_le_of_int16 {x y : Int} (hx : |x| ≤ 2 ^ 15) (hy : |y| ≤ 2 ^ 15) : |x * y| ≤ 2 ^ 30 := by
  rw [abs_mul]
  calc |x| * |y| ≤ 2 ^ 15 * 2 ^ 15 := mul_le_mul hx hy (abs_nonneg y) (by norm_num)
    _ = 2 ^ 30 := by norm_num

/-- The sum of products, step by step, while it stays inside the range. -/
theorem dot_int (wide : Bool) (fb : OpFmt) (eref : Nat) {f g : Nat → Int} (hf : ∀ e, |f e| ≤ 2 ^ 15) (hg : ∀ e, |g e| ≤ 2 ^ 15) :
    ∀ (ks : List Nat) (v : Int), |v| + 2 ^ 30 * ks.length < 2 ^ 95 →
      dot (intFmt wide) fb eref (ks.map (fun e => intEl (f e))) (ks.map (fun e => intEl (g e))) (plainSum v, plainSum 0) =
        (plainSum (v + (ks.map (fun e => f e * g e)).sum), plainSum 0) := by
  intro ks
  induction ks with
  | nil => intro v _; simp [dot]
  | cons e ks ih =>
    intro v hv
    have hprod := abs_mul_le_of_int16 (hf e) (hg e)
    have hsum := abs_add_le v (f e * g e)
    rw [List.length_cons, Nat.cast_succ] at hv
    have hre : (plainSum v).add (f e * g e) false false false = plainSum (v + f e * g e) := add_plainSum (by omega)
    have him : (plainSum 0).add 0 false false false = plainSum 0 := add_plainSum (by norm_num)
    simp only [List.map_cons, dot, term_int, List.sum_cons, ← add_assoc]
    exact (congrArg (dot _ _ _ _ _) (Prod.ext hre him)).trans (ih _ (by omega))

/-- A sum of `k` products is small. -/
theorem abs_sum_le_of_int16 {f g : Nat → Int} (hf : ∀ e, |f e| ≤ 2 ^ 15) (hg : ∀ e, |g e| ≤ 2 ^ 15) (ks : List Nat) :
    |(ks.map (fun e => f e * g e)).sum| ≤ 2 ^ 30 * ks.length := by
  induction ks with
  | nil => simp
  | cons e ks ih =>
    have hprod := abs_mul_le_of_int16 (hf e) (hg e)
    have hsum := abs_add_le (f e * g e) (ks.map (fun e => f e * g e)).sum
    rw [List.map_cons, List.sum_cons, List.length_cons, Nat.cast_succ]
    omega

/-! ### The tile (R79, R84) -/

theorem halfFaults_nil (cx : Bool) (h : Nat) : halfFaults cx h [] = [] := rfl
theorem faultAt_nil (cx : Bool) (i j : Nat) (imag : Bool) : faultAt cx [] i j imag = 0 := rfl

/-- INT8 and INT16 tiles are not complex. -/
theorem tileCplx_of_intFmt {ws : List Word} {wide : Bool} (h : fmtA ws = intFmt wide) : tileCplx ws = false := by
  unfold tileCplx
  rw [decide_eq_false_iff_not]
  rintro ⟨hcplx, -⟩
  rw [fmtA, hcplx] at h
  cases wide <;> cases h

/-- A row or column of integer elements. -/
def intRow (k : Nat) (f : Nat → Int) : List El := (List.range k).map (fun e => intEl (f e))

/-- The sums of an integer tile that no fault strikes, of `m` rows `f` and `n` columns `g`. -/
theorem rows_mkTile_int {i : Issued} {wide : Bool} (serial m n k : Nat) {f g : Nat → Nat → Int} (hfmt : fmtA i.words = intFmt wide)
    (hf : ∀ r e, |f r e| ≤ 2 ^ 15) (hg : ∀ r e, |g r e| ≤ 2 ^ 15) (hk : k < 2 ^ 32) :
    (mkTile i serial 0 0 ((List.range m).map (fun r => intRow k (f r))) ((List.range n).map (fun q => intRow k (g q))) []).rows =
      (List.range m).map (fun r => (List.range n).map (fun q => plainSum ((List.range k).map (fun e => f r e * g q e)).sum)) := by
  have hcell : ∀ r q, dot (intFmt wide) (fmtB i.words) 0 (intRow k (f r)) (intRow k (g q)) ({ v := 0 }, { v := 0 }) =
      (plainSum ((List.range k).map (fun e => f r e * g q e)).sum, plainSum 0) := fun r q => by
    have h := dot_int wide (fmtB i.words) 0 (hf r) (hg q) (List.range k) 0 (by simp; omega)
    rw [zero_add] at h
    exact h
  have hwrap : ∀ r q, wrapS 96 ((List.range k).map (fun e => f r e * g q e)).sum = ((List.range k).map (fun e => f r e * g q e)).sum :=
    fun r q => wrapS96_of_inside (lt_of_le_of_lt (abs_sum_le_of_int16 (hf r) (hg q) _) (by rw [List.length_range]; omega))
  unfold mkTile
  simp only [hfmt, tileCplx_of_intFmt hfmt, halfFaults_nil, faultAt_nil, add_zero, List.length_map, List.length_range,
    Bool.false_eq_true, if_false]
  refine List.map_congr_left (fun r hr => ?_)
  rw [getD_map_range _ _ (List.mem_range.1 hr), ← List.flatMap_def, ← List.map_eq_flatMap]
  refine List.map_congr_left (fun q hq => ?_)
  rw [getD_map_range _ _ (List.mem_range.1 hq), hcell]
  simp only [plainSum, hwrap]

/-- Sums without flags raise no event. -/
theorem tileEvents_of_plainSums {s : State} {c : Nat} {t : Tile} (h : plainSums t) : tileEvents s c t = s := by
  have hno : ∀ p : LSum → Bool, (∀ r ∈ t.rows, ∀ l ∈ r, p l = false) → t.rows.any (fun r => r.any p) = false := fun p hp => by
    simpa [List.any_eq_false] using hp
  unfold tileEvents
  simp only [hno LSum.lsat (fun r hr l hl => (h r hr l hl).1), hno LSum.win (fun r hr l hl => (h r hr l hl).2.1),
    hno LSum.nf (fun r hr l hl => (h r hr l hl).2.2.1), hno LSum.fe (fun r hr l hl => (h r hr l hl).2.2.2), Bool.false_eq_true, if_false]

theorem csumSkipped_of_plainSums {t : Tile} (h : plainSums t) : csumSkipped t = false := by
  simp only [csumSkipped, List.any_eq_false, Bool.not_eq_true]
  intro r hr l hl
  obtain ⟨hlsat, hwin, -⟩ := h r hr l hl
  simp [hlsat, hwin]

/-! ### Starting it (R80) -/

theorem fmtB_of_tileBad_none {s : State} {x : Job} {c : Nat} {ws : List Word} (h : tileBad s x c ws = none)
    (hfp8 : (fmtA ws).fp8 = false) : fmtB ws = fmtA ws := by
  have h3 := firstCode_eq_none.1 h _ (List.mem_cons_of_mem _ (List.mem_cons_of_mem _ List.mem_cons_self))
  simp only [Bool.or_eq_false_iff, Bool.and_eq_false_iff, hfp8, Bool.false_and, Bool.not_false, decide_eq_false_iff_not, not_not,
    Bool.true_eq_false, or_false] at h3
  obtain ⟨⟨⟨⟨⟨⟨⟨-, hsame⟩, -⟩, -⟩, -⟩, -⟩, -⟩, -⟩ := h3
  exact hsame.symm

theorem aRow_mem_tileReads {ws : List Word} {r : Nat} (hr : r < tileM ws) : aRow ws r ∈ tileReads ws false :=
  List.mem_append_left _ (List.mem_append_left _ (List.mem_map_of_mem (List.mem_range.2 hr)))

theorem bCol_mem_tileReads {ws : List Word} {q : Nat} (hq : q < tileN ws) : bCol ws 0 q ∈ tileReads ws false :=
  List.mem_append_right _ (List.mem_flatMap.2 ⟨0, List.mem_singleton_self 0,
    List.mem_append_left _ (List.mem_append_left _ (List.mem_map_of_mem (List.mem_range.2 hq)))⟩)

/-- Items that come to depend on tiles change those tiles alone. -/
theorem addDep_of_not_cherry {s : State} {c : Nat} (hcherry : cherry s c = false) (ids : List Nat) (d : Dep) :
    addDep s c ids d = setClu s c { clu s c with
      tiles := (clu s c).tiles.map (fun t => if t.id ∈ ids then { t with deps := t.deps ++ [d] } else t) } := by
  simp [addDep, halves_of_not_cherry hcherry]

/-- The integers that row `r` of A and column `q` of B hold. -/
def aInt (s : State) (c : Nat) (wide : Bool) (ws : List Word) (r e : Nat) : Int := intElem s c wide (aRow ws r).1 e
def bInt (s : State) (c : Nat) (wide : Bool) (ws : List Word) (q e : Nat) : Int := intElem s c wide (bCol ws 0 q).1 e

/-- The tile that an integer instruction starts. -/
def intTile (s : State) (c : Nat) (wide : Bool) (i : Issued) (serial : Nat) : Tile :=
  mkTile i serial 0 0 ((List.range (tileM i.words)).map (fun r => intRow (tileK i.words) (aInt s c wide i.words r)))
    ((List.range (tileN i.words)).map (fun q => intRow (tileK i.words) (bInt s c wide i.words q))) []

theorem rows_intTile (s : State) (c : Nat) {wide : Bool} {i : Issued} (serial : Nat) (hfmt : fmtA i.words = intFmt wide) :
    (intTile s c wide i serial).rows = (List.range (tileM i.words)).map (fun r => (List.range (tileN i.words)).map (fun q =>
      plainSum ((List.range (tileK i.words)).map (fun e => aInt s c wide i.words r e * bInt s c wide i.words q e)).sum)) :=
  rows_mkTile_int serial _ _ _ hfmt (fun _ _ => intElem_bound s c wide _ _) (fun _ _ => intElem_bound s c wide _ _)
    (wd i.words 2).isLt

theorem plainSums_intTile (s : State) (c : Nat) {wide : Bool} {i : Issued} (serial : Nat) (hfmt : fmtA i.words = intFmt wide) :
    plainSums (intTile s c wide i serial) := by
  intro row hrow l hl
  rw [rows_intTile s c serial hfmt] at hrow
  obtain ⟨r, -, rfl⟩ := List.mem_map.1 hrow
  obtain ⟨q, -, rfl⟩ := List.mem_map.1 hl
  exact ⟨rfl, rfl, rfl, rfl⟩

theorem startTile_int {s : State} {c : Nat} {i : Issued} {wide : Bool} (j serial : Nat) (hcherry : cherry s c = false)
    (hA : fmtA i.words = intFmt wide) (hB : fmtB i.words = intFmt wide)
    (hadm : ∀ r ∈ tileReads i.words false, deniedLines s (ownerOf s 16 c) c r.1 r.2 = []) :
    ∃ old, OnlyClu s (startTile s c j i serial []) c { clu s c with tiles := old ++ [intTile s c wide i serial] } ∧
      old.map (fun u => { u with deps := [] }) = (clu s c).tiles.map (fun u => { u with deps := [] }) := by
  have hbfp : fmtA i.words ≠ .bfp16 := by rw [hA]; cases wide <;> decide
  have hbad : (tileReads i.words false).flatMap (fun r => deniedLines s (ownerOf s 16 c) c r.1 r.2) = [] :=
    List.flatMap_eq_nil_iff.2 hadm
  have ha : (List.range (tileM i.words)).map (fun r => elsAt s (ownerOf s 16 c) c (intFmt wide) (bit (wd i.words 0) 3)
      (tileK i.words) (aRow i.words r).1 (aExp i.words r).1) =
      (List.range (tileM i.words)).map (fun r => intRow (tileK i.words) (aInt s c wide i.words r)) :=
    List.map_congr_left (fun r hr => elsAt_int _ _ (hA ▸ hadm _ (aRow_mem_tileReads (List.mem_range.1 hr))))
  have hb : (List.range (tileN i.words)).map (fun q => elsAt s (ownerOf s 16 c) c (intFmt wide) (bit (wd i.words 0) 2)
      (tileK i.words) (bCol i.words 0 q).1 (bExp i.words 0 q).1) =
      (List.range (tileN i.words)).map (fun q => intRow (tileK i.words) (bInt s c wide i.words q)) :=
    List.map_congr_left (fun q hq => elsAt_int _ _ (hB ▸ hadm _ (bCol_mem_tileReads (List.mem_range.1 hq))))
  have hcols : colsIn i.words false 0 = tileN i.words := rfl
  refine ⟨(clu s c).tiles.map (fun t => if t.id ∈ readsTiles s c (tileReads i.words false) then
    { t with deps := t.deps ++ [{ items := tileItems i.words }] } else t), ?_, ?_⟩
  · unfold startTile
    simp only [hcherry, hA, hB, hA ▸ hbfp, ne_eq, not_false_eq_true, if_true, hbad, unitDeny_nil, ha, hb, hcols,
      addDep_of_not_cherry hcherry, halfList, Bool.false_eq_true, if_false, List.foldl, Nat.add_zero]
    rw [tileEvents_of_plainSums]
    · exact (onlyClu_setClu_self s c _).update (fun x => { x with tiles := x.tiles ++ [intTile s c wide i serial] })
    · exact plainSums_intTile s c serial hA
  · rw [List.map_map]
    refine List.map_congr_left (fun t _ => ?_)
    simp only [Function.comp_apply]
    split <;> rfl

/-- The scratchpad bytes that an element is read from depend on no other part of a cluster. -/
theorem intElem_of_onlyClu {s t : State} {c : Nat} {x : Cluster} (h : OnlyClu s t c x) (hsp : x.sp = (clu s c).sp) (wide : Bool)
    (a k : Nat) : intElem t c wide a k = intElem s c wide a k := by
  have hsp' : ∀ d, (clu t d).sp = (clu s d).sp := fun d => by
    rw [h.2 d]
    split
    case isTrue hd => rw [hd, hsp]
    case isFalse => rfl
  have hbyte : ∀ b, nsByte t c b = nsByte s c b := fun b => by
    have hloc : nsLoc t c b = nsLoc s c b := by rw [h.1]; rfl
    unfold nsByte
    rw [hloc]
    cases nsLoc s c b with
    | none => rfl
    | some e => simp only [hsp']
  simp only [intElem, hbyte]

theorem intTile_of_onlyClu {s t : State} {c : Nat} {x : Cluster} (h : OnlyClu s t c x) (hsp : x.sp = (clu s c).sp) (wide : Bool)
    (i : Issued) (serial : Nat) : intTile t c wide i serial = intTile s c wide i serial := by
  have hA : aInt t c wide i.words = aInt s c wide i.words := funext fun r => funext fun e => intElem_of_onlyClu h hsp wide _ e
  have hB : bInt t c wide i.words = bInt s c wide i.words := funext fun q => funext fun e => intElem_of_onlyClu h hsp wide _ e
  unfold intTile
  rw [hA, hB]

/-- Taking the head of the matrix stream. -/
theorem onlyClu_popMatrix (s : State) (c : Nat) : OnlyClu s (popMatrix s c) c { clu s c with mxq := (clu s c).mxq.tail } :=
  (onlyClu_refl s c).update (fun x => { x with mxq := x.mxq.tail })

/-- A consistent tile instruction starts once a bank is free and what it reads has drained. -/
theorem exec_tileInstruction_of_ready {s : State} {c n : Nat} {i : Issued} {q : List StreamEnt} {x : Job} (faults : List CellFault)
    (hmxq : (clu s c).mxq = .instr i n :: q) (hjob : job? s i.job = some x) (hcherry : cherry s c = false)
    (hbad : tileBad s x c i.words = none) (hbank : banksHeld s c < 2) (hwaits : tileWaits s c i.words = false) :
    exec (.tileInstruction c faults) s = .next (startTile (popMatrix s c) c i.job i n faults) := by
  have hexec : exec (.tileInstruction c faults) s = .next (tileStep s c faults) := rfl
  have hfree : ¬ banksHeld s c ≥ 2 := not_le.2 hbank
  rw [hexec]
  simp only [tileStep, hmxq, hjob, hbad, halves_of_not_cherry hcherry, List.any_cons, List.any_nil, hfree, decide_false, hwaits,
    Bool.or_self, Bool.false_eq_true, if_false]

end Sys2Proof.Machine
end

section

namespace Sys2Proof.Proofs

open Sys2Proof Sys2Proof.Machine

/-- Settles O10: at most 2^32 products of INT16 elements stay far inside the 96-bit range, so every step of a sum is exact. -/
theorem tileInstructionsComputeExactSums : Obligations.TileInstructionsComputeExactSums := by
  unfold Obligations.TileInstructionsComputeExactSums
  intro s c n i q x wide hmxq hjob hcherry hbad hfmt hbank hwaits hadm
  have hA : fmtA i.words = intFmt wide := hfmt
  have hB : fmtB i.words = intFmt wide :=
    (fmtB_of_tileBad_none hbad (by rw [hA]; cases wide <;> rfl)).trans hA
  have hpop := onlyClu_popMatrix s c
  rw [hmxq] at hpop
  obtain ⟨old, hstart, hold⟩ := startTile_int (s := popMatrix s c) (c := c) i.job n
    ((cherry_of_onlyClu hpop c).trans hcherry) hA hB hadm
  rw [intTile_of_onlyClu hpop rfl] at hstart
  have hclu : clu (startTile (popMatrix s c) c i.job i n []) c =
      { clu s c with mxq := q, tiles := old ++ [intTile s c wide i n] } :=
    hstart.clu_self.trans (congrArg (fun z : Cluster => { z with tiles := old ++ [intTile s c wide i n] }) hpop.clu_self)
  rw [hpop.clu_self] at hold
  have hrows := rows_intTile s c n hA
  refine ⟨_, intTile s c wide i n, exec_tileInstruction_of_ready [] hmxq hjob hcherry hbad hbank hwaits, (hpop.trans hstart).1,
    fun d hd => by rw [(hpop.trans hstart).2 d, if_neg hd], by rw [hclu], ⟨old, by rw [hclu], hold⟩, rfl, rfl,
    csumSkipped_of_plainSums (plainSums_intTile s c n hA), by rw [hrows]; simp, fun r k hr hk => ?_⟩
  have hcplx : (intTile s c wide i n).cplx = false := tileCplx_of_intFmt hA
  rw [bankVal, hrows, hcplx, if_neg (by decide), getD_map_range _ _ hr, getD_map_range _ _ hk]
  rfl

end Sys2Proof.Proofs
end

section
/-! What the misfit decision does (02 R66-R69): the record of the choice in a trace (20 R597), the event, and O19. -/

namespace Sys2Proof.Machine

open Sys2Proof

variable (s : State)

/-! ### What a trace record leaves alone (20 R597, R599) -/

/-- A state that differs in the pages, what was sent and the recorder. -/
def OnlyNoted (s t : State) : Prop := t = { s with pg := t.pg, out := t.out, trace := t.trace }

theorem OnlyNoted.trans {s t u : State} (h : OnlyNoted s t) (h' : OnlyNoted t u) : OnlyNoted s u := by
  unfold OnlyNoted at h h'
  rw [h] at h'
  exact h'

theorem onlyNoted_of_pages (pg : Pages) : OnlyNoted s { s with pg := pg } := rfl

theorem onlyNoted_raise (c i b : Nat) : OnlyNoted s (raise s c i b) := by
  obtain ⟨o, a, h⟩ := raise_eq s c i b
  rw [h]; rfl

theorem job_of_onlyNoted {s t : State} (h : OnlyNoted s t) (i : Nat) : job? t i = job? s i := by rw [h]; rfl
theorem objVal_of_onlyNoted {s t : State} (h : OnlyNoted s t) (i : Nat) : objVal t i = objVal s i := by rw [h]; rfl
theorem waits_of_onlyNoted {s t : State} (h : OnlyNoted s t) : t.sync.waits = s.sync.waits := by rw [h]

/-- Forming a record moreover leaves every register but those of page 0. -/
def OnlyRecorded (s t : State) : Prop := OnlyNoted s t ∧ ∀ r i sel, 4096 ≤ r → rg t r i sel = rg s r i sel

theorem OnlyRecorded.refl : OnlyRecorded s s := ⟨rfl, fun _ _ _ _ => rfl⟩

theorem OnlyRecorded.trans {s t u : State} (h : OnlyRecorded s t) (h' : OnlyRecorded t u) : OnlyRecorded s u :=
  ⟨h.1.trans h'.1, fun r i sel hr => (h'.2 r i sel hr).trans (h.2 r i sel hr)⟩

theorem onlyRecorded_setRec (x : Tracer) : OnlyRecorded s (setRec s x) := ⟨rfl, fun _ _ _ _ => rfl⟩

/-- A register of page 0 lies below those of every other page. -/
theorem rkey_page0_ne {r r' i' sel' : Nat} (hr : r < 4096) (hr' : 4096 ≤ r') : rkey r' i' sel' ≠ rkey r 0 0 := by
  unfold rkey; omega

theorem onlyRecorded_setRg {r : Nat} (v : Word) (hr : r < 4096) : OnlyRecorded s (setRg s r 0 0 v) :=
  ⟨onlyNoted_of_pages s _, fun _ _ _ hr' => rg_setRg_ne s v (rkey_page0_ne hr hr')⟩

theorem onlyRecorded_raise_page0 (b : Nat) : OnlyRecorded s (raise s 0 0 b) := by
  refine ⟨onlyNoted_raise s 0 0 b, fun r i sel hr => ?_⟩
  rw [rg_raise, if_neg (rkey_page0_ne (by decide) hr), if_neg (rkey_page0_ne (by decide) hr)]

theorem onlyRecorded_recStage (type : Nat) (cont : Bool) (body : List Byte) :
    OnlyRecorded s (recStage s type cont body) := by
  unfold recStage
  simp only
  split
  · exact ((onlyRecorded_setRec s _).trans (onlyRecorded_setRg _ _ (by decide))).trans (onlyRecorded_raise_page0 _ _)
  · exact onlyRecorded_setRec s _

theorem onlyRecorded_record (p type : Nat) (body : List Byte) : OnlyRecorded s (record s p type body) := by
  have parts : ∀ (bs : List (List Byte)) (s : State) (cont : Bool),
      OnlyRecorded s (bs.foldl (fun (q : State × Bool) b => (recStage q.1 type q.2 b, true)) (s, cont)).1 := by
    intro bs
    induction bs with
    | nil => exact fun s _ => OnlyRecorded.refl s
    | cons b bs ih => exact fun s cont => (onlyRecorded_recStage s type cont b).trans (ih _ true)
  unfold record
  split
  · exact parts (recParts (body.length / 1048540 + 1) body) s false
  · exact OnlyRecorded.refl s

theorem onlyRecorded_forcedMet (choice j : Nat) : OnlyRecorded s (forcedMet s choice j) := by
  unfold forcedMet
  split
  · exact onlyRecorded_setRec s _
  · exact OnlyRecorded.refl s

/-! ### The decision -/

/-- A bit raised reads as set, whatever stood there. -/
theorem bit_or_bitW (w : Word) {b : Nat} (hb : b < 32) : bit (w ||| bitW b) b = true := by
  rw [bit, bitW, BitVec.getLsbD_or, BitVec.getLsbD_ofNat, Nat.testBit_two_pow_self, decide_eq_true hb]; simp

/-- The state once the choice `k` is known: the event of R66 raised, the choice recorded (20 R592). -/
def misfitNoted (c j k : Nat) (y : Job) : State := decision (raise (forcedMet s 0 j) 16 c 5) y.part 0 j k y.ran

theorem onlyNoted_misfitNoted (c j k : Nat) (y : Job) : OnlyNoted s (misfitNoted s c j k y) :=
  ((onlyRecorded_forcedMet s 0 j).1.trans (onlyNoted_raise _ 16 c 5)).trans (onlyRecorded_record _ _ _ _).1

theorem evt_misfitNoted (c j k : Nat) (y : Job) : bit (rg (misfitNoted s c j k y) (16 * 4096 + HDR_EVT) c 0) 5 = true := by
  have hevt : rg (misfitNoted s c j k y) (16 * 4096 + HDR_EVT) c 0 =
      rg (forcedMet s 0 j) (16 * 4096 + HDR_EVT) c 0 ||| bitW 5 :=
    ((onlyRecorded_record _ _ _ _).2 _ _ _ (by decide)).trans (by rw [rg_raise, if_pos rfl])
  rw [hevt]
  exact bit_or_bitW _ (by decide)

/-- What follows the choice `k` (R67, R68): 0 a re-run with the counter at 0, 1 the fallback, 2 the mark of a suspect item. -/
def misfitTaken (s : State) (c layer ctr item j o k : Nat) : State :=
  if k = 0 then evalObj (objPut (modJob s j (fun y => { y with reran := y.reran ++ [(layer, ctr)] })) o 0 (clHandle s c)) o
  else if k = 1 then modJob s j (fun y => { y.blame 1 s.tmu.ticks [item] with misfits := y.misfits ++ [item] })
  else markItems s j 1 [item] (some c)

/-- May the layer run again (R67)? -/
def misfitAble (s : State) (g : Gen) (sc : Sect) (y : Job) (layer ctr l : Nat) : Bool :=
  let w (k : Nat) : Word := gword s g (sc.off + 32 * layer + 4 * k)
  bit (w 1) 0 && decide ((layer, ctr) ∉ y.reran ∧ nowNs s + acycNs ((w 2).toNat + (w 3).toNat) (divOf s l) ≤ y.deadline)

section
variable {s : State} {c layer ctr item j o l : Nat} {y : Job} {g : Gen} {sc : Sect}
  (hrun : running s c = some (j, y, g)) (hsect : sect? g 9 = some sc) (hsize : 32 * (layer + 1) ≤ sc.size)
  (hobj : jobObj s y ctr = some o) (hdrained : layerDrained s y ctr = true)

include hrun hsect hobj in
/-- Up to the limit the decision leaves the state. -/
theorem exec_misfitDecision_within (hle : objVal s o ≤ gword s g (sc.off + 32 * layer + 4 * 0)) :
    exec (.misfitDecision c layer ctr item) s = .next s := by
  have hexec : exec (.misfitDecision c layer ctr item) s = execMisfitDecision c layer ctr item s := rfl
  rw [hexec]
  unfold execMisfitDecision
  simp only [hrun, hsect, hobj]
  rw [if_pos (Or.inr (Or.inr (BitVec.le_def.1 hle)))]

include hrun hsect hsize hobj hdrained in
/-- Beyond the limit the choice is noted and carried out. -/
theorem exec_misfitDecision_beyond (hlog : logOf s c = some l) (hreplay : replaying s y.part = false)
    (hlt : gword s g (sc.off + 32 * layer + 4 * 0) < objVal s o) :
    let k := if misfitAble s g sc y layer ctr l = true then 0 else if isRS s y.part = true then 1 else 2
    exec (.misfitDecision c layer ctr item) s = .next (misfitTaken (misfitNoted s c j k y) c layer ctr item j o k) := by
  have hgo : ¬ (sc.size < 32 * (layer + 1) ∨ (!layerDrained s y ctr) = true ∨
      (objVal s o).toNat ≤ (gword s g (sc.off + 32 * layer + 4 * 0)).toNat) := by
    simp only [hdrained, Bool.not_true, Bool.false_eq_true, false_or, not_or, not_lt, not_le]
    exact ⟨hsize, hlt⟩
  have hexec : exec (.misfitDecision c layer ctr item) s = execMisfitDecision c layer ctr item s := rfl
  rw [hexec]
  unfold execMisfitDecision
  simp only [hrun, hsect, hobj]
  rw [if_neg hgo]
  simp only [hlog, hreplay, Bool.false_eq_true, if_false]
  rfl

end

/-! ### The three outcomes -/

/-- What a decision may change: the pages, what is sent, the recorder, the jobs, and the values of objects. -/
def MisfitFrame (s t : State) : Prop :=
  t = { s with pg := t.pg, out := t.out, trace := t.trace, disp := { s.disp with jobs := t.disp.jobs },
               sync := { s.sync with objs := t.sync.objs, lastw := t.sync.lastw } }

theorem misfitFrame_setJob {s u : State} (h : OnlyNoted s u) (j : Nat) (z : Option Job) : MisfitFrame s (setJob u j z) := by
  unfold OnlyNoted at h
  rw [h]; rfl

theorem misfitFrame_objPut {s t : State} (h : MisfitFrame s t) (o : Nat) (v unit : Word) : MisfitFrame s (objPut t o v unit) := by
  unfold MisfitFrame at h
  rw [h]; rfl

@[simp] theorem rg_objPut (o r i sel : Nat) (v unit : Word) : rg (objPut s o v unit) r i sel = rg s r i sel := rfl
@[simp] theorem job_objPut (o i : Nat) (v unit : Word) : job? (objPut s o v unit) i = job? s i := rfl
@[simp] theorem objVal_setJob (j i : Nat) (z : Option Job) : objVal (setJob s j z) i = objVal s i := rfl

/-- A job changed after the choice is noted is the one job changed, and no object is. -/
theorem job_noted_setJob {s u : State} (h : OnlyNoted s u) (z : Option Job) {i j : Nat} (hi : i ≠ j) :
    job? (setJob u j z) i = job? s i := by
  rw [job_setJob, if_neg hi, job_of_onlyNoted h]

theorem objVal_noted_setJob {s u : State} (h : OnlyNoted s u) (z : Option Job) (i j : Nat) :
    objVal (setJob u j z) i = objVal s i := by
  rw [objVal_setJob, objVal_of_onlyNoted h]

/-- An object that nobody waits on is left as it was put. -/
theorem evalObj_of_no_waits {s : State} (h : s.sync.waits = []) (o : Nat) : evalObj s o = s := by
  simp [evalObj, h, serveOthers, serveAcquires]

@[simp] theorem objVal_objPut (o i : Nat) (v unit : Word) : objVal (objPut s o v unit) i = if i = o then v else objVal s i := by
  simp [objVal, objPut]

theorem modJob_of_job {s : State} {j : Nat} {y : Job} (h : job? s j = some y) (f : Job → Job) :
    modJob s j f = setJob s j (some (f y)) := by
  simp [modJob, h]

/-- A mark of a suspect item changes the job alone: no FAULT is raised. -/
theorem markItems_suspect_of_job {s : State} {j : Nat} {y : Job} (h : job? s j = some y) (idxs : List Nat) (c : Option Nat) :
    markItems s j 1 idxs c = setJob s j (some (y.markAll 1 idxs)) := by
  unfold markItems
  cases c <;> simp [h]

theorem misfitTaken_rerun {s : State} {j : Nat} {y : Job} (hjob : job? s j = some y) (hwaits : s.sync.waits = [])
    (c layer ctr item o : Nat) : misfitTaken s c layer ctr item j o 0 =
      objPut (setJob s j (some { y with reran := y.reran ++ [(layer, ctr)] })) o 0 (clHandle s c) := by
  unfold misfitTaken
  rw [if_pos rfl, modJob_of_job hjob]
  apply evalObj_of_no_waits
  exact hwaits

theorem misfitTaken_fallback {s : State} {j : Nat} {y : Job} (hjob : job? s j = some y) (c layer ctr item o : Nat) :
    misfitTaken s c layer ctr item j o 1 =
      setJob s j (some { y.blame 1 s.tmu.ticks [item] with misfits := y.misfits ++ [item] }) := by
  unfold misfitTaken
  rw [if_neg (by decide), if_pos rfl, modJob_of_job hjob]

theorem misfitTaken_suspect {s : State} {j : Nat} {y : Job} (hjob : job? s j = some y) (c layer ctr item o : Nat) :
    misfitTaken s c layer ctr item j o 2 = setJob s j (some (y.markAll 1 [item])) := by
  unfold misfitTaken
  rw [if_neg (by decide), if_neg (by decide), markItems_suspect_of_job hjob]

end Sys2Proof.Machine
end

section

namespace Sys2Proof.Proofs

open Sys2Proof Sys2Proof.Machine

/-- Settles O19: the event and the record of the choice touch neither jobs nor objects, so each outcome is the one update of
its choice. -/
theorem misfitDecisionChooses : Obligations.MisfitDecisionChooses := by
  unfold Obligations.MisfitDecisionChooses
  intro s c layer ctr item j y g sc o l hrun hsect hsize hobj hdrained hlog hreplay hwaits w rerun
  refine ⟨fun hle => exec_misfitDecision_within hrun hsect hobj hle, fun hlt => ?_⟩
  have hexec := exec_misfitDecision_beyond (item := item) hrun hsect hsize hobj hdrained hlog hreplay hlt
  have hable : misfitAble s g sc y layer ctr l = true ↔ rerun := by
    simp only [misfitAble, rerun, w, Bool.and_eq_true, decide_eq_true_eq]
  simp only [hable] at hexec
  have noted := fun k => onlyNoted_misfitNoted s c j k y
  have hjob : ∀ k, job? (misfitNoted s c j k y) j = some y := fun k =>
    (job_of_onlyNoted (noted k) j).trans (running_job hrun).2
  have hevt := fun k => evt_misfitNoted s c j k y
  by_cases hre : rerun
  case pos =>
    simp only [if_pos hre, misfitTaken_rerun (hjob 0) ((waits_of_onlyNoted (noted 0)).trans hwaits)] at hexec
    refine ⟨_, { y with reran := y.reran ++ [(layer, ctr)] }, hexec, by simp,
      misfitFrame_objPut (misfitFrame_setJob (noted 0) _ _) _ _ _, fun i hi => job_noted_setJob (noted 0) _ hi, fun i hi => ?_,
      by rw [rg_objPut, rg_setJob]; exact hevt 0, fun _ => ⟨by simp, rfl, rfl, rfl⟩, fun h => absurd hre h⟩
    rw [objVal_objPut, if_neg hi, objVal_noted_setJob (noted 0)]
  case neg =>
    simp only [if_neg hre] at hexec
    cases hrs : isRS s y.part
    case true =>
      simp only [hrs, if_true, misfitTaken_fallback (hjob 1)] at hexec
      exact ⟨_, { y.blame 1 (misfitNoted s c j 1 y).tmu.ticks [item] with misfits := y.misfits ++ [item] }, hexec, by simp,
        misfitFrame_setJob (noted 1) _ _, fun i hi => job_noted_setJob (noted 1) _ hi,
        fun i _ => objVal_noted_setJob (noted 1) _ i j, by rw [rg_setJob]; exact hevt 1, fun h => absurd h hre,
        fun _ => ⟨objVal_noted_setJob (noted 1) _ o j, rfl, fun _ => ⟨rfl, rfl⟩, fun h => absurd h (by decide)⟩⟩
    case false =>
      simp only [hrs, Bool.false_eq_true, if_false, misfitTaken_suspect (hjob 2)] at hexec
      have hsame := markAll_same 1 [item] y
      exact ⟨_, y.markAll 1 [item], hexec, by simp, misfitFrame_setJob (noted 2) _ _,
        fun i hi => job_noted_setJob (noted 2) _ hi, fun i _ => objVal_noted_setJob (noted 2) _ i j, by rw [rg_setJob]; exact hevt 2,
        fun h => absurd h hre, fun _ => ⟨objVal_noted_setJob (noted 2) _ o j, by rw [hsame], fun h => absurd h (by decide),
          fun _ => ⟨by rw [hsame], markAll_marks 1 [item] y item (List.mem_singleton_self item)⟩⟩⟩

end Sys2Proof.Proofs
end

section
/-! Checksums of a tile (02 R47, R48; 03 R90, R91, R94): the bank holds the exact sums plus what a fault adds, and O11. -/

namespace Sys2Proof.Machine

open Sys2Proof

/-! ### Values kept modulo a power of two -/

theorem wrapS_eq_bmod (n : Nat) (x : Int) : wrapS (n + 1) x = x.bmod (2 ^ (n + 1)) := by
  have hpow : 2 ^ (n + 1) = 2 * 2 ^ n := Nat.pow_succ'
  have hpos : 0 < 2 ^ n := Nat.two_pow_pos n
  have hnonneg : 0 ≤ x % (2 ^ (n + 1) : Nat) := Int.emod_nonneg _ (by omega)
  have hlt : x % (2 ^ (n + 1) : Nat) < (2 ^ (n + 1) : Nat) := Int.emod_lt_of_pos _ (by omega)
  unfold wrapS sgn wrapN Int.bmod
  rw [Nat.mod_eq_of_lt (by omega), Nat.add_sub_cancel]
  simp only
  split <;> split <;> omega

/-- Two sums agree in a checksum register when 2^104 divides their difference. -/
theorem cs104_eq_iff {x y : Int} : cs104 x = cs104 y ↔ (2 ^ 104 : Int) ∣ x - y := by
  unfold cs104
  rw [wrapS_eq_bmod 103, wrapS_eq_bmod 103, Int.bmod_eq_bmod_iff_bmod_sub_eq_zero, ← Int.dvd_iff_bmod_eq_zero]
  rfl

/-- The signed range of a Long Register (R47). -/
def InRange96 (x : Int) : Prop := -2 ^ 95 ≤ x ∧ x < 2 ^ 95

theorem inRange96_clampS (x : Int) : InRange96 (clampS 96 x) := by
  unfold InRange96 clampS smax smin
  split
  · omega
  · split <;> omega

theorem inRange96_wrapS (x : Int) : InRange96 (wrapS 96 x) := by
  unfold InRange96 wrapS sgn wrapN
  split <;> omega

theorem wrapS96_of_inRange {x : Int} (h : InRange96 x) : wrapS 96 x = x := by
  unfold InRange96 at h
  unfold wrapS sgn wrapN
  split <;> omega

/-- A value struck by `d` that is no multiple of 2^96 moves, by less than 2^96. -/
theorem wrapS96_add_sub {x d : Int} (hx : InRange96 x) (hd : ¬ (2 ^ 96 : Int) ∣ d) :
    wrapS 96 (x + d) - x ≠ 0 ∧ |wrapS 96 (x + d) - x| < 2 ^ 96 := by
  have hy := inRange96_wrapS (x + d)
  have hmod : wrapS 96 (x + d) % 2 ^ 96 = (x + d) % 2 ^ 96 := by
    rw [wrapS_eq_bmod 95]; exact Int.bmod_emod
  unfold InRange96 at hx hy
  rw [abs_lt]
  omega

/-! ### Sums that did not saturate are exact (R47, R48) -/

/-- `l'` is `l` after additions of `x` in all: unless it saturated, neither did `l`, and it holds the exact sum. -/
def ExactStep (l l' : LSum) (x : Int) : Prop := l'.lsat = false → l.lsat = false ∧ l'.v = l.v + x

theorem ExactStep.refl (l : LSum) : ExactStep l l 0 := fun h => ⟨h, (add_zero _).symm⟩

theorem ExactStep.trans {l l' l'' : LSum} {x y : Int} (h : ExactStep l l' x) (h' : ExactStep l' l'' y) :
    ExactStep l l'' (x + y) := by
  intro hsat
  obtain ⟨hsat', hv'⟩ := h' hsat
  obtain ⟨hsat'', hv⟩ := h hsat'
  exact ⟨hsat'', by rw [hv', hv, add_assoc]⟩

theorem exactStep_add (l : LSum) (x : Int) (win nf fe : Bool) : ExactStep l (l.add x win nf fe) x := by
  intro hsat
  unfold LSum.add at hsat ⊢
  cases hl : l.lsat
  case true => simp [hl] at hsat
  case false =>
    simp only [hl, Bool.false_eq_true, if_false, clamp96, outS, Bool.or_eq_false_iff, decide_eq_false_iff_not, not_lt] at hsat ⊢
    obtain ⟨hmax, hmin⟩ := hsat
    exact ⟨trivial, by rw [clampS, if_neg (not_lt.2 hmax), if_neg (not_lt.2 hmin)]⟩

theorem inRange96_add {l : LSum} (h : InRange96 l.v) (x : Int) (win nf fe : Bool) : InRange96 (l.add x win nf fe).v := by
  unfold LSum.add
  cases hl : l.lsat
  case true => simpa [hl] using h
  case false => exact inRange96_clampS (l.v + x)

theorem dot_exact (fa fb : OpFmt) (eref : Nat) : ∀ (as bs : List El) (p : LSum × LSum),
    ExactStep p.1 (dot fa fb eref as bs p).1 (exactDot fa fb eref as bs).1 ∧
      ExactStep p.2 (dot fa fb eref as bs p).2 (exactDot fa fb eref as bs).2 := by
  intro as
  induction as with
  | nil => exact fun bs p => ⟨.refl _, .refl _⟩
  | cons a as ih =>
    intro bs p
    cases bs with
    | nil => exact ⟨.refl _, .refl _⟩
    | cons b bs =>
      obtain ⟨hre, him⟩ := ih bs (p.1.add (term fa fb eref a b).1 (term fa fb eref a b).2.2 (a.nf || b.nf) (a.fe || b.fe),
        p.2.add (term fa fb eref a b).2.1 (term fa fb eref a b).2.2 (a.nf || b.nf) (a.fe || b.fe))
      exact ⟨(exactStep_add _ _ _ _ _).trans hre, (exactStep_add _ _ _ _ _).trans him⟩

theorem inRange96_dot (fa fb : OpFmt) (eref : Nat) : ∀ (as bs : List El) (p : LSum × LSum), InRange96 p.1.v → InRange96 p.2.v →
    InRange96 (dot fa fb eref as bs p).1.v ∧ InRange96 (dot fa fb eref as bs p).2.v := by
  intro as
  induction as with
  | nil => exact fun bs p hre him => ⟨hre, him⟩
  | cons a as ih =>
    intro bs p hre him
    cases bs with
    | nil => exact ⟨hre, him⟩
    | cons b bs => exact ih bs _ (inRange96_add hre _ _ _ _) (inRange96_add him _ _ _ _)

/-! ### One sum of a tile -/

section
variable (i : Issued) (n eref : Nat) (as bs : List (List El)) (fs : List CellFault)

/-- What the array accumulates for row `r`, column `j` and a part, before any fault. -/
def cleanSum (r j : Nat) (imag : Bool) : LSum :=
  let p := dot (fmtA i.words) (fmtB i.words) eref (as.getD r []) (bs.getD j []) ({ v := 0 }, { v := 0 })
  if imag then p.2 else p.1

/-- The exact sum that the checksum registers count (R90). -/
def exactSum (r j : Nat) (imag : Bool) : Int :=
  let p := exactDot (fmtA i.words) (fmtB i.words) eref (as.getD r []) (bs.getD j [])
  if imag then p.2 else p.1

theorem cleanSum_exact {r j : Nat} {imag : Bool} (h : (cleanSum i eref as bs r j imag).lsat = false) :
    (cleanSum i eref as bs r j imag).v = exactSum i eref as bs r j imag := by
  obtain ⟨hre, him⟩ := dot_exact (fmtA i.words) (fmtB i.words) eref (as.getD r []) (bs.getD j []) ({ v := 0 }, { v := 0 })
  cases imag
  case false => exact (hre h).2.trans (zero_add _)
  case true => exact (him h).2.trans (zero_add _)

theorem inRange96_cleanSum (r j : Nat) (imag : Bool) : InRange96 (cleanSum i eref as bs r j imag).v := by
  obtain ⟨hre, him⟩ := inRange96_dot (fmtA i.words) (fmtB i.words) eref (as.getD r []) (bs.getD j []) ({ v := 0 }, { v := 0 })
    (by unfold InRange96; norm_num) (by unfold InRange96; norm_num)
  cases imag
  case false => exact hre
  case true => exact him

/-- Nothing is summed outside the rows and columns. -/
theorem exactSum_outside {r j : Nat} (h : as.length ≤ r ∨ bs.length ≤ j) (imag : Bool) : exactSum i eref as bs r j imag = 0 := by
  have hzero : exactDot (fmtA i.words) (fmtB i.words) eref (as.getD r []) (bs.getD j []) = (0, 0) := by
    rcases h with h | h
    · rw [List.getD_eq_default _ _ h]; rfl
    · rw [List.getD_eq_default _ _ h]; cases as.getD r [] <;> rfl
  unfold exactSum
  rw [hzero]
  cases imag <;> rfl

/-- The same sum as the bank holds it, with what faults add. -/
def bankSum (r j : Nat) (imag : Bool) : LSum :=
  { cleanSum i eref as bs r j imag with
    v := wrapS 96 ((cleanSum i eref as bs r j imag).v + faultAt (tileCplx i.words) (halfFaults (tileCplx i.words) 0 fs) r j imag) }

/-! ### The bank of a tile (R72, R79) -/

/-- A row of a complex tile has the real and the imaginary parts in turn. -/
theorem flatten_pairs {α : Type} (f g : Nat → α) (m : Nat) : ((List.range m).map (fun j => [f j, g j])).flatten =
    (List.range (2 * m)).map (fun e => if e % 2 = 1 then g (e / 2) else f (e / 2)) := by
  induction m with
  | zero => rfl
  | succ m ih =>
    have heven : 2 * m % 2 = 0 ∧ 2 * m / 2 = m := by omega
    have hodd : (2 * m + 1) % 2 = 1 ∧ (2 * m + 1) / 2 = m := by omega
    rw [show 2 * (m + 1) = 2 * m + 1 + 1 by omega]
    simp [List.range_succ, ih, heven, hodd]

/-- How many parts a sum has. -/
def partCount : Nat := if tileCplx i.words then 2 else 1

theorem tileParts_mkTile : tileParts (mkTile i n 0 eref as bs fs) = List.range (partCount i) := by
  change (if tileCplx i.words = true then [0, 1] else [0]) = _
  unfold partCount
  split <;> rfl

theorem length_rows_mkTile : (mkTile i n 0 eref as bs fs).rows.length = as.length := by simp [mkTile]

theorem rows_mkTile {r : Nat} (hr : r < as.length) : (mkTile i n 0 eref as bs fs).rows.getD r [] =
    (List.range (partCount i * bs.length)).map (fun e =>
      bankSum i eref as bs fs r (e / partCount i) (decide (e % partCount i = 1))) := by
  have hrow : (mkTile i n 0 eref as bs fs).rows.getD r [] = ((List.range bs.length).map (fun j =>
      if tileCplx i.words then [bankSum i eref as bs fs r j false, bankSum i eref as bs fs r j true]
      else [bankSum i eref as bs fs r j false])).flatten := getD_map_range _ _ hr
  rw [hrow]
  unfold partCount
  cases tileCplx i.words
  case false =>
    simp only [Bool.false_eq_true, if_false, one_mul, Nat.div_one, Nat.mod_one, zero_ne_one, decide_false]
    rw [← List.flatMap_def, ← List.map_eq_flatMap]
  case true =>
    simp only [if_true, flatten_pairs]
    refine List.map_congr_left (fun e _ => ?_)
    by_cases he : e % 2 = 1 <;> simp [he]

/-- One sum of a tile, by row, column and part; zero where the tile has none. -/
def bankLane (t : Tile) (r j part : Nat) : LSum :=
  (t.rows.getD r []).getD (if t.cplx then 2 * j + part else j) { v := 0 }

theorem bankVal_eq (t : Tile) (r j part : Nat) : bankVal t r j part = (bankLane t r j part).v := rfl

theorem bankLane_mkTile {r j q : Nat} (hr : r < as.length) (hj : j < bs.length) (hq : q < partCount i) :
    bankLane (mkTile i n 0 eref as bs fs) r j q = bankSum i eref as bs fs r j (decide (q = 1)) := by
  have hcplx : (mkTile i n 0 eref as bs fs).cplx = tileCplx i.words := rfl
  unfold bankLane
  rw [rows_mkTile i n eref as bs fs hr, hcplx]
  unfold partCount at *
  cases hc : tileCplx i.words
  case false =>
    simp only [hc, Bool.false_eq_true, if_false] at hq ⊢
    rw [getD_map_range _ _ (by omega), Nat.div_one, Nat.mod_one, show q = 0 by omega]
  case true =>
    simp only [hc, if_true] at hq ⊢
    rw [getD_map_range _ _ (by omega), show (2 * j + q) / 2 = j by omega, show (2 * j + q) % 2 = q by omega]

theorem bankLane_outside {r j : Nat} (h : as.length ≤ r ∨ bs.length ≤ j) {q : Nat} (hq : q < partCount i) :
    bankLane (mkTile i n 0 eref as bs fs) r j q = { v := 0 } := by
  have hcplx : (mkTile i n 0 eref as bs fs).cplx = tileCplx i.words := rfl
  unfold bankLane
  by_cases hr : r < as.length
  case pos =>
    have hj : bs.length ≤ j := h.resolve_left (by omega)
    rw [rows_mkTile i n eref as bs fs hr, hcplx]
    refine List.getD_eq_default _ _ ?_
    rw [List.length_map, List.length_range]
    unfold partCount at *
    split at hq
    case isTrue hc => simp only [hc, if_true]; omega
    case isFalse hc => simp only [hc, Bool.false_eq_true, if_false]; omega
  case neg =>
    rw [List.getD_eq_default (l := (mkTile i n 0 eref as bs fs).rows)]
    · simp
    · rw [length_rows_mkTile]; omega

/-- Where the comparison is not skipped no sum has saturated. -/
theorem lsat_bankLane {t : Tile} (h : csumSkipped t = false) (r j q : Nat) : (bankLane t r j q).lsat = false := by
  simp only [csumSkipped, List.any_eq_false, Bool.or_eq_true, not_or, Bool.not_eq_true] at h
  unfold bankLane
  by_cases hr : r < t.rows.length
  case pos =>
    set e := if t.cplx then 2 * j + q else j
    rw [List.getD_eq_getElem _ _ hr]
    by_cases he : e < t.rows[r].length
    · rw [List.getD_eq_getElem _ _ he]
      exact (h _ (List.getElem_mem hr) _ (List.getElem_mem he)).1
    · rw [List.getD_eq_default _ _ (by omega)]
  case neg =>
    have hrow : t.rows.getD r [] = [] := List.getD_eq_default _ _ (by omega)
    rw [hrow, List.getD_nil]

/-! ### What the comparison sees (R91) -/

/-- By how much a sum of the bank differs from the exact one. -/
def sumError (q r j : Nat) : Int :=
  bankVal (mkTile i n 0 eref as bs fs) r j q - exactSum i eref as bs r j (decide (q = 1))

theorem sumError_outside {r j : Nat} (h : as.length ≤ r ∨ bs.length ≤ j) {q : Nat} (hq : q < partCount i) :
    sumError i n eref as bs fs q r j = 0 := by
  rw [sumError, bankVal_eq, bankLane_outside i n eref as bs fs h hq, exactSum_outside i eref as bs h, sub_zero]

/-- The error of a sum is what the faults make of the exact one. -/
theorem sumError_inside (hskip : csumSkipped (mkTile i n 0 eref as bs fs) = false) {q r j : Nat} (hr : r < as.length)
    (hj : j < bs.length) (hq : q < partCount i) : ∃ x, InRange96 x ∧ sumError i n eref as bs fs q r j =
      wrapS 96 (x + faultAt (tileCplx i.words) (halfFaults (tileCplx i.words) 0 fs) r j (decide (q = 1))) - x := by
  have hlane := bankLane_mkTile i n eref as bs fs hr hj hq
  have hlsat := lsat_bankLane hskip r j q
  rw [hlane] at hlsat
  refine ⟨_, inRange96_cleanSum i eref as bs r j (decide (q = 1)), ?_⟩
  rw [sumError, bankVal_eq, hlane, ← cleanSum_exact i eref as bs hlsat]
  rfl

theorem filter_range_eq {m k : Nat} (hk : k < m) : (List.range m).filter (fun x => decide (x = k)) = [k] := by
  have hfilter : (List.range m).filter (fun x => x == k) = [k] := by
    rw [List.filter_beq, List.nodup_range.count, if_pos (List.mem_range.2 hk), List.replicate_one]
  exact hfilter

theorem sum_map_range (f : Nat → Int) (m : Nat) : ((List.range m).map f).sum = ∑ k ∈ Finset.range m, f k := rfl

theorem sum_map_getD {α : Type} (f : α → Int) (d : α) (l : List α) :
    (l.map f).sum = ∑ k ∈ Finset.range l.length, f (l.getD k d) := by
  rw [← sum_map_range]
  congr 1
  exact List.ext_getElem (by simp) (fun k hk hk' => by simp [List.getElem?_eq_getElem (show k < l.length by simpa using hk)])

/-- The parts of a tile's sums, real before imaginary. -/
theorem parts_eq : (if tileCplx i.words then [false, true] else [false]) = (List.range (partCount i)).map (fun q => decide (q = 1)) := by
  unfold partCount
  split <;> rfl

/-- A checksum register of a column: the exact sums of its rows, and what strikes the register itself (R90). -/
theorem csRow_mkTile {q j : Nat} (hq : q < partCount i) (hj : j < halfCols i.words) :
    ((mkTile i n 0 eref as bs fs).csRow.getD q []).getD j 0 =
      ∑ r ∈ Finset.range as.length, exactSum i eref as bs r j (decide (q = 1)) +
        faultCs (halfFaults (tileCplx i.words) 0 fs) true j (decide (q = 1)) := by
  unfold mkTile
  simp only [parts_eq, List.map_map]
  rw [getD_map_range _ _ hq, Function.comp_apply, getD_map_range _ _ hj, sum_map_getD _ []]
  rfl

/-- A checksum register of a row. -/
theorem csCol_mkTile {q r : Nat} (hq : q < partCount i) (hr : r < halfCols i.words) :
    ((mkTile i n 0 eref as bs fs).csCol.getD q []).getD r 0 =
      ∑ j ∈ Finset.range bs.length, exactSum i eref as bs r j (decide (q = 1)) +
        faultCs (halfFaults (tileCplx i.words) 0 fs) false r (decide (q = 1)) := by
  unfold mkTile
  simp only [parts_eq, List.map_map]
  rw [getD_map_range _ _ hq, Function.comp_apply, getD_map_range _ _ hr, sum_map_getD _ []]
  rfl

/-- Faults that strike sums inside the tile, and nothing else of it. -/
def StrikesSums : Prop := (mkTile i n 0 eref as bs fs).outside = [] ∧
  ∀ row k imag, faultCs (halfFaults (tileCplx i.words) 0 fs) row k imag = 0

variable (hsums : StrikesSums i n eref as bs fs) {q : Nat} (hq : q < partCount i)
include hsums hq

/-- A column is unequal when the errors of its sums add up to something that the register can tell from zero. -/
theorem badCols_mkTile : badCols (mkTile i n 0 eref as bs fs) q = (List.range (halfCols i.words)).filter (fun j =>
    decide (¬ (2 ^ 104 : Int) ∣ ∑ r ∈ Finset.range as.length, sumError i n eref as bs fs q r j)) := by
  obtain ⟨hout, hcs⟩ := hsums
  refine List.filter_congr (fun j hj => ?_)
  rw [decide_eq_decide, outsideSum, hout, List.map_nil, List.sum_nil, add_zero, length_rows_mkTile, ne_eq, cs104_eq_iff,
    csRow_mkTile i n eref as bs fs hq (List.mem_range.1 hj), hcs, add_zero, sum_map_range, ← Finset.sum_sub_distrib]
  rfl

/-- The same for a row. -/
theorem badRows_mkTile : badRows (mkTile i n 0 eref as bs fs) q = (List.range (halfCols i.words)).filter (fun r =>
    decide (¬ (2 ^ 104 : Int) ∣ ∑ j ∈ Finset.range bs.length, sumError i n eref as bs fs q r j)) := by
  obtain ⟨hout, hcs⟩ := hsums
  refine List.filter_congr (fun r hr => ?_)
  have hbank : ((List.range (((mkTile i n 0 eref as bs fs).rows.getD r []).length /
      (tileParts (mkTile i n 0 eref as bs fs)).length)).map (fun j => bankVal (mkTile i n 0 eref as bs fs) r j q)).sum =
      ∑ j ∈ Finset.range bs.length, bankVal (mkTile i n 0 eref as bs fs) r j q := by
    by_cases hrow : r < as.length
    case pos =>
      rw [rows_mkTile i n eref as bs fs hrow, tileParts_mkTile, List.length_map, List.length_range, List.length_range,
        Nat.mul_div_cancel_left _ (by omega), sum_map_range]
    case neg =>
      have hzero : ∀ j, bankVal (mkTile i n 0 eref as bs fs) r j q = 0 := fun j => by
        rw [bankVal_eq, bankLane_outside i n eref as bs fs (Or.inl (not_lt.1 hrow)) hq]
      simp [hzero]
  rw [decide_eq_decide, hbank, outsideSum, hout, List.map_nil, List.sum_nil, add_zero, ne_eq, cs104_eq_iff,
    csCol_mkTile i n eref as bs fs hq (List.mem_range.1 hr), hcs, add_zero, ← Finset.sum_sub_distrib]
  rfl

/-- Sums without errors agree. -/
theorem no_mismatch_of_exact (herr : ∀ r j, sumError i n eref as bs fs q r j = 0) :
    badRows (mkTile i n 0 eref as bs fs) q = [] ∧ badCols (mkTile i n 0 eref as bs fs) q = [] := by
  rw [badRows_mkTile i n eref as bs fs hsums hq, badCols_mkTile i n eref as bs fs hsums hq]
  simp [herr]

/-- One error that the registers can tell from zero is found in its row and in its column. -/
theorem mismatch_of_one_error {r k : Nat} {e : Int} (hr : r < as.length) (hk : k < bs.length) (hrows : as.length ≤ halfCols i.words)
    (hcols : bs.length ≤ halfCols i.words) (he : ¬ (2 ^ 104 : Int) ∣ e)
    (herr : ∀ r' j, sumError i n eref as bs fs q r' j = if r' = r ∧ j = k then e else 0) :
    badRows (mkTile i n 0 eref as bs fs) q = [r] ∧ badCols (mkTile i n 0 eref as bs fs) q = [k] := by
  have hrow : ∀ r', ∑ j ∈ Finset.range bs.length, sumError i n eref as bs fs q r' j = if r' = r then e else 0 := fun r' => by
    simp only [herr, ite_and]
    split <;> simp [hk]
  have hcol : ∀ j, ∑ r' ∈ Finset.range as.length, sumError i n eref as bs fs q r' j = if j = k then e else 0 := fun j => by
    simp only [herr, and_comm, ite_and]
    split <;> simp [hr]
  have hdvd : ∀ p : Prop, [Decidable p] → ((¬ (2 ^ 104 : Int) ∣ if p then e else 0) ↔ p) := fun p _ => by
    split <;> simp_all
  rw [badRows_mkTile i n eref as bs fs hsums hq, badCols_mkTile i n eref as bs fs hsums hq]
  simp only [hrow, hcol, hdvd]
  exact ⟨filter_range_eq (by omega), filter_range_eq (by omega)⟩

end

section
variable (i : Issued) (n eref : Nat) (as bs : List (List El))

/-- Without a fault every sum is exact. -/
theorem sumError_of_no_fault (hskip : csumSkipped (mkTile i n 0 eref as bs []) = false) {q : Nat} (hq : q < partCount i) (r j : Nat) :
    sumError i n eref as bs [] q r j = 0 := by
  by_cases h : r < as.length ∧ j < bs.length
  case pos =>
    obtain ⟨x, hx, herr⟩ := sumError_inside i n eref as bs [] hskip h.1 h.2 hq
    rw [herr, halfFaults_nil, faultAt_nil, add_zero, wrapS96_of_inRange hx, sub_self]
  case neg => exact sumError_outside i n eref as bs [] (by omega) hq

theorem strikesSums_nil : StrikesSums i n eref as bs [] := ⟨rfl, fun _ _ _ => rfl⟩

/-- R91: equal sums. -/
theorem not_mismatched_of_no_fault (hskip : csumSkipped (mkTile i n 0 eref as bs []) = false) :
    mismatched (mkTile i n 0 eref as bs []) = false := by
  rw [mismatched, tileParts_mkTile, List.any_eq_false]
  intro q hq
  have hq' := List.mem_range.1 hq
  obtain ⟨hrows, hcols⟩ := no_mismatch_of_exact i n eref as bs [] (strikesSums_nil i n eref as bs) hq'
    (sumError_of_no_fault i n eref as bs hskip hq')
  simp [hrows, hcols]

/-- A fault of one cell of a real tile, as its half sees it. -/
theorem halfFaults_cell {r k : Nat} (hr : r < 128) (hk : k < 128) (d : Int) :
    halfFaults false 0 [⟨.cell r k, false, d⟩] = [⟨.cell r k, false, d⟩] := by
  unfold halfFaults
  rw [List.filterMap_cons_some (b := ⟨.cell r k, false, d⟩)]
  · rfl
  · simp [hr, Nat.div_eq_of_lt hk, Nat.mod_eq_of_lt hk]

theorem strikesSums_cell (hcplx : tileCplx i.words = false) {r k : Nat} (hr : r < as.length) (hk : k < bs.length) (hr' : r < 128)
    (hk' : k < 128) (d : Int) : StrikesSums i n eref as bs [⟨.cell r k, false, d⟩] := by
  unfold StrikesSums mkTile
  simp only [hcplx, halfFaults_cell hr' hk']
  refine ⟨?_, fun row k imag => by simp [faultCs]⟩
  simp [faultSum, hr, hk]

/-- The fault moves the one sum, by less than 2^96. -/
theorem sumError_of_cell (hcplx : tileCplx i.words = false) {r k : Nat} (hr : r < as.length) (hk : k < bs.length) (hr' : r < 128)
    (hk' : k < 128) {d : Int} (hd : ¬ (2 ^ 96 : Int) ∣ d)
    (hskip : csumSkipped (mkTile i n 0 eref as bs [⟨.cell r k, false, d⟩]) = false) :
    ∃ e, ¬ (2 ^ 104 : Int) ∣ e ∧
      ∀ r' j, sumError i n eref as bs [⟨.cell r k, false, d⟩] 0 r' j = if r' = r ∧ j = k then e else 0 := by
  have hq : 0 < partCount i := by unfold partCount; split <;> decide
  have herr : ∀ r' j, r' < as.length → j < bs.length → ∃ x, InRange96 x ∧
      sumError i n eref as bs [⟨.cell r k, false, d⟩] 0 r' j = wrapS 96 (x + if r' = r ∧ j = k then d else 0) - x := by
    intro r' j hr'' hj
    obtain ⟨x, hx, herr⟩ := sumError_inside i n eref as bs _ hskip hr'' hj hq
    refine ⟨x, hx, herr.trans ?_⟩
    rw [hcplx, halfFaults_cell hr' hk']
    simp [faultAt, faultSum, eq_comm]
  obtain ⟨x, hx, hcell⟩ := herr r k hr hk
  rw [if_pos ⟨rfl, rfl⟩] at hcell
  obtain ⟨hne, hlt⟩ := wrapS96_add_sub hx hd
  refine ⟨_, fun hdvd => hne (Int.eq_zero_of_abs_lt_dvd hdvd (hlt.trans (by norm_num))), fun r' j => ?_⟩
  split
  case isTrue h => rw [h.1, h.2, hcell]
  case isFalse h =>
    by_cases hin : r' < as.length ∧ j < bs.length
    case pos =>
      obtain ⟨y, hy, herr⟩ := herr r' j hin.1 hin.2
      rw [herr, if_neg h, add_zero, wrapS96_of_inRange hy, sub_self]
    case neg => exact sumError_outside i n eref as bs _ (by omega) hq

end

end Sys2Proof.Machine
end

section

namespace Sys2Proof.Proofs

open Sys2Proof Sys2Proof.Machine

/-- Settles O11: sums that did not saturate are exact, so a row or column differs from its register by what faults add, which for
one sum is less than 2^96 and no multiple of 2^104. -/
theorem checksumsFindASingleFault : Obligations.ChecksumsFindASingleFault := by
  unfold Obligations.ChecksumsFindASingleFault
  intro i n eref as bs hrows hcols
  refine ⟨not_mismatched_of_no_fault i n eref as bs, ?_⟩
  intro hcplx r k d hr hk hd t hskip
  have hhalf : halfCols i.words = 128 := by simp [halfCols, hcplx]
  have hr' : r < 128 := by omega
  have hk' : k < 128 := by omega
  have hparts : partCount i = 1 := by simp [partCount, hcplx]
  obtain ⟨e, he, herr⟩ := sumError_of_cell i n eref as bs hcplx hr hk hr' hk' hd hskip
  obtain ⟨hbadRows, hbadCols⟩ := mismatch_of_one_error i n eref as bs _ (strikesSums_cell i n eref as bs hcplx hr hk hr' hk' d)
    (by omega) hr hk hrows hcols he herr
  refine ⟨?_, hbadRows, hbadCols⟩
  rw [mismatched, tileParts_mkTile, hparts]
  simp [t, hbadRows]

end Sys2Proof.Proofs
end

section
/-! A row of a tile drains to the scratchpad (03 R84, R85, R89, R98), and O12. -/

namespace Sys2Proof.Machine

open Sys2Proof

/-! ### Jobs whose items are not touched -/

/-- Putting a job back as it is changes nothing. -/
theorem setJob_self {s : State} {j : Nat} {x : Job} (hwf : twf (fun _ => none) s.disp.jobs = true) (h : job? s j = some x) :
    setJob s j (some x) = s := by
  have hjobs : tsetD none s.disp.jobs j (some x) = s.disp.jobs := by rw [← h]; exact tset_same _ _ _ hwf
  unfold setJob
  rw [hjobs]

theorem blame_no_items {s : State} {j : Nat} {x : Job} (hwf : twf (fun _ => none) s.disp.jobs = true) (h : job? s j = some x)
    (cause : Nat) : blame s j cause [] = s := by
  unfold blame
  rw [modJob_of_job h]
  exact setJob_self hwf h

theorem markItems_suspect_no_items {s : State} {j : Nat} {x : Job} (hwf : twf (fun _ => none) s.disp.jobs = true)
    (h : job? s j = some x) (c : Option Nat) : markItems s j 1 [] c = s := by
  rw [markItems_suspect_of_job h]
  exact setJob_self hwf h

/-! ### A row without flags marks nothing (R89) -/

theorem suspectItems_of_none (t : Tile) (r : Nat) {bad : List Bool} (h : ∀ b ∈ bad, b = false) : suspectItems t r bad = [] := by
  unfold suspectItems
  refine if_pos (List.filter_eq_nil_iff.2 (fun e he => ?_))
  have he' := List.mem_range.1 he
  rw [List.getD_eq_getElem _ _ he', h _ (List.getElem_mem he')]
  decide

theorem plainSums_row {t : Tile} (h : plainSums t) {r : Nat} : ∀ l ∈ t.rows.getD r [],
    l.lsat = false ∧ l.win = false ∧ l.nf = false ∧ l.fe = false := by
  by_cases hr : r < t.rows.length
  · rw [List.getD_eq_getElem _ _ hr]; exact h _ (List.getElem_mem hr)
  · rw [List.getD_eq_default _ _ (not_lt.1 hr)]; simp

theorem markRow_of_plain {s : State} {c : Nat} {t : Tile} {x : Job} {r : Nat} {outs : List DrainOut}
    (hwf : twf (fun _ => none) s.disp.jobs = true) (hjob : job? s t.ins.job = some x) (hplain : plainSums t)
    (houts : ∀ o ∈ outs, o.sat = false ∧ o.ls = false) : markRow s c t r outs = s := by
  have hrow := plainSums_row hplain (r := r)
  have hnf : suspectItems t r ((t.rows.getD r []).map LSum.nf) = [] := suspectItems_of_none _ _ (fun b hb => by
    obtain ⟨l, hl, rfl⟩ := List.mem_map.1 hb
    exact (hrow l hl).2.2.1)
  have hflag : ∀ e, e < (t.rows.getD r []).length → (let l := (t.rows.getD r []).getD e { v := 0 }
      let o := outs.getD e ⟨0, false, false⟩
      l.lsat || l.win || l.nf || o.sat || o.ls) = false := fun e he => by
    obtain ⟨hlsat, hwin, hnf, -⟩ := hrow _ (List.getElem_mem he)
    have hout : (outs.getD e ⟨0, false, false⟩).sat = false ∧ (outs.getD e ⟨0, false, false⟩).ls = false := by
      by_cases ho : e < outs.length
      · rw [List.getD_eq_getElem _ _ ho]; exact houts _ (List.getElem_mem ho)
      · rw [List.getD_eq_default _ _ (not_lt.1 ho)]; exact ⟨rfl, rfl⟩
    simp only [List.getD_eq_getElem _ _ he, hlsat, hwin, hnf, hout, Bool.or_self]
  have hfe : t.rows.any (fun q => q.any LSum.fe) = false := by
    simp only [List.any_eq_false, Bool.not_eq_true]
    exact fun q hq l hl => (hplain q hq l hl).2.2.2
  unfold markRow
  simp only [hnf, blame_no_items hwf hjob, hfe, Bool.false_eq_true, if_false]
  rw [suspectItems_of_none, markItems_suspect_no_items hwf hjob]
  intro b hb
  obtain ⟨e, he, rfl⟩ := List.mem_map.1 hb
  exact hflag e (List.mem_range.1 he)

/-! ### The tile that drains -/

theorem steps_of_scratchpad {t : Tile} (h : tileDest t.ins.words = false) : t.steps = tileM t.ins.words := by simp [Tile.steps, h]

theorem rowsDone_of_scratchpad {t : Tile} (h : tileDest t.ins.words = false) : t.rowsDone = t.drained :=
  if_pos (steps_of_scratchpad h)

theorem done_iff_of_scratchpad {t : Tile} (h : tileDest t.ins.words = false) : t.done = true ↔ tileM t.ins.words ≤ t.drained := by
  rw [Tile.done, steps_of_scratchpad h, decide_eq_true_eq]

/-- The tile once its next row has drained. -/
def rowOn (t : Tile) : Tile := { t with drained := t.drained + 1 }

@[simp] theorem rowOn_ins (t : Tile) : (rowOn t).ins = t.ins := rfl
@[simp] theorem rowOn_id (t : Tile) : (rowOn t).id = t.id := rfl
@[simp] theorem rowOn_drained (t : Tile) : (rowOn t).drained = t.drained + 1 := rfl

/-- The oldest tile that has still to drain, replaced, is the one of its number. -/
theorem find_updFirst_id {l : List Tile} {t t' : Tile} (hopen : l.find? (fun u => !u.done) = some t)
    (hid : l.find? (fun u => decide (u.id = t.id)) = some t) (hid' : t'.id = t.id) :
    (updFirst (fun v => !v.done) (fun _ => t') l).find? (fun v => decide (v.id = t.id)) = some t' := by
  have hdone : t.done = false := by simpa using List.find?_some hopen
  induction l with
  | nil => cases hopen
  | cons u l ih =>
    cases hu : u.done
    case false => simp [updFirst, hu, hid']
    case true =>
      have hne : u.id ≠ t.id := by
        intro heq
        rw [List.find?_cons_of_pos (by simpa using heq)] at hid
        obtain rfl := Option.some.inj hid
        rw [hu] at hdone
        cases hdone
      rw [List.find?_cons_of_neg (by simp [hu])] at hopen
      rw [List.find?_cons_of_neg (by simp [hne])] at hid
      simpa [updFirst, hu, hne] using ih hopen hid

/-! ### The row is stored -/

/-- The state once the next row of tile `t` is stored. -/
def rowDrained (s : State) (c : Nat) (t : Tile) : State :=
  setDraining (storeRow s (ownerOf s 16 c) c t t.drained (drainRowOut s (ownerOf s 16 c) c t t.drained)) c (rowOn t)

/-- Its cluster, with the row `bs` of `n` bytes at `a`: earlier mismatched data that the row covers is gone. -/
def rowTaken (x : Cluster) (t : Tile) (a n : Nat) (bs : List Byte) : Cluster :=
  { x with bad := x.bad.filter (fun q => !decide (a ≤ q.1 ∧ q.1 + q.2 ≤ a + n)), sp := x.sp.write a bs
           tiles := updFirst (fun v => !v.done) (fun _ => rowOn t) x.tiles }

theorem rowTaken_job (x : Cluster) (t : Tile) (a n : Nat) (bs : List Byte) : (rowTaken x t a n bs).job = x.job := rfl
theorem rowTaken_tiles (x : Cluster) (t : Tile) (a n : Nat) (bs : List Byte) :
    (rowTaken x t a n bs).tiles = updFirst (fun v => !v.done) (fun _ => rowOn t) x.tiles := rfl
theorem rowTaken_sp (x : Cluster) (t : Tile) (a n : Nat) (bs : List Byte) : (rowTaken x t a n bs).sp = x.sp.write a bs := rfl
theorem rowTaken_frame (x : Cluster) (t : Tile) (a n : Nat) (bs : List Byte) : rowTaken x t a n bs =
    { x with sp := (rowTaken x t a n bs).sp, tiles := (rowTaken x t a n bs).tiles, bad := (rowTaken x t a n bs).bad } := rfl

theorem OnlyClu.spWrite {s u : State} {c : Nat} {y : Cluster} (h : OnlyClu s u c y) (a : Nat) (bs : List Byte) :
    OnlyClu s (spWrite u c a bs) c { y with sp := y.sp.write a bs } :=
  h.update (fun y => { y with sp := y.sp.write a bs })

theorem OnlyClu.setDraining {s u : State} {c : Nat} {y : Cluster} (h : OnlyClu s u c y) (t : Tile) :
    OnlyClu s (setDraining u c t) c { y with tiles := updFirst (fun v => !v.done) (fun _ => t) y.tiles } :=
  h.update (fun y => { y with tiles := updFirst (fun v => !v.done) (fun _ => t) y.tiles })

theorem onlyClu_rowDrained {s : State} {c a n : Nat} {t : Tile} {bs : List Byte} (hcherry : cherry s c = false) (hhalf : t.half = 0)
    (hplace : outRow t.ins.words false 0 t.drained = (a, n)) (hbs : rowBytes t (drainRowOut s (ownerOf s 16 c) c t t.drained) = bs)
    (hne : bs ≠ []) (hfit : a + bs.length ≤ Config.spadBytes) (hbytes : deniedLines s (ownerOf s 16 c) c a bs.length = [])
    (hrow : deniedLines s (ownerOf s 16 c) c a n = []) : OnlyClu s (rowDrained s c t) c (rowTaken (clu s c) t a n bs) := by
  have hwrite : ∀ y, unitWrite (setClu s c y) (ownerOf s 16 c) c a bs = spWrite (setClu s c y) c a bs := fun y =>
    unitWrite_of_admitted (by rw [deniedLines_setClu]; exact hbytes) hcherry (List.length_pos_iff.2 hne) hfit
  unfold rowDrained storeRow
  simp only [hcherry, hhalf, hplace, hbs, hrow, unitDeny_nil, leadOf_of_not_cherry hcherry, hwrite]
  exact ((onlyClu_setClu_self s c _).spWrite a bs).setDraining (rowOn t)

/-- Whether a job is asked to yield does not depend on registers. -/
theorem noYield_wrapRg {s : State} {c : Nat} (h : noYield s c) (r i sel n : Nat) : noYield (wrapRg s r i sel n) c := h

/-- TILE_COUNT counts a tile in which nothing saturated (R98). -/
theorem drainEnd_of_no_sats (s : State) (c p : Nat) {t : Tile} (h : t.sats = 0) : drainEnd s c p t = wrapRg s MXE_TILE_COUNT c 0 1 := by
  unfold drainEnd
  rw [if_pos (Or.inr h)]

section
variable {s : State} {c : Nat} {t : Tile} {x : Job}
  (hopen : (clu s c).tiles.find? (fun u => !u.done) = some t)
  (hid : (clu s c).tiles.find? (fun u => decide (u.id = t.id)) = some t) (hcherry : cherry s c = false) (hno : noYield s c)
  (hwf : twf (fun _ => none) s.disp.jobs = true) (hjob : job? s t.ins.job = some x) (hdest : tileDest t.ins.words = false)
  (hhalf : t.half = 0) (hsats : t.sats = 0) (hplain : plainSums t) (hrow : t.rows.getD t.drained [] ≠ [])
  (houts : ∀ o ∈ drainRowOut s (ownerOf s 16 c) c t t.drained, o.sat = false ∧ o.ls = false)
  (hrscl : tileRscl t.ins.words = true →
    deniedLines s (ownerOf s 16 c) c (rsclRange t.ins.words false 0).1 (rsclRange t.ins.words false 0).2 = [])
  {y : Cluster} (hdrained : OnlyClu s (rowDrained s c t) c y)
  (htiles : y.tiles = updFirst (fun v => !v.done) (fun _ => rowOn t) (clu s c).tiles)
  (hyjob : y.job = (clu s c).job)

include hopen hcherry hwf hjob hdest hhalf hplain hrow houts hrscl in
/-- A row without flags is stored and nothing is marked; what follows the last one is the end of the drain. -/
theorem drainStep_scratchpad : drainStep s c =
    if (rowOn t).done = true ∧
        ((clu (rowDrained s c t) c).tiles.find? (fun v => decide (v.id = t.id))).any Tile.done = true then
      drainEnd (rowDrained s c t) c (ownerOf s 16 c) (rowOn t)
    else rowDrained s c t := by
  have hsat : (drainRowOut s (ownerOf s 16 c) c t t.drained).filter DrainOut.sat = [] :=
    List.filter_eq_nil_iff.2 (fun o ho => by simp [(houts o ho).1])
  have hls : (drainRowOut s (ownerOf s 16 c) c t t.drained).any DrainOut.ls = false := by
    simp only [List.any_eq_false, Bool.not_eq_true]
    exact fun o ho => (houts o ho).2
  have hrecords : (if t.drained = 0 ∧ tileRscl t.ins.words = true then
      unitDeny s t.ins.job (ownerOf s 16 c) c (deniedLines s (ownerOf s 16 c) c (rsclRange t.ins.words false t.half).1
        (rsclRange t.ins.words false t.half).2) false (tileItems t.ins.words) else s) = s := by
    split
    case isTrue h => rw [hhalf, hrscl h.2, unitDeny_nil]
    case isFalse => rfl
  unfold drainStep
  simp only [hopen, hdest, rowsDone_of_scratchpad hdest, hrow, decide_false, decide_true, Bool.true_or, Bool.not_true,
    Bool.false_eq_true, false_and, if_false, if_true, markRow_of_plain hwf hjob hplain houts, hls, hcherry, hrecords, hsat,
    List.length_nil, Nat.add_zero, steps_of_scratchpad hdest, rowDrained]
  rfl

include hopen hid hcherry hno hwf hjob hdest hhalf hsats hplain hrow houts hrscl hdrained htiles hyjob in
/-- The row drains; the last one of the tile counts in TILE_COUNT. -/
theorem exec_drainRow_scratchpad : exec (.drainRow c) s = .next (if t.drained + 1 = tileM t.ins.words then
    wrapRg (rowDrained s c t) MXE_TILE_COUNT c 0 1 else rowDrained s c t) := by
  have hexec : exec (.drainRow c) s = .next (afterEngine (drainStep s c) c) := rfl
  have hopen' : t.drained < tileM t.ins.words := by
    have hdone : ¬ t.done = true := by simpa using List.find?_some hopen
    rw [done_iff_of_scratchpad hdest] at hdone
    omega
  have hlast : ((rowOn t).done = true ∧
      ((clu (rowDrained s c t) c).tiles.find? (fun v => decide (v.id = t.id))).any Tile.done = true) ↔
      t.drained + 1 = tileM t.ins.words := by
    rw [hdrained.clu_self, htiles, find_updFirst_id hopen hid (rowOn_id t), Option.any_some, and_self,
      done_iff_of_scratchpad (t := rowOn t) hdest]
    simp only [rowOn_ins, rowOn_drained]
    omega
  have hend := drainEnd_of_no_sats (rowDrained s c t) c (ownerOf s 16 c) (t := rowOn t) hsats
  rw [hexec, drainStep_scratchpad hopen hcherry hwf hjob hdest hhalf hplain hrow houts hrscl, hend]
  simp only [hlast]
  have hquiet := noYield_of_onlyClu hdrained hyjob hno
  split
  case isTrue => rw [afterEngine_of_noYield (noYield_wrapRg hquiet _ _ _ _)]
  case isFalse => rw [afterEngine_of_noYield hquiet]

end

end Sys2Proof.Machine
end

section

namespace Sys2Proof.Proofs

open Sys2Proof Sys2Proof.Machine

/-- Settles O12: a row without flags marks nothing, so the one store, the tile's next row and TILE_COUNT are what changes. -/
theorem rowsDrainToTheScratchpad : Obligations.RowsDrainToTheScratchpad := by
  unfold Obligations.RowsDrainToTheScratchpad
  intro s c t x hopen hid hcherry hno hwf hjob hdest hhalf hsats hplain ws p outs bs a hrow hne houts hfit hbytes hadm hrscl
  have hdrained := onlyClu_rowDrained hcherry hhalf rfl rfl hne hfit hbytes hadm
  have hexec := exec_drainRow_scratchpad hopen hid hcherry hno hwf hjob hdest hhalf hsats hplain hrow houts hrscl hdrained
    (rowTaken_tiles _ _ _ _ _) (rowTaken_job _ _ _ _ _)
  generalize rowDrained s c t = X at hdrained hexec
  have hself := hdrained.clu_self
  have hothers : ∀ d, d ≠ c → clu X d = clu s d := fun d hd => (hdrained.2 d).trans (if_neg hd)
  have hcluster : clu X c = { clu s c with sp := (clu X c).sp, tiles := (clu X c).tiles, bad := (clu X c).bad } := by
    rw [hself]; exact rowTaken_frame _ _ _ _ _
  have htiles : (clu X c).tiles = updFirst (fun v => !v.done) (fun _ => rowOn t) (clu s c).tiles := by rw [hself, rowTaken_tiles]
  have hbyte : ∀ b, (clu X c).sp.get b = if a ≤ b ∧ b < a + bs.length then bs.getD (b - a) 0 else (clu s c).sp.get b := fun b => by
    rw [hself, rowTaken_sp]; exact Ram.get_write bs (clu s c).sp a b
  have hpg : X.pg = s.pg := by rw [hdrained.1]
  by_cases hlast : t.drained + 1 = tileM ws
  case pos =>
    rw [if_pos hlast] at hexec
    refine ⟨_, hexec, ?_, hothers, hcluster, htiles, hbyte, fun h => absurd hlast h, fun _ => ?_⟩
    · rw [hdrained.1]; rfl
    · unfold OneReg wrapRg setRg rg
      rw [hpg]; rfl
  case neg =>
    rw [if_neg hlast] at hexec
    refine ⟨_, hexec, ?_, hothers, hcluster, htiles, hbyte, fun _ => hpg, fun h => absurd h hlast⟩
    rw [hdrained.1]

end Sys2Proof.Proofs
end

section
/-! The verdict of a tile (03 R91-R95) and the decay of REPAIR_CNT, and O13. -/

namespace Sys2Proof.Machine

open Sys2Proof

/-! ### Sparse tables whose entries are carried over one by one -/

/-- The entries of a table once `f` has acted on each; one that it drops is no longer listed. -/
def carryTab {α : Type} (f : Option α → Option α) (t : Tab (Option α)) : Tab (Option α) :=
  t.flatMap (fun e => (f e.2).toList.map (fun w => (e.1, some w)))

theorem tgetD_carryTab {α : Type} {f : Option α → Option α} (hf : f none = none) (n : Nat) :
    ∀ (t : Tab (Option α)) (lo : Nat), tasc lo t = true → tgetD none (carryTab f t) n = f (tgetD none t n) := by
  intro t
  induction t with
  | nil => exact fun _ _ => hf.symm
  | cons e t ih =>
    intro lo h
    obtain ⟨i, o⟩ := e
    simp only [tasc, Bool.and_eq_true] at h
    have hrest := ih (i + 1) h.2
    have hcons : carryTab f ((i, o) :: t) = (f o).toList.map (fun w => (i, some w)) ++ carryTab f t := rfl
    have hhead : tgetD none ((i, o) :: t) n = if i = n then o else tgetD none t n := rfl
    rw [hcons, hhead]
    cases ho : f o with
    | some w =>
      have hput : tgetD none ((some w).toList.map (fun w => (i, some w)) ++ carryTab f t) n =
          if i = n then some w else tgetD none (carryTab f t) n := rfl
      rw [hput, hrest]
      split <;> simp [ho]
    | none =>
      rw [Option.toList_none, List.map_nil, List.nil_append, hrest]
      split
      case isTrue hi =>
        have hlow : tgetD none t n = none := tget_low _ t (i + 1) n h.2 (by omega)
        rw [hlow, hf, ho]
      case isFalse => rfl

/-! ### The verdict reaches the queue and the registers (R91, R734) -/

/-- A verdict state once the verdict of tile `id` has arrived; one that waits for nothing more is clear. -/
def arrivedState (id : Nat) (bad : Bool) (o : Option VState) : Option VState :=
  o.bind (fun v => if v.arrive id bad = .pending [] then none else some (v.arrive id bad))

/-- The cluster once the verdict of its oldest tile is taken, `rest` being the others. -/
def verdictTaken (x : Cluster) (rest : List Tile) (id : Nat) (bad : Bool) : Cluster :=
  { x with tiles := rest, ftq := x.ftq.map (fun e => { e with verdict := e.verdict.arrive id bad })
           vst := carryTab (arrivedState id bad) x.vst }

theorem arriveAt_eq (s : State) (id : Nat) (bad : Bool) (c : Nat) :
    arriveAt s id bad c = setClu s c (verdictTaken (clu s c) (clu s c).tiles id bad) := by
  unfold arriveAt verdictTaken carryTab
  dsimp only
  congr 3
  funext e
  cases he : e.2 with
  | none => rfl
  | some v =>
    simp only [arrivedState, Option.bind_some]
    generalize v.arrive id bad = w
    cases w with
    | mismatch => rfl
    | pending l => cases l <;> rfl

theorem onlyClu_arriveAt (s : State) (c : Nat) (rest : List Tile) (id : Nat) (bad : Bool) :
    OnlyClu s (arriveAt (setClu s c { clu s c with tiles := rest }) id bad c) c (verdictTaken (clu s c) rest id bad) := by
  rw [arriveAt_eq]
  exact (onlyClu_setClu_self s c _).update (fun x => verdictTaken x x.tiles id bad)

theorem vst_verdictTaken {x : Cluster} (h : tasc 0 x.vst = true) (rest : List Tile) (id : Nat) (bad : Bool) (n : Nat) :
    tgetD none (verdictTaken x rest id bad).vst n = arrivedState id bad (tgetD none x.vst n) :=
  tgetD_carryTab rfl n x.vst 0 h

/-- The verdict of the oldest tile, once it has drained and its sums are compared. -/
theorem exec_checksumVerdict {s : State} {c : Nat} {t : Tile} {rest : List Tile} (htiles : (clu s c).tiles = t :: rest)
    (hdone : t.done = true) (hskip : csumSkipped t = false) (hcherry : cherry s c = false) :
    exec (.checksumVerdict c) s = .next (afterEngine
      (let u := arriveAt (setClu s c { clu s c with tiles := rest }) t.id (mismatched t) c
       if mismatched t = true then onMismatch u c t else u) c) := by
  have hexec : exec (.checksumVerdict c) s = .next (afterEngine (verdictStep s c) c) := rfl
  have hhalves : ∀ x, halves (setClu s c x) c = [c] := fun x => halves_of_not_cherry hcherry
  rw [hexec]
  unfold verdictStep
  simp only [htiles, hdone, hskip, hhalves, Bool.not_true, Bool.not_false, Bool.true_and, Bool.false_eq_true, if_false, List.foldl_cons,
    List.foldl_nil]

/-! ### What a mismatch may change -/

/-- `u` differs from `s` in registers, records and outputs, in the marks of jobs, in the units that are to leave, and in cluster `c`
at most in its core, its bad ranges and the time of its decay. -/
def MismatchFrame (s u : State) (c : Nat) : Prop :=
  u = { s with cl := u.cl, pg := u.pg, out := u.out, disp := { s.disp with jobs := u.disp.jobs },
               units := { s.units with leaving := u.units.leaving } } ∧
    (∀ k y, job? u k = some y → ∃ x, job? s k = some x ∧ SameButMarks x y) ∧
    clu u c = { clu s c with clv := (clu u c).clv, bad := (clu u c).bad, decayAt := (clu u c).decayAt }

theorem SameButMarks.trans {x y z : Job} (h : SameButMarks x y) (h' : SameButMarks y z) : SameButMarks x z := by
  unfold SameButMarks at h h'
  rw [h] at h'
  exact h'

theorem MismatchFrame.trans {s t u : State} {c : Nat} (h : MismatchFrame s t c) (h' : MismatchFrame t u c) :
    MismatchFrame s u c := by
  obtain ⟨hframe, hjobs, hclu⟩ := h
  obtain ⟨hframe', hjobs', hclu'⟩ := h'
  refine ⟨?_, fun k z hz => ?_, ?_⟩
  · rw [hframe] at hframe'; exact hframe'
  · obtain ⟨y, hy, hyz⟩ := hjobs' k z hz
    obtain ⟨x, hx, hxy⟩ := hjobs k y hy
    exact ⟨x, hx, hxy.trans hyz⟩
  · rw [hclu] at hclu'; exact hclu'

theorem mismatchFrame_pages (s : State) (c : Nat) (pg : Pages) (out : List Output) :
    MismatchFrame s { s with pg := pg, out := out } c := ⟨rfl, fun _ y h => ⟨y, h, rfl⟩, rfl⟩

theorem mismatchFrame_setRg (s : State) (c r i sel : Nat) (w : Word) : MismatchFrame s (setRg s r i sel w) c :=
  mismatchFrame_pages s c _ _

theorem mismatchFrame_raise (s : State) (c p i b : Nat) : MismatchFrame s (raise s p i b) c := by
  obtain ⟨o, a, h⟩ := raise_eq s p i b
  rw [h]
  exact mismatchFrame_pages s c _ _

theorem mismatchFrame_logErr (s : State) (c type reason source p : Nat) (w1 w2 w3 w4 w5 : Word) :
    MismatchFrame s (logErr s type reason source p w1 w2 w3 w4 w5) c := by
  unfold logErr logRec
  split
  · exact mismatchFrame_pages s c _ _
  · exact MismatchFrame.trans (mismatchFrame_pages s c _ s.out) (mismatchFrame_raise _ _ _ _ _)

/-- A cluster may get another core, other bad ranges and another time of its decay. -/
theorem mismatchFrame_of_onlyClu {s u : State} {c : Nat} {x : Cluster} (h : OnlyClu s u c x)
    (hx : x = { clu s c with clv := x.clv, bad := x.bad, decayAt := x.decayAt }) : MismatchFrame s u c := by
  refine ⟨?_, fun k y hy => ⟨y, ?_, rfl⟩, ?_⟩
  · rw [h.1]
  · rwa [job_of_onlyClu h] at hy
  · rw [h.clu_self]; exact hx

/-- A job may get other marks. -/
theorem mismatchFrame_setJob {s : State} {j : Nat} {x y : Job} (c : Nat) (hx : job? s j = some x) (h : SameButMarks x y) :
    MismatchFrame s (setJob s j (some y)) c := by
  refine ⟨rfl, fun k z hz => ?_, rfl⟩
  rw [job_setJob] at hz
  split at hz
  case isTrue hk => obtain rfl := Option.some.inj hz; exact ⟨x, hk ▸ hx, h⟩
  case isFalse => exact ⟨z, hz, rfl⟩

theorem noYield_of_mismatchFrame {s u : State} {c : Nat} (h : MismatchFrame s u c) (hcherry : cherry s c = false) (hno : noYield s c) :
    noYield u c := by
  obtain ⟨hframe, hjobs, hclu⟩ := h
  have hcherry' : cherry u c = false := by rw [hframe]; exact hcherry
  intro j y hj hy
  rw [leadOf_of_not_cherry hcherry', hclu] at hj
  obtain ⟨x, hx, hxy⟩ := hjobs j y hy
  rw [hxy]
  exact hno j x (by rw [leadOf_of_not_cherry hcherry]; exact hj) hx

/-! ### Items that fail (R92, R93) -/

theorem onlyClu_raiseIrq (s : State) (c b : Nat) : ∃ v, OnlyClu s (raiseIrq s c b) c { clu s c with clv := v } := by
  unfold raiseIrq
  simp only
  split
  · exact ⟨(clu s c).clv, onlyClu_refl s c⟩
  · exact ⟨_, onlyClu_setClu_self s c _⟩

/-- Marking items of a job failed changes its marks, and may raise FAULT on the core. -/
theorem markItems_failed_spec {s : State} {c j : Nat} {y : Job} (hjob : job? s j = some y) (hcherry : cherry s c = false)
    (idxs : List Nat) : MismatchFrame s (markItems s j 2 idxs (some c)) c ∧ (markItems s j 2 idxs (some c)).pg = s.pg ∧
      job? (markItems s j 2 idxs (some c)) j = some ((y.blame 5 s.tmu.ticks idxs).markAll 2 idxs) := by
  set z := (y.blame 5 s.tmu.ticks idxs).markAll 2 idxs
  have hsame : SameButMarks y z := SameButMarks.trans (y := y.blame 5 s.tmu.ticks idxs) rfl (markAll_same 2 idxs _)
  have hlead : leadOf (setJob s j (some z)) c = c := leadOf_of_not_cherry hcherry
  have hset : MismatchFrame s (setJob s j (some z)) c := mismatchFrame_setJob c hjob hsame
  have hmark : markItems s j 2 idxs (some c) =
      if y.fresh idxs > 0 then raiseIrq (setJob s j (some z)) c 3 else setJob s j (some z) := by
    unfold markItems
    simp only [hjob, if_true, true_and]
    rw [hlead]
  rw [hmark]
  split
  case isTrue =>
    obtain ⟨v, h⟩ := onlyClu_raiseIrq (setJob s j (some z)) c 3
    exact ⟨hset.trans (mismatchFrame_of_onlyClu h rfl), by rw [h.1]; rfl, by rw [job_of_onlyClu h, job_setJob, if_pos rfl]⟩
  case isFalse => exact ⟨hset, rfl, by rw [job_setJob, if_pos rfl]⟩

/-- The items of a tile, and of what depends on it. -/
def failingItems (t : Tile) (x : Job) : List Nat := tileItems t.ins.words ++ t.deps.flatMap (fun d => d.idxs x)

theorem failDeps_spec {s : State} {c : Nat} {t : Tile} {x : Job} (hjob : job? s t.ins.job = some x) (hcherry : cherry s c = false) :
    MismatchFrame s (failDeps s c t) c ∧ (failDeps s c t).pg = s.pg ∧ ∃ y, job? (failDeps s c t) t.ins.job = some y ∧
      ∀ n ∈ failingItems t x, n < x.nitems → 2 ≤ tgetD 0 y.marks n := by
  have hfail : failDeps s c t = markItems (setJob s t.ins.job (some (x.blame 2 s.tmu.ticks (failingItems t x)))) t.ins.job 2
      (failingItems t x) (some c) := by
    unfold failDeps blame
    simp only [hjob, modJob_of_job hjob]
    rfl
  obtain ⟨hframe, hpg, hmarked⟩ := markItems_failed_spec (c := c)
    (s := setJob s t.ins.job (some (x.blame 2 s.tmu.ticks (failingItems t x)))) (by rw [job_setJob, if_pos rfl]) hcherry (failingItems t x)
  have hblamed : SameButMarks x (x.blame 2 s.tmu.ticks (failingItems t x)) := rfl
  rw [hfail]
  exact ⟨(mismatchFrame_setJob c hjob hblamed).trans hframe, hpg, _, hmarked, fun n hn hlt => markAll_marks 2 _ _ n hn hlt⟩

/-! ### The event and the record (R94) -/

theorem clHandle_congr {s u : State} {c : Nat} (hunits : u.units.map = s.units.map) (hjoined : u.units.joined = s.units.joined)
    (hsafe : u.safe = s.safe) (hdom : rg u ILK_DOM_CFG 0 0 = rg s ILK_DOM_CFG 0 0) : clHandle u c = clHandle s c := by
  unfold clHandle logOf physOf pairJoined handle chipIdx
  rw [hunits, hjoined, hsafe, hdom]

/-- A register of a matrix engine's page that an event there does not touch. -/
theorem rg_raise_other (s : State) (i b : Nat) {r : Nat} (h : r ≠ 16 * 4096 + HDR_EVT) (h' : r ≠ 16 * 4096 + HDR_EVT_COUNT) :
    rg (raise s 16 i b) r i 0 = rg s r i 0 := by
  rw [rg_raise, if_neg (by unfold rkey; omega), if_neg (by unfold rkey; omega)]

theorem rg_raise_evt (s : State) (i b : Nat) :
    rg (raise s 16 i b) (16 * 4096 + HDR_EVT) i 0 = rg s (16 * 4096 + HDR_EVT) i 0 ||| bitW b := by
  rw [rg_raise, if_pos rfl]

/-- A register write as an update of the table of registers. -/
theorem setRg_eq (s : State) (r i sel : Nat) (w : Word) : ∃ regs, setRg s r i sel w = { s with pg := { s.pg with regs := regs } } :=
  ⟨_, rfl⟩

theorem ering_setRg (s : State) (r i sel : Nat) (w : Word) : (setRg s r i sel w).pg.ering = s.pg.ering := by
  obtain ⟨regs, h⟩ := setRg_eq s r i sel w
  rw [h]

theorem cherry_setRg (s : State) (r i sel : Nat) (w : Word) (c : Nat) : cherry (setRg s r i sel w) c = cherry s c := by
  obtain ⟨regs, h⟩ := setRg_eq s r i sel w
  rw [h]; rfl

theorem cherry_setClu (s : State) (d : Nat) (x : Cluster) (c : Nat) : cherry (setClu s d x) c = cherry s c := by
  unfold setClu
  generalize tsetD {} s.cl d x = cl
  rfl

/-- An event as an update of the table of registers, the alert line and what is sent. -/
theorem raise_regs_eq (s : State) (c i b : Nat) : ∃ o a regs, raise s c i b =
    { s with out := o, pg := { s.pg with alert := a, regs := regs } } := by
  obtain ⟨o, a, h⟩ := raise_eq s c i b
  exact ⟨o, a, _, h⟩

theorem ering_raise (s : State) (c i b : Nat) : (raise s c i b).pg.ering = s.pg.ering := by
  obtain ⟨o, a, regs, h⟩ := raise_regs_eq s c i b
  rw [h]

/-- Slot, generation and partition of the tile's job, and how many items fail anew. -/
def mismatchJob (s : State) (c : Nat) (t : Tile) : Nat × Nat × Nat × Nat :=
  match job? s t.ins.job with
  | some x => (x.slot, x.gen, x.part, x.fresh (failingItems t x))
  | none => (0, 0, ownerOf s 16 c, 0)

/-- ARRAY_FAULT is raised and the mismatch recorded. -/
def mismatchLogged (s : State) (c : Nat) (t : Tile) (q : Nat × Nat × Nat × Nat) : State :=
  let u := raise s 16 c 0
  logErr u 0x1C 0 0 q.2.2.1 (clHandle u c) (w32 (c * 256 + q.1)) (w32 q.2.1) (faultLoc t)
    (w32 (q.2.2.2 * 2 ^ 16 + tileTag t.ins.words))

/-- REPAIR_CNT counts, and what the tile wrote is noted as bad (R95, R219). -/
def mismatchCounted (s : State) (c : Nat) (t : Tile) : State :=
  let u := satFld s MXE_REPAIR_CNT c 0 7 0
  let u := setClu u c { clu u c with decayAt := u.tmu.ticks }
  setClu u (leadOf u c) { clu u (leadOf u c) with
    bad := (clu u (leadOf u c)).bad ++ outRanges t.ins.words (cherry u c) t.half 0 }

/-- The clusters that are to leave service, noted. -/
def leaveNoted (s : State) (l : List (Nat × Nat)) : State := { s with units := { s.units with leaving := l } }

theorem leaveNoted_self (s : State) : leaveNoted s s.units.leaving = s := rfl
theorem job_leaveNoted (s : State) (l : List (Nat × Nat)) (j : Nat) : job? (leaveNoted s l) j = job? s j := rfl
theorem pg_leaveNoted (s : State) (l : List (Nat × Nat)) : (leaveNoted s l).pg = s.pg := rfl
theorem rg_leaveNoted (s : State) (l : List (Nat × Nat)) (r i sel : Nat) : rg (leaveNoted s l) r i sel = rg s r i sel := rfl
theorem leaving_leaveNoted (s : State) (l : List (Nat × Nat)) : (leaveNoted s l).units.leaving = l := rfl
theorem mismatchFrame_leaveNoted (s : State) (l : List (Nat × Nat)) (c : Nat) : MismatchFrame s (leaveNoted s l) c :=
  ⟨rfl, fun _ y hy => ⟨y, hy, rfl⟩, rfl⟩

/-- At REPAIR_LIMIT the cluster is to leave service (R95). -/
def repairChecked (s : State) (c : Nat) : State :=
  let limit := fld (rg s MXE_REPAIR_LIMIT c 0) 7 0
  if limit ≠ 0 ∧ fld (rg s MXE_REPAIR_CNT c 0) 7 0 ≥ limit then
    let u := raise s 16 c 7
    if u.units.leaving.any (fun e => decide (e.1 = c)) then u
    else leaveNoted u (u.units.leaving ++ [(c, 1)])
  else s

/-- The place of the mismatch in the page. -/
def mismatchPlaced (s : State) (c : Nat) (t : Tile) : State :=
  setRg (setRg s MXE_FAULT_LOC c 0 (faultLoc t)) MXE_FAULT_TAG c 0 (w32 (tileTag t.ins.words))

/-- A mismatch, stage by stage. -/
theorem onMismatch_stages (s : State) (c : Nat) (t : Tile) : onMismatch s c t =
    let u := if !bit (rg s (16 * 4096 + HDR_EVT) c 0) 0 then mismatchPlaced s c t else s
    repairChecked (mismatchCounted (mismatchLogged (failDeps u c t) c t (mismatchJob u c t)) c t) c := rfl

/-! ### Stage by stage -/

theorem cherry_of_mismatchFrame {s u : State} {c : Nat} (h : MismatchFrame s u c) : cherry u c = cherry s c := by
  rw [h.1]; rfl

theorem clHandle_of_mismatchFrame {s u : State} {c : Nat} (h : MismatchFrame s u c)
    (hdom : rg u ILK_DOM_CFG 0 0 = rg s ILK_DOM_CFG 0 0) : clHandle u c = clHandle s c :=
  clHandle_congr (by rw [h.1]) (by rw [h.1]) (by rw [h.1]) hdom

theorem rg_ilkDom_ne {r i : Nat} (hr : 16 * 4096 ≤ r) : rkey ILK_DOM_CFG 0 0 ≠ rkey r i 0 := by
  unfold rkey ILK_DOM_CFG; omega

theorem mismatchFrame_placed (s : State) (c : Nat) (t : Tile) : MismatchFrame s (mismatchPlaced s c t) c :=
  (mismatchFrame_setRg s c _ _ _ _).trans (mismatchFrame_setRg _ c _ _ _ _)

theorem rg_mismatchPlaced_loc (s : State) (c : Nat) (t : Tile) : rg (mismatchPlaced s c t) MXE_FAULT_LOC c 0 = faultLoc t := by
  unfold mismatchPlaced
  rw [rg_setRg_of_reg_ne _ _ _ _ (by decide), rg_setRg_self]

theorem rg_mismatchPlaced_tag (s : State) (c : Nat) (t : Tile) :
    rg (mismatchPlaced s c t) MXE_FAULT_TAG c 0 = w32 (tileTag t.ins.words) := rg_setRg_self _ _ _ _ _

theorem rg_mismatchPlaced_other (s : State) (c : Nat) (t : Tile) {r : Nat} (h : r ≠ MXE_FAULT_LOC) (h' : r ≠ MXE_FAULT_TAG) :
    rg (mismatchPlaced s c t) r c 0 = rg s r c 0 := by
  unfold mismatchPlaced
  rw [rg_setRg_of_reg_ne _ _ _ _ h', rg_setRg_of_reg_ne _ _ _ _ h]

theorem rg_mismatchPlaced_ilkDom (s : State) (c : Nat) (t : Tile) :
    rg (mismatchPlaced s c t) ILK_DOM_CFG 0 0 = rg s ILK_DOM_CFG 0 0 := by
  unfold mismatchPlaced
  rw [rg_setRg_ne _ _ (rg_ilkDom_ne (by decide)), rg_setRg_ne _ _ (rg_ilkDom_ne (by decide))]

section
variable (s : State) (c : Nat) (t : Tile)

theorem mismatchFrame_logged (q : Nat × Nat × Nat × Nat) : MismatchFrame s (mismatchLogged s c t q) c :=
  (mismatchFrame_raise s c _ _ _).trans (mismatchFrame_logErr _ c _ _ _ _ _ _ _ _ _)

theorem job_mismatchLogged (q : Nat × Nat × Nat × Nat) (j : Nat) : job? (mismatchLogged s c t q) j = job? s j := by
  unfold mismatchLogged
  simp only [job_logErr]
  unfold job?
  rw [raise_disp]

theorem rg_mismatchLogged (q : Nat × Nat × Nat × Nat) {r : Nat} (hr : 4096 ≤ r) :
    rg (mismatchLogged s c t q) r c 0 = rg (raise s 16 c 0) r c 0 :=
  rg_logErr _ _ _ _ _ _ _ _ _ _ _ _ _ (by omega)

/-- One record of type 0x1C while the ring has room (R94). -/
theorem ering_mismatchLogged (q : Nat × Nat × Nat × Nat) (hroom : s.pg.ering.length < 16384) :
    ∃ r : ErrRec, (mismatchLogged s c t q).pg.ering = s.pg.ering ++ [r] ∧ r.hdr = recHdr 0x1C 0 0 q.2.2.1 ∧ r.w1 = clHandle s c ∧
      r.w4 = faultLoc t := by
  have hunit : clHandle (raise s 16 c 0) c = clHandle s c := by
    refine clHandle_of_mismatchFrame (mismatchFrame_raise s c 16 c 0) ?_
    rw [rg_raise, if_neg (rg_ilkDom_ne (by decide)), if_neg (rg_ilkDom_ne (by decide))]
  unfold mismatchLogged logErr
  rw [logRec_room _ _ (by rw [ering_raise]; exact hroom), ering_raise]
  exact ⟨_, rfl, rfl, hunit, rfl⟩

theorem fld_setFld_low (w : Word) {v : Nat} (hv : v ≤ 255) : fld (setFld w 7 0 v) 7 0 = v := by
  have hw := w.isLt
  unfold fld setFld fld
  rw [BitVec.toNat_ofNat]
  omega

theorem mismatchFrame_setClu (s : State) (c : Nat) {x : Cluster}
    (h : x = { clu s c with clv := x.clv, bad := x.bad, decayAt := x.decayAt }) : MismatchFrame s (setClu s c x) c :=
  mismatchFrame_of_onlyClu (onlyClu_setClu_self s c x) h

theorem mismatchFrame_counted {s : State} {c : Nat} (hcherry : cherry s c = false) : MismatchFrame s (mismatchCounted s c t) c := by
  have hlead : ∀ x, leadOf (setClu (satFld s MXE_REPAIR_CNT c 0 7 0) c x) c = c := fun x =>
    leadOf_of_not_cherry (by rw [cherry_setClu, satFld, cherry_setRg, hcherry])
  have hcnt : MismatchFrame s (satFld s MXE_REPAIR_CNT c 0 7 0) c := mismatchFrame_setRg s c _ _ _ _
  unfold mismatchCounted
  simp only [hlead]
  generalize satFld s MXE_REPAIR_CNT c 0 7 0 = u at hcnt
  exact hcnt.trans ((mismatchFrame_setClu u c rfl).trans (mismatchFrame_setClu _ c rfl))

theorem job_mismatchCounted (j : Nat) : job? (mismatchCounted s c t) j = job? s j := by
  rw [mismatchCounted, job_setClu, job_setClu, satFld, job_setRg]

theorem pg_mismatchCounted : (mismatchCounted s c t).pg = (satFld s MXE_REPAIR_CNT c 0 7 0).pg := by simp [mismatchCounted]

theorem ering_mismatchCounted : (mismatchCounted s c t).pg.ering = s.pg.ering := by
  rw [pg_mismatchCounted, satFld, ering_setRg]

theorem rg_mismatchCounted (r : Nat) : rg (mismatchCounted s c t) r c 0 = rg (satFld s MXE_REPAIR_CNT c 0 7 0) r c 0 := by
  unfold rg; rw [pg_mismatchCounted]

/-- REPAIR_CNT counts up to 255 (R95). -/
theorem repairCnt_mismatchCounted : fld (rg (mismatchCounted s c t) MXE_REPAIR_CNT c 0) 7 0 =
    Nat.min 255 (fld (rg s MXE_REPAIR_CNT c 0) 7 0 + 1) := by
  rw [rg_mismatchCounted]
  unfold satFld
  rw [rg_setRg_self]
  exact fld_setFld_low _ (Nat.min_le_left _ _)

theorem rg_mismatchCounted_other {r : Nat} (h : r ≠ MXE_REPAIR_CNT) : rg (mismatchCounted s c t) r c 0 = rg s r c 0 := by
  rw [rg_mismatchCounted]; exact rg_setRg_of_reg_ne _ _ _ _ h

/-- The check either leaves the state or raises REPAIR_REQ and notes that the cluster is to leave. -/
theorem repairChecked_cases :
    repairChecked s c = s ∧ ¬ (fld (rg s MXE_REPAIR_LIMIT c 0) 7 0 ≠ 0 ∧
      fld (rg s MXE_REPAIR_LIMIT c 0) 7 0 ≤ fld (rg s MXE_REPAIR_CNT c 0) 7 0) ∨
    ∃ l, repairChecked s c = leaveNoted (raise s 16 c 7) l ∧ ∃ e ∈ l, e.1 = c := by
  unfold repairChecked
  simp only
  split
  case isFalse h => exact Or.inl ⟨rfl, h⟩
  case isTrue =>
    refine Or.inr ?_
    split
    case isTrue h =>
      simp only [List.any_eq_true, decide_eq_true_eq] at h
      exact ⟨_, (leaveNoted_self _).symm, h⟩
    case isFalse => exact ⟨_, rfl, (c, 1), by simp, rfl⟩

theorem mismatchFrame_checked : MismatchFrame s (repairChecked s c) c := by
  rcases repairChecked_cases s c with ⟨h, -⟩ | ⟨l, h, -⟩
  · rw [h]; exact mismatchFrame_pages s c s.pg s.out
  · rw [h]; exact (mismatchFrame_raise s c 16 c 7).trans (mismatchFrame_leaveNoted _ l c)

theorem job_repairChecked (j : Nat) : job? (repairChecked s c) j = job? s j := by
  rcases repairChecked_cases s c with ⟨h, -⟩ | ⟨l, h, -⟩
  · rw [h]
  · rw [h, job_leaveNoted, job?, raise_disp]; rfl

theorem ering_repairChecked : (repairChecked s c).pg.ering = s.pg.ering := by
  rcases repairChecked_cases s c with ⟨h, -⟩ | ⟨l, h, -⟩
  · rw [h]
  · rw [h, pg_leaveNoted, ering_raise]

theorem rg_repairChecked_other {r : Nat} (h : r ≠ 16 * 4096 + HDR_EVT) (h' : r ≠ 16 * 4096 + HDR_EVT_COUNT) :
    rg (repairChecked s c) r c 0 = rg s r c 0 := by
  rcases repairChecked_cases s c with ⟨hs, -⟩ | ⟨l, hs, -⟩
  · rw [hs]
  · rw [hs, rg_leaveNoted, rg_raise_other s c 7 h h']

theorem bit_or_left {w w' : Word} {b : Nat} (h : bit w b = true) : bit (w ||| w') b = true := by
  unfold bit at *; rw [BitVec.getLsbD_or, h, Bool.true_or]

theorem evt_repairChecked {b : Nat} (h : bit (rg s (16 * 4096 + HDR_EVT) c 0) b = true) :
    bit (rg (repairChecked s c) (16 * 4096 + HDR_EVT) c 0) b = true := by
  rcases repairChecked_cases s c with ⟨hs, -⟩ | ⟨l, hs, -⟩
  · rw [hs]; exact h
  · rw [hs, rg_leaveNoted, rg_raise_evt]; exact bit_or_left h

/-- At REPAIR_LIMIT (R95). -/
theorem repairReq_repairChecked (hlimit : fld (rg s MXE_REPAIR_LIMIT c 0) 7 0 ≠ 0)
    (hcnt : fld (rg s MXE_REPAIR_LIMIT c 0) 7 0 ≤ fld (rg s MXE_REPAIR_CNT c 0) 7 0) :
    bit (rg (repairChecked s c) (16 * 4096 + HDR_EVT) c 0) 7 = true ∧ ∃ e ∈ (repairChecked s c).units.leaving, e.1 = c := by
  rcases repairChecked_cases s c with ⟨-, h⟩ | ⟨l, hs, hl⟩
  · exact absurd ⟨hlimit, hcnt⟩ h
  · rw [hs, rg_leaveNoted, rg_raise_evt, leaving_leaveNoted]
    exact ⟨bit_or_bitW _ (by decide), hl⟩

end

/-! ### A mismatch as a whole -/

/-- The state once a mismatch of tile `t` that finds ARRAY_FAULT clear is counted, before REPAIR_CNT meets its limit. -/
def mismatchHeld (s : State) (c : Nat) (t : Tile) : State :=
  mismatchCounted (mismatchLogged (failDeps (mismatchPlaced s c t) c t) c t (mismatchJob (mismatchPlaced s c t) c t)) c t

theorem onMismatch_of_clear {s : State} {c : Nat} (hclear : bit (rg s (16 * 4096 + HDR_EVT) c 0) 0 = false) (t : Tile) :
    onMismatch s c t = repairChecked (mismatchHeld s c t) c := by
  rw [onMismatch_stages, hclear]
  rfl

/-- ARRAY_FAULT stands (R94). -/
theorem arrayFault_mismatchHeld (s : State) (c : Nat) (t : Tile) :
    bit (rg (mismatchHeld s c t) (16 * 4096 + HDR_EVT) c 0) 0 = true := by
  unfold mismatchHeld
  rw [rg_mismatchCounted_other _ _ _ (by decide), rg_mismatchLogged _ _ _ _ (by decide), rg_raise_evt]
  exact bit_or_bitW _ (by decide)

section
variable {s : State} {c : Nat} {t : Tile} {x : Job} (hjob : job? s t.ins.job = some x) (hcherry : cherry s c = false)
include hjob hcherry

theorem failDeps_placed_spec : MismatchFrame s (failDeps (mismatchPlaced s c t) c t) c ∧
    (failDeps (mismatchPlaced s c t) c t).pg = (mismatchPlaced s c t).pg ∧
    ∃ y, job? (failDeps (mismatchPlaced s c t) c t) t.ins.job = some y ∧
      ∀ n ∈ failingItems t x, n < x.nitems → 2 ≤ tgetD 0 y.marks n := by
  have hplaced := mismatchFrame_placed s c t
  obtain ⟨hframe, hpg, hitems⟩ := failDeps_spec (s := mismatchPlaced s c t) (c := c) (t := t) (x := x)
    (by unfold mismatchPlaced; rwa [job_setRg, job_setRg]) (by rwa [cherry_of_mismatchFrame hplaced])
  exact ⟨hplaced.trans hframe, hpg, hitems⟩

theorem rg_failDeps_placed (r i : Nat) : rg (failDeps (mismatchPlaced s c t) c t) r i 0 = rg (mismatchPlaced s c t) r i 0 := by
  obtain ⟨-, hpg, -⟩ := failDeps_placed_spec hjob hcherry
  unfold rg
  rw [hpg]

theorem mismatchFrame_held : MismatchFrame s (mismatchHeld s c t) c := by
  obtain ⟨hfailed, -, -⟩ := failDeps_placed_spec hjob hcherry
  have hlogged := hfailed.trans (mismatchFrame_logged _ c t (mismatchJob (mismatchPlaced s c t) c t))
  exact hlogged.trans (mismatchFrame_counted _ (by rwa [cherry_of_mismatchFrame hlogged]))

/-- The items of the tile and of what depends on it fail (R92, R93). -/
theorem job_mismatchHeld : ∃ y, job? (mismatchHeld s c t) t.ins.job = some y ∧
    ∀ n ∈ failingItems t x, n < x.nitems → 2 ≤ tgetD 0 y.marks n := by
  obtain ⟨-, -, y, hy, hmarks⟩ := failDeps_placed_spec hjob hcherry
  refine ⟨y, ?_, hmarks⟩
  unfold mismatchHeld
  rwa [job_mismatchCounted, job_mismatchLogged]

/-- Registers that neither an event nor REPAIR_CNT changes are as the place of the mismatch leaves them. -/
theorem rg_mismatchHeld_other {r : Nat} (hr : 4096 ≤ r) (hevt : r ≠ 16 * 4096 + HDR_EVT) (hcount : r ≠ 16 * 4096 + HDR_EVT_COUNT)
    (hcnt : r ≠ MXE_REPAIR_CNT) : rg (mismatchHeld s c t) r c 0 = rg (mismatchPlaced s c t) r c 0 := by
  unfold mismatchHeld
  rw [rg_mismatchCounted_other _ _ _ hcnt, rg_mismatchLogged _ _ _ _ hr, rg_raise_other _ _ _ hevt hcount,
    rg_failDeps_placed hjob hcherry]

/-- The check of REPAIR_LIMIT leaves them too. -/
theorem rg_repairChecked_held {r : Nat} (hr : 4096 ≤ r) (hevt : r ≠ 16 * 4096 + HDR_EVT) (hcount : r ≠ 16 * 4096 + HDR_EVT_COUNT)
    (hcnt : r ≠ MXE_REPAIR_CNT) : rg (repairChecked (mismatchHeld s c t) c) r c 0 = rg (mismatchPlaced s c t) r c 0 := by
  rw [rg_repairChecked_other _ c hevt hcount, rg_mismatchHeld_other hjob hcherry hr hevt hcount hcnt]

theorem repairLimit_mismatchHeld : rg (mismatchHeld s c t) MXE_REPAIR_LIMIT c 0 = rg s MXE_REPAIR_LIMIT c 0 := by
  rw [rg_mismatchHeld_other hjob hcherry (by decide) (by decide) (by decide) (by decide),
    rg_mismatchPlaced_other _ _ _ (by decide) (by decide)]

theorem mismatchFrame_repairChecked_held : MismatchFrame s (repairChecked (mismatchHeld s c t) c) c :=
  (mismatchFrame_held hjob hcherry).trans (mismatchFrame_checked _ c)

theorem repairCnt_mismatchHeld :
    fld (rg (mismatchHeld s c t) MXE_REPAIR_CNT c 0) 7 0 = Nat.min 255 (fld (rg s MXE_REPAIR_CNT c 0) 7 0 + 1) := by
  unfold mismatchHeld
  rw [repairCnt_mismatchCounted, rg_mismatchLogged _ _ _ _ (by decide), rg_raise_other _ _ _ (by decide) (by decide),
    rg_failDeps_placed hjob hcherry, rg_mismatchPlaced_other _ _ _ (by decide) (by decide)]

/-- The record of the mismatch (R94). -/
theorem ering_mismatchHeld (hroom : s.pg.ering.length < 16384) : ∃ r : ErrRec,
    (mismatchHeld s c t).pg.ering = s.pg.ering ++ [r] ∧ r.hdr = recHdr 0x1C 0 0 x.part ∧ r.w1 = clHandle s c ∧
      r.w4 = faultLoc t := by
  obtain ⟨hfailed, hpg, -⟩ := failDeps_placed_spec hjob hcherry
  have hering : (failDeps (mismatchPlaced s c t) c t).pg.ering = s.pg.ering := by
    rw [hpg, mismatchPlaced, ering_setRg, ering_setRg]
  have hunit : clHandle (failDeps (mismatchPlaced s c t) c t) c = clHandle s c :=
    clHandle_of_mismatchFrame hfailed ((rg_failDeps_placed hjob hcherry _ _).trans (rg_mismatchPlaced_ilkDom s c t))
  have hpart : (mismatchJob (mismatchPlaced s c t) c t).2.2.1 = x.part := by
    unfold mismatchJob mismatchPlaced
    rw [job_setRg, job_setRg, hjob]
  unfold mismatchHeld
  rw [ering_mismatchCounted]
  obtain ⟨r, hr, hhdr, hw1, hw4⟩ := ering_mismatchLogged (failDeps (mismatchPlaced s c t) c t) c t
    (mismatchJob (mismatchPlaced s c t) c t) (by rwa [hering])
  exact ⟨r, by rw [hr, hering], by rw [hhdr, hpart], by rw [hw1, hunit], hw4⟩

end

/-! ### REPAIR_CNT decays (R95) -/

theorem exec_repairDecay {s : State} {c : Nat} (hcnt : 0 < fld (rg s MXE_REPAIR_CNT c 0) 7 0) (hdecay : rg s MXE_REPAIR_DECAY c 0 ≠ 0)
    (hpassed : passed s (clu s c).decayAt ((rg s MXE_REPAIR_DECAY c 0).toNat * 1000000) = true) :
    exec (.repairDecay c) s = .next (setClu (setRg s MXE_REPAIR_CNT c 0 (w32 (fld (rg s MXE_REPAIR_CNT c 0) 7 0 - 1))) c
      { clu s c with decayAt := s.tmu.ticks }) := by
  have hexec : exec (.repairDecay c) s = execRepairDecay c s := rfl
  have hperiod : (rg s MXE_REPAIR_DECAY c 0).toNat ≠ 0 := fun h => hdecay (BitVec.toNat_inj.1 (by simpa using h))
  rw [hexec]
  unfold execRepairDecay
  simp only [hperiod, hcnt.ne', hpassed, Bool.not_true, Bool.false_eq_true, or_self, if_false]

end Sys2Proof.Machine
end

section

namespace Sys2Proof.Proofs

open Sys2Proof Sys2Proof.Machine

/-- A verdict of equal sums. -/
theorem checksumVerdict_passes {s : State} {c : Nat} {t : Tile} {rest : List Tile} (htiles : (clu s c).tiles = t :: rest)
    (hdone : t.done = true) (hskip : csumSkipped t = false) (hcherry : cherry s c = false) (hno : noYield s c)
    (hmatch : mismatched t = false) : ∃ u, exec (.checksumVerdict c) s = .next u ∧
      OnlyClu s u c (verdictTaken (clu s c) rest t.id false) := by
  have htaken := onlyClu_arriveAt s c rest t.id false
  refine ⟨_, ?_, htaken⟩
  rw [exec_checksumVerdict htiles hdone hskip hcherry, hmatch]
  simp only [Bool.false_eq_true, if_false]
  rw [afterEngine_of_noYield (noYield_of_onlyClu htaken rfl hno)]

/-- A verdict of unequal sums that finds ARRAY_FAULT clear. -/
theorem checksumVerdict_fails {s : State} {c : Nat} {t : Tile} {x : Job} {rest : List Tile} (htiles : (clu s c).tiles = t :: rest)
    (hdone : t.done = true) (hskip : csumSkipped t = false) (hcherry : cherry s c = false) (hno : noYield s c)
    (hjob : job? s t.ins.job = some x) (hmis : mismatched t = true) (hclear : bit (rg s (16 * 4096 + HDR_EVT) c 0) 0 = false) :
    ∃ v, OnlyClu s v c (verdictTaken (clu s c) rest t.id true) ∧
      exec (.checksumVerdict c) s = .next (repairChecked (mismatchHeld v c t) c) := by
  have htaken := onlyClu_arriveAt s c rest t.id true
  generalize hv : arriveAt (setClu s c { clu s c with tiles := rest }) t.id true c = v at htaken
  have hjob' : job? v t.ins.job = some x := by rwa [job_of_onlyClu htaken]
  have hcherry' : cherry v c = false := by rwa [cherry_of_onlyClu htaken]
  have hclear' : bit (rg v (16 * 4096 + HDR_EVT) c 0) 0 = false := by rw [htaken.1]; exact hclear
  have hframe := mismatchFrame_repairChecked_held hjob' hcherry'
  refine ⟨v, htaken, ?_⟩
  rw [exec_checksumVerdict htiles hdone hskip hcherry, hmis]
  simp only [if_true]
  rw [hv, onMismatch_of_clear hclear' t,
    afterEngine_of_noYield (noYield_of_mismatchFrame hframe hcherry' (noYield_of_onlyClu htaken rfl hno))]

/-- Settles O13: a passing verdict changes its cluster alone; a failing one is followed stage by stage, each of which leaves what the
others set. -/
theorem verdictsFailWhatDependsOnAFault : Obligations.VerdictsFailWhatDependsOnAFault := by
  unfold Obligations.VerdictsFailWhatDependsOnAFault
  intro s c
  refine ⟨fun t rest x htiles hdone hskip hcherry hno hjob => ⟨fun hmatch hasc => ?passes, fun hmis hclear => ?fails⟩,
    fun n hn hpos hdecay hpassed => ?decays⟩
  case passes =>
    obtain ⟨u, hexec, htaken⟩ := checksumVerdict_passes htiles hdone hskip hcherry hno hmatch
    refine ⟨u, hexec, htaken.1, fun d hd => (htaken.2 d).trans (if_neg hd), by rw [htaken.clu_self]; rfl, fun n => ?_⟩
    rw [htaken.clu_self, vst_verdictTaken hasc]
    cases tgetD none (clu s c).vst n <;> rfl
  case fails =>
    obtain ⟨v, htaken, hexec⟩ := checksumVerdict_fails htiles hdone hskip hcherry hno hjob hmis hclear
    have hjob' : job? v t.ins.job = some x := by rwa [job_of_onlyClu htaken]
    have hcherry' : cherry v c = false := by rwa [cherry_of_onlyClu htaken]
    have hrg : ∀ r, rg v r c 0 = rg s r c 0 := fun r => by rw [htaken.1]; rfl
    have hframe := mismatchFrame_repairChecked_held hjob' hcherry'
    have hclu : clu (repairChecked (mismatchHeld v c t) c) c = _ := hframe.2.2.trans (by rw [htaken.clu_self])
    have hcnt := (repairCnt_mismatchHeld hjob' hcherry').trans (by rw [hrg])
    have hlimit := (repairLimit_mismatchHeld hjob' hcherry').trans (hrg _)
    have hunit : clHandle v c = clHandle s c := by rw [htaken.1]; rfl
    have hering : v.pg.ering = s.pg.ering := by rw [htaken.1]
    obtain ⟨y, hy, hmarks⟩ := job_mismatchHeld hjob' hcherry'
    refine ⟨_, y, hexec, by rw [hclu]; rfl, ?_, ?_, evt_repairChecked _ c (arrayFault_mismatchHeld v c t), ?_,
      by rw [job_repairChecked, hy], fun n hn => hmarks n (List.mem_append_left _ hn),
      fun d hd n hn => hmarks n (List.mem_append_right _ (List.mem_flatMap.2 ⟨d, hd, hn⟩)), fun hroom => ?_, fun hne hle => ?_,
      by rw [hclu]; rfl, by rw [hframe.1, htaken.1]⟩
    · rw [rg_repairChecked_held hjob' hcherry' (by decide) (by decide) (by decide) (by decide), rg_mismatchPlaced_loc]
    · rw [rg_repairChecked_held hjob' hcherry' (by decide) (by decide) (by decide) (by decide), rg_mismatchPlaced_tag]
    · rw [rg_repairChecked_other _ _ (by decide) (by decide), hcnt]
    · rw [ering_repairChecked, ← hunit, ← hering]
      exact ering_mismatchHeld hjob' hcherry' (by rwa [hering])
    · exact repairReq_repairChecked _ c (by rwa [hlimit]) (by rwa [hlimit, hcnt])
  case decays =>
    subst hn
    exact ⟨_, exec_repairDecay hpos hdecay hpassed, rfl, rfl, fun d hd => by rw [clu_setClu, if_neg hd, clu_setRg],
      by rw [clu_setClu, if_pos rfl]⟩

end Sys2Proof.Proofs
end

section
/-! One V register written from the operands of a vector instruction (04 R101 to R107, R110, R118, R734): the lanes that it reads,
the value of an integer result, and O14. -/

namespace Sys2Proof.Machine

open Sys2Proof

/-! ### Verdicts that are settled (R734) -/

/-- No verdict is awaited, and none has failed: the state of a register that is clear, or of a queue entry that has passed. -/
def Settled (v : Option VState) : Prop := v = none ∨ v = some (.pending [])

theorem settled_none : Settled none := .inl rfl

theorem settled_worse {v w : Option VState} (hv : Settled v) (hw : Settled w) : Settled (worse v w) := by
  obtain rfl | rfl := hv
  · exact hw
  · obtain rfl | rfl := hw <;> exact .inr rfl

theorem settled_worst {l : List (Option VState)} (h : ∀ v ∈ l, Settled v) : Settled (worst l) := by
  suffices ∀ w, Settled w → Settled (l.foldl worse w) from this none settled_none
  induction l with
  | nil => exact fun _ hw => hw
  | cons v l ih =>
    obtain ⟨hv, hl⟩ := List.forall_mem_cons.1 h
    exact fun w hw => ih hl _ (settled_worse hw hv)

/-- Items follow no verdict where none is open. -/
theorem followVerdict_of_settled {v : Option VState} (h : Settled v) (s : State) (c j : Nat) (items : List Nat) (all : Bool) :
    followVerdict s c j v items all = s := by
  obtain rfl | rfl := h
  · rfl
  · simp [followVerdict]

theorem settled_vstate {x : Cluster} (h : ∀ k, tgetD none x.vst k = none) (k : Nat) : Settled (x.vstate k) :=
  .inl (vstate_of_clear h k)

theorem setVstate_settled_clear {x : Cluster} (h : ∀ k, tgetD none x.vst k = none) (n : Nat) {v : Option VState} (hv : Settled v) :
    ∀ k, tgetD none (x.setVstate n v).vst k = none := by
  intro k
  obtain rfl | rfl := hv <;> simp [Cluster.setVstate, h]

/-! ### Completion with settled operands -/

/-- A ready instruction whose body completes, having read nothing whose verdict is open, leaves the stream: a row of the queue that
has passed counts like a register that is clear. -/
theorem vecStep_done_of_settled {s S : State} {c op : Nat} {i : Issued} {x : Job} {y : Cluster} {src : Option VState}
    {body : Issued → Job → Cluster → State → VRes} (h : VecReady s c op i x) (hop : op ≠ 0xB2)
    (hbody : body i x (clu s c) s = .done S src) (hsrc : Settled src) (hS : OnlyClu s S c y) (hy : VecBody (clu s c) y)
    (hclear : ∀ k, tgetD none y.vst k = none) : VecDone s (vecStep s c op body) c i y := by
  have hsame : vecStep s c op body = vecStep s c op (fun _ _ _ _ => .done S none) := by
    obtain ⟨⟨n, q, hvxq⟩, hjob, -⟩ := h
    unfold vecStep
    simp only [hvxq, hjob, hbody, followVerdict_of_settled hsrc, followVerdict_of_settled settled_none]
  rw [hsame]
  exact vecStep_done h hop rfl hS hy hclear

/-! ### The destination (R104, R106) -/

theorem getLsbD_vmask (x : Cluster) (n : Nat) {k : Nat} (hk : k < 128) : (x.vmask n).getLsbD k = maskBit x n k := by
  unfold Cluster.vmask maskBit
  by_cases h : n = 0
  · simp only [h, if_true, allLanes, BitVec.getLsbD_allOnes, hk, decide_true, Bool.true_or]
  · simp [h]

theorem writesVD_setV (x : Cluster) {ws : List Word} {ls : List Word} {f : Nat → Word} (st : Option VState)
    (hls : ∀ k, k < 128 → ls.getD k 0 = f k) :
    let y := x.setV (vD ws) (vOn x ws) ls st
    WritesVD x { x with v := y.v, tags := y.tags } ws f := by
  refine ⟨rfl, fun n hn => by simp [Cluster.setV, Cluster.setVstate, hn], fun k hk => ?_,
    fun n => by simp [Cluster.setV, Cluster.setVstate]⟩
  have hV : tgetD [] (x.setV (vD ws) (vOn x ws) ls st).v (vD ws) =
      (List.range 128).map (fun k => if (vOn x ws).getLsbD k then ls.getD k 0 else (x.vreg (vD ws)).getD k 0) := by
    simp [Cluster.setV, Cluster.setVstate]
  change (tgetD [] (x.setV (vD ws) (vOn x ws) ls st).v (vD ws)).getD k 0 = _
  rw [hV, getD_map_range _ _ hk, hls k hk, getD_vreg x _ hk, vOn, getLsbD_vmask x _ hk]

/-- The command completes: the enabled lanes of VD take the values `f`, and nothing else changes. -/
def CompletesWith (s : State) (c : Nat) (i : Issued) (o : Host.Outcome State Fault Refusal) (f : Nat → Word) : Prop :=
  ∃ t y, o = .next t ∧ WritesVD (clu s c) y i.words f ∧ VecDone s t c i y

/-- A ready instruction whose body writes VD from settled operands completes. -/
theorem completesWith_of_setV {s : State} {c op : Nat} {i : Issued} {x : Job} {body : Issued → Job → Cluster → State → VRes}
    {ls : List Word} {src : Option VState} {f : Nat → Word} (h : VecReady s c op i x) (hop : op ≠ 0xB2)
    (hbody : body i x (clu s c) s =
      .done (setClu s c ((clu s c).setV (vD i.words) (vOn (clu s c) i.words) ls src)) src)
    (hsrc : Settled src) (hls : ∀ k, k < 128 → ls.getD k 0 = f k) : CompletesWith s c i (.next (vecStep s c op body)) f := by
  have hdone := vecStep_done_of_settled h hop hbody hsrc (onlyClu_setClu_self s c _) rfl
    (setVstate_settled_clear (clear_of_vecReady h) _ hsrc)
  exact ⟨_, _, rfl, writesVD_setV (clu s c) src hls, vecDone_of_same_but_vst hdone rfl⟩

theorem CompletesWith.congr {s : State} {c : Nat} {i : Issued} {o : Host.Outcome State Fault Refusal} {f g : Nat → Word}
    (h : CompletesWith s c i o f) (hfg : ∀ k, f k = g k) : CompletesWith s c i o g := by
  rwa [funext hfg] at h

/-! ### The operands (R106, R110, R118) -/

theorem getD_opA (x : Cluster) (ws : List Word) {k : Nat} (hk : k < 128) : (opA x ws).1.getD k 0 = laneA x ws k := by
  unfold opA laneA ftqHead
  cases vQA ws with
  | false => exact getD_vreg x _ hk
  | true =>
    cases x.ftq with
    | nil => rfl
    | cons e r => exact getD_map_range _ _ hk

theorem getD_opB (x : Cluster) (i : Issued) {k : Nat} (hk : k < 128) : (opB x i).1.getD k 0 = laneB x i k := by
  unfold opB laneB
  cases vSB i.words with
  | false => exact getD_vreg x _ hk
  | true => exact List.getD_replicate _ hk

theorem getD_opC (x : Cluster) (i : Issued) {k : Nat} (hk : k < 128) : (opC x i).1.getD k 0 = laneC x i k := by
  unfold opC laneC
  cases vSC i.words with
  | false => exact getD_vreg x _ hk
  | true => exact List.getD_replicate _ hk

section
variable {s : State} {c op : Nat} {i : Issued} {x : Job}

/-- The row at the head of the queue, where a ready instruction reads one, has passed. -/
theorem head_of_vecReady (h : VecReady s c op i x) (hreads : vReadsQ i.words = true) :
    ∃ e r, (clu s c).ftq = e :: r ∧ e.verdict = .pending [] := h.2.2.2.2.2.2 hreads

theorem settled_opA (h : VecReady s c op i x) : Settled (opA (clu s c) i.words).2 := by
  unfold opA ftqHead
  cases hqa : vQA i.words with
  | false => exact settled_vstate (clear_of_vecReady h) _
  | true =>
    obtain ⟨e, r, hftq, hverdict⟩ := head_of_vecReady h (by simp [vReadsQ, hqa])
    rw [hftq]
    exact .inr (congrArg some hverdict)

theorem settled_opB (h : VecReady s c op i x) : Settled (opB (clu s c) i).2 := by
  unfold opB
  cases vSB i.words with
  | false => exact settled_vstate (clear_of_vecReady h) _
  | true => exact settled_none

theorem settled_opC (h : VecReady s c op i x) : Settled (opC (clu s c) i).2 := by
  unfold opC
  cases vSC i.words with
  | false => exact settled_vstate (clear_of_vecReady h) _
  | true => exact settled_none

theorem settled_maskState (h : VecReady s c op i x) : Settled (maskState (clu s c) i.words) :=
  settled_vstate (clear_of_vecReady h) _

/-! ### Instructions that work lane by lane -/

/-- The verdict states that a lane-by-lane instruction reads. -/
theorem settled_operands (h : VecReady s c op i x) (useB useC : Bool) :
    Settled (worst [(opA (clu s c) i.words).2, if useB then (opB (clu s c) i).2 else none,
      if useC then (opC (clu s c) i).2 else none, maskState (clu s c) i.words]) := by
  refine settled_worst fun v hv => ?_
  simp only [List.mem_cons, List.not_mem_nil, or_false] at hv
  obtain rfl | rfl | rfl | rfl := hv
  · exact settled_opA h
  · split
    · exact settled_opB h
    · exact settled_none
  · split
    · exact settled_opC h
    · exact settled_none
  · exact settled_maskState h

theorem completesWith_vecMap (h : VecReady s c op i x) (hop : op ≠ 0xB2) (useB useC : Bool)
    (f : List Word → Word → Word → Word → Word) :
    CompletesWith s c i (.next (vecMap s c op useB useC f)) (fun k => f i.words (laneA (clu s c) i.words k)
      (if useB then laneB (clu s c) i k else 0) (if useC then laneC (clu s c) i k else 0)) := by
  refine completesWith_of_setV (ls := (List.range 128).map fun k => f i.words ((opA (clu s c) i.words).1.getD k 0)
    (if useB then (opB (clu s c) i).1.getD k 0 else 0) (if useC then (opC (clu s c) i).1.getD k 0 else 0))
    h hop rfl (settled_operands h useB useC) fun k hk => ?_
  rw [getD_map_range _ _ hk, getD_opA _ _ hk, getD_opB _ _ hk, getD_opC _ _ hk]

end

/-! ### Integer results (R102, R106) -/

theorem w32_wrapN (x : Int) : w32 (wrapN 32 x) = BitVec.ofInt 32 x := by
  apply BitVec.eq_of_toNat_eq
  simp only [w32, wrapN, BitVec.toNat_ofNat, BitVec.toNat_ofInt]
  omega

theorem clampS_eq (n : Nat) (x : Int) : clampS n x = max (-((2 ^ (n - 1) : Nat) : Int)) (min (((2 ^ (n - 1) : Nat) : Int) - 1) x) := by
  have hpos : 0 < 2 ^ (n - 1) := Nat.two_pow_pos _
  unfold clampS smax smin
  generalize 2 ^ (n - 1) = m at hpos
  split
  · omega
  · split <;> omega

theorem intLane_eq_intResult (t : OutFmt) (sat : Bool) (x : Int) : intLane t sat x = intResult t.ibits sat x := by
  unfold intLane intResult
  cases sat with
  | true => simp only [if_true, w32_wrapN, clampS_eq]
  | false =>
    have hwrap : wrapS t.ibits x = (BitVec.ofInt t.ibits x).toInt := by
      rw [BitVec.toInt_ofInt]
      cases t <;> exact wrapS_eq_bmod _ x
    simp only [Bool.false_eq_true, if_false, w32_wrapN, hwrap, BitVec.signExtend]

/-- An integer TYPE, as the model reads it. -/
theorem vType_of_intWidth {ws : List Word} {n : Nat} (h : intWidth ws = some n) : (vType ws).isInt = true ∧ (vType ws).ibits = n := by
  unfold intWidth at h
  unfold vType
  generalize vTypeCode ws = ty at h
  match ty, h with
  | 0, rfl => exact ⟨rfl, rfl⟩
  | 1, rfl => exact ⟨rfl, rfl⟩
  | 2, rfl => exact ⟨rfl, rfl⟩

theorem arithLane_of_intWidth {ws : List Word} {n : Nat} (h : intWidth ws = some n) (op : Nat) (fi : Int → Int → Int → Int)
    (ff : OutFmt → Nat → Word → Word → Word → Word) (a b d : Word) :
    arithLane op fi ff ws a b d = intResult n (vSat ws) (fi a.toInt b.toInt d.toInt) := by
  obtain ⟨hint, hbits⟩ := vType_of_intWidth h
  simp only [arithLane, hint, if_true, intLane_eq_intResult, hbits]

/-- Integer arithmetic completes with the exact result, wrapped or clamped to TYPE. -/
theorem completesWith_arith {s : State} {c op n : Nat} {i : Issued} {x : Job} (h : VecReady s c op i x) (hop : op ≠ 0xB2)
    (hn : intWidth i.words = some n) (useB useC : Bool) (fi : Int → Int → Int → Int)
    (ff : OutFmt → Nat → Word → Word → Word → Word) :
    CompletesWith s c i (.next (vecMap s c op useB useC (arithLane op fi ff))) (fun k => intResult n (vSat i.words)
      (fi (laneA (clu s c) i.words k).toInt (if useB then laneB (clu s c) i k else 0).toInt
        (if useC then laneC (clu s c) i k else 0).toInt)) :=
  (completesWith_vecMap h hop useB useC _).congr fun _ => arithLane_of_intWidth hn op fi ff _ _ _

/-! ### Selection and permutation (R107, R114) -/

section
variable {s : State} {c : Nat} {i : Issued} {x : Job}

theorem completesWith_vsel (h : VecReady s c 0x91 i x) : CompletesWith s c i (exec (.vsel c) s) (fun k =>
    if maskBit (clu s c) (vC i.words % 8) k then laneA (clu s c) i.words k else laneB (clu s c) i k) := by
  refine completesWith_of_setV (ls := (List.range 128).map fun k => if ((clu s c).vmask (vC i.words % 8)).getLsbD k
    then (opA (clu s c) i.words).1.getD k 0 else (opB (clu s c) i).1.getD k 0) h (by decide) rfl (settled_worst ?_) fun k hk => ?_
  · simp only [List.forall_mem_cons]
    exact ⟨settled_opA h, settled_opB h, settled_vstate (clear_of_vecReady h) _, settled_maskState h, by simp⟩
  · rw [getD_map_range _ _ hk, getLsbD_vmask _ _ hk, getD_opA _ _ hk, getD_opB _ _ hk]

theorem completesWith_vshuf (h : VecReady s c 0xA8 i x) : CompletesWith s c i (exec (.vshuf c) s) (fun k =>
    laneA (clu s c) i.words ((laneB (clu s c) i k).toNat % 128)) := by
  refine completesWith_of_setV (ls := (List.range 128).map fun k => (opA (clu s c) i.words).1.getD
    (((opB (clu s c) i).1.getD k 0).toNat % 128) 0) h (by decide) rfl (settled_worst ?_) fun k hk => ?_
  · simp only [List.forall_mem_cons]
    exact ⟨settled_opA h, settled_opB h, settled_maskState h, by simp⟩
  · rw [getD_map_range _ _ hk, getD_opB _ _ hk, getD_opA _ _ (Nat.mod_lt _ (by decide))]

theorem completesWith_vbfly (h : VecReady s c 0xA9 i x) : CompletesWith s c i (exec (.vbfly c) s) (fun k =>
    laneA (clu s c) i.words (k ^^^ (vImm i.words % 128))) := by
  refine completesWith_of_setV (ls := (List.range 128).map fun k => (opA (clu s c) i.words).1.getD (k ^^^ vImm i.words % 128) 0)
    h (by decide) rfl (settled_worst ?_) fun k hk => ?_
  · simp only [List.forall_mem_cons]
    exact ⟨settled_opA h, settled_maskState h, by simp⟩
  · rw [getD_map_range _ _ hk, getD_opA _ _ (Nat.xor_lt_two_pow (n := 7) hk (Nat.mod_lt _ (by decide)))]

end

end Sys2Proof.Machine
end

section

namespace Sys2Proof.Proofs

open Sys2Proof Sys2Proof.Machine

/-- Settles O14: every row reads its operands lane by lane, applies its rule and writes the enabled lanes of VD. -/
theorem vectorInstructionsWriteEnabledLanes : Obligations.VectorInstructionsWriteEnabledLanes := by
  unfold Obligations.VectorInstructionsWriteEnabledLanes
  intro s c n i x
  simp only [laneRows, List.forall_mem_cons]
  refine ⟨?vadd, ?vsub, ?vmul, ?vfma, ?vmin, ?vmax, ?vabs, ?vneg, ?vand, ?vor, ?vxor, ?vshl, ?vshra, ?vshrl, ?vsel, ?vshuf, ?vbfly,
    by simp⟩
  case vadd | vsub | vmul | vfma | vmin | vmax | vneg =>
    exact fun h hn => completesWith_arith h (by decide) (hn trivial) _ _ _ _
  case vabs =>
    intro h hn
    refine (completesWith_arith h (by decide) (hn trivial) _ _ _ _).congr fun k => ?_
    rw [Int.abs_eq_natAbs]
  case vand | vor | vxor | vshl | vshra | vshrl =>
    exact fun h _ => completesWith_vecMap h (by decide) _ _ _
  case vsel => exact fun h _ => completesWith_vsel h
  case vshuf => exact fun h _ => completesWith_vshuf h
  case vbfly => exact fun h _ => completesWith_vbfly h

end Sys2Proof.Proofs
end

section
/-! Elements of a TYPE in memory and in lanes (02 R38; 04 R102, R107, R108), and O16. -/

namespace Sys2Proof.Machine

open Sys2Proof

/-! ### TYPE (R75, R109) -/

/-- The code of a TYPE. -/
def fmtCode : OutFmt → Nat
  | .int8 => 0 | .int16 => 1 | .int32 => 2 | .e4m3 => 3 | .e5m2 => 4 | .bf16 => 5 | .fp32 => 6 | .part => 7

theorem fmtCode_of_outFmt {n : Nat} {t : OutFmt} (h : outFmt? n = some t) : n = fmtCode t := by
  unfold outFmt? at h
  split at h <;> cases h <;> rfl

/-- The checks let a TYPE through that has a code, and that the opcode accepts. -/
theorem type_of_vecReady {s : State} {c op : Nat} {i : Issued} {x : Job} (h : VecReady s c op i x) :
    vTypeCode i.words = fmtCode (vType i.words) ∧ vTypeOk op (vType i.words) = true := by
  have hchecks := firstCode_eq_none.1 (consistent_of_vecReady h)
  have h1 := hchecks _ List.mem_cons_self
  have h3 := hchecks _ (List.mem_cons_of_mem _ (List.mem_cons_of_mem _ List.mem_cons_self))
  simp only [Bool.or_eq_false_iff] at h1 h3
  obtain ⟨⟨⟨⟨⟨⟨-, hcode⟩, -⟩, -⟩, -⟩, -⟩, -⟩ := h1
  obtain ⟨⟨⟨⟨⟨-, htype⟩, -⟩, -⟩, -⟩, -⟩ := h3
  rw [opcode_of_vecReady h, Bool.not_eq_false'] at htype
  refine ⟨?_, htype⟩
  cases ht : outFmt? (vTypeCode i.words) with
  | none => simp [ht] at hcode
  | some t => simpa [vType, ht] using fmtCode_of_outFmt ht

/-! ### Elements as bytes -/

theorem toNat_append_byte {n : Nat} (hi : BitVec n) (lo : Byte) : (hi ++ lo).toNat = lo.toNat + 256 * hi.toNat := by
  rw [BitVec.toNat_append, ← Nat.shiftLeft_add_eq_or_of_lt lo.isLt, Nat.shiftLeft_eq]
  omega

/-- The number that 1, 2 or 4 bytes make. -/
theorem leNat_one (f : Nat → Byte) : leNat ((List.range 1).map f) = (f 0).toNat := by
  change leNat [f 0] = _
  rw [leNat, leNat, Nat.mul_zero, Nat.add_zero]
theorem leNat_two (f : Nat → Byte) : leNat ((List.range 2).map f) = (f 1 ++ f 0 : BitVec 16).toNat := by
  change leNat [f 0, f 1] = _
  simp only [leNat, toNat_append_byte, Nat.mul_zero, Nat.add_zero]
theorem leNat_four (f : Nat → Byte) : leNat ((List.range 4).map f) = (f 3 ++ f 2 ++ f 1 ++ f 0 : BitVec 32).toNat := by
  change leNat [f 0, f 1, f 2, f 3] = _
  simp only [leNat, toNat_append_byte, Nat.mul_zero, Nat.add_zero]

/-- A signed element, extended to its lane. -/
theorem w32_wrapN_sgn {n : Nat} (x : BitVec (n + 1)) : w32 (wrapN 32 (sgn (n + 1) x.toNat)) = x.signExtend 32 := by
  rw [sgn_toNat, w32_wrapN, BitVec.signExtend]

theorem w32_toNat_byte (x : Byte) : w32 (x.toNat % 256) = x.setWidth 32 := by
  rw [w32, Nat.mod_eq_of_lt x.isLt, BitVec.ofNat_toNat]

/-- A BF16 element stands in the high half of its lane. -/
theorem w32_high_half (x : BitVec 16) : w32 (x.toNat % 65536 * 65536) = x ++ (0 : BitVec 16) := by
  apply BitVec.eq_of_toNat_eq
  have hx := x.isLt
  simp only [w32, BitVec.toNat_ofNat, BitVec.toNat_append, Nat.shiftLeft_eq, BitVec.ofNat_eq_ofNat, Nat.zero_mod, Nat.or_zero]
  omega

/-- The lane that an element's bytes give. -/
theorem laneOfMem_leNat {t : OutFmt} (ht : t ≠ .part) (f : Nat → Byte) :
    laneOfMem t (leNat ((List.range t.bytes).map f)) = loadedLane (fmtCode t) f := by
  cases t
  case int8 => exact (congrArg (laneOfMem .int8) (leNat_one f)).trans (w32_wrapN_sgn _)
  case int16 => exact (congrArg (laneOfMem .int16) (leNat_two f)).trans (w32_wrapN_sgn _)
  case int32 => exact (congrArg (laneOfMem .int32) (leNat_four f)).trans (BitVec.ofNat_toNat _ _)
  case e4m3 => exact (congrArg (laneOfMem .e4m3) (leNat_one f)).trans (w32_toNat_byte _)
  case e5m2 => exact (congrArg (laneOfMem .e5m2) (leNat_one f)).trans (w32_toNat_byte _)
  case bf16 => exact (congrArg (laneOfMem .bf16) (leNat_two f)).trans (w32_high_half _)
  case fp32 => exact (congrArg (laneOfMem .fp32) (leNat_four f)).trans (BitVec.ofNat_toNat _ _)
  case part => exact absurd rfl ht

theorem bytes_eq_elemBytes {t : OutFmt} (ht : t ≠ .part) : t.bytes = elemBytes (fmtCode t) := by
  cases t
  case part => exact absurd rfl ht
  all_goals rfl

/-- Cutting a number to `z` bytes keeps each of them. -/
theorem byte_of_cut {d z : Nat} (hd : d < z) (v : Nat) : v % 256 ^ z / 256 ^ d % 256 = v / 256 ^ d % 256 := by
  obtain ⟨m, rfl⟩ : ∃ m, z = d + (m + 1) := ⟨z - d - 1, by omega⟩
  rw [Nat.pow_add, Nat.mod_mul_right_div_self, Nat.pow_succ', Nat.mod_mul_right_mod]

/-- Byte `d` of the element that a lane makes. -/
theorem byte_memOfLane {t : OutFmt} (ht : t ≠ .part) {d : Nat} (hd : d < t.bytes) (w : Word) :
    BitVec.ofNat 8 (memOfLane t w / 256 ^ d) = storedByte (fmtCode t) d w := by
  have hpow : 2 ^ (8 * d) = 256 ^ d := Nat.pow_mul 2 8 d
  apply BitVec.eq_of_toNat_eq
  simp only [storedByte, BitVec.toNat_ofNat, BitVec.toNat_setWidth, BitVec.toNat_ushiftRight, Nat.shiftRight_eq_div_pow, Nat.pow_add,
    hpow]
  cases t
  case int8 | e4m3 | e5m2 => exact (byte_of_cut (z := 1) hd _).trans (by simp [fmtCode])
  case int16 => exact (byte_of_cut (z := 2) hd _).trans (by simp [fmtCode])
  case int32 | fp32 => simp [fmtCode, memOfLane]
  case bf16 => simp [fmtCode, memOfLane, Nat.div_div_eq_div_mul, Nat.mul_comm]
  case part => exact absurd rfl ht

/-! ### VLD -/

/-- One element of a row of bytes. -/
theorem elemBytes_of_row (f : Nat → Byte) {k z : Nat} (hk : k < 128) :
    ((((List.range (128 * z)).map f).drop (k * z)).take z) = (List.range z).map (fun d => f (z * k + d)) := by
  have hkz : (k + 1) * z ≤ 128 * z := Nat.mul_le_mul_right z hk
  rw [Nat.succ_mul] at hkz
  exact List.ext_getElem (by simp; omega) (fun d _ _ => by simp [Nat.mul_comm])

section
variable {s : State} {c : Nat} {i : Issued} {x : Job}

/-- Lane `k` of the elements at `a`, as a load gives it. -/
theorem laneOfMem_unitRead {p a : Nat} {t : OutFmt} (ht : t ≠ .part) (hcherry : cherry s c = false)
    (hin : a + 128 * t.bytes ≤ Config.spadBytes) (hadm : deniedLines s p c a (128 * t.bytes) = []) {k : Nat} (hk : k < 128) :
    laneOfMem t (leNat (((unitRead s p c a (128 * t.bytes)).drop (k * t.bytes)).take t.bytes)) =
      loadedLane (fmtCode t) (fun d => (clu s c).sp.get (a + t.bytes * k + d)) := by
  have hkz : (k + 1) * t.bytes ≤ 128 * t.bytes := Nat.mul_le_mul_right _ hk
  rw [Nat.succ_mul, Nat.mul_comm k] at hkz
  rw [← laneOfMem_leNat ht, unitRead_of_admitted hadm, elemBytes_of_row _ hk]
  refine congrArg (fun l => laneOfMem t (leNat l)) (List.map_congr_left fun d hd => ?_)
  have hd' := List.mem_range.1 hd
  rw [nsByte_of_not_cherry hcherry (by omega), Nat.add_assoc]

theorem part_ne_vType_of_load_store {op : Nat} (h : VecReady s c op i x) (hop : op = 0xB0 ∨ op = 0xB1) : vType i.words ≠ .part := by
  obtain ⟨-, hok⟩ := type_of_vecReady h
  obtain rfl | rfl := hop <;> simpa [vTypeOk] using hok

theorem elemBytes_of_load_store {op : Nat} (h : VecReady s c op i x) (hop : op = 0xB0 ∨ op = 0xB1) :
    elemBytes (vTypeCode i.words) = (vType i.words).bytes := by
  rw [(type_of_vecReady h).1, bytes_eq_elemBytes (part_ne_vType_of_load_store h hop)]

/-- What VLD and VST read or write lies in the scratchpad. -/
theorem fits_of_load_store {op : Nat} (h : VecReady s c op i x) (hop : op = 0xB0 ∨ op = 0xB1) (hcherry : cherry s c = false) :
    vAddr i.words + 128 * (vType i.words).bytes ≤ Config.spadBytes := by
  refine fits_of_vecReady h hcherry ?_
  obtain rfl | rfl := hop <;> simp [vExtent, opcode_of_vecReady h]

theorem completesWith_vld (h : VecReady s c 0xB0 i x) (hcherry : cherry s c = false)
    (hadm : deniedLines s (ownerOf s 17 c) c (vAddr i.words) (128 * (vType i.words).bytes) = [])
    (hwaits : loadWaits s c i (vAddr i.words) (128 * (vType i.words).bytes) = false)
    (htiles : readsTiles s c [(vAddr i.words, 128 * (vType i.words).bytes)] = []) :
    CompletesWith s c i (exec (.vld c) s) (fun k => loadedLane (fmtCode (vType i.words))
      (fun d => (clu s c).sp.get (vAddr i.words + (vType i.words).bytes * k + d))) := by
  refine completesWith_of_setV (src := maskState (clu s c) i.words)
    (ls := (List.range 128).map fun k => laneOfMem (vType i.words) (leNat (((unitRead s (ownerOf s 17 c) c (vAddr i.words)
      (128 * (vType i.words).bytes)).drop (k * (vType i.words).bytes)).take (vType i.words).bytes)))
    h (by decide) ?_ (settled_maskState h) fun k hk => ?_
  · simp only [hwaits, Bool.false_eq_true, if_false, deniedLines_setClu, hadm, unitDeny_nil, loadState, htiles, worse]
  · rw [getD_map_range _ _ hk, laneOfMem_unitRead (part_ne_vType_of_load_store h (.inl rfl)) hcherry
      (fits_of_load_store h (.inl rfl) hcherry) hadm hk]

/-! ### VST -/

/-- The lanes that VST stores: those that MASK enables, of the queue's head those inside its column mask. -/
def stOn (x : Cluster) (ws : List Word) : BitVec 128 :=
  vOn x ws &&& (if vQA ws then (match ftqHead x with | some e => e.colmask | none => 0) else allLanes)

theorem getLsbD_stOn (x : Cluster) (ws : List Word) {k : Nat} (hk : k < 128) : (stOn x ws).getLsbD k = true ↔
    maskBit x (vMask ws) k = true ∧ (vQA ws = true → ∃ e ∈ x.ftq.head?, e.colmask.getLsbD k = true) := by
  rw [stOn, BitVec.getLsbD_and, Bool.and_eq_true, vOn, getLsbD_vmask x _ hk, ftqHead]
  refine and_congr_right fun _ => ?_
  cases vQA ws with
  | false => simp [allLanes, hk, -BitVec.reduceAllOnes]
  | true => cases x.ftq.head? <;> simp

theorem length_opA_of_vecReady {op : Nat} (h : VecReady s c op i x) : (opA (clu s c) i.words).1.length = 128 := by
  unfold opA ftqHead
  cases hqa : vQA i.words with
  | false => exact List.length_map _
  | true =>
    obtain ⟨e, r, hftq, -⟩ := head_of_vecReady h (by simp [vReadsQ, hqa])
    rw [hftq]
    exact List.length_map _

theorem exec_vst (h : VecReady s c 0xB1 i x) (hcherry : cherry s c = false)
    (hadm : deniedLines s (ownerOf s 17 c) c (vAddr i.words) (128 * (vType i.words).bytes) = []) :
    ∃ t r, exec (.vst c) s = .next t ∧ VecDone s t c i { clu s c with sp := r } ∧
      ∀ b, r.get b = storedAt (clu s c).sp (vAddr i.words) (vType i.words).bytes (stOn (clu s c) i.words).getLsbD
        ((opA (clu s c) i.words).1.map (memOfLane (vType i.words))) 128 b := by
  have hlen : ((opA (clu s c) i.words).1.map (memOfLane (vType i.words))).length = 128 := by
    rw [List.length_map, length_opA_of_vecReady h]
  have hsize : 0 < (vType i.words).bytes := by cases vType i.words <;> decide
  obtain ⟨r, hS, hr⟩ := storeAt_storePieces (p := ownerOf s 17 c) hsize (stOn (clu s c) i.words).getLsbD hcherry
    (by rw [hlen]; exact fits_of_load_store h (.inr rfl) hcherry) (by rw [hlen]; exact hadm)
  refine ⟨_, r, rfl, vecStep_done_of_settled h (by decide) ?_ (settled_worse (settled_opA h) (settled_maskState h)) hS rfl
    (clear_of_vecReady h), by rwa [hlen] at hr⟩
  simp only [hadm, unitDeny_nil]
  rfl

/-- The byte that VST leaves at `b`, lane by lane. -/
theorem storedAt_lanes {t : OutFmt} (ht : t ≠ .part) {op : Nat} (h : VecReady s c op i x) (r : Ram) (a : Nat) (on : Nat → Bool)
    (b : Nat) : storedAt r a t.bytes on ((opA (clu s c) i.words).1.map (memOfLane t)) 128 b =
      if a ≤ b ∧ (b - a) / t.bytes < 128 ∧ on ((b - a) / t.bytes) = true then
        storedByte (fmtCode t) ((b - a) % t.bytes) (laneA (clu s c) i.words ((b - a) / t.bytes))
      else r.get b := by
  have hsize : 0 < t.bytes := by cases t <;> decide
  refine ite_congr rfl (fun ⟨_, hk, _⟩ => ?_) (fun _ => rfl)
  have hlane : ((opA (clu s c) i.words).1.map (memOfLane t)).getD ((b - a) / t.bytes) 0 =
      memOfLane t (laneA (clu s c) i.words ((b - a) / t.bytes)) := by
    rw [← getD_opA _ _ hk]
    simp [length_opA_of_vecReady h, hk]
  rw [hlane, byte_memOfLane ht (Nat.mod_lt _ hsize)]

end

end Sys2Proof.Machine
end

section

namespace Sys2Proof.Proofs

open Sys2Proof Sys2Proof.Machine

/-- Settles O16: an element of each TYPE and its lane hold the same bytes, and a store changes those of its enabled lanes. -/
theorem vldAndVstMoveLanes : Obligations.VldAndVstMoveLanes := by
  unfold Obligations.VldAndVstMoveLanes
  intro s c i x hcherry ws a ty z hadm
  refine ⟨fun h hwaits htiles => ?vld, fun h => ?vst⟩
  case vld =>
    have htype : ty = fmtCode (vType ws) := (type_of_vecReady h).1
    have hz : z = (vType ws).bytes := elemBytes_of_load_store h (.inl rfl)
    rw [hz] at hadm hwaits htiles
    obtain ⟨t, y, hexec, hwrites, hdone⟩ := completesWith_vld h hcherry hadm hwaits htiles
    rw [hz, htype]
    exact ⟨t, y, hexec, hdone, hwrites⟩
  case vst =>
    have htype : ty = fmtCode (vType ws) := (type_of_vecReady h).1
    have hz : z = (vType ws).bytes := elemBytes_of_load_store h (.inr rfl)
    rw [hz] at hadm
    obtain ⟨t, r, hexec, hdone, hr⟩ := exec_vst h hcherry hadm
    refine ⟨t, { clu s c with sp := r }, hexec, hdone, rfl, fun b => ?_⟩
    rw [hr b, storedAt_lanes (part_ne_vType_of_load_store h (.inr rfl)) h, hz, htype]
    exact if_congr (and_congr_right fun _ => and_congr_right fun hk => getLsbD_stOn _ _ hk) rfl rfl

end Sys2Proof.Proofs
end

section
/-! The instruction words of the Clove core (05 R142 to R145, 08 R245): the fields of each format stand in disjoint bits of its
word and are read back from them, and O60. -/

namespace Sys2Proof.Machine

open Sys2Proof

/-! ### Fields of a word -/

theorem b2n_lt_two (b : Bool) : b2n b < 2 := by cases b <;> decide

theorem bit_eq_of_div_mod {w : Word} {i : Nat} {b : Bool} (h : w.toNat / 2 ^ i % 2 = b2n b) : bit w i = b := by
  rw [bit, ← BitVec.testBit_toNat, Nat.testBit_eq_decide_div_mod_eq, h]
  cases b <;> rfl

/-- A field read as a bit vector of its width. -/
theorem ofNat_fld_eq {w : Word} {hi lo n : Nat} {x : BitVec n} (h : w.toNat / 2 ^ lo % 2 ^ (hi + 1 - lo) = x.toNat) :
    BitVec.ofNat n (fld w hi lo) = x := by
  rw [fld, h, BitVec.ofNat_toNat, BitVec.setWidth_eq]

theorem f5_eq_of_div_mod {w : Word} {lo : Nat} {x : BitVec 5} (h : w.toNat / 2 ^ lo % 32 = x.toNat) : f5 w lo = x := by
  apply ofNat_fld_eq
  rwa [show lo + 4 + 1 - lo = 5 by omega]

theorem f2_eq_of_div_mod {w : Word} {lo : Nat} {x : BitVec 2} (h : w.toNat / 2 ^ lo % 4 = x.toNat) : f2 w lo = x := by
  apply ofNat_fld_eq
  rwa [show lo + 1 + 1 - lo = 2 by omega]

/-- The lowest bit of a field of five bits. -/
theorem getLsbD_zero_f5 (w : Word) (lo : Nat) : (f5 w lo).getLsbD 0 = bit w lo := by
  rw [f5, bit, fld, ← BitVec.testBit_toNat, ← BitVec.testBit_toNat, BitVec.toNat_ofNat, show lo + 4 + 1 - lo = 5 by omega,
    Nat.mod_mod, Nat.testBit_eq_decide_div_mod_eq, Nat.testBit_eq_decide_div_mod_eq]
  congr 2
  omega

theorem toNat_cw {major rest : Nat} (hm : major < 32) (hr : rest < 2 ^ 27) :
    (cw major rest).toNat = major * 2 ^ 27 + rest := by
  rw [cw, w32, BitVec.toNat_ofNat]
  omega

theorem major_cw {major rest : Nat} (hm : major < 32) (hr : rest < 2 ^ 27) : fld (cw major rest) 31 27 = major := by
  rw [fld, toNat_cw hm hr]
  omega

/-! ### The formats of R142 and R143 -/

theorem encR_fields {func : Nat} (hf : func < 64) (f : RFmt) :
    fld (encR func f) 31 27 = 1 ∧ fld (encR func f) 5 0 = func ∧ rfmt (encR func f) = f := by
  obtain ⟨sat, sd, sa, sb, wd, wa, wb⟩ := f
  have hsat := b2n_lt_two sat
  have hwd := b2n_lt_two wd
  have hwa := b2n_lt_two wa
  have hwb := b2n_lt_two wb
  have hr : b2n sat * 2 ^ 26 + sd.toNat * 2 ^ 21 + sa.toNat * 2 ^ 16 + sb.toNat * 2 ^ 11 + b2n wd * 2 ^ 10 +
    b2n wa * 2 ^ 9 + b2n wb * 2 ^ 8 + func < 2 ^ 27 := by omega
  have hw := toNat_cw (major := 1) (by decide) hr
  refine ⟨major_cw (by decide) hr, by rw [fld, encR, hw]; omega, ?_⟩
  simp only [rfmt, RFmt.mk.injEq]
  refine ⟨bit_eq_of_div_mod ?_, f5_eq_of_div_mod ?_, f5_eq_of_div_mod ?_, f5_eq_of_div_mod ?_, bit_eq_of_div_mod ?_,
    bit_eq_of_div_mod ?_, bit_eq_of_div_mod ?_⟩ <;> (rw [encR, hw]; omega)

/-- Bit 0 of SB, which tells RDCST and WRCST apart (log 21). -/
theorem bit_encR_sb {func : Nat} (hf : func < 64) (f : RFmt) : bit (encR func f) 11 = f.sb.getLsbD 0 := by
  rw [← getLsbD_zero_f5]
  exact congrArg (fun g : RFmt => g.sb.getLsbD 0) (encR_fields hf f).2.2

theorem encI_fields {major : Nat} (hm : major < 32) (f : IFmt) :
    fld (encI major f) 31 27 = major ∧ ifmt (encI major f) = f := by
  obtain ⟨sat, sd, sa, imm⟩ := f
  have hsat := b2n_lt_two sat
  have hr : b2n sat * 2 ^ 26 + sd.toNat * 2 ^ 21 + sa.toNat * 2 ^ 16 + imm.toNat < 2 ^ 27 := by omega
  have hw := toNat_cw hm hr
  refine ⟨major_cw hm hr, ?_⟩
  simp only [ifmt, IFmt.mk.injEq]
  refine ⟨bit_eq_of_div_mod ?_, f5_eq_of_div_mod ?_, f5_eq_of_div_mod ?_, ofNat_fld_eq ?_⟩ <;> (rw [encI, hw]; omega)

theorem encXY_lt (m : XYMove) : encXY m < 64 := by
  have hen := b2n_lt_two m.en
  have hmod := b2n_lt_two m.byMod
  unfold encXY
  omega

/-- A parallel load is read back from the six bits at `lo`. -/
theorem xymove_eq {w : Word} {lo : Nat} {m : XYMove} (h : w.toNat / 2 ^ lo % 64 = encXY m) : xymove w lo = m := by
  obtain ⟨en, ptr, byMod, dest⟩ := m
  have hen := b2n_lt_two en
  have hmod := b2n_lt_two byMod
  simp only [encXY] at h
  simp only [xymove, XYMove.mk.injEq]
  refine ⟨bit_eq_of_div_mod ?_, f2_eq_of_div_mod ?_, bit_eq_of_div_mod ?_, f2_eq_of_div_mod (by omega)⟩ <;>
    (rw [Nat.pow_add, ← Nat.div_div_eq_div_mul]; omega)

theorem encM_fields {mop : Nat} (hp : mop < 4) (f : MFmt) :
    fld (encM mop f) 31 27 = 4 ∧ fld (encM mop f) 23 22 = mop ∧ mfmt (encM mop f) = f := by
  obtain ⟨sat, frac, ad, sa, sb, xm, ym⟩ := f
  have hsat := b2n_lt_two sat
  have hfrac := b2n_lt_two frac
  have had := b2n_lt_two ad
  have hx := encXY_lt xm
  have hy := encXY_lt ym
  have hr : b2n sat * 2 ^ 26 + b2n frac * 2 ^ 25 + b2n ad * 2 ^ 24 + mop * 2 ^ 22 + sa.toNat * 2 ^ 17 + sb.toNat * 2 ^ 12 +
    encXY xm * 2 ^ 6 + encXY ym < 2 ^ 27 := by omega
  have hw := toNat_cw (major := 4) (by decide) hr
  refine ⟨major_cw (by decide) hr, by rw [fld, encM, hw]; omega, ?_⟩
  simp only [mfmt, MFmt.mk.injEq]
  refine ⟨bit_eq_of_div_mod ?_, bit_eq_of_div_mod ?_, bit_eq_of_div_mod ?_, f5_eq_of_div_mod ?_, f5_eq_of_div_mod ?_,
    xymove_eq ?_, xymove_eq ?_⟩ <;> (rw [encM, hw]; omega)

theorem encT_fields (f : TFmt) : fld (encT f) 31 27 = 5 ∧ tfmt (encT f) = f := by
  obtain ⟨sat, frac, ad, px, py⟩ := f
  have hsat := b2n_lt_two sat
  have hfrac := b2n_lt_two frac
  have had := b2n_lt_two ad
  have hr : b2n sat * 2 ^ 26 + b2n frac * 2 ^ 25 + b2n ad * 2 ^ 24 + px.toNat * 2 ^ 22 + py.toNat * 2 ^ 20 < 2 ^ 27 := by omega
  have hw := toNat_cw (major := 5) (by decide) hr
  refine ⟨major_cw (by decide) hr, ?_⟩
  simp only [tfmt, TFmt.mk.injEq]
  refine ⟨bit_eq_of_div_mod ?_, bit_eq_of_div_mod ?_, bit_eq_of_div_mod ?_, f2_eq_of_div_mod ?_, f2_eq_of_div_mod ?_⟩ <;>
    (rw [encT, hw]; omega)

theorem encLS_fields {major : Nat} (hm : major < 32) (f : LSFmt) :
    fld (encLS major f) 31 27 = major ∧ lsfmt (encLS major f) = f := by
  obtain ⟨wide, reg, wbank, ptr, post⟩ := f
  have hwide := b2n_lt_two wide
  have hbank := b2n_lt_two wbank
  have hpost := b2n_lt_two post
  have hr : b2n wide * 2 ^ 26 + reg.toNat * 2 ^ 21 + b2n wbank * 2 ^ 20 + ptr.toNat * 2 ^ 18 + b2n post * 2 ^ 17 < 2 ^ 27 := by
    omega
  have hw := toNat_cw hm hr
  refine ⟨major_cw hm hr, ?_⟩
  simp only [lsfmt, LSFmt.mk.injEq]
  refine ⟨bit_eq_of_div_mod ?_, f5_eq_of_div_mod ?_, bit_eq_of_div_mod ?_, f2_eq_of_div_mod ?_, bit_eq_of_div_mod ?_⟩ <;>
    (rw [encLS, hw]; omega)

theorem encP_fields (f : PFmt) : fld (encP f) 31 27 = 0x0C ∧ pfmt (encP f) = f := by
  obtain ⟨yBank, ptr, field, src⟩ := f
  have hbank := b2n_lt_two yBank
  have hr : b2n yBank * 2 ^ 26 + ptr.toNat * 2 ^ 24 + field.toNat * 2 ^ 22 + src.toNat * 2 ^ 17 < 2 ^ 27 := by omega
  have hw := toNat_cw (major := 0x0C) (by decide) hr
  refine ⟨major_cw (by decide) hr, ?_⟩
  simp only [pfmt, PFmt.mk.injEq]
  refine ⟨bit_eq_of_div_mod ?_, f2_eq_of_div_mod ?_, f2_eq_of_div_mod ?_, f5_eq_of_div_mod ?_⟩ <;> (rw [encP, hw]; omega)

theorem encIss_fields (f : IssFmt) : fld (encIss f) 31 27 = 0x18 ∧ issfmt (encIss f) = f := by
  obtain ⟨queue, eng, px, patch, pword, pen⟩ := f
  have heng := b2n_lt_two eng
  have hpen := b2n_lt_two pen
  have hr : queue.toNat * 2 ^ 25 + b2n eng * 2 ^ 24 + px.toNat * 2 ^ 22 + patch.toNat * 2 ^ 17 + pword.toNat * 2 ^ 13 +
    b2n pen * 2 ^ 12 < 2 ^ 27 := by omega
  have hw := toNat_cw (major := 0x18) (by decide) hr
  refine ⟨major_cw (by decide) hr, ?_⟩
  simp only [issfmt, IssFmt.mk.injEq]
  refine ⟨f2_eq_of_div_mod ?_, bit_eq_of_div_mod ?_, f2_eq_of_div_mod ?_, f5_eq_of_div_mod ?_, ofNat_fld_eq ?_,
    bit_eq_of_div_mod ?_⟩ <;> (rw [encIss, hw]; omega)

/-- REP alone has a second word. -/
theorem encRep_fields (f : RepFmt) : fld (encRep0 f) 31 27 = 0x14 ∧ repfmt (encRep0 f) (encRep1 f) = f := by
  obtain ⟨rot, csrc, lenM1, count, span⟩ := f
  have hrot := b2n_lt_two rot
  have hcsrc := b2n_lt_two csrc
  have hr : b2n rot * 2 ^ 26 + b2n csrc * 2 ^ 25 + lenM1.toNat * 2 ^ 14 < 2 ^ 27 := by omega
  have hw := toNat_cw (major := 0x14) (by decide) hr
  have hv : (w32 (count.toNat * 2 ^ 16 + span.toNat)).toNat = count.toNat * 2 ^ 16 + span.toNat := by
    rw [w32, BitVec.toNat_ofNat]; omega
  refine ⟨major_cw (by decide) hr, ?_⟩
  simp only [repfmt, RepFmt.mk.injEq]
  refine ⟨bit_eq_of_div_mod ?_, bit_eq_of_div_mod ?_, ofNat_fld_eq ?_, ofNat_fld_eq ?_, ofNat_fld_eq ?_⟩
  all_goals simp only [encRep0, encRep1, hw, hv]
  all_goals omega

/-- A SYNC of a core (R245): the operation and its request. -/
theorem sync_fields {op : Nat} (hop : op < 16) (c : Nat) (sa sb sd sl : BitVec 5) (cont : Bool) :
    ∃ w, encSync op (.core c sa sb sd sl cont) = some (w, 0) ∧ fld w 31 27 = 0x1C ∧ fld w 26 23 = op ∧
      syncReq c w = .core c sa sb sd sl cont := by
  have hcont := b2n_lt_two cont
  have hr : op * 2 ^ 23 + sa.toNat * 2 ^ 18 + sb.toNat * 2 ^ 13 + sd.toNat * 2 ^ 8 + sl.toNat * 2 ^ 3 + b2n cont * 2 ^ 2 <
    2 ^ 27 := by omega
  have hw := toNat_cw (major := 0x1C) (by decide) hr
  refine ⟨_, rfl, major_cw (by decide) hr, by rw [fld, hw]; omega, ?_⟩
  simp only [syncReq, SyncReq.core.injEq, true_and]
  refine ⟨f5_eq_of_div_mod ?_, f5_eq_of_div_mod ?_, f5_eq_of_div_mod ?_, f5_eq_of_div_mod ?_, bit_eq_of_div_mod ?_⟩ <;>
    (rw [hw]; omega)

/-- A word whose operand is one number in its low bits. -/
theorem operand_fields {major n : Nat} (hm : major < 32) (hn : n < 27) (x : BitVec (n + 1)) :
    fld (cw major x.toNat) 31 27 = major ∧ BitVec.ofNat (n + 1) (fld (cw major x.toNat) n 0) = x := by
  have hr : x.toNat < 2 ^ 27 := lt_of_lt_of_le x.isLt (Nat.pow_le_pow_right (by decide) hn)
  refine ⟨major_cw hm hr, ofNat_fld_eq ?_⟩
  have hdvd : 2 ^ (n + 1) ∣ major * 2 ^ 27 := Dvd.dvd.mul_left (Nat.pow_dvd_pow 2 hn) major
  rw [toNat_cw hm hr, Nat.pow_zero, Nat.div_one, Nat.sub_zero, Nat.add_mod, Nat.mod_eq_zero_of_dvd hdvd, Nat.zero_add,
    Nat.mod_mod, Nat.mod_eq_of_lt x.isLt]

theorem brc_fields (cond : BitVec 3) (sa : BitVec 5) (off : BitVec 19) :
    let w := cw 0x11 (cond.toNat * 2 ^ 24 + sa.toNat * 2 ^ 19 + off.toNat)
    fld w 31 27 = 0x11 ∧ BitVec.ofNat 3 (fld w 26 24) = cond ∧ f5 w 19 = sa ∧ BitVec.ofNat 19 (fld w 18 0) = off := by
  have hr : cond.toNat * 2 ^ 24 + sa.toNat * 2 ^ 19 + off.toNat < 2 ^ 27 := by omega
  have hw := toNat_cw (major := 0x11) (by decide) hr
  refine ⟨major_cw (by decide) hr, ofNat_fld_eq ?_, f5_eq_of_div_mod ?_, ofNat_fld_eq ?_⟩ <;> (rw [hw]; omega)

theorem rdq_fields (sd : BitVec 5) : fld (cw 0x19 (sd.toNat * 2 ^ 21)) 31 27 = 0x19 ∧ f5 (cw 0x19 (sd.toNat * 2 ^ 21)) 21 = sd := by
  have hr : sd.toNat * 2 ^ 21 < 2 ^ 27 := by omega
  refine ⟨major_cw (by decide) hr, f5_eq_of_div_mod ?_⟩
  rw [toNat_cw (by decide) hr]
  omega

/-! ### Decoding what was encoded -/

/-- Format R is decoded by its FUNC code. -/
theorem cloveDecode_encR {func : Nat} (hf : func < 64) (c : Nat) (f : RFmt) (v : Word) :
    cloveDecode c (encR func f) v = decodeR c (encR func f) := by
  simp only [cloveDecode, encR_fields hf]

/-- SYNC is decoded by its operation; a request of another requester has no word. -/
theorem cloveDecode_encSync {op : Nat} (hop : op < 16) {q : SyncReq} {w v : Word} (h : encSync op q = some (w, v)) :
    ∃ c sa sb sd sl cont, q = .core c sa sb sd sl cont ∧ fld w 26 23 = op ∧ ∀ d, cloveDecode d w v = decodeSync d w ∧
      syncReq d w = .core d sa sb sd sl cont := by
  cases q
  case core c sa sb sd sl cont =>
    obtain ⟨u, hu, hmajor, hfld, hreq⟩ := sync_fields hop c sa sb sd sl cont
    cases hu.symm.trans h
    refine ⟨c, sa, sb, sd, sl, cont, rfl, hfld, fun d => ⟨by simp only [cloveDecode, hmajor], ?_⟩⟩
    simp only [syncReq, SyncReq.core.injEq, true_and] at hreq ⊢
    exact hreq
  all_goals cases h

/-- What an instruction's word can say is read back from it (R142). -/
theorem cloveDecode_cloveEncode {i : Instr} {w v : Word} (h : cloveEncode i = some (w, v)) (hwf : cloveWf i = true) :
    cloveDecode (cloveCluster i) w v = some i := by
  cases i
  case add c f | sub c f | and c f | or c f | xor c f | shl c f | shra c f | shrl c f | min c f | max c f | sel c f | mov c f |
      mova c f | clra c f | setrot c f =>
    cases h
    simp only [cloveCluster, cloveDecode_encR, decodeR, encR_fields, Nat.reduceLT]
  case rdcst c f | wrcst c f =>
    cases h
    simp only [cloveWf, Bool.not_eq_true'] at hwf
    simp only [cloveCluster, cloveDecode_encR, decodeR, encR_fields, bit_encR_sb, hwf, Nat.reduceLT, Bool.false_eq_true,
      if_false, if_true]
  case addi c f | movi c f | movhi c f =>
    cases h
    simp only [cloveCluster, cloveDecode, encI_fields, Nat.reduceLT]
  case mac c f | msu c f | mpy c f =>
    cases h
    simp only [cloveCluster, cloveDecode, encM_fields, Nat.reduceLT]
  case ftap c f =>
    cases h
    simp only [cloveCluster, cloveDecode, encT_fields]
  case ldx c f | ldy c f | stx c f | sty c f =>
    cases h
    simp only [cloveCluster, cloveDecode, encLS_fields, Nat.reduceLT]
  case setp c f =>
    cases h
    simp only [cloveCluster, cloveDecode, encP_fields]
  case issue c f =>
    cases h
    simp only [cloveCluster, cloveDecode, encIss_fields]
  case rep c f =>
    cases h
    simp only [cloveCluster, cloveDecode, encRep_fields]
  case br c off | call c off  =>
    cases h
    simp only [cloveCluster, cloveDecode, operand_fields (n := 26), Nat.reduceLT]
  case yieldPoint c n =>
    cases h
    simp only [cloveCluster, cloveDecode, operand_fields (n := 15), Nat.reduceLT]
  case brc c cond sa off =>
    cases h
    simp only [cloveCluster, cloveDecode, brc_fields]
  case ret c | rti c | endJob c =>
    cases h
    rfl
  case rdq c sd =>
    cases h
    simp only [cloveCluster, cloveDecode, rdq_fields]
  case syncRead q | syncSet q | syncAdd q | waitNz q | waitZ q | waitGe q | acquire q | tryAcquire q | register q | wakeCause q =>
    obtain ⟨c, sa, sb, sd, sl, cont, rfl, hop, hdec⟩ := cloveDecode_encSync (by decide) h
    simp only [cloveCluster, hdec, decodeSync, hop]
  case syncWrite q m | syncClear q m =>
    obtain rfl : m = .nothing := by simpa [cloveWf] using hwf
    obtain ⟨c, sa, sb, sd, sl, cont, rfl, hop, hdec⟩ := cloveDecode_encSync (by decide) h
    simp only [cloveCluster, hdec, decodeSync, hop]
  all_goals cases h

end Sys2Proof.Machine
end

section

namespace Sys2Proof.Proofs

open Sys2Proof Sys2Proof.Machine

/-- Settles O60: every operand is a field of its format, and no arm of the decoder answers to a code that R142 does not list. -/
theorem cloveWordsRoundTrip : Obligations.CloveWordsRoundTrip := by
  unfold Obligations.CloveWordsRoundTrip
  refine ⟨fun i w v h hrd hwr hsame => cloveDecode_cloveEncode h ?_, fun c w v h => ?_⟩
  · cases i
    case rdcst c f => simpa [cloveWf] using hrd c f rfl
    case wrcst c f => exact hwr c f rfl
    case syncWrite q m => simpa [cloveWf] using hsame q m (.inl rfl)
    case syncClear q m => simpa [cloveWf] using hsame q m (.inr rfl)
    all_goals rfl
  · simp only [List.mem_cons, List.not_mem_nil, or_false] at h
    rcases h with h | h | h | h | h | h | h | h | h | h <;> simp only [cloveDecode, h]

end Sys2Proof.Proofs
end

section
/-! The reset state (24 R689, 25 R693 to R713): what its tables read, and O58. -/

namespace Sys2Proof.Machine

open Sys2Proof

/-- A register with a row holds at reset what the row says, where no selector decides it. -/
theorem regReset_of_row {c off i sel : Nat} {x : RegRow} (hoff : off < 4096) (hi : i < 256) (hsel : sel < 65536)
    (hx : regResetX (c * 4096 + off) sel = none) (hrow : regRow? c i off = some x) :
    regReset (rkey (c * 4096 + off) i sel) = w32 x.reset := by
  have hr : rkey (c * 4096 + off) i sel / 65536 / 256 = c * 4096 + off := by unfold rkey; omega
  have hinst : rkey (c * 4096 + off) i sel / 65536 % 256 = i := by unfold rkey; omega
  have hsel' : rkey (c * 4096 + off) i sel % 65536 = sel := by unfold rkey; omega
  have hcode : (c * 4096 + off) / 4096 = c := by omega
  have hbyte : (c * 4096 + off) % 4096 = off := by omega
  simp only [regReset, hr, hinst, hsel', hx, hcode, hbyte, hrow]

/-- OWNER of every page has a row, with reset value 0 (R713). -/
theorem regRow_owner (c i : Nat) : ∃ x, regRow? c i HDR_OWNER = some x ∧ x.reset = 0 := ⟨_, rfl, rfl⟩

/-- The reset value of no header register depends on a selector. -/
theorem regResetX_header (c : Nat) {o : Nat} (ho : o < 0x40) : regResetX (c * 4096 + o) 0 = none := by
  unfold regResetX MEM_REG_CFG TMU_TS_CORR_ING TMU_TS_CORR_EGR
  rw [if_neg (by omega), if_neg (by omega), if_neg (by omega), if_neg (by omega), if_neg (by omega)]

theorem rg_reset (r i sel : Nat) : rg State.reset r i sel = regReset (rkey r i sel) := rfl

theorem ownerOf_reset (c : Nat) {i : Nat} (hi : i < 256) : ownerOf State.reset c i = 0 := by
  obtain ⟨x, hrow, hzero⟩ := regRow_owner c i
  rw [ownerOf, rg_reset, regReset_of_row (by decide) hi (by decide) (regResetX_header c (by decide)) hrow, hzero]
  rfl

theorem part_reset (p : Nat) : (part? State.reset p).isSome = decide (p = 0) := by
  by_cases hp : p = 0
  · subst hp; rfl
  · simp [part?, State.reset, tgetD, tget, hp, Ne.symm hp]

/-- A memory that nothing has written reads its fill byte. -/
theorem mread_nil (fill : Byte) (a n : Nat) : mread fill [] a n = List.replicate n fill := by
  induction n generalizing a with
  | zero => rfl
  | succ n ih => rw [mread, ih, List.replicate_succ]; rfl

theorem inv_reset : Inv State.reset := by unfold Inv; decide

end Sys2Proof.Machine
end

section

namespace Sys2Proof.Proofs

open Sys2Proof Sys2Proof.Machine

/-- Settles O58: the reset state lists nothing but partition 0, so that every table reads its default. -/
theorem resetHoldsTheStatedValues : Obligations.ResetHoldsTheStatedValues := by
  unfold Obligations.ResetHoldsTheStatedValues
  refine ⟨fun r i sel => ⟨rg_reset r i sel, rfl⟩, fun c off i sel x hoff hi hsel hx hrow => ?_, part_reset,
    fun c i _ _ hi => ownerOf_reset c hi, fun _ => rfl, rfl, fun _ _ => rfl, rfl, fun _ => rfl, mread_nil 0, rfl, rfl, inv_reset⟩
  rw [rg_reset]
  exact regReset_of_row hoff hi hsel hx hrow

end Sys2Proof.Proofs
end

section
/-! What the instructions of the Clove core share (05 R135, R137 to R146): the core as its loads land, values of the scalar
unit, and instructions that change registers of the core alone. -/

namespace Sys2Proof.Machine

open Sys2Proof

/-! ### Landed loads (R145, R146) -/

theorem put_eq (k : Clv) (d : LoadDest) (v : Word) : k.put d v = { k with s := (k.put d v).s, w := (k.put d v).w } := by
  cases d <;> rfl

theorem commit_eq (l : List (LoadDest × Word)) (k : Clv) : k.commit l = { k with s := (k.commit l).s, w := (k.commit l).w } := by
  induction l generalizing k with
  | nil => rfl
  | cons e l ih =>
    obtain ⟨d, v⟩ := e
    rw [Clv.commit, ih, put_eq]

/-- Loads that land change S and W registers alone. -/
theorem landed_eq (s : State) (c : Nat) :
    landed s c = { (clu s c).clv with s := (landed s c).s, w := (landed s c).w, loads := [] } := by
  rw [landed, commit_eq]

variable (s : State) (c : Nat)

@[simp] theorem landed_ptr (y : Bool) (i : Nat) : (landed s c).ptr y i = (clu s c).clv.ptr y i := by rw [landed_eq]; rfl
@[simp] theorem landed_cst : (landed s c).cst = (clu s c).clv.cst := by rw [landed_eq]
@[simp] theorem landed_acc0 : (landed s c).acc0 = (clu s c).clv.acc0 := by rw [landed_eq]
@[simp] theorem landed_acc1 : (landed s c).acc1 = (clu s c).clv.acc1 := by rw [landed_eq]
@[simp] theorem landed_px : (landed s c).px = (clu s c).clv.px := by rw [landed_eq]
@[simp] theorem landed_py : (landed s c).py = (clu s c).clv.py := by rw [landed_eq]
@[simp] theorem landed_pc : (landed s c).pc = (clu s c).clv.pc := by rw [landed_eq]
@[simp] theorem landed_delay : (landed s c).delay = (clu s c).clv.delay := by rw [landed_eq]
@[simp] theorem landed_reps : (landed s c).reps = (clu s c).clv.reps := by rw [landed_eq]
@[simp] theorem landed_calls : (landed s c).calls = (clu s c).clv.calls := by rw [landed_eq]
@[simp] theorem landed_rotBase : (landed s c).rotBase = (clu s c).clv.rotBase := by rw [landed_eq]

/-- A register written, with the sticky flags of its value. -/
theorem put_flags (k : Clv) (d : LoadDest) (v f : Word) : (k.put d v).flags f = { k.put d v with cst := k.cst ||| f } := by
  cases d <;> rfl
theorem put_no_flags (k : Clv) (d : LoadDest) (v : Word) : k.put d v = { k.put d v with cst := k.cst ||| 0 } := by
  cases d <;> simp [Clv.put]

/-! ### Values of the scalar unit (R139, R140, R144) -/

theorem outS_eq_false {n : Nat} {x : Int} : outS n x = false ↔ smin n ≤ x ∧ x ≤ smax n := by
  simp only [outS, Bool.or_eq_false_iff, decide_eq_false_iff_not, gt_iff_lt, not_lt]
  exact and_comm

theorem smin_32 : smin 32 = -2147483648 := by decide
theorem smax_32 : smax 32 = 2147483647 := by decide
theorem smin_40 : smin 40 = -549755813888 := by decide
theorem smax_40 : smax 40 = 549755813887 := by decide

theorem clampS_of_outside {n : Nat} {x : Int} (hn : smin n ≤ 0) (hp : 0 ≤ smax n) (h : ¬ (smin n ≤ x ∧ x ≤ smax n)) :
    clampS n x = if x < 0 then smin n else smax n := by
  unfold clampS
  split <;> split <;> omega

theorem aluResult_eq_scalarResult (sat : Bool) (x : Int) : aluResult sat x = scalarResult sat x := by
  unfold aluResult scalarResult
  by_cases hin : -2147483648 ≤ x ∧ x ≤ 2147483647
  · rw [if_pos hin, outS_eq_false.2 (by rwa [smin_32, smax_32]), if_neg (by decide), w32_wrapN]
  · have hout : outS 32 x = true := by rw [← Bool.not_eq_false, outS_eq_false, smin_32, smax_32]; exact hin
    rw [if_neg hin, hout, if_pos rfl, w32_wrapN, w32_wrapN,
      clampS_of_outside (by decide) (by decide) (by rwa [smin_32, smax_32]), smin_32, smax_32]
    by_cases hneg : x < 0 <;> simp [hneg, flagVS]

theorem ofNat_wrapN (n : Nat) (x : Int) : BitVec.ofNat n (wrapN n x) = BitVec.ofInt n x := by
  apply BitVec.eq_of_toNat_eq
  rw [wrapN, BitVec.toNat_ofNat, BitVec.toNat_ofInt, Nat.mod_eq_of_lt]
  have := Int.emod_lt_of_pos x (show 0 < ((2 ^ n : Nat) : Int) by positivity)
  have := Int.emod_nonneg x (show ((2 ^ n : Nat) : Int) ≠ 0 by positivity)
  omega

theorem accResult_eq_accumulatorResult (sat : Bool) (x : Int) : accResult sat x = accumulatorResult sat x := by
  unfold accResult accumulatorResult
  by_cases hin : -2147483648 ≤ x ∧ x ≤ 2147483647
  · rw [if_pos hin, outS_eq_false.2 (by rwa [smin_32, smax_32]), if_pos (by decide), ofNat_wrapN]
  · have hout : outS 32 x = true := by rw [← Bool.not_eq_false, outS_eq_false, smin_32, smax_32]; exact hin
    rw [if_neg hin, hout, if_neg (by decide), ofNat_wrapN, ofNat_wrapN,
      clampS_of_outside (by decide) (by decide) (by rwa [smin_32, smax_32]), smin_32, smax_32]
    cases sat with
    | true => by_cases hneg : x < 0 <;> simp [hneg, flagV32]
    | false =>
      by_cases hin40 : -549755813888 ≤ x ∧ x ≤ 549755813887
      · simp [hin40, outS_eq_false.2 (show smin 40 ≤ x ∧ x ≤ smax 40 by rwa [smin_40, smax_40]), flagV32]
      · have hout40 : outS 40 x = true := by rw [← Bool.not_eq_false, outS_eq_false, smin_40, smax_40]; exact hin40
        simp [hin40, hout40, flagV32, flagV40]

theorem mulProduct_eq_product (frac : Bool) (a b : Word) : mulProduct frac a b = product frac a b := by
  have hlow (x : Word) : sgn 16 x.toNat = (x.setWidth 16).toInt := by
    rw [← sgn_toNat, BitVec.toNat_setWidth, sgn, sgn, Nat.mod_mod]
  rw [mulProduct, product, hlow, hlow]

theorem rdivS_eq_roundedHigh (a : BitVec 40) : rdivS a.toInt 65536 = roundedHigh a := by
  unfold rdivS roundedHigh rdiv
  split <;> split <;> omega

theorem movaResult_eq_movaValue (sat : Bool) (a : BitVec 40) : movaResult sat a = movaValue sat a := by
  unfold movaResult movaValue
  rw [rdivS_eq_roundedHigh, w32_wrapN]
  cases sat with
  | true => rw [if_pos rfl, if_pos rfl, clampS_eq]; rfl
  | false =>
    have hwrap : wrapN 16 (roundedHigh a) = (BitVec.ofInt 16 (roundedHigh a)).toNat := by
      rw [← ofNat_wrapN, BitVec.toNat_ofNat, wrapN, Nat.mod_eq_of_lt]
      omega
    rw [if_neg (by decide), if_neg (by decide), hwrap, sgn_toNat, BitVec.signExtend]

theorem signed_min (a b : Word) : (if a.toInt ≤ b.toInt then a else b) = BitVec.ofInt 32 (min a.toInt b.toInt) := by
  split
  · rw [min_eq_left ‹_›, BitVec.ofInt_toInt]
  · rw [min_eq_right (by omega), BitVec.ofInt_toInt]

theorem signed_max (a b : Word) : (if b.toInt ≤ a.toInt then a else b) = BitVec.ofInt 32 (max a.toInt b.toInt) := by
  split
  · rw [max_eq_left ‹_›, BitVec.ofInt_toInt]
  · rw [max_eq_right (by omega), BitVec.ofInt_toInt]

/-- MOVHI puts its operand above the low half that stays. -/
theorem high_half_set (imm : BitVec 16) (w : Word) : w32 (imm.toNat * 65536 + fld w 15 0) = imm ++ w.setWidth 16 := by
  apply BitVec.eq_of_toNat_eq
  rw [w32, BitVec.toNat_ofNat, BitVec.toNat_append, BitVec.toNat_setWidth, ← Nat.shiftLeft_add_eq_or_of_lt (Nat.mod_lt _ (by decide)),
    Nat.shiftLeft_eq, fld]
  omega

theorem ofNat_fld (w : Word) (hi lo n : Nat) (h : hi + 1 - lo = n) : BitVec.ofNat n (fld w hi lo) = w.extractLsb' lo n := by
  apply BitVec.eq_of_toNat_eq
  rw [BitVec.toNat_ofNat, fld, h, BitVec.extractLsb'_toNat, Nat.shiftRight_eq_div_pow, Nat.mod_mod]

/-! ### Instructions that change registers of the core alone -/

/-- Such an instruction completes in one a-cycle, and the core goes on. -/
theorem completes_of_core {s : State} {c j : Nat} {y : Job} {g : Gen} {i : Instr} {q : Clv}
    {body : Job → Gen → Clv → State → CRes} (fn : Clv → Clv) (h : CloveReady s c 4 j y g)
    (hexec : exec i s = .next (cloveRun s c 4 1 body))
    (hbody : ∀ S, S = { s with cl := S.cl } → body y g (clu s c).clv S = coreDone S c fn) (hq : fn (landed s c) = q) :
    ∃ t, exec i s = .next t ∧ CloveNext s t c 4 1 j (clu s c) q [] :=
  ⟨_, hexec, hq ▸ cloveRun_core fn h hbody⟩

/-- Format R: SD takes the value that the operation gives, with its sticky flags. -/
theorem completes_of_aluR {s : State} {c j : Nat} {y : Job} {g : Gen} {i : Instr} {f : RFmt} {v : Word × Word}
    {op : Word → Word → Word → Word × Word} (h : CloveReady s c 4 j y g) (hexec : exec i s = .next (aluR s c f op))
    (hop : op ((clu s c).clv.reg f.wd f.sd) ((clu s c).clv.reg f.wa f.sa) ((clu s c).clv.reg f.wb f.sb) = v) :
    ∃ t, exec i s = .next t ∧ CloveNext s t c 4 1 j (clu s c)
      { (landed s c).put ((clu s c).clv.dest f.wd f.sd) v.1 with cst := (landed s c).cst ||| v.2 } [] :=
  completes_of_core (fun q => (q.put ((clu s c).clv.dest f.wd f.sd) v.1).flags v.2) h hexec (fun _ _ => by simp only [hop])
    (put_flags ..)

/-- SETP completes with its pointer changed. -/
theorem completes_of_setp {s : State} {c j : Nat} {y : Job} {g : Gen} {p : PFmt} {x : Ptr} (h : CloveReady s c 4 j y g)
    (hx : setpField ((clu s c).clv.ptr p.yBank p.ptr.toNat) p.field.toNat ((clu s c).clv.sreg p.src.toNat) = some x) :
    ∃ t, exec (.setp c p) s = .next t ∧
      CloveNext s t c 4 1 j (clu s c) ((landed s c).setPtr p.yBank p.ptr.toNat x) [] := by
  refine completes_of_core (fun q => q.setPtr p.yBank p.ptr.toNat x) h rfl (fun S _ => ?_) rfl
  simp only [Clv.reg, Bool.false_eq_true, if_false, hx]

/-- The three fields of SETP (R137). -/
theorem setpField_address (x : Ptr) (v : Word) : setpField x 0 v = some { x with adr := v.setWidth 17, base := v.setWidth 17 } := by
  simp only [setpField, BitVec.ofNat_toNat]
theorem setpField_modifier (x : Ptr) (v : Word) : setpField x 1 v = some { x with mod := v.setWidth 16 } := by
  simp only [setpField, BitVec.ofNat_toNat]
theorem setpField_length (x : Ptr) (v : Word) : setpField x 2 v = some { x with len := v.setWidth 17 } := by
  simp only [setpField, BitVec.ofNat_toNat]

end Sys2Proof.Machine
end

section

namespace Sys2Proof.Proofs

open Sys2Proof Sys2Proof.Machine

/-- Format R in the order of R144 (ADD to MOV, MOVA, RDCST), then ADDI, MOVI and MOVHI. -/
theorem aluInstructionsWriteOneRegister : AluInstructionsWriteOneRegister := by
  unfold AluInstructionsWriteOneRegister
  intro s c j y g f i h e he
  simp only [aluRows, List.mem_cons, List.not_mem_nil, or_false] at he
  rcases he with rfl | rfl | rfl | rfl | rfl | rfl | rfl | rfl | rfl | rfl | rfl | rfl | rfl | rfl | rfl | rfl | rfl
  · exact completes_of_aluR h rfl (aluResult_eq_scalarResult _ _)
  · exact completes_of_aluR h rfl (aluResult_eq_scalarResult _ _)
  · exact completes_of_aluR h rfl rfl
  · exact completes_of_aluR h rfl rfl
  · exact completes_of_aluR h rfl rfl
  · exact completes_of_aluR h rfl (aluResult_eq_scalarResult _ _)
  · exact completes_of_aluR h rfl rfl
  · exact completes_of_aluR h rfl rfl
  · exact completes_of_aluR h rfl (Prod.ext (signed_min _ _) rfl)
  · exact completes_of_aluR h rfl (Prod.ext (signed_max _ _) rfl)
  · exact completes_of_aluR h rfl (Prod.ext (ite_not _ _ _) rfl)
  · exact completes_of_aluR h rfl rfl
  · refine completes_of_core _ h rfl (fun _ _ => rfl) ?_
    rw [movaResult_eq_movaValue]
    exact put_no_flags ..
  · exact completes_of_core _ h rfl (fun _ _ => rfl) (put_no_flags ..)
  · refine completes_of_core _ h rfl (fun _ _ => rfl) ?_
    rw [aluResult_eq_scalarResult]
    exact put_flags ..
  · exact completes_of_core _ h rfl (fun _ _ => rfl) (put_no_flags ..)
  · refine completes_of_core _ h rfl (fun _ _ => rfl) ?_
    rw [high_half_set]
    exact put_no_flags ..

/-- CLRA, SETROT, WRCST, SETP and RDQ. -/
theorem coreRegisterInstructions : CoreRegisterInstructions := by
  unfold CoreRegisterInstructions
  intro s c j y g f p sd h e he hok
  simp only [coreRows, List.mem_cons, List.not_mem_nil, or_false] at he
  rcases he with rfl | rfl | rfl | rfl | rfl | rfl | rfl
  · exact completes_of_core _ h rfl (fun _ _ => rfl) rfl
  · exact completes_of_core _ h rfl (fun _ _ => rfl) (by rw [BitVec.ofNat_toNat])
  · refine completes_of_core (fun q => { q with cst := (clu s c).clv.reg f.wa f.sa &&& 0xF7 }) h rfl (fun S hS => ?_) rfl
    have hien : ienAllowed S y g = fld (entryWord s g y.entry 3) 11 8 := by rw [hS]; rfl
    simp only [hien, ofNat_fld _ 7 4 4 rfl, ofNat_fld _ 11 8 4 rfl]
    exact if_neg (not_not.2 hok)
  · rw [landed_ptr]; exact completes_of_setp h (setpField_address ..)
  · rw [landed_ptr]; exact completes_of_setp h (setpField_modifier ..)
  · rw [landed_ptr]; exact completes_of_setp h (setpField_length ..)
  · obtain ⟨v, r, hq⟩ : ∃ v r, (clu s c).clv.retq = v :: r := List.exists_cons_of_ne_nil hok
    exact completes_of_core (fun q => { q.setS sd.toNat v with retq := r }) h rfl (fun _ _ => by simp only [hq]) (by rw [hq]; rfl)

/-- Settles O1: each body changes the core alone, by the value that its rule gives. -/
theorem coreInstructionsWriteTheirRegister : Obligations.CoreInstructionsWriteTheirRegister :=
  ⟨aluInstructionsWriteOneRegister, coreRegisterInstructions⟩

end Sys2Proof.Proofs
end

section
/-! Pointers and the X and Y data ports of the Clove core (05 R133, R137, R142, R143): when an access is consistent, what it reads
and writes, and instructions whose body changes their cluster. -/

namespace Sys2Proof.Machine

open Sys2Proof

/-! ### Consistent accesses (R137, R163) -/

theorem usable_iff {p : Ptr} {n : Nat} : p.usable n = true ↔ p.len = 0 ∨ p.mod.toInt.natAbs ≤ p.len.toNat ∧ p.len.toNat % n = 0 := by
  simp only [Ptr.usable, Bool.or_eq_true, Bool.and_eq_true, decide_eq_true_eq]

theorem ptrOk_iff {p : Ptr} {n : Nat} : PtrOk p n ↔ p.usable n = true ∧ p.adr.toNat % n = 0 := by
  rw [usable_iff]; rfl

theorem usable_eq_false_iff {p : Ptr} {n : Nat} : p.usable n = false ↔ breaksCircle p n := by
  rw [← Bool.not_eq_true, usable_iff]
  unfold breaksCircle
  constructor
  · intro h; push Not at h; exact ⟨h.1, by omega⟩
  · rintro ⟨hlen, hbad⟩ (h | h)
    · exact hlen h
    · omega

theorem xyBad_load {y : Bool} {a n : Nat} (h : a % n = 0) : xyBad y false a n = none := by simp [xyBad, h]

theorem xyBad_store {y : Bool} {a n : Nat} (h : a % n = 0) (hwin : y = false → a + n ≤ capWindow) : xyBad y true a n = none := by
  cases y
  · simp [xyBad, h, hwin rfl]
  · simp [xyBad, h]

theorem moveBad_of_ptrOk {k : Clv} {y : Bool} {m : XYMove} (h : m.en = true → PtrOk (k.ptr y m.ptr.toNat) 2) :
    moveBad k y m = none := by
  unfold moveBad
  cases hen : m.en with
  | false => rfl
  | true =>
    obtain ⟨huse, halign⟩ := ptrOk_iff.1 (h hen)
    simp [huse, xyBad_load halign]

/-! ### What the ports read -/

theorem capRecord_of_onlyClu {s t : State} {c : Nat} {x : Cluster} (h : OnlyClu s t c x) (p lv ix : Nat) :
    capRecord t p lv ix = capRecord s p lv ix := by
  rw [h.1]; rfl

theorem ledUnit_of_onlyClu {s t : State} {c : Nat} {x : Cluster} (h : OnlyClu s t c x) (d : Nat) : ledUnit t d = ledUnit s d := by
  rw [h.1]; rfl

theorem ownerOf_of_onlyClu {s t : State} {c : Nat} {x : Cluster} (h : OnlyClu s t c x) (p d : Nat) :
    ownerOf t p d = ownerOf s p d := by
  rw [h.1]; rfl

theorem rg_of_onlyClu {s t : State} {c : Nat} {x : Cluster} (h : OnlyClu s t c x) (r i sel : Nat) :
    rg t r i sel = rg s r i sel := by
  rw [h.1]; rfl

theorem clHandle_of_onlyClu {s t : State} {c : Nat} {x : Cluster} (h : OnlyClu s t c x) (d : Nat) : clHandle t d = clHandle s d := by
  rw [h.1]; rfl

theorem mem_of_onlyClu {s t : State} {c : Nat} {x : Cluster} (h : OnlyClu s t c x) : t.mem = s.mem := by rw [h.1]
theorem ering_of_onlyClu {s t : State} {c : Nat} {x : Cluster} (h : OnlyClu s t c x) : t.pg.ering = s.pg.ering := by rw [h.1]

/-- The ports show the same bytes while X and Y stay. -/
theorem coreByte_of_onlyClu {s t : State} {c : Nat} {x : Cluster} (h : OnlyClu s t c x) (hx : x.xm = (clu s c).xm)
    (hy : x.ym = (clu s c).ym) (y : Bool) : coreByte t c y = coreByte s c y := by
  cases y
  · change xByte t c = xByte s c
    funext a
    simp only [xByte, capRecord_of_onlyClu h, ledUnit_of_onlyClu h, ownerOf_of_onlyClu h, h.clu_self, hx]
  · change (clu t c).ym.get = (clu s c).ym.get
    rw [h.clu_self, hy]

theorem xyRead_eq (s : State) (c : Nat) (y : Bool) (a n : Nat) :
    xyRead s c y a n = leNat ((List.range n).map (fun i => coreByte s c y (a + i))) := by
  cases y <;> rfl

/-- A loaded value: a word, or a sign-extended halfword. -/
theorem xyLoad_eq (s : State) (c : Nat) (y : Bool) (a : Nat) (wide : Bool) :
    xyLoad s c y a wide = if wide then fullWord (coreByte s c y) a else halfWord (coreByte s c y) a := by
  cases wide with
  | true =>
    simp only [xyLoad, xyRead_eq, if_true, leNat_four]
    exact BitVec.ofNat_toNat _ _
  | false =>
    simp only [xyLoad, xyRead_eq, Bool.false_eq_true, if_false, leNat_two]
    exact w32_wrapN_sgn _

/-! ### What a store leaves -/

theorem undef_set (r : Ram) (a : Nat) (b : Byte) : (r.set a b).undef = r.undef := rfl

theorem undef_write (bs : List Byte) (r : Ram) (a : Nat) : (r.write a bs).undef = r.undef := by
  induction bs generalizing r a with
  | nil => rfl
  | cons b bs ih => rw [Ram.write, ih, undef_set]

/-- The bytes of a word, least significant first. -/
theorem getD_natLe_toNat (v : Word) {n i : Nat} (hi : i < n) : (natLe n v.toNat).getD i 0 = (v >>> (8 * i)).setWidth 8 := by
  rw [getD_natLe _ _ _ hi]
  apply BitVec.eq_of_toNat_eq
  rw [BitVec.toNat_ofNat, BitVec.toNat_setWidth, BitVec.toNat_ushiftRight, Nat.shiftRight_eq_div_pow, Nat.pow_mul]

/-- The bytes that a store leaves. -/
theorem get_write_natLe (r : Ram) (a n : Nat) (v : Word) (b : Nat) : (r.write a (natLe n v.toNat)).get b =
    if a ≤ b ∧ b < a + n then (v >>> (8 * (b - a))).setWidth 8 else r.get b := by
  rw [Ram.get_write, length_natLe]
  refine ite_congr rfl (fun h => ?_) (fun _ => rfl)
  exact getD_natLe_toNat v (by omega)

theorem onlyClu_xyWrite {s t : State} {c : Nat} {x : Cluster} (h : OnlyClu s t c x) (y : Bool) (a : Nat) (bs : List Byte) :
    OnlyClu s (xyWrite t c y a bs) c (if y then { x with ym := x.ym.write a bs } else { x with xm := x.xm.write a bs }) :=
  h.update fun x => if y then { x with ym := x.ym.write a bs } else { x with xm := x.xm.write a bs }

/-! ### Instructions whose body changes their cluster -/

/-- A body that completes and leaves cluster `c` as `x` with the core `k`. -/
theorem completes_of_done {s : State} {c j : Nat} {y : Job} {g : Gen} {i : Instr} {x : Cluster} {k : Clv}
    {loads : List (LoadDest × Word)} {br : Option (Option Nat)} {body : Job → Gen → Clv → State → CRes}
    (h : CloveReady s c 4 j y g) (hexec : exec i s = .next (cloveRun s c 4 1 body)) (hj : x.job = (clu s c).job)
    (hbody : ∀ S ic, OnlyClu s S c { clu s c with ic := ic, clv := landed s c } →
      ∃ T, body y g (clu s c).clv S = .done T loads br ∧ OnlyClu s T c { x with ic := ic, clv := k }) :
    ∃ t, exec i s = .next t ∧ CloveDone s t c 1 j x k loads ∧ (br = none → Sequential k (clu t c).clv 4) ∧
      ∀ target, br = some target → Branches k (clu t c).clv target := by
  obtain ⟨ic, hS⟩ := body_state s c (clu s c).clv.pc y
  obtain ⟨T, hrun, hT⟩ := hbody _ ic hS
  obtain ⟨hdone, hseq, hbr⟩ := cloveRun_done (cycles := 1) (x := { x with ic := ic }) h hrun hT hj
  exact ⟨_, hexec, hdone, hseq, fun target ht => hbr target ht rfl⟩

/-- The order of the cache's lines is free in what an instruction leaves. -/
theorem cloveDone_of_ic {s t : State} {c n j : Nat} {x : Cluster} {k : Clv} {loads : List (LoadDest × Word)} (ic : List ICLine)
    (h : CloveDone s t c n j { x with ic := ic } k loads) : CloveDone s t c n j x k loads := h

/-- Such an instruction that is no branch. -/
theorem completes_next_of_done {s : State} {c j : Nat} {y : Job} {g : Gen} {i : Instr} {x : Cluster} {k : Clv}
    {loads : List (LoadDest × Word)} {body : Job → Gen → Clv → State → CRes}
    (h : CloveReady s c 4 j y g) (hexec : exec i s = .next (cloveRun s c 4 1 body)) (hj : x.job = (clu s c).job)
    (hbody : ∀ S ic, OnlyClu s S c { clu s c with ic := ic, clv := landed s c } →
      ∃ T, body y g (clu s c).clv S = .done T loads none ∧ OnlyClu s T c { x with ic := ic, clv := k }) :
    ∃ t, exec i s = .next t ∧ CloveNext s t c 4 1 j x k loads := by
  obtain ⟨t, hnext, hdone, hseq, -⟩ := completes_of_done h hexec hj hbody
  exact ⟨t, hnext, hdone, hseq rfl⟩

theorem clu_self_of_cloveFrame {s t : State} {c n j : Nat} {x : Cluster} (h : CloveFrame s t c n j x) :
    clu t c = { x with clv := (clu t c).clv, ic := (clu t c).ic } := by
  obtain ⟨-, -, hclu, -⟩ := h
  exact hclu

/-- After an instruction X is what its body left. -/
theorem xm_of_cloveNext {s t : State} {c len n j : Nat} {x : Cluster} {k : Clv} {loads : List (LoadDest × Word)}
    (h : CloveNext s t c len n j x k loads) : (clu t c).xm = x.xm := by
  obtain ⟨⟨hframe, -⟩, -⟩ := h
  rw [clu_self_of_cloveFrame hframe]

/-- After an instruction Y is what its body left. -/
theorem ym_of_cloveNext {s t : State} {c len n j : Nat} {x : Cluster} {k : Clv} {loads : List (LoadDest × Word)}
    (h : CloveNext s t c len n j x k loads) : (clu t c).ym = x.ym := by
  obtain ⟨⟨hframe, -⟩, -⟩ := h
  rw [clu_self_of_cloveFrame hframe]

/-- Pointers of the two banks are apart. -/
theorem ptr_setPtr_other (k : Clv) (y : Bool) (i n : Nat) (p : Ptr) : (k.setPtr y i p).ptr (!y) n = k.ptr (!y) n := by
  cases y <;> rfl

theorem ptr_afterMove_other (k : Clv) (y : Bool) (m : XYMove) (n : Nat) : (afterMove k y m).ptr (!y) n = k.ptr (!y) n := by
  unfold afterMove
  split
  · exact ptr_setPtr_other ..
  · rfl

/-- A parallel load moves its pointer and leaves its value to land (R143). -/
theorem moveLoad_eq {s S : State} {c : Nat} {x : Cluster} (h : OnlyClu s S c x) (hx : x.xm = (clu s c).xm)
    (hy : x.ym = (clu s c).ym) {k : Clv} {y : Bool} {m : XYMove} (hp : x.clv.ptr y m.ptr.toNat = k.ptr y m.ptr.toNat) :
    ∃ T, moveLoad S c k y m = (T, if m.en then
        [(.s (m.dest.toNat + if y then 4 else 0), halfWord (coreByte s c y) (k.ptr y m.ptr.toNat).adr.toNat)] else []) ∧
      OnlyClu s T c { x with clv := afterMove x.clv y m } := by
  unfold moveLoad afterMove
  cases hen : m.en with
  | false => exact ⟨S, rfl, h⟩
  | true =>
    refine ⟨_, ?_, onlyClu_setClv h _⟩
    simp only [xyLoad_eq, coreByte_of_onlyClu h hx hy, hp, h.clu_self]
    rfl

end Sys2Proof.Machine
end

section
/-! Multiply-accumulates with parallel loads (05 R138, R139, R143, R146) and FTAP (R154), and O2. -/

namespace Sys2Proof.Machine

open Sys2Proof

/-- What the parallel loads of format M bring, from the core `k`. -/
def parallelLoads (s : State) (c : Nat) (f : MFmt) (k : Clv) : List (LoadDest × Word) :=
  (if f.xm.en then [(.s f.xm.dest.toNat, halfWord (xByte s c) (k.ptr false f.xm.ptr.toNat).adr.toNat)] else []) ++
    (if f.ym.en then [(.s (f.ym.dest.toNat + 4), halfWord (clu s c).ym.get (k.ptr true f.ym.ptr.toNat).adr.toNat)] else [])

@[simp] theorem cst_setPtr (k : Clv) (y : Bool) (i : Nat) (p : Ptr) : (k.setPtr y i p).cst = k.cst := by cases y <;> rfl
@[simp] theorem cst_setAcc (k : Clv) (ad : Bool) (v : BitVec 40) : (k.setAcc ad v).cst = k.cst := by cases ad <;> rfl
@[simp] theorem cst_afterMove (k : Clv) (y : Bool) (m : XYMove) : (afterMove k y m).cst = k.cst := by
  unfold afterMove
  split
  · exact cst_setPtr ..
  · rfl

/-- MAC, MSU and MPY complete, `op` forming the exact value from the accumulator and the product. -/
theorem completes_of_mulM {s : State} {c j : Nat} {y : Job} {g : Gen} {i : Instr} {f : MFmt} {op : Int → Int → Int}
    {v : BitVec 40 × Word} (h : CloveReady s c 4 j y g) (hexec : exec i s = .next (mulM s c f op))
    (hx : f.xm.en = true → PtrOk ((clu s c).clv.ptr false f.xm.ptr.toNat) 2)
    (hy : f.ym.en = true → PtrOk ((clu s c).clv.ptr true f.ym.ptr.toNat) 2)
    (hv : accumulatorResult f.sat (op ((clu s c).clv.acc f.ad).toInt
      (product f.frac ((clu s c).clv.sreg f.sa.toNat) ((clu s c).clv.sreg f.sb.toNat))) = v) :
    ∃ t, exec i s = .next t ∧ CloveNext s t c 4 1 j (clu s c)
      { (afterMove (afterMove (landed s c) false f.xm) true f.ym).setAcc f.ad v.1 with cst := (landed s c).cst ||| v.2 }
      (parallelLoads s c f (clu s c).clv) := by
  rw [← accResult_eq_accumulatorResult, ← mulProduct_eq_product] at hv
  refine completes_next_of_done (x := clu s c) h hexec rfl fun S ic hS => ?_
  obtain ⟨X, hX, hcluX⟩ := moveLoad_eq (k := (clu s c).clv) (y := false) (m := f.xm) hS rfl rfl (landed_ptr s c _ _)
  obtain ⟨Y, hY, hcluY⟩ := moveLoad_eq (k := (clu s c).clv) (y := true) (m := f.ym) hcluX rfl rfl
    ((ptr_afterMove_other _ false _ _).trans (landed_ptr s c _ _))
  have hcore : ((clu Y c).clv.setAcc f.ad v.1).flags v.2 =
      { (afterMove (afterMove (landed s c) false f.xm) true f.ym).setAcc f.ad v.1 with cst := (landed s c).cst ||| v.2 } := by
    simp only [hcluY.clu_self, Clv.flags, cst_setAcc, cst_afterMove]
  refine ⟨_, ?_, onlyClu_setClv hcluY _⟩
  simp only [moveBad_of_ptrOk hx, moveBad_of_ptrOk hy, hX, hY, Clv.reg, Bool.false_eq_true, if_false, hv, hcore]
  rfl

/-- Pointers and accumulators are apart. -/
theorem setPtr_setAcc_flags (k : Clv) (ad : Bool) (v : BitVec 40) (f : Word) (i n : Nat) (p q : Ptr) :
    (((k.setAcc ad v).flags f).setPtr false i p).setPtr true n q =
      { ((k.setPtr false i p).setPtr true n q).setAcc ad v with cst := k.cst ||| f } := by
  cases ad <;> rfl

/-- FTAP completes: it writes `x` at the address `a`, two bytes further on. -/
theorem completes_of_ftap {s : State} {c j : Nat} {y : Job} {g : Gen} {f : TFmt} {px py : Ptr} {x : Word} {a : Nat}
    {v : BitVec 40 × Word} (h : CloveReady s c 4 j y g) (hpx : (clu s c).clv.ptr false f.px.toNat = px)
    (hpy : (clu s c).clv.ptr true f.py.toNat = py) (hokx : PtrOk px 2) (hoky : PtrOk py 2) (ha : (px.moved 2).toNat = a)
    (heven : a % 2 = 0) (hwin : a + 2 ≤ capWindow) (hx : halfWord (xByte s c) px.adr.toNat = x)
    (hv : accumulatorResult f.sat (((clu s c).clv.acc f.ad).toInt +
      product f.frac x (halfWord (clu s c).ym.get py.adr.toNat)) = v) :
    ∃ t, exec (.ftap c f) s = .next t ∧ CloveNext s t c 4 1 j { clu s c with xm := (clu s c).xm.write a (natLe 2 x.toNat) }
      { (((landed s c).setPtr false f.px.toNat (px.step (-2))).setPtr true f.py.toNat (py.step py.mod.toInt)).setAcc f.ad v.1 with
        cst := (landed s c).cst ||| v.2 } [] := by
  rw [← accResult_eq_accumulatorResult, ← mulProduct_eq_product] at hv
  obtain ⟨huse, halign⟩ := ptrOk_iff.1 hokx
  obtain ⟨huse', halign'⟩ := ptrOk_iff.1 hoky
  refine completes_next_of_done h rfl rfl fun S ic hS => ?_
  have hload (b : Bool) (a : Nat) : xyLoad S c b a false = halfWord (coreByte s c b) a := by
    rw [xyLoad_eq, coreByte_of_onlyClu hS rfl rfl]; rfl
  have hloadx : xyLoad S c false px.adr.toNat false = x := (hload ..).trans hx
  have hloady : xyLoad S c true py.adr.toNat false = halfWord (clu s c).ym.get py.adr.toNat := hload ..
  have hW := onlyClu_xyWrite hS false a (natLe 2 x.toNat)
  refine ⟨_, ?_, onlyClu_setClv hW _⟩
  have hconsistent : ¬ ((!px.usable 2) = true ∨ (!py.usable 2) = true ∨ px.adr.toNat % 2 ≠ 0 ∨ py.adr.toNat % 2 ≠ 0 ∨
      a % 2 ≠ 0) := by
    simp [huse, huse', halign, halign', heven]
  simp only [hpx, hpy, ha, hloadx, hloady, hv, if_neg hconsistent, if_neg (not_lt.2 hwin), coreDone]
  rw [hW.clu_self]
  exact congrArg (fun k => CRes.done (setClv _ c k) [] none) (setPtr_setAcc_flags ..)

end Sys2Proof.Machine
end

section

namespace Sys2Proof.Proofs

open Sys2Proof Sys2Proof.Machine

theorem multiplyAccumulatesExactly : MultiplyAccumulatesExactly := by
  unfold MultiplyAccumulatesExactly
  intro s c j y g f h k hx hy a m q loads e he
  simp only [List.mem_cons, List.not_mem_nil, or_false] at he
  rcases he with rfl | rfl | rfl
  · exact completes_of_mulM h rfl hx hy rfl
  · exact completes_of_mulM h rfl hx hy rfl
  · exact completes_of_mulM h rfl hx hy rfl

/-- The delay line takes the two bytes of `x`. -/
theorem filterTapMovesDelayLine : FilterTapMovesDelayLine := by
  unfold FilterTapMovesDelayLine
  intro s c j y g f h k px py w hokx hoky heven hwin x r q
  obtain ⟨t, hexec, hnext⟩ := completes_of_ftap h rfl rfl hokx hoky rfl heven hwin rfl rfl
  have hxm : (clu t c).xm = (clu s c).xm.write w (natLe 2 x.toNat) := xm_of_cloveNext hnext
  refine ⟨t, hexec, by rw [hxm]; exact hnext, by rw [hxm, undef_write], fun b => ?_⟩
  rw [hxm, get_write_natLe]
  by_cases hb : b = w
  · simp [hb]
  · by_cases hb' : b = w + 1
    · simp [hb']
    · rw [if_neg hb, if_neg hb', if_neg (by omega)]

/-- Settles O2: the bodies form the exact value in the integers, and the model's clamp is that of the rule. -/
theorem accumulatorInstructionsAreExact : Obligations.AccumulatorInstructionsAreExact :=
  ⟨multiplyAccumulatesExactly, filterTapMovesDelayLine⟩

end Sys2Proof.Proofs
end

section
/-! Loads and stores of the Clove core (05 R133, R137, R142, R146), and O3. -/

namespace Sys2Proof.Machine

open Sys2Proof

theorem clv_of_cloveNext {s t : State} {c len n j : Nat} {x : Cluster} {k : Clv} {loads : List (LoadDest × Word)}
    (h : CloveNext s t c len n j x k loads) : (clu t c).clv = { k with
      pc := (clu t c).clv.pc, delay := (clu t c).clv.delay, reps := (clu t c).clv.reps, repCycles := (clu t c).clv.repCycles
      rotBase := (clu t c).clv.rotBase, holdoff := (clu t c).clv.holdoff, sinceYield := k.sinceYield + n, loads := loads
      stall := 0 } := by
  obtain ⟨⟨-, hclv⟩, -⟩ := h
  exact hclv

theorem sreg_setPtr (k : Clv) (y : Bool) (i : Nat) (p : Ptr) (n : Nat) : (k.setPtr y i p).sreg n = k.sreg n := by
  cases y <;> rfl

/-- A load whose destination is an S register: the register holds what it held, until the load lands (R146). -/
theorem sreg_of_load {s t : State} {c len n j r : Nat} {x : Cluster} {k : Clv} {v : Word}
    (h : CloveNext s t c len n j x k [(.s r, v)]) : (clu t c).clv.sreg r = k.sreg r ∧ (landed t c).sreg r = v := by
  have hclv := clv_of_cloveNext h
  constructor
  · rw [hclv]; rfl
  · have hloads : (clu t c).clv.loads = [(.s r, v)] := by rw [hclv]
    rw [landed, hloads]
    simp [Clv.commit, Clv.put, Clv.sreg]

/-- LDX and LDY complete: the pointer moves, and the value lands after the load-use slot. -/
theorem completes_of_loadLS {s : State} {c j : Nat} {y : Job} {g : Gen} {i : Instr} {f : LSFmt} {b : Bool} {p : Ptr}
    (h : CloveReady s c 4 j y g) (hexec : exec i s = .next (loadLS s c f b)) (hp : (clu s c).clv.ptr b f.ptr.toNat = p)
    (hok : PtrOk p (if f.w32 then 4 else 2)) :
    ∃ t, exec i s = .next t ∧ CloveNext s t c 4 1 j (clu s c)
      ((landed s c).setPtr b f.ptr.toNat (if f.post then p.step p.mod.toInt else p))
      [((clu s c).clv.dest f.wbank f.reg,
        if f.w32 then fullWord (coreByte s c b) p.adr.toNat else halfWord (coreByte s c b) p.adr.toNat)] := by
  obtain ⟨huse, halign⟩ := ptrOk_iff.1 hok
  refine completes_next_of_done (x := clu s c) h hexec rfl fun S ic hS => ?_
  refine ⟨_, ?_, onlyClu_setClv hS _⟩
  simp only [hp, huse, if_true, xyBad_load halign, xyLoad_eq, coreByte_of_onlyClu hS rfl rfl, hS.clu_self]
  rfl

/-- Cluster `x` once `bytes` are written to its X or Y memory. -/
def stored (x : Cluster) (b : Bool) (a : Nat) (bytes : List Byte) : Cluster :=
  if b then { x with ym := x.ym.write a bytes } else { x with xm := x.xm.write a bytes }

/-- STX and STY complete: the bytes are stored, and the pointer moves. -/
theorem completes_of_storeLS {s : State} {c j : Nat} {y : Job} {g : Gen} {i : Instr} {f : LSFmt} {b : Bool} {p : Ptr} {n : Nat}
    (h : CloveReady s c 4 j y g) (hexec : exec i s = .next (storeLS s c f b)) (hp : (clu s c).clv.ptr b f.ptr.toNat = p)
    (hn : (if f.w32 then 4 else 2) = n) (hok : PtrOk p n) (hwin : b = false → p.adr.toNat + n ≤ capWindow) :
    ∃ t, exec i s = .next t ∧
      CloveNext s t c 4 1 j (stored (clu s c) b p.adr.toNat (natLe n ((clu s c).clv.reg f.wbank f.reg).toNat))
        ((landed s c).setPtr b f.ptr.toNat (if f.post then p.step p.mod.toInt else p)) [] := by
  obtain ⟨huse, halign⟩ := ptrOk_iff.1 hok
  refine completes_next_of_done h hexec (by cases b <;> rfl) fun S ic hS => ?_
  have hW := onlyClu_xyWrite hS b p.adr.toNat (natLe n ((clu s c).clv.reg f.wbank f.reg).toNat)
  have hclv : (clu (xyWrite S c b p.adr.toNat (natLe n ((clu s c).clv.reg f.wbank f.reg).toNat)) c).clv = landed s c := by
    rw [hW.clu_self]; cases b <;> rfl
  refine ⟨setClv (xyWrite S c b p.adr.toNat (natLe n ((clu s c).clv.reg f.wbank f.reg).toNat)) c
    ((landed s c).setPtr b f.ptr.toNat (if f.post then p.step p.mod.toInt else p)), ?_, ?_⟩
  · simp only [hp, hn, huse, if_true, xyBad_store halign hwin, coreDone, hclv]
    rfl
  · have hT := onlyClu_setClv hW ((landed s c).setPtr b f.ptr.toNat (if f.post then p.step p.mod.toInt else p))
    cases b <;> exact hT

end Sys2Proof.Machine
end

section

namespace Sys2Proof.Proofs

open Sys2Proof Sys2Proof.Machine

theorem loadsLandAfterTheirSlot : LoadsLandAfterTheirSlot := by
  unfold LoadsLandAfterTheirSlot
  intro s c j y g f h e he k p v hok
  have hexec : exec e.1 s = .next (loadLS s c f e.2) := by
    simp only [List.mem_cons, List.not_mem_nil, or_false] at he
    rcases he with rfl | rfl <;> rfl
  obtain ⟨t, hrun, hnext⟩ := completes_of_loadLS h hexec rfl hok
  refine ⟨t, hrun, hnext, fun hbank => ?_⟩
  have hdest : k.dest f.wbank f.reg = .s f.reg.toNat := by rw [hbank]; rfl
  rw [hdest] at hnext
  have hslot := sreg_of_load hnext
  rwa [sreg_setPtr] at hslot

theorem storesChangeTheirBytesAlone : StoresChangeTheirBytesAlone := by
  unfold StoresChangeTheirBytesAlone
  intro s c j y g f h e he k p n v mem hok hwin
  obtain ⟨i, b⟩ := e
  have hexec : exec i s = .next (storeLS s c f b) := by
    simp only [List.mem_cons, List.not_mem_nil, or_false] at he
    rcases he with he | he <;> (cases he; rfl)
  obtain ⟨t, hrun, hnext⟩ := completes_of_storeLS h hexec rfl rfl hok hwin
  have hx := xm_of_cloveNext hnext
  have hy := ym_of_cloveNext hnext
  cases b with
  | false =>
    have hmem : (clu t c).xm = (clu s c).xm.write p.adr.toNat (natLe n v.toNat) := hx
    refine ⟨t, hrun, ?_, (congrArg Ram.undef hmem).trans (undef_write ..),
      fun a => (congrArg (Ram.get · a) hmem).trans (get_write_natLe ..)⟩
    simp only [hmem]
    exact hnext
  | true =>
    have hmem : (clu t c).ym = (clu s c).ym.write p.adr.toNat (natLe n v.toNat) := hy
    refine ⟨t, hrun, ?_, (congrArg Ram.undef hmem).trans (undef_write ..),
      fun a => (congrArg (Ram.get · a) hmem).trans (get_write_natLe ..)⟩
    simp only [hmem]
    exact hnext

/-- Settles O3: a load leaves its value for the slot after it, and a store writes the bytes of its register one by one. -/
theorem coreLoadsAndStores : Obligations.CoreLoadsAndStores := ⟨loadsLandAfterTheirSlot, storesChangeTheirBytesAlone⟩

end Sys2Proof.Proofs
end

section
/-! Branches of the Clove core (05 R142, R145), and O4. -/

namespace Sys2Proof.Machine

open Sys2Proof

/-- A branch that leaves its cluster with the core `k`: two delay slots follow. -/
theorem branches_of_done {s : State} {c j : Nat} {y : Job} {g : Gen} {i : Instr} {k : Clv} {target : Option Nat}
    {body : Job → Gen → Clv → State → CRes} (h : CloveReady s c 4 j y g) (hexec : exec i s = .next (cloveRun s c 4 1 body))
    (hbody : ∀ S ic, OnlyClu s S c { clu s c with ic := ic, clv := landed s c } →
      ∃ T, body y g (clu s c).clv S = .done T [] (some target) ∧ OnlyClu s T c { clu s c with ic := ic, clv := k }) :
    ∃ t, exec i s = .next t ∧ CloveDone s t c 1 j (clu s c) k [] ∧ Branches k (clu t c).clv target := by
  obtain ⟨t, hnext, hdone, -, hbr⟩ := completes_of_done (x := clu s c) h hexec rfl hbody
  exact ⟨t, hnext, hdone, hbr target rfl⟩

/-- BRC compares with zero by the conditions 0 to 5 (R142). -/
theorem condHolds_of_brcHolds {cond : Nat} {a : Int} (h : brcHolds cond a) : condHolds cond a 0 = some true := by
  unfold brcHolds at h
  rcases h with ⟨rfl, h⟩ | ⟨rfl, h⟩ | ⟨rfl, h⟩ | ⟨rfl, h⟩ | ⟨rfl, h⟩ | ⟨rfl, h⟩ <;> simp [condHolds, h]

theorem condHolds_of_not_brcHolds {cond : Nat} {a : Int} (hcond : cond < 6) (h : ¬ brcHolds cond a) :
    condHolds cond a 0 = some false := by
  unfold brcHolds at h
  interval_cases cond <;> simpa [condHolds] using h

/-- BRC goes to its target when its condition holds, and nowhere else when it fails. -/
theorem branches_of_brc {s : State} {c j : Nat} {y : Job} {g : Gen} {cond : BitVec 3} {sa : BitVec 5} {off : BitVec 19}
    {taken : Bool} (h : CloveReady s c 4 j y g) (hdelay : (clu s c).clv.delay = none)
    (hcond : condHolds cond.toNat ((clu s c).clv.sreg sa.toNat).toInt 0 = some taken) :
    ∃ t, exec (.brc c cond sa off) s = .next t ∧ CloveDone s t c 1 j (clu s c) (landed s c) [] ∧
      Branches (landed s c) (clu t c).clv (if taken then some (branchTo (clu s c).clv.pc off.toInt) else none) := by
  refine branches_of_done h rfl fun S ic hS => ⟨S, ?_, hS⟩
  simp only [Clv.reg, Bool.false_eq_true, if_false, hcond, hdelay]
  rfl

end Sys2Proof.Machine
end

section

namespace Sys2Proof.Proofs

open Sys2Proof Sys2Proof.Machine

/-- Settles O4: each body completes with its target, and moving on after a branch opens two delay slots. -/
theorem branchesTakeTwoDelaySlots : Obligations.BranchesTakeTwoDelaySlots := by
  unfold Obligations.BranchesTakeTwoDelaySlots
  intro s c j y g h hdelay k q goal ends
  have hslot : (clu s c).clv.delay.isSome = false := by rw [hdelay]; rfl
  refine ⟨fun off => ?_, fun cond sa off hcond => ?_, fun off hcalls => ?_, fun a r hcalls => ?_⟩
  · exact branches_of_done h rfl fun S ic hS => ⟨S, by simp only [hslot]; rfl, hS⟩
  · exact ⟨fun hc => branches_of_brc h hdelay (condHolds_of_brcHolds hc),
      fun hc => branches_of_brc h hdelay (condHolds_of_not_brcHolds hcond hc)⟩
  · have hroom : ¬ (clu s c).clv.calls.length ≥ 8 := not_le.2 hcalls
    refine branches_of_done h rfl fun S ic hS => ⟨_, ?_, onlyClu_setClv hS _⟩
    simp only [hslot, Bool.false_eq_true, if_false, if_neg hroom, hS.clu_self]
    rfl
  · have hcall : (clu s c).clv.calls = a :: r := hcalls
    refine branches_of_done h rfl fun S ic hS => ⟨_, ?_, onlyClu_setClv hS _⟩
    simp only [hslot, Bool.false_eq_true, if_false, hcall, hS.clu_self]
    rfl

end Sys2Proof.Proofs
end

section
/-! Instructions of the Clove core that are passed over (05 R163, R164; 06 R200 to R203): the skip is counted, logged and marks the
job's items, and the core goes on. -/

namespace Sys2Proof.Machine

open Sys2Proof

/-! ### The record and the marks (R201 to R203) -/

/-- A skip of job `y` logs one record and marks every item failed. -/
theorem skipRec_eq {s : State} {j : Nat} {y : Job} (hy : job? s j = some y) (reason source : Nat) (unit : Word) (off tag : Nat) :
    ∃ e y', skipRec s j reason source unit off tag y.open none =
        setJob (logErr s 0x11 reason source y.part unit (w32 y.slot) (w32 y.gen) (w32 off) e) j (some y') ∧
      ∀ i, i < y.nitems → 2 ≤ tgetD 0 y'.marks i := by
  unfold skipRec
  simp only [hy]
  obtain ⟨y', hmark, -, hall⟩ := markItems_spec (logErr s 0x11 reason source y.part unit (w32 y.slot) (w32 y.gen) (w32 off)
    (w32 (newlyFailed s j y.open * 2 ^ 16 + tag))) j 2 y.open y (by rw [job_logErr]; exact hy)
  exact ⟨_, y', hmark, fun i hi => hall i (List.mem_range.2 hi) hi⟩

/-- Registers, the alert line, the error ring and what was sent. -/
theorem logRec_eq (s : State) (r : ErrRec) : ∃ o pg, logRec s r = { s with out := o, pg := pg } := by
  unfold logRec
  split
  · exact ⟨_, _, rfl⟩
  · obtain ⟨o, a, h⟩ := raise_eq (satRg { s with pg := { s.pg with dropped := s.pg.dropped + 1 } } SYS_ERR_LOST 0 0 1) 0 0 4
    rw [h]
    exact ⟨o, _, rfl⟩

/-- What a skip leaves of the state `s` but for the core: the record, the marks, and the registers beyond the page SYS. -/
structure SkipNoted (s t : State) (j : Nat) (y : Job) (reason source : Nat) (unit : Word) (off : Nat) : Prop where
  frame : t = { s with pg := t.pg, out := t.out, disp := t.disp }
  failed : allFailed t j y
  logged : skipLogged s t y reason source unit off
  regs : ∀ r i, 4096 * 256 ≤ r * 256 + i → rg t r i 0 = rg s r i 0

theorem skipNoted_skipRec {s : State} {j : Nat} {y : Job} (hy : job? s j = some y) (reason source : Nat) (unit : Word)
    (off tag : Nat) : SkipNoted s (skipRec s j reason source unit off tag y.open none) j y reason source unit off := by
  obtain ⟨e, y', heq, hall⟩ := skipRec_eq hy reason source unit off tag
  rw [heq]
  refine ⟨?_, ⟨y', by simp, hall⟩, fun hroom => ?_, fun r i h => ?_⟩
  · obtain ⟨o, pg, hlog⟩ := logRec_eq s ⟨recHdr 0x11 reason source y.part, unit, w32 y.slot, w32 y.gen, w32 off, e, timeSW s, timeNsW s⟩
    rw [logErr, hlog]
    rfl
  · rw [logErr, logRec_room s _ hroom]
    exact ⟨_, rfl, rfl, rfl, rfl, rfl, rfl⟩
  · rw [rg_setJob, rg_logErr _ _ _ _ _ _ _ _ _ _ _ _ _ h]

theorem SkipNoted.clu {s t : State} {j reason source off : Nat} {y : Job} {unit : Word}
    (h : SkipNoted s t j y reason source unit off) (d : Nat) : Machine.clu t d = Machine.clu s d := by
  rw [h.frame]; rfl

theorem SkipNoted.mem {s t : State} {j reason source off : Nat} {y : Job} {unit : Word}
    (h : SkipNoted s t j y reason source unit off) : t.mem = s.mem := by
  rw [h.frame]

/-! ### The counter and the event of the core's page (R164) -/

/-- The state with the skip counted and INSTR_SKIP raised. -/
def skipCounted (s : State) (c : Nat) : State := raise (satRg s CLV_SKIP_COUNT c 0 1) 18 c 0

@[simp] theorem clu_skipCounted (s : State) (c d : Nat) : clu (skipCounted s c) d = clu s d := by
  rw [skipCounted, clu_raise, satRg, clu_setRg]
@[simp] theorem job_skipCounted (s : State) (c j : Nat) : job? (skipCounted s c) j = job? s j := by
  rw [skipCounted, job_raise, satRg, job_setRg]
@[simp] theorem skipCounted_mem (s : State) (c : Nat) : (skipCounted s c).mem = s.mem := by simp [skipCounted]
@[simp] theorem skipCounted_units (s : State) (c : Nat) : (skipCounted s c).units = s.units := by simp [skipCounted]
@[simp] theorem skipCounted_safe (s : State) (c : Nat) : (skipCounted s c).safe = s.safe := by simp [skipCounted]
theorem ering_skipCounted (s : State) (c : Nat) : (skipCounted s c).pg.ering = s.pg.ering := by
  rw [skipCounted, raise_pg_ering, satRg, ering_setRg]

theorem evt_skipCounted (s : State) (c : Nat) : bit (rg (skipCounted s c) (18 * 4096 + HDR_EVT) c 0) 0 = true := by
  rw [skipCounted, rg_raise, if_pos rfl, bit, BitVec.getLsbD_or]
  simp [bitW]

theorem count_skipCounted (s : State) (c : Nat) : rg (skipCounted s c) CLV_SKIP_COUNT c 0 = satAdd (rg s CLV_SKIP_COUNT c 0) 1 := by
  rw [skipCounted, rg_raise, if_neg (by unfold rkey CLV_SKIP_COUNT HDR_EVT; omega),
    if_neg (by unfold rkey CLV_SKIP_COUNT HDR_EVT_COUNT; omega)]
  exact rg_setRg_self ..

theorem clHandle_skipCounted (s : State) (c : Nat) : clHandle (skipCounted s c) c = clHandle s c := by
  refine clHandle_congr (by rw [skipCounted_units]) (by rw [skipCounted_units]) (skipCounted_safe s c) ?_
  rw [skipCounted, rg_raise, if_neg (rg_ilkDom_ne (by decide)), if_neg (rg_ilkDom_ne (by decide)), satRg,
    rg_setRg_ne _ _ (rg_ilkDom_ne (by decide))]

/-! ### The core goes on (R164) -/

/-- What counting a-cycles may write: HOLD_PEAK of the core's page. -/
theorem rg_of_holdPeak {s t : State} {c r : Nat} (h : t.pg = s.pg ∨ ∃ v, OneReg s t CLV_HOLD_PEAK c 0 v) (hr : r ≠ CLV_HOLD_PEAK) :
    rg t r c 0 = rg s r c 0 := by
  rcases h with h | ⟨v, h⟩
  · rw [rg, h]; rfl
  · have hrg : rg t r c 0 = rg (setRg s CLV_HOLD_PEAK c 0 v) r c 0 := by rw [rg, h]; rfl
    rw [hrg, rg_setRg_of_reg_ne _ _ _ _ hr]

theorem ering_of_holdPeak {s t : State} {c : Nat} (h : t.pg = s.pg ∨ ∃ v, OneReg s t CLV_HOLD_PEAK c 0 v) :
    t.pg.ering = s.pg.ering := by
  rcases h with h | ⟨v, h⟩
  · rw [h]
  · rw [h, ering_setRg]

/-- A skip of `len` bytes in a state in which the loads of the instruction before have landed: the state `T` with the skip counted,
logged and marked, from which the core goes on. -/
theorem skipClove_eq {S : State} {c j : Nat} {y : Job} (hy : job? S j = some y) (len reason source tag : Nat) :
    ∃ T, skipClove S c j len reason source tag none = retire T c len 1 [] none ∧
      SkipNoted (skipCounted S c) T j y reason source (clHandle S c) (clu S c).clv.pc := by
  have hy' : job? (skipCounted S c) j = some y := (job_skipCounted S c j).trans hy
  refine ⟨skipRec (skipCounted S c) j reason source (clHandle S c) (clu S c).clv.pc tag y.open none, ?_,
    skipNoted_skipRec hy' reason source (clHandle S c) (clu S c).clv.pc tag⟩
  have hunit := clHandle_skipCounted S c
  unfold skipCounted at hunit ⊢
  simp only [skipClove, hy, hunit, Option.getD_none]

/-- An instruction whose body answers a skip is passed over. -/
theorem passedOver_of_skip {s : State} {c j : Nat} {y : Job} {g : Gen} {i : Instr} {reason tag : Nat}
    {body : Job → Gen → Clv → State → CRes} (h : CloveReady s c 4 j y g) (hexec : exec i s = .next (cloveRun s c 4 1 body))
    (hbody : ∀ S ic, OnlyClu s S c { clu s c with ic := ic, clv := landed s c } →
      body y g (clu s c).clv S = .skip reason 0 tag none) : PassedOver s c j y i reason := by
  obtain ⟨hjob, hy⟩ := running_job h.1
  obtain ⟨ic, hS⟩ := body_state s c (clu s c).clv.pc y
  set S := landLoads (touchLine s c y (clu s c).clv.pc) c
  have hyS : job? S j = some y := (job_of_onlyClu hS j).trans hy
  obtain ⟨T, hskip, hnoted⟩ := skipClove_eq (c := c) hyS 4 reason 0 tag
  have hclu := hnoted.clu
  have hmem := hnoted.mem
  obtain ⟨-, ⟨y', hy', hfailed⟩, hlogged, hregs⟩ := hnoted
  have hcluT : clu T c = { clu s c with ic := ic, clv := landed s c } := by
    rw [hclu, clu_skipCounted, hS.clu_self]
  obtain ⟨⟨hst, -, hself, hpg, -, hjobs⟩, q, hq, hflow, hadv⟩ := retire_spec T c 4 1 j [] none (by rw [hcluT]; exact hjob)
  have hrun : exec i s = .next (retire T c 4 1 [] none) := by
    rw [hexec, cloveRun_eq h, hbody S ic hS, ← hskip]
  have hseq := advancePc_next { clu T c with clv := (clu T c).clv.spent 1 } 4
  rw [← hadv, hcluT] at hseq
  rw [hcluT] at hflow hself
  have hcore : (clu (retire T c 4 1 [] none) c).clv = { (landed s c).spent 1 with
      pc := q.pc, delay := q.delay, reps := q.reps, rotBase := q.rotBase, repCycles := q.repCycles, loads := [], stall := 0 } := by
    rw [hq, hflow]
  have hregs' (r : Nat) (hr : 18 * 4096 ≤ r) : rg T r c 0 = rg (skipCounted S c) r c 0 := hregs r c (by omega)
  have hunit : clHandle S c = clHandle s c := clHandle_of_onlyClu hS c
  have hpc : (clu S c).clv.pc = (clu s c).clv.pc := by rw [hS.clu_self]; exact landed_pc s c
  have hering : S.pg.ering = s.pg.ering := ering_of_onlyClu hS
  rw [hunit, hpc] at hlogged
  refine ⟨retire T c 4 1 [] none, (landed s c).spent 1, hrun, landed_delay s c, landed_reps s c, landed_pc s c, ?_, fun n => ?_,
    fun n => ?_, ?_, ?_, ?_, ?_, ?_, ?_, by rw [hself], by rw [hself], by rw [hself], by rw [hst, hmem, skipCounted_mem, mem_of_onlyClu hS], ?_, ?_,
    ⟨{ y' with ran := y'.ran + 1 }, by rw [hjobs j, if_pos rfl, hy']; rfl, hfailed⟩, fun hroom => ?_⟩
  · rw [hq]; exact hseq
  · rw [hcore]; rfl
  · rw [hcore]; rfl
  · rw [hcore]; exact landed_acc0 s c
  · rw [hcore]; exact landed_acc1 s c
  · rw [hcore]; exact landed_px s c
  · rw [hcore]; exact landed_py s c
  · rw [hcore]; exact landed_cst s c
  · rw [hcore]; exact landed_calls s c
  · rw [rg_of_holdPeak hpg (by decide), hregs' _ (by decide)]
    exact evt_skipCounted S c
  · rw [rg_of_holdPeak hpg (by decide), hregs' _ (by decide), count_skipCounted, rg_of_onlyClu hS]
  · rw [ering_of_holdPeak hpg, ← hering, ← ering_skipCounted S c]
    exact hlogged (by rw [ering_skipCounted, hering]; exact hroom)

end Sys2Proof.Machine
end

section
/-! Circular pointers (05 R137), and O7. -/

namespace Sys2Proof.Machine

open Sys2Proof

/-! ### How a pointer moves -/

theorem toNat_ofInt_of_range {n : Nat} {x : Int} (hlo : 0 ≤ x) (hhi : x < 2 ^ n) : ((BitVec.ofInt n x).toNat : Int) = x := by
  have hpow : ((2 ^ n : Nat) : Int) = 2 ^ n := by norm_cast
  rw [BitVec.toNat_ofInt, Int.toNat_of_nonneg (Int.emod_nonneg _ (by positivity)), hpow, Int.emod_eq_of_lt hlo hhi]

theorem moved_linear {p : Ptr} (hlen : p.len = 0) (d : Int) : p.moved d = BitVec.ofInt 17 ((p.adr.toNat : Int) + d) := by
  rw [Ptr.moved, if_pos hlen]

/-- The address of a circular pointer before it is cut to its 17 bits. -/
def circled (p : Ptr) (a : Int) : Int :=
  if a < p.base.toNat then a + p.len.toNat
  else if (p.base.toNat : Int) + p.len.toNat ≤ a then a - p.len.toNat else a

theorem moved_circular {p : Ptr} (hlen : p.len ≠ 0) (d : Int) : p.moved d = BitVec.ofInt 17 (circled p (p.adr.toNat + d)) := by
  simp only [Ptr.moved, if_neg hlen, circled, ge_iff_le]
  split
  · rfl
  · split <;> rfl

/-- A move by no more than the length is brought back into the range. -/
theorem circled_mem {p : Ptr} {d : Int} (hd : d.natAbs ≤ p.len.toNat) (hlo : p.base.toNat ≤ p.adr.toNat)
    (hhi : p.adr.toNat < p.base.toNat + p.len.toNat) :
    (p.base.toNat : Int) ≤ circled p (p.adr.toNat + d) ∧ circled p (p.adr.toNat + d) < p.base.toNat + p.len.toNat := by
  unfold circled
  split
  · omega
  · split <;> omega

/-! ### Accesses that break the circle -/

variable {s : State} {c j : Nat} {y : Job} {g : Gen} {i : Instr}

theorem passedOver_of_loadLS {f : LSFmt} {b : Bool} (h : CloveReady s c 4 j y g) (hexec : exec i s = .next (loadLS s c f b))
    (hbreak : breaksCircle ((clu s c).clv.ptr b f.ptr.toNat) (if f.w32 then 4 else 2)) : PassedOver s c j y i 4 :=
  passedOver_of_skip (tag := 0) h hexec fun S ic _ => by simp only [usable_eq_false_iff.2 hbreak, Bool.false_eq_true, if_false]

theorem passedOver_of_storeLS {f : LSFmt} {b : Bool} (h : CloveReady s c 4 j y g) (hexec : exec i s = .next (storeLS s c f b))
    (hbreak : breaksCircle ((clu s c).clv.ptr b f.ptr.toNat) (if f.w32 then 4 else 2)) : PassedOver s c j y i 4 :=
  passedOver_of_skip (tag := 0) h hexec fun S ic _ => by simp only [usable_eq_false_iff.2 hbreak, Bool.false_eq_true, if_false]

/-- A parallel load is inconsistent with REASON 0x04 alone. -/
theorem moveBad_eq (k : Clv) (b : Bool) (m : XYMove) : moveBad k b m = none ∨ moveBad k b m = some 4 := by
  cases hen : m.en with
  | false => exact .inl (by simp [moveBad, hen])
  | true =>
    cases huse : (k.ptr b m.ptr.toNat).usable 2 with
    | false => exact .inr (by simp [moveBad, hen, huse])
    | true => by_cases halign : (k.ptr b m.ptr.toNat).adr.toNat % 2 = 0 <;> simp [moveBad, hen, huse, xyBad, halign]

theorem moveBad_of_breaksCircle {k : Clv} {b : Bool} {m : XYMove} (hen : m.en = true)
    (hbreak : breaksCircle (k.ptr b m.ptr.toNat) 2) : moveBad k b m = some 4 := by
  simp [moveBad, hen, usable_eq_false_iff.2 hbreak]

theorem passedOver_of_mulM {f : MFmt} {op : Int → Int → Int} (h : CloveReady s c 4 j y g)
    (hexec : exec i s = .next (mulM s c f op))
    (hbad : moveBad (clu s c).clv false f.xm = some 4 ∨ moveBad (clu s c).clv true f.ym = some 4) : PassedOver s c j y i 4 :=
  passedOver_of_skip (tag := 0) h hexec fun S ic _ => by
    rcases moveBad_eq (clu s c).clv false f.xm with hx | hx
    · have hy := hbad.resolve_left (by rw [hx]; simp)
      simp only [hx, hy]
    · simp only [hx]

theorem passedOver_of_ftap {f : TFmt} (h : CloveReady s c 4 j y g)
    (hbreak : breaksCircle ((clu s c).clv.ptr false f.px.toNat) 2 ∨ breaksCircle ((clu s c).clv.ptr true f.py.toNat) 2) :
    PassedOver s c j y (.ftap c f) 4 :=
  passedOver_of_skip (tag := 0) h rfl fun S ic _ => by
    refine if_pos ?_
    rcases hbreak with hb | hb <;> simp [usable_eq_false_iff.2 hb]

end Sys2Proof.Machine
end

section

namespace Sys2Proof.Proofs

open Sys2Proof Sys2Proof.Machine

/-- Settles O7: one wrap brings an address back into the range, and every access checks its pointers before it acts. -/
theorem circularPointersFollowTheirRange : Obligations.CircularPointersFollowTheirRange := by
  unfold Obligations.CircularPointersFollowTheirRange
  refine ⟨fun p d => ⟨fun hlen => moved_linear hlen d, fun hlen hd hend hlo hhi => ?_⟩,
    fun s c j y g l m f p h => ⟨fun hb i hi => ?_, fun hb i hi => ?_, fun hb i hi => ?_, passedOver_of_ftap h, fun e he => ?_⟩⟩
  · obtain ⟨hmin, hmax⟩ := circled_mem hd hlo hhi
    have hvalue : ((p.moved d).toNat : Int) = circled p (p.adr.toNat + d) := by
      rw [moved_circular hlen]
      exact toNat_ofInt_of_range (by omega) (by omega)
    exact ⟨by omega, by omega, hvalue⟩
  · simp only [List.mem_cons, List.not_mem_nil, or_false] at hi
    rcases hi with rfl | rfl
    · exact passedOver_of_loadLS h rfl hb
    · exact passedOver_of_storeLS h rfl hb
  · simp only [List.mem_cons, List.not_mem_nil, or_false] at hi
    rcases hi with rfl | rfl
    · exact passedOver_of_loadLS h rfl hb
    · exact passedOver_of_storeLS h rfl hb
  · have hbad := hb.imp (fun h => moveBad_of_breaksCircle h.1 h.2) (fun h => moveBad_of_breaksCircle h.1 h.2)
    simp only [List.mem_cons, List.not_mem_nil, or_false] at hi
    rcases hi with rfl | rfl | rfl
    · exact passedOver_of_mulM h rfl hbad
    · exact passedOver_of_mulM h rfl hbad
    · exact passedOver_of_mulM h rfl hbad
  · simp only [List.mem_cons, List.not_mem_nil, or_false] at he
    rcases he with rfl | rfl | rfl
    · rw [landed_ptr]; exact completes_of_setp h (setpField_address ..)
    · rw [landed_ptr]; exact completes_of_setp h (setpField_modifier ..)
    · rw [landed_ptr]; exact completes_of_setp h (setpField_length ..)

end Sys2Proof.Proofs
end

section
/-! Repeat blocks of the Clove core (05 R148 to R152): the lines of a body, the entry into a block, its abandonment, and O5. -/

namespace Sys2Proof.Machine

open Sys2Proof

/-! ### The body's lines in the cache (R150, R185) -/

theorem mem_linesIn {g : Gen} {a b l : Nat} : l ∈ linesIn g a b ↔ ∃ off, a ≤ off ∧ off < b ∧ off < g.len ∧ off / 256 = l := by
  have hmin : Nat.min b g.len = min b g.len := rfl
  unfold linesIn
  rw [hmin]
  constructor
  · intro h
    simp only at h
    split at h
    · simp at h
    · obtain ⟨i, hi, rfl⟩ := List.mem_map.1 h
      rw [List.mem_range] at hi
      exact ⟨max a ((a / 256 + i) * 256), by omega, by omega, by omega, by omega⟩
  · rintro ⟨off, hlo, hhi, hlen, rfl⟩
    simp only
    rw [if_neg (by omega)]
    exact List.mem_map.2 ⟨off / 256 - a / 256, List.mem_range.2 (by omega), by omega⟩

theorem cached_iff {s : State} {c off : Nat} {y : Job} : cached s c y off = true ↔
    ∃ l ∈ (clu s c).ic, l.part = y.part ∧ l.slot = y.slot ∧ l.gen = y.gen ∧ l.line = off / 256 := by
  simp only [cached, List.any_eq_true, decide_eq_true_eq]

/-- Using a line changes the order of the lines alone. -/
theorem mem_ic_body {s : State} {c off : Nat} {y : Job} {l : ICLine} :
    l ∈ (clu (landLoads (touchLine s c y off) c) c).ic ↔ l ∈ (clu s c).ic := by
  have hic : (clu (landLoads (touchLine s c y off) c) c).ic = (clu (touchLine s c y off) c).ic := by simp [landLoads]
  rw [hic]
  simp only [touchLine, clu_setClu, if_true, List.mem_append, List.mem_filter, ← and_or_left]
  exact and_iff_left (by cases decide (l.part = y.part ∧ l.slot = y.slot ∧ l.gen = y.gen ∧ l.line = off / 256) <;> simp)

theorem cached_body (s : State) (c off pc : Nat) (y : Job) :
    cached (landLoads (touchLine s c y pc) c) c y off = cached s c y off := by
  rw [Bool.eq_iff_iff, cached_iff, cached_iff]
  simp only [mem_ic_body]

theorem cached_congr {s : State} {c off off' : Nat} {y : Job} (h : off / 256 = off' / 256) :
    cached s c y off = cached s c y off' := by
  simp only [cached, h]

/-- The lines of a body whose bytes are in the cache. -/
theorem linesIn_cached {s : State} {g : Gen} {c a b : Nat} {y : Job}
    (h : ∀ off, a ≤ off ∧ off < b ∧ off < g.len → cached s c y off = true) :
    (linesIn g a b).all (fun l => cached s c y (l * 256)) = true := by
  rw [List.all_eq_true]
  intro l hl
  obtain ⟨off, hlo, hhi, hlen, rfl⟩ := mem_linesIn.1 hl
  rw [cached_congr (off' := off) (by omega)]
  exact h off ⟨hlo, hhi, hlen⟩

/-- A line of the job that is locked with the body. -/
theorem mem_ic_lockLines {s : State} {c off : Nat} {y : Job} {ls : List Nat} (h : cached s c y off = true) (hl : off / 256 ∈ ls) :
    ∃ l ∈ (clu (lockLines s c y ls) c).ic,
      l.part = y.part ∧ l.slot = y.slot ∧ l.gen = y.gen ∧ l.line = off / 256 ∧ l.rep = true := by
  obtain ⟨l, hmem, hpart, hslot, hgen, hline⟩ := cached_iff.1 h
  have hlock : l.part = y.part ∧ l.slot = y.slot ∧ l.gen = y.gen ∧ l.line ∈ ls := ⟨hpart, hslot, hgen, hline ▸ hl⟩
  refine ⟨{ l with rep := true }, ?_, hpart, hslot, hgen, hline, rfl⟩
  simp only [lockLines, clu_setClu, if_true]
  exact List.mem_map.2 ⟨l, hmem, if_pos hlock⟩

/-- Outside repeat blocks and delay slots moving on leaves the cache alone. -/
theorem ic_retire {s : State} {c j len n : Nat} {loads : List (LoadDest × Word)} (hj : (clu s c).job = some j)
    (hdelay : (clu s c).clv.delay = none) (hreps : (clu s c).clv.reps = []) :
    (clu (retire s c len n loads none) c).ic = (clu s c).ic := by
  obtain ⟨hself, -⟩ := spend_spec s c n j hj
  have hdelay' : ((clu s c).clv.spent n).delay = none := hdelay
  have hreps' : ((clu s c).clv.spent n).reps = [] := hreps
  simp only [retire, hself, clu_setClu, if_true, advancePc, hdelay', hreps']

/-! ### Entering a block (R148, R149) -/

/-- What a body holds is read from its generation. -/
theorem bodyBad_of_onlyClu {s t : State} {c : Nat} {x : Cluster} (h : OnlyClu s t c x) (g : Gen) (n off : Nat) :
    bodyBad t g n off = bodyBad s g n off := by
  have hword (a : Nat) : gword t g a = gword s g a := by rw [h.1]; rfl
  induction n, off using bodyBad.induct s g with
  | case1 off => rfl
  | case2 off => rw [bodyBad, bodyBad, hword]
  | case3 n off ihRep ihNext => simp only [bodyBad, hword, ihRep, ihNext]

/-- A block is consistent (R149). -/
theorem repBad_eq_false {s : State} {g : Gen} {k : Clv} {f : RepFmt} {n count : Nat} (hdelay : k.delay = none)
    (hdepth : k.reps.length < 3) (hspan : f.span ≠ 0) (hbody : bodyBad s g n (k.pc + 8) = false)
    (hout : k.reps = [] → count * f.span.toNat ≤ 4096) (hin : ∀ l r, k.reps = l :: r → count * f.span.toNat ≤ l.span)
    (hrot : f.rot = true → ∀ l ∈ k.reps, l.rot = false) : repBad s g k f n count = false := by
  have hrot' : (f.rot && k.reps.any (fun l => l.rot)) = false := by
    cases hf : f.rot with
    | false => rfl
    | true => simpa using fun l hl => hrot hf l hl
  cases hreps : k.reps with
  | nil =>
    have hbound : ¬ count * f.span.toNat > Config.repMax := not_lt.2 (hout hreps)
    rw [hreps] at hrot' hdepth
    simp only [repBad, hdelay, hreps, hspan, hbody, hbound, hrot', not_le.2 hdepth, Option.isSome_none, decide_false,
      Bool.or_self]
  | cons l r =>
    have hbound : ¬ count * f.span.toNat > l.span := not_lt.2 (hin l r hreps)
    rw [hreps] at hrot' hdepth
    simp only [repBad, hdelay, hreps, hspan, hbody, hbound, hrot', not_le.2 hdepth, Option.isSome_none, decide_false,
      Bool.or_self]

/-- The repeat nest of a core is free in what an instruction leaves. -/
theorem cloveDone_setReps {s t : State} {c n j : Nat} {x : Cluster} {k : Clv} {loads : List (LoadDest × Word)}
    (h : CloveDone s t c n j x k loads) (r : List RepLvl) :
    CloveDone s (setClv t c { (clu t c).clv with reps := r }) c n j x k loads := by
  obtain ⟨⟨hst, hother, hself, hpg, hdisp, hjobs⟩, hclv⟩ := h
  refine ⟨⟨?_, fun d hd => ?_, ?_, hpg, hdisp, fun i => ?_⟩, ?_⟩
  · rw [hst]; rfl
  · rw [clu_setClv, if_neg hd, hother d hd]
  · rw [clu_setClv, if_pos rfl]; rw [hself]
  · rw [job_setClv, hjobs]
  · rw [clu_setClv, if_pos rfl]; rw [hclv]

/-- The core goes on in a new level of its repeat nest. -/
def enterBlock (s : State) (c : Nat) (l : RepLvl) : State :=
  setClv s c { (clu s c).clv with reps := l :: (clu s c).clv.reps }

/-- The state in which a REP acts that has locked the lines `ls` of its body. -/
def bodyLocked (s : State) (c : Nat) (y : Job) (outermost : Prop) [Decidable outermost] (ls : List Nat) : State :=
  if outermost then lockLines s c y ls else s

theorem onlyClu_bodyLocked {s S : State} {c : Nat} {x : Cluster} (h : OnlyClu s S c x) (y : Job) (outermost : Prop)
    [Decidable outermost] (ls : List Nat) : ∃ ic, OnlyClu s (bodyLocked S c y outermost ls) c { x with ic := ic } := by
  unfold bodyLocked
  split
  · exact ⟨_, h.update fun x => { x with ic := x.ic.map (fun l =>
      if l.part = y.part ∧ l.slot = y.slot ∧ l.gen = y.gen ∧ l.line ∈ ls then { l with rep := true } else l) }⟩
  · exact ⟨x.ic, h⟩

/-- A consistent REP passes over its body, or enters its block. -/
theorem exec_rep {s S : State} {c j n count : Nat} {y : Job} {g : Gen} {f : RepFmt} (h : CloveReady s c 8 j y g) (hS : landLoads (touchLine s c y (clu s c).clv.pc) c = S)
    (hn : f.lenM1.toNat + 1 = n)
    (hcount : (if f.csrc then ((clu s c).clv.sreg (f.count.toNat % 32)).toNat else f.count.toNat) = count)
    (hfetched : (clu s c).clv.reps = [] →
      (linesIn g ((clu s c).clv.pc + 8) ((clu s c).clv.pc + 8 + 4 * n)).all (fun l => cached S c y (l * 256)) = true)
    (hgood : repBad S g (clu s c).clv f n count = false) :
    exec (.rep c f) s = .next (if count = 0 then retire S c (8 + 4 * n) 2 [] none
      else enterBlock (retire (bodyLocked S c y ((clu s c).clv.reps = [])
        (linesIn g ((clu s c).clv.pc + 8) ((clu s c).clv.pc + 8 + 4 * n))) c 8 2 [] none) c
          ⟨(clu s c).clv.pc + 8, (clu s c).clv.pc + 8 + 4 * n, count, f.span.toNat, f.rot⟩) := by
  have hexec : exec (.rep c f) s = execRep c f s := rfl
  have hready : ¬ ((clu s c).clv.reps = [] ∧ (clu s c).clv.delay = none ∧
      (!(linesIn g ((clu s c).clv.pc + 8) ((clu s c).clv.pc + 8 + 4 * n)).all (fun l => cached S c y (l * 256))) = true) := by
    rintro ⟨hr, -, hmiss⟩
    rw [hfetched hr] at hmiss
    cases hmiss
  rw [hexec, execRep, cloveRun_eq h]
  simp only [hS, hn, hcount, if_neg hready, hgood, Bool.false_eq_true, if_false]
  by_cases hzero : count = 0
  · simp only [if_pos hzero]
  · simp only [if_neg hzero]
    rfl

/-- The word after REP is no end of a block: the core stands at the body's first word, its nest unchanged. -/
theorem enters_body {k q : Clv} (h : Sequential k q 8) (hdelay : k.delay = none)
    (hstop : ∀ l r, k.reps = l :: r → l.stop ≠ k.pc + 8) :
    q.pc = k.pc + 8 ∧ q.delay = none ∧ q.rotBase = k.rotBase ∧ q.reps = k.reps := by
  obtain ⟨hplain, -, hnest⟩ := h
  cases hreps : k.reps with
  | nil =>
    obtain ⟨hpc, hd, hr, hrot⟩ := hplain hdelay hreps
    exact ⟨hpc, hd, hrot, hr⟩
  | cons l r =>
    obtain ⟨hd, hin, -⟩ := hnest l r hdelay hreps
    obtain ⟨hpc, hr, hrot⟩ := hin (Ne.symm (hstop l r hreps))
    exact ⟨hpc, hd, hrot, hr⟩

/-! ### Leaving a block that has run too long (R152) -/

/-- The skip of the block counted, and INSTR_SKIP and REP_ABORT raised. -/
def abortCounted (s : State) (c : Nat) : State := raise (skipCounted s c) 18 c 1

theorem ering_abortCounted (s : State) (c : Nat) : (abortCounted s c).pg.ering = s.pg.ering := by
  rw [abortCounted, raise_pg_ering, ering_skipCounted]

theorem evt_abortCounted (s : State) (c : Nat) : bit (rg (abortCounted s c) (18 * 4096 + HDR_EVT) c 0) 0 = true ∧
    bit (rg (abortCounted s c) (18 * 4096 + HDR_EVT) c 0) 1 = true := by
  have hskip := evt_skipCounted s c
  unfold bit at hskip ⊢
  rw [abortCounted, rg_raise, if_pos rfl, BitVec.getLsbD_or, BitVec.getLsbD_or, hskip]
  exact ⟨Bool.true_or _, by simp [bitW]⟩

theorem count_abortCounted (s : State) (c : Nat) : rg (abortCounted s c) CLV_SKIP_COUNT c 0 = satAdd (rg s CLV_SKIP_COUNT c 0) 1 := by
  rw [abortCounted, rg_raise, if_neg (by unfold rkey CLV_SKIP_COUNT HDR_EVT; omega),
    if_neg (by unfold rkey CLV_SKIP_COUNT HDR_EVT_COUNT; omega), count_skipCounted]

theorem clHandle_abortCounted (s : State) (c : Nat) : clHandle (abortCounted s c) c = clHandle s c := by
  rw [← clHandle_skipCounted s c]
  refine clHandle_congr (by rw [abortCounted, raise_units]) (by rw [abortCounted, raise_units]) (by rw [abortCounted, raise_safe]) ?_
  rw [abortCounted, rg_raise, if_neg (rg_ilkDom_ne (by decide)), if_neg (rg_ilkDom_ne (by decide))]

/-- Cluster `c` once its core has left the block `l`. -/
def blockLeft (s : State) (c : Nat) (l : RepLvl) : Cluster :=
  leaveBlock { clu s c with clv := { landed s c with pc := l.stop } }

/-- REP_ABORT leaves the outermost block, and counts and logs the skip. -/
theorem exec_repAbort {s : State} {c j : Nat} {y : Job} {g : Gen} {l : RepLvl} (hrun : running s c = some (j, y, g))
    (hlast : (clu s c).clv.reps.getLast? = some l) (hcycles : 4096 ≤ (clu s c).clv.repCycles) :
    ∃ A, OnlyClu s A c (blockLeft s c l) ∧ exec (.repAbort c) s =
      .next (skipRec (abortCounted A c) j 6 0 (clHandle (abortCounted A c) c) (l.start - 8) 0 y.open none) := by
  have hL : OnlyClu s (landLoads s c) c { clu s c with clv := landed s c } :=
    onlyClu_setClv (onlyClu_refl s c) (landed s c)
  have hlast' : (clu (landLoads s c) c).clv.reps.getLast? = some l := by rw [hL.clu_self, landed_reps]; exact hlast
  have hcycles' : ¬ (clu (landLoads s c) c).clv.repCycles < Config.repMax := by
    rw [hL.clu_self, landed_eq]; exact not_lt.2 hcycles
  refine ⟨_, hL.update fun x => leaveBlock { x with clv := { x.clv with pc := l.stop } }, ?_⟩
  have hexec : exec (.repAbort c) s = execRepAbort c s := rfl
  rw [hexec, execRepAbort, hrun]
  simp only [hlast', if_neg hcycles']
  rfl

end Sys2Proof.Machine
end

section

namespace Sys2Proof.Proofs

open Sys2Proof Sys2Proof.Machine

theorem repeatBlocksStart : RepeatBlocksStart := by
  unfold RepeatBlocksStart
  intro s c j y g f h k n count inBody hdelay hdepth hspan hbody hout hin hrot
  obtain ⟨hjob, -⟩ := running_job h.1
  obtain ⟨ic, hS⟩ := body_state s c (clu s c).clv.pc y
  have hgood : repBad (landLoads (touchLine s c y (clu s c).clv.pc) c) g (clu s c).clv f n count = false :=
    repBad_eq_false hdelay hdepth hspan (by rw [bodyBad_of_onlyClu hS]; exact hbody) (fun hr => (hout hr).1)
      (fun l r hr => (hin l r hr).1) hrot
  have hfetched (hr : (clu s c).clv.reps = []) : (linesIn g (k.pc + 8) (k.pc + 8 + 4 * n)).all (fun l =>
      cached (landLoads (touchLine s c y (clu s c).clv.pc) c) c y (l * 256)) = true :=
    linesIn_cached fun off hoff => by rw [cached_body]; exact (hout hr).2 off hoff
  have hrun := exec_rep h rfl rfl rfl hfetched hgood
  by_cases hcount : count = 0
  · rw [if_pos hcount] at hrun
    obtain ⟨hdone, hseq, -⟩ := retire_done (x := { clu s c with ic := ic }) (len := 8 + 4 * n) (n := 2) (loads := []) (br := none)
      hS hjob
    exact ⟨_, hrun, cloveDone_of_ic ic hdone, fun _ => hseq rfl, fun hne => absurd hcount hne⟩
  · rw [if_neg hcount] at hrun
    set S := landLoads (touchLine s c y (clu s c).clv.pc) c with hSdef
    set L := bodyLocked S c y ((clu s c).clv.reps = []) (linesIn g (k.pc + 8) (k.pc + 8 + 4 * n)) with hLdef
    obtain ⟨ic', hL⟩ := onlyClu_bodyLocked hS y ((clu s c).clv.reps = []) (linesIn g (k.pc + 8) (k.pc + 8 + 4 * n))
    obtain ⟨hdone, hseq, -⟩ := retire_done (x := { clu s c with ic := ic' }) (len := 8) (n := 2) (loads := []) (br := none)
      hL hjob
    obtain ⟨hpc, hd, hrot', hreps⟩ := enters_body (hseq rfl) ((landed_delay s c).trans hdelay)
      (by rw [landed_reps, landed_pc]; exact fun l r hr => (hin l r hr).2)
    refine ⟨_, hrun, cloveDone_setReps (cloveDone_of_ic ic' hdone) _, fun hz => absurd hz hcount, fun _ => ?_⟩
    unfold enterBlock
    rw [clu_setClv, if_pos rfl]
    refine ⟨hpc.trans (by rw [landed_pc]), hd, hrot'.trans (landed_rotBase s c), by rw [hreps, landed_reps], fun hr off hoff => ?_⟩
    have hcluL : (clu L c).clv = landed s c := by rw [hL.clu_self]
    have hic : (clu (retire L c 8 2 [] none) c).ic = (clu L c).ic :=
      ic_retire (by rw [hL.clu_self]; exact hjob) (by rw [hcluL, landed_delay]; exact hdelay) (by rw [hcluL, landed_reps]; exact hr)
    rw [hic, hLdef, bodyLocked, if_pos hr]
    exact mem_ic_lockLines (by rw [hSdef, cached_body]; exact (hout hr).2 off hoff)
      (mem_linesIn.2 ⟨off, hoff.1, hoff.2.1, hoff.2.2, rfl⟩)

theorem repAbortLeavesTheBlock : RepAbortLeavesTheBlock := by
  unfold RepAbortLeavesTheBlock
  intro s c j y g l hrun hlast hcycles
  obtain ⟨-, hy⟩ := running_job hrun
  obtain ⟨A, hA, hexec⟩ := exec_repAbort hrun hlast hcycles
  have hyA : job? (abortCounted A c) j = some y := by
    rw [abortCounted, job_raise, job_skipCounted, job_of_onlyClu hA, hy]
  have hunit : clHandle (abortCounted A c) c = clHandle s c := by
    rw [clHandle_abortCounted, clHandle_of_onlyClu hA]
  rw [hunit] at hexec
  have hnoted := skipNoted_skipRec hyA 6 0 (clHandle s c) (l.start - 8) 0
  have hclu' := hnoted.clu
  have hmem := hnoted.mem
  obtain ⟨-, hfailed, hlogged, hregs⟩ := hnoted
  obtain ⟨hskip, habort⟩ := evt_abortCounted A c
  have hregs' (r : Nat) (hr : 18 * 4096 ≤ r) := hregs r c (by omega)
  have hclu (d : Nat) : clu (skipRec (abortCounted A c) j 6 0 (clHandle s c) (l.start - 8) 0 y.open none) d = clu A d := by
    rw [hclu', abortCounted, clu_raise, clu_skipCounted]
  have hering : A.pg.ering = s.pg.ering := ering_of_onlyClu hA
  refine ⟨_, hexec, ?_, ?_, fun e he => ?_, fun d hd => ?_, ?_, ?_, ?_, hfailed, fun hroom => ?_, ?_⟩
  · rw [hclu, hA.clu_self]; rfl
  · rw [hclu, hA.clu_self]; rfl
  · rw [hclu, hA.clu_self] at he
    obtain ⟨e', -, rfl⟩ := List.mem_map.1 he
    rfl
  · rw [hclu, hA.2 d, if_neg hd]
  · rw [hregs' _ (by decide)]; exact hskip
  · rw [hregs' _ (by decide)]; exact habort
  · rw [hregs' _ (by decide), count_abortCounted, rg_of_onlyClu hA]
  · rw [← hering, ← ering_abortCounted A c]
    exact hlogged (by rw [ering_abortCounted, hering]; exact hroom)
  · rw [hmem, abortCounted, raise_mem, skipCounted_mem, mem_of_onlyClu hA]

/-- Settles O5: a REP that is consistent passes over its body or enters it by one retirement, and the abort leaves the block
before it notes the skip. -/
theorem repeatBlocksRunOrAreAbandoned : Obligations.RepeatBlocksRunOrAreAbandoned := ⟨repeatBlocksStart, repAbortLeavesTheBlock⟩

end Sys2Proof.Proofs
end

section
/-! What placing a job on clusters changes (01 R25, 09 R279, R283, R284): wiped ranges, the clusters of a unit, and operations
that a list of clusters or regions takes one after the other. -/

namespace Sys2Proof.Machine

open Sys2Proof

/-! ### Lists of operations -/

/-- What one operation of a list brings about, under what each keeps, holds after the list when the others leave it. -/
theorem foldl_reaches {α β : Type} {f : β → α → β} {l : List α} {a : α} {s : β} (P Q : β → Prop)
    (hkeep : ∀ t, P t → ∀ b ∈ l, P (f t b)) (hset : ∀ t, P t → Q (f t a)) (hstay : ∀ t, Q t → ∀ b ∈ l, Q (f t b))
    (hs : P s) (ha : a ∈ l) : Q (l.foldl f s) := by
  obtain ⟨l₁, l₂, rfl⟩ := List.append_of_mem ha
  rw [List.foldl_append, List.foldl_cons]
  refine List.foldlRecOn l₂ f (hset _ (List.foldlRecOn l₁ f hs fun t ht b hb => hkeep t ht b ?_)) fun t ht b hb => hstay t ht b ?_
  · exact List.mem_append_left _ hb
  · exact List.mem_append_right _ (List.mem_cons_of_mem _ hb)

/-! ### Wiped ranges -/

theorem tget_filter {α : Type} (d : Nat → α) (p : Nat → Bool) (t : Tab α) (k : Nat) :
    tget d (t.filter fun e => p e.1) k = if p k then tget d t k else d k := by
  induction t with
  | nil => simp [tget]
  | cons e t ih =>
    obtain ⟨i, v⟩ := e
    by_cases hik : i = k
    · subst hik
      cases hp : p i <;> simp [hp, tget, ih]
    · cases hp : p i <;> simp [hp, tget, ih, hik]

/-- A table reads by the default at the index alone. -/
theorem tget_default_congr {α : Type} {d d' : Nat → α} {k : Nat} (h : d k = d' k) (t : Tab α) : tget d t k = tget d' t k := by
  induction t with
  | nil => exact h
  | cons e t ih => simp only [tget, ih]

/-- Unlisted bytes after a range was made zero. -/
theorem fill_zeroed (u : List (Nat × Nat × Nat)) (a n b : Nat) :
    Ram.fill ((a, n, 0) :: u) b = if a ≤ b ∧ b < a + n then 0 else Ram.fill u b := by
  by_cases h : a ≤ b ∧ b < a + n <;> simp [Ram.fill, h]

/-- Wiping with epoch 0 leaves zeros in the range and every other byte as it was (R284). -/
theorem get_wipe_zero (r : Ram) (a n b : Nat) : (r.wipe a n 0).get b = if a ≤ b ∧ b < a + n then 0 else r.get b := by
  have hcut (d : Nat → Byte) (hd : d b = if a ≤ b ∧ b < a + n then 0 else Ram.fill r.undef b) :
      tget d (r.bytes.filter fun e => !decide (a ≤ e.1 ∧ e.1 < a + n)) b = if a ≤ b ∧ b < a + n then 0 else r.get b := by
    rw [tget_filter d fun k => !decide (a ≤ k ∧ k < a + n)]
    by_cases h : a ≤ b ∧ b < a + n
    · simp [h, hd]
    · simpa [h, Ram.get] using tget_default_congr (by simpa [h] using hd) r.bytes
  unfold Ram.wipe
  split
  · rw [if_neg (by omega)]
  · split
    · rename_i h
      exact hcut _ (by simp [h.2, Ram.fill])
    · exact hcut _ (fill_zeroed ..)

/-! ### Clusters alone change -/

/-- `t` is `s` with other clusters. -/
def OnlyClusters (s t : State) : Prop := t = { s with cl := t.cl }

theorem onlyClusters_refl (s : State) : OnlyClusters s s := rfl

theorem OnlyClusters.trans {s t u : State} (h : OnlyClusters s t) (h' : OnlyClusters t u) : OnlyClusters s u := by
  unfold OnlyClusters at *
  rw [h] at h'; exact h'

theorem onlyClusters_setClu (s : State) (c : Nat) (x : Cluster) : OnlyClusters s (setClu s c x) := rfl

theorem OnlyClu.onlyClusters {s t : State} {c : Nat} {x : Cluster} (h : OnlyClu s t c x) : OnlyClusters s t := h.1

theorem onlyClusters_foldl {α : Type} {f : State → α → State} (h : ∀ t a, OnlyClusters t (f t a)) (l : List α) (s : State) :
    OnlyClusters s (l.foldl f s) :=
  List.foldlRecOn l f (onlyClusters_refl s) fun t ht a _ => ht.trans (h t a)

variable {s t : State}

theorem physOf_of_onlyClusters (h : OnlyClusters s t) (l : Nat) : physOf t l = physOf s l := by rw [h]; rfl
theorem ownerOf_of_onlyClusters (h : OnlyClusters s t) (c i : Nat) : ownerOf t c i = ownerOf s c i := by rw [h]; rfl
theorem placeOf_of_onlyClusters (h : OnlyClusters s t) (x : Job) (m : Nat) : placeOf t x m = placeOf s x m := by rw [h]; rfl
theorem footprint_of_onlyClusters (h : OnlyClusters s t) (x : Job) (l : Nat) : footprint t x l = footprint s x l := by rw [h]; rfl

/-! ### Clusters of a unit -/

theorem members_eq {x z : Job} (hphys : ∀ l, physOf t l = physOf s l) (hlead : ∀ c, leadOf t c = leadOf s c)
    (hunits : z.units = x.units) (hz : z.phys = mapUnits s x) :
    members t z = (mapUnits s x).filter fun c => decide (leadOf s c = c) := by
  have hmap : physUnits t z = mapUnits s x := by
    unfold physUnits
    rw [hz, hunits, funext hphys]
    split
    · rfl
    · rfl
  unfold members
  rw [hmap]; simp only [hlead]

/-! ### Clearing footprints (R284) -/

theorem clearFoot_onlyClusters (s : State) (x : Job) (l : Nat) : OnlyClusters s (clearFoot s x l) := by
  unfold clearFoot
  split
  · exact onlyClusters_refl s
  · dsimp only
    split
    · exact onlyClusters_refl s
    · exact onlyClusters_setClu ..

/-- Clearing the footprint on one cluster leaves the others. -/
theorem clu_clearFoot_ne {x : Job} {l d : Nat} (h : physOf s l ≠ some d) : clu (clearFoot s x l) d = clu s d := by
  unfold clearFoot
  split
  · rfl
  · rename_i c hc
    dsimp only
    split
    · rfl
    · rw [clu_setClu, if_neg (by rintro rfl; exact h hc)]

/-- A footprint that another partition wrote last becomes zero. -/
theorem get_clearFoot {x : Job} {l c : Nat} (h : physOf s l = some c) (hlast : (clu s c).lastPart ≠ x.part) (a : Nat) :
    (clu (clearFoot s x l) c).sp.get a =
      if (footprint s x l).1 ≤ a ∧ a < (footprint s x l).1 + (footprint s x l).2 then 0 else (clu s c).sp.get a := by
  unfold clearFoot
  simp only [h, if_neg hlast, clu_setClu, if_true]
  exact get_wipe_zero ..

/-- The footprints on all clusters of a job's unit, cleared. -/
def footCleared (s : State) (x : Job) : State := x.units.foldl (fun s l => clearFoot s x l) s

theorem footCleared_onlyClusters (s : State) (x : Job) : OnlyClusters s (footCleared s x) :=
  onlyClusters_foldl (fun t l => clearFoot_onlyClusters t x l) ..

theorem clu_foldl_clearFoot_of_not_mem {x : Job} {ls : List Nat} {d : Nat} (h : d ∉ ls.filterMap (physOf s)) :
    clu (ls.foldl (fun s l => clearFoot s x l) s) d = clu s d := by
  refine (List.foldlRecOn (motive := fun t => OnlyClusters s t ∧ clu t d = clu s d) ls _ ⟨onlyClusters_refl s, rfl⟩ ?_).2
  rintro t ⟨ht, hclu⟩ l hl
  refine ⟨ht.trans (clearFoot_onlyClusters ..), (clu_clearFoot_ne ?_).trans hclu⟩
  rw [physOf_of_onlyClusters ht]
  exact fun hd => h (List.mem_filterMap.2 ⟨l, hl, hd⟩)

theorem clu_footCleared_of_not_mem {x : Job} {d : Nat} (h : d ∉ mapUnits s x) : clu (footCleared s x) d = clu s d :=
  clu_foldl_clearFoot_of_not_mem h

/-- The footprint on each cluster that another partition wrote last is zero. -/
theorem get_footCleared {x : Job} {k c a : Nat} (hnodup : (mapUnits s x).Nodup) (hk : k ∈ x.units) (hc : physOf s k = some c)
    (hlast : (clu s c).lastPart ≠ x.part) (hlo : (footprint s x k).1 ≤ a)
    (hhi : a < (footprint s x k).1 + (footprint s x k).2) : (clu (footCleared s x) c).sp.get a = 0 := by
  obtain ⟨l₁, l₂, hunits⟩ := List.append_of_mem hk
  rw [mapUnits, hunits, List.filterMap_append, List.filterMap_cons_some hc] at hnodup
  obtain ⟨hbefore, hafter⟩ := not_or.1 (mt List.mem_append.2 (List.nodup_middle.1 hnodup).notMem)
  rw [footCleared, hunits, List.foldl_append, List.foldl_cons]
  have hfirst : OnlyClusters s (l₁.foldl (fun s l => clearFoot s x l) s) :=
    onlyClusters_foldl (fun t l => clearFoot_onlyClusters t x l) ..
  have hphys (l : Nat) := physOf_of_onlyClusters (hfirst.trans (clearFoot_onlyClusters _ x k)) l
  rw [clu_foldl_clearFoot_of_not_mem (by rwa [funext hphys]), get_clearFoot, footprint_of_onlyClusters hfirst,
    if_pos ⟨hlo, hhi⟩]
  · rwa [physOf_of_onlyClusters hfirst]
  · rwa [clu_foldl_clearFoot_of_not_mem hbefore]

/-! ### Taking the clusters (R279, R713) -/

/-- The same jobs and units, and the same hand-overs of clusters. -/
def SamePlaces (s t : State) : Prop :=
  t.disp = s.disp ∧ t.units = s.units ∧
    ∀ c, (tgetD {} t.safe.rot c).handed = (tgetD {} s.safe.rot c).handed

theorem samePlaces_refl (s : State) : SamePlaces s s := ⟨rfl, rfl, fun _ => rfl⟩

theorem SamePlaces.trans {s t u : State} (h : SamePlaces s t) (h' : SamePlaces t u) : SamePlaces s u := by
  obtain ⟨hdisp, hunits, hrot⟩ := h
  obtain ⟨hdisp', hunits', hrot'⟩ := h'
  exact ⟨hdisp'.trans hdisp, hunits'.trans hunits, fun c => (hrot' c).trans (hrot c)⟩

theorem samePlaces_of_onlyClusters (h : OnlyClusters s t) : SamePlaces s t := by
  rw [h]; exact ⟨rfl, rfl, fun _ => rfl⟩

theorem physOf_of_samePlaces (h : SamePlaces s t) (l : Nat) : physOf t l = physOf s l := by
  unfold physOf; rw [h.2.1]

theorem leadOf_of_samePlaces (h : SamePlaces s t) (c : Nat) : leadOf t c = leadOf s c := by
  have hlog : logOf t c = logOf s c := by
    unfold logOf
    simp only [physOf_of_samePlaces h, h.2.2 c]
  unfold leadOf cherry pairJoined
  rw [hlog, h.2.1]

theorem job_of_samePlaces (h : SamePlaces s t) (j : Nat) : job? t j = job? s j := by
  unfold job?; rw [h.1]

/-- The rotor's books note that a job ran on cluster `c` (21 R619). -/
def ranNoted (s : State) (j : Nat) (x : Job) (c : Nat) : State :=
  let r := tgetD {} s.safe.rot c
  { s with safe := { s.safe with rot := tsetD {} s.safe.rot c { r with ran := ((j, x.part) :: r.ran).eraseDups } } }

/-- Job `j` takes cluster `c`. -/
def takeCluster (j : Nat) (x : Job) (s : State) (c : Nat) : State :=
  setClu (ownCluster (ranNoted s j x c) x.part c) c { clu s c with job := some j }

theorem ownCluster_eq (s : State) (p c : Nat) : ∃ regs, ownCluster s p c = { s with pg := { s.pg with regs := regs } } :=
  List.foldlRecOn (motive := fun t => ∃ regs, t = { s with pg := { s.pg with regs := regs } }) (List.range 4) _ ⟨_, rfl⟩
    fun t ⟨regs, ht⟩ i _ => by subst ht; exact ⟨_, rfl⟩

theorem clu_takeCluster (s : State) (j : Nat) (x : Job) (c d : Nat) :
    clu (takeCluster j x s c) d = if d = c then { clu s c with job := some j } else clu s d := by
  obtain ⟨regs, hown⟩ := ownCluster_eq (ranNoted s j x c) x.part c
  rw [takeCluster, hown, clu_setClu]; rfl

theorem samePlaces_takeCluster (s : State) (j : Nat) (x : Job) (c : Nat) : SamePlaces s (takeCluster j x s c) := by
  obtain ⟨regs, hown⟩ := ownCluster_eq (ranNoted s j x c) x.part c
  rw [takeCluster, hown]
  refine ⟨rfl, rfl, fun d => ?_⟩
  simp only [setClu, ranNoted, tgetD_tsetD]
  split
  · rename_i h; rw [h]
  · rfl

theorem ownerOf_setRg_self (s : State) (k c : Nat) {p : Nat} (hp : p < 32) :
    ownerOf (setRg s (k * 4096 + HDR_OWNER) c 0 (w32 p)) k c = p := by
  unfold ownerOf
  rw [rg_setRg_self]
  unfold fld w32
  simp only [BitVec.toNat_ofNat]
  omega

theorem ownerOf_setRg_keeps {k c p : Nat} (h : ownerOf s k c = p) (k' d : Nat) (hp : p < 32) :
    ownerOf (setRg s (k' * 4096 + HDR_OWNER) d 0 (w32 p)) k c = p := by
  by_cases hkey : rkey (k * 4096 + HDR_OWNER) c 0 = rkey (k' * 4096 + HDR_OWNER) d 0
  · have := ownerOf_setRg_self s k' d hp
    unfold ownerOf rg at this ⊢
    rwa [hkey]
  · unfold ownerOf at h ⊢
    rwa [rg_setRg, if_neg hkey]

theorem ownerOf_ownCluster_keeps {k c p : Nat} (h : ownerOf s k c = p) (d : Nat) (hp : p < 32) : ownerOf (ownCluster s p d) k c = p :=
  List.foldlRecOn (motive := fun t => ownerOf t k c = p) (List.range 4) _ h fun _ ht _ _ => ownerOf_setRg_keeps ht _ d hp

/-- The four pages of a cluster belong to the partition. -/
theorem ownerOf_ownCluster (s : State) (c : Nat) {k p : Nat} (hk : k ∈ [16, 17, 18, 19]) (hp : p < 32) :
    ownerOf (ownCluster s p c) k c = p := by
  have hpage : k - 16 ∈ List.range 4 ∧ 16 + (k - 16) = k := by
    simp only [List.mem_cons, List.not_mem_nil, or_false] at hk
    rw [List.mem_range]; omega
  obtain ⟨hmem, hk16⟩ := hpage
  refine foldl_reaches (fun _ => True) (fun t => ownerOf t k c = p) (fun _ _ _ _ => trivial) (fun t _ => ?_)
    (fun t ht i _ => ownerOf_setRg_keeps ht _ c hp) trivial hmem
  rw [hk16]; exact ownerOf_setRg_self t k c hp

theorem ownerOf_takeCluster (s : State) (j : Nat) (x : Job) (c k d : Nat) :
    ownerOf (takeCluster j x s c) k d = ownerOf (ownCluster (ranNoted s j x c) x.part c) k d := by
  unfold ownerOf rg takeCluster
  rw [setClu_pg]

variable {x : Job}

theorem samePlaces_occupy (s : State) (j : Nat) (x : Job) : SamePlaces s (occupy s j x) :=
  List.foldlRecOn _ (takeCluster j x) (samePlaces_refl s) fun t ht c _ => ht.trans (samePlaces_takeCluster t j x c)

theorem clu_occupy_of_not_mem (j : Nat) {d : Nat} (h : d ∉ mapUnits s x) : clu (occupy s j x) d = clu s d :=
  List.foldlRecOn (motive := fun t => clu t d = clu s d) _ (takeCluster j x) rfl fun t ht c hc => by
    rw [clu_takeCluster, if_neg (by rintro rfl; exact h hc), ht]

/-- Taking clusters changes of each its job alone. -/
theorem sp_occupy (s : State) (j : Nat) (x : Job) (d : Nat) : (clu (occupy s j x) d).sp = (clu s d).sp :=
  List.foldlRecOn (motive := fun t => (clu t d).sp = (clu s d).sp) _ (takeCluster j x) rfl fun t ht c _ => by
    rw [clu_takeCluster]
    split
    · rename_i h; subst h; exact ht
    · exact ht

theorem job_occupy (j : Nat) {c : Nat} (h : c ∈ mapUnits s x) : (clu (occupy s j x) c).job = some j := by
  refine foldl_reaches (f := takeCluster j x) (fun _ => True) (fun t => (clu t c).job = some j) (fun _ _ _ _ => trivial) (fun t _ => ?_)
    (fun t ht d _ => ?_) trivial h
  · rw [clu_takeCluster, if_pos rfl]
  · rw [clu_takeCluster]
    split
    · rfl
    · exact ht

theorem ownerOf_occupy (j : Nat) {c k : Nat} (hp : x.part < 32) (h : c ∈ mapUnits s x) (hk : k ∈ [16, 17, 18, 19]) :
    ownerOf (occupy s j x) k c = x.part := by
  refine foldl_reaches (f := takeCluster j x) (fun _ => True) (fun t => ownerOf t k c = x.part) (fun _ _ _ _ => trivial)
    (fun t _ => ?_) (fun t ht d _ => ?_) trivial h
  · rw [ownerOf_takeCluster]; exact ownerOf_ownCluster _ c hk hp
  · rw [ownerOf_takeCluster]; exact ownerOf_ownCluster_keeps (s := ranNoted t j x d) ht d hp

/-! ### A member takes up the job (R136, R170, R186) -/

theorem onlyClu_loadSect {c : Nat} {y : Cluster} (h : OnlyClu s t c y) (g : Gen) (type : Nat) (w : Bool) :
    ∃ xm ym, OnlyClu s (loadSect t g c type w) c { y with xm := xm, ym := ym } := by
  unfold loadSect
  split
  · cases w with
    | true => exact ⟨_, _, onlyClu_xyWrite h true _ _⟩
    | false => exact ⟨_, _, onlyClu_xyWrite h false _ _⟩
  · exact ⟨_, _, h⟩

theorem onlyClu_writeGrid {c : Nat} {y : Cluster} (h : OnlyClu s t c y) (x : Job) (g : Gen) :
    ∃ xm, OnlyClu s (writeGrid t c x g) c { y with xm := xm } := by
  unfold writeGrid
  split
  · exact ⟨_, h⟩
  · exact ⟨_, onlyClu_xyWrite h false _ _⟩

theorem onlyClu_preload {c : Nat} {y : Cluster} (h : OnlyClu s t c y) (x : Job) (g : Gen) :
    ∃ ic, OnlyClu s (preload t c x g) c { y with ic := ic } := by
  unfold preload
  split
  · exact ⟨_, h⟩
  · dsimp only
    rw [h.clu_self]
    exact ⟨_, onlyClu_setClu h _⟩

/-- A member's core is fresh; the member keeps its job and scratchpad. -/
theorem onlyClu_startMember (s : State) (x : Job) (g : Gen) (pc c : Nat) :
    ∃ xm ym ic, OnlyClu s (startMember s x g pc c) c { clu s c with xm := xm, ym := ym, ic := ic, clv := freshCore x pc } := by
  obtain ⟨_, _, hdata⟩ := onlyClu_loadSect (onlyClu_refl s c) g 2 false
  obtain ⟨_, _, hboth⟩ := onlyClu_loadSect hdata g 3 true
  obtain ⟨_, hgrid⟩ := onlyClu_writeGrid hboth x g
  obtain ⟨_, hpre⟩ := onlyClu_preload hgrid x g
  exact ⟨_, _, _, hpre.update fun y => { y with clv := freshCore x pc }⟩

/-- S1 to S4 of a fresh core hold the arguments, the others 0 (R136). -/
theorem sreg_freshCore (x : Job) (pc n : Nat) :
    (freshCore x pc).sreg n = if 1 ≤ n ∧ n ≤ 4 then wd x.args (n - 1) else 0 := by
  have hfold : (freshCore x pc).s = tsetD 0 (tsetD 0 (tsetD 0 (tsetD 0 [] 1 (wd x.args 0)) 2 (wd x.args 1)) 3 (wd x.args 2)) 4
    (wd x.args 3) := rfl
  unfold Clv.sreg
  rw [hfold]
  simp only [tgetD_tsetD]
  by_cases h : 1 ≤ n ∧ n ≤ 4
  · obtain rfl | rfl | rfl | rfl : n = 1 ∨ n = 2 ∨ n = 3 ∨ n = 4 := by omega
    all_goals simp
  · rw [if_neg (by omega), if_neg (by omega), if_neg (by omega), if_neg (by omega), if_neg h]; rfl

end Sys2Proof.Machine
end

section
/-! The start of a job on free units, the end of a spill and the end of a restore (09 R279 to R284), and O26. -/

namespace Sys2Proof.Machine

open Sys2Proof

variable {s t : State} {x : Job} {g : Gen}

/-! ### The start of a job -/

/-- A job as it starts on the clusters its unit has now. -/
def startedJob (s : State) (x : Job) : Job :=
  { x with phase := .running, start := s.tmu.ticks, gridK := 0, phys := mapUnits s x }

/-- The job `z` placed on its clusters, their footprints cleared. -/
def placedJob (s : State) (j : Nat) (z : Job) : State := occupy (setJob (footCleared s z) j (some z)) j z

/-- A job that has started. -/
def startedState (s : State) (j : Nat) (z : Job) (g : Gen) (pc : Nat) : State :=
  (members (placedJob s j z) z).foldl (fun s c => startMember s z g pc c) (placedJob s j z)

theorem recordW_of_not_running (h : s.trace.run = none) (p type : Nat) (ws : List Word) : recordW s p type ws = s := by
  simp [recordW, record, recording, h]

theorem startJob_eq {j pc b : Nat} (hphase : x.phase = .queued) (hgrid : gridRec s g x.entry = none)
    (hbind : bindEntry s g x.entry x.args = some (pc, b, s)) (hrun : s.trace.run = none) :
    startJob s j x g = startedState s j (startedJob s x) g pc := by
  simp only [startJob, if_pos hphase, hbind, hgrid, Option.isSome_none, Bool.false_eq_true, if_false]
  rw [recordW_of_not_running hrun]; rfl

theorem jobStart_eq {l j : Nat} (hsel : selected s l = some (j, x)) (hfree : x.units.all (unitFree s) = true)
    (hmoving : ∀ y ∈ unitJobs s x, y.phase ≠ .spilling ∧ y.phase ≠ .restoring) (hway : inTheWay s x = [])
    (hstep : ∀ c ∈ mapUnits s x, stepBoundary s c = s) (hgen : genOf s x = some g) :
    jobStart s l = reconsider (startJob s j x g) := by
  have hbounds : ((mapUnits s x).filter (fun c => (clu s c).job.isNone)).foldl stepBoundary s = s :=
    List.foldlRecOn (motive := (· = s)) _ _ rfl fun t ht c hc => by rw [ht, hstep c (List.mem_filter.1 hc).1]
  have hstill : (unitJobs s x).any (fun y => decide (y.phase = .spilling ∨ y.phase = .restoring)) = false := by
    rw [List.any_eq_false]
    exact fun y hy h => (not_or.2 (hmoving y hy)) (of_decide_eq_true h)
  simp only [jobStart, hsel, hbounds, hfree, hstill, hway, hgen]
  rfl

theorem onlyClusters_startMember (s : State) (z : Job) (g : Gen) (pc c : Nat) : OnlyClusters s (startMember s z g pc c) := by
  obtain ⟨_, _, _, h⟩ := onlyClu_startMember s z g pc c
  exact h.onlyClusters

/-- What a cluster keeps while the members take up the job. -/
theorem clu_startMember {s : State} {z : Job} {g : Gen} {pc c d : Nat} :
    (clu (startMember s z g pc c) d).job = (clu s d).job ∧ (clu (startMember s z g pc c) d).sp = (clu s d).sp ∧
      (clu (startMember s z g pc c) d).clv = if d = c then freshCore z pc else (clu s d).clv := by
  obtain ⟨_, _, _, h⟩ := onlyClu_startMember s z g pc c
  rw [h.2 d]
  split
  · rename_i hd; subst hd; exact ⟨rfl, rfl, rfl⟩
  · exact ⟨rfl, rfl, rfl⟩

theorem clu_startMember_ne {z : Job} {pc c d : Nat} (hd : d ≠ c) : clu (startMember s z g pc c) d = clu s d := by
  obtain ⟨_, _, _, h⟩ := onlyClu_startMember s z g pc c
  rw [h.2 d, if_neg hd]

section
variable {j pc : Nat} {z : Job}

theorem onlyClusters_startedState : OnlyClusters (placedJob s j z) (startedState s j z g pc) :=
  onlyClusters_foldl (fun t c => onlyClusters_startMember t z g pc c) ..

theorem samePlaces_cleared : SamePlaces (setJob s j (some z)) (setJob (footCleared s z) j (some z)) := by
  rw [footCleared_onlyClusters s z]; exact ⟨rfl, rfl, fun _ => rfl⟩

theorem samePlaces_startedState : SamePlaces (setJob s j (some z)) (startedState s j z g pc) :=
  (samePlaces_cleared.trans (samePlaces_occupy ..)).trans (samePlaces_of_onlyClusters onlyClusters_startedState)

theorem job_startedState (i : Nat) : job? (startedState s j z g pc) i = if i = j then some z else job? s i := by
  rw [job_of_samePlaces samePlaces_startedState, job_setJob]

theorem mapUnits_cleared : mapUnits (setJob (footCleared s z) j (some z)) z = mapUnits s z := by
  unfold mapUnits
  rw [funext (physOf_of_samePlaces samePlaces_cleared)]; rfl

theorem members_placedJob (hz : z.phys = mapUnits s z) :
    members (placedJob s j z) z = (mapUnits s z).filter fun c => decide (leadOf s c = c) :=
  have hplaces : SamePlaces (setJob s j (some z)) (placedJob s j z) := samePlaces_cleared.trans (samePlaces_occupy ..)
  members_eq (s := setJob s j (some z)) (physOf_of_samePlaces hplaces) (leadOf_of_samePlaces hplaces) rfl hz

theorem clu_startedState_of_not_mem (hz : z.phys = mapUnits s z) {d : Nat} (hd : d ∉ mapUnits s z) :
    clu (startedState s j z g pc) d = clu s d := by
  have hmem : d ∉ members (placedJob s j z) z := by
    rw [members_placedJob hz]; exact fun h => hd (List.mem_filter.1 h).1
  calc clu (startedState s j z g pc) d = clu (placedJob s j z) d :=
        List.foldlRecOn (motive := fun t => clu t d = clu (placedJob s j z) d) _ _ rfl fun t ht c hc =>
          (clu_startMember_ne (by rintro rfl; exact hmem hc)).trans ht
    _ = clu (footCleared s z) d := clu_occupy_of_not_mem j (by rwa [mapUnits_cleared])
    _ = clu s d := clu_footCleared_of_not_mem hd

/-- The members' clusters keep their job and scratchpad. -/
theorem kept_startedState (d : Nat) : (clu (startedState s j z g pc) d).job = (clu (placedJob s j z) d).job ∧
    (clu (startedState s j z g pc) d).sp = (clu (footCleared s z) d).sp := by
  refine List.foldlRecOn (motive := fun t => (clu t d).job = (clu (placedJob s j z) d).job ∧
    (clu t d).sp = (clu (footCleared s z) d).sp) _ _ ⟨rfl, sp_occupy ..⟩ ?_
  rintro t ⟨hjob, hsp⟩ c _
  obtain ⟨hjob', hsp', _⟩ := clu_startMember (s := t) (z := z) (g := g) (pc := pc) (c := c) (d := d)
  exact ⟨hjob'.trans hjob, hsp'.trans hsp⟩

theorem clu_job_startedState {c : Nat} (hc : c ∈ mapUnits s z) : (clu (startedState s j z g pc) c).job = some j := by
  rw [(kept_startedState c).1]
  exact job_occupy j (by rwa [mapUnits_cleared])

theorem ownerOf_startedState {c k : Nat} (hp : z.part < 32) (hc : c ∈ mapUnits s z) (hk : k ∈ [16, 17, 18, 19]) :
    ownerOf (startedState s j z g pc) k c = z.part := by
  rw [ownerOf_of_onlyClusters onlyClusters_startedState]
  exact ownerOf_occupy j hp (by rwa [mapUnits_cleared]) hk

/-- The core of every member is fresh. -/
theorem clv_startedState (hz : z.phys = mapUnits s z) {c : Nat} (hc : c ∈ mapUnits s z) (hlead : leadOf s c = c) :
    (clu (startedState s j z g pc) c).clv = freshCore z pc := by
  refine foldl_reaches (fun _ => True) (fun t => (clu t c).clv = freshCore z pc) (fun _ _ _ _ => trivial) (fun t _ => ?_)
    (fun t ht d _ => ?_) trivial (show c ∈ members (placedJob s j z) z from ?_)
  · rw [clu_startMember.2.2, if_pos rfl]
  · rw [clu_startMember.2.2, ht, ite_self]
  · rw [members_placedJob hz]
    exact List.mem_filter.2 ⟨hc, decide_eq_true hlead⟩

end

/-! ### Spills (R280, R281) -/

/-- Taking a request off the spill channel changes the channel alone. -/
theorem popSpill_eq (s : State) (r : SpillReq) : ∃ sp, popSpill s r = { s with disp := { s.disp with spill := sp } } := by
  unfold popSpill startSpill
  split
  · exact ⟨_, rfl⟩
  · dsimp only
    split <;> exact ⟨_, rfl⟩

/-- The save set of a job that spills, as its image holds it. -/
def spilledImage (s : State) (x : Job) : List (List Byte) :=
  (List.range x.regions.length).map (fun i =>
    let q := x.regions.getD i ⟨0, 0, 0, 0, false⟩
    let old := x.image.getD i []
    if q.spilled && decide (old = []) then regionBytes s x q else old)

/-- A job whose save set is in its image. -/
def spilledJob (s : State) (x : Job) : Job := { x with phase := .spilled, image := spilledImage s x }

theorem spillEnd_eq {r : SpillReq} (hdone : spillDone s false = some r) (hdrop : r.dropped = false)
    (hjob : job? s r.job = some x) (hphase : x.phase = .spilling) :
    spillEnd s = reconsider (setJob (popSpill s r) r.job (some (spilledJob s x))) := by
  obtain ⟨sp, hpop⟩ := popSpill_eq s r
  have hjob' : job? { s with disp := { s.disp with spill := sp } } r.job = some x := hjob
  simp only [spillEnd, hdone, hpop, hjob', hdrop, hphase, Bool.false_eq_true, ne_eq, not_true_eq_false, or_self, if_false]
  rfl

theorem length_spilledImage (s : State) (x : Job) : (spilledImage s x).length = x.regions.length := by simp [spilledImage]

theorem getD_spilledImage {i : Nat} {q : SaveReg} (hq : x.regions[i]? = some q) (hspilled : q.spilled = true)
    (hold : x.image.getD i [] = []) : (spilledImage s x).getD i [] = regionBytes s x q := by
  obtain ⟨hi, _⟩ := List.getElem?_eq_some_iff.1 hq
  have hregion : x.regions.getD i ⟨0, 0, 0, 0, false⟩ = q := by rw [List.getD_eq_getElem?_getD, hq]; rfl
  unfold spilledImage
  rw [getD_map_range _ _ hi]
  simp only [hregion, hspilled, hold, decide_true, Bool.and_true, if_true]

/-! ### Restores (R162, R190, R283) -/

/-- The bytes that a restore puts back: regions that stayed and pinned ones, then those of the image. -/
def restoredBytes (s : State) (x : Job) : List (SaveReg × List Byte) :=
  ((x.regions.filter (fun r => !r.spilled)) ++ x.pinned).map (fun r => (r, regionBytes s x r)) ++
    ((List.range x.regions.length).map (fun i => (x.regions.getD i ⟨0, 0, 0, 0, false⟩, x.image.getD i []))).filter
      (fun q => q.1.spilled)

/-- Put a saved core back on its member's cluster. -/
def putCore (x : Job) (s : State) (q : Nat × Clv) : State :=
  match placeOf s x q.1 with
  | some c => setClu s c { clu s c with clv := q.2 }
  | none => s

/-- Clusters after a restore of job `z`: forgotten, then the regions put back, then the cores. -/
def regionsBack (s : State) (z : Job) (l : List (SaveReg × List Byte)) : State :=
  l.foldl (fun s q => putRegion s z q.1 q.2) (z.units.foldl (fun t l => forget t z (s.freeCtr + 1) l) { s with freeCtr := s.freeCtr + 1 })

/-- The job on the clusters that its unit has now. -/
def inPlace (s : State) (x : Job) : Job := { x with phys := mapUnits s x }

/-- The job as it runs on. -/
def resumedJob (s : State) (x : Job) : Job :=
  { x with phys := mapUnits s x, phase := .running, saved := [], regions := [], image := [], areaUsed := 0 }

theorem onlyClusters_forget (s : State) (x : Job) (ep l : Nat) : OnlyClusters s (forget s x ep l) := by
  unfold forget
  split
  · exact onlyClusters_refl s
  · exact onlyClusters_setClu ..

theorem onlyClusters_putRegion (s : State) (x : Job) (r : SaveReg) (bs : List Byte) : OnlyClusters s (putRegion s x r bs) := by
  unfold putRegion
  split
  · exact onlyClusters_refl s
  · split <;> exact onlyClusters_setClu ..

theorem onlyClusters_putCore (x : Job) (s : State) (q : Nat × Clv) : OnlyClusters s (putCore x s q) := by
  unfold putCore
  split
  · exact onlyClusters_setClu ..
  · exact onlyClusters_refl s

theorem onlyClusters_regionsBack (s : State) (z : Job) (l : List (SaveReg × List Byte)) :
    OnlyClusters { s with freeCtr := s.freeCtr + 1 } (regionsBack s z l) :=
  (onlyClusters_foldl (fun t l => onlyClusters_forget t z _ l) ..).trans
    (onlyClusters_foldl (fun t (q : SaveReg × List Byte) => onlyClusters_putRegion t z q.1 q.2) ..)

/-- A job of an edge partition without a grid has nothing to load at its resumption. -/
theorem preload_writeGrid_of_edge {c : Nat} (hgrid : gridRec s g x.entry = none) (hedge : isRS s x.part = false) :
    preload (writeGrid s c x g) c x g = s := by
  simp [preload, writeGrid, hgrid, hedge]

theorem clu_putCore (x : Job) (s : State) (q : Nat × Clv) (d : Nat) :
    clu (putCore x s q) d = if placeOf s x q.1 = some d then { clu s d with clv := q.2 } else clu s d := by
  unfold putCore
  split
  · rename_i c hc
    rw [clu_setClu, hc]
    by_cases h : d = c
    · subst h; simp
    · rw [if_neg h, if_neg (by simpa using Ne.symm h)]
  · rename_i hc; simp [hc]

/-- The cores of a restore are those that were saved. -/
theorem clv_coresBack {z : Job} {q : Nat × Clv} {c : Nat} (hq : q ∈ z.saved) (hc : placeOf s z q.1 = some c)
    (hinj : ∀ p ∈ z.saved, placeOf s z p.1 = placeOf s z q.1 → p = q) : (clu (z.saved.foldl (putCore z) s) c).clv = q.2 := by
  refine (foldl_reaches (OnlyClusters s) (fun t => OnlyClusters s t ∧ (clu t c).clv = q.2)
    (fun t ht p _ => ht.trans (onlyClusters_putCore z t p)) (fun t ht => ⟨ht.trans (onlyClusters_putCore z t q), ?_⟩)
    (fun t ht p hp => ⟨ht.1.trans (onlyClusters_putCore z t p), ?_⟩) (onlyClusters_refl s) hq).2
  · rw [clu_putCore, placeOf_of_onlyClusters ht, if_pos hc]
  · rw [clu_putCore, placeOf_of_onlyClusters ht.1]
    split
    · rename_i h; rw [hinj p hp (h.trans hc.symm)]
    · exact ht.2

/-- Cores that are put back leave the memories of every cluster. -/
theorem memories_coresBack (z : Job) (l : List (Nat × Clv)) (s : State) (c : Nat) : (clu (l.foldl (putCore z) s) c).xm = (clu s c).xm ∧
    (clu (l.foldl (putCore z) s) c).ym = (clu s c).ym ∧ (clu (l.foldl (putCore z) s) c).sp = (clu s c).sp := by
  refine List.foldlRecOn (motive := fun t => (clu t c).xm = (clu s c).xm ∧ (clu t c).ym = (clu s c).ym ∧
    (clu t c).sp = (clu s c).sp) l _ ⟨rfl, rfl, rfl⟩ fun t ht q _ => ?_
  rw [clu_putCore]
  split <;> exact ht

/-- The memory of cluster `c` that a region lies in. -/
def regionRam (s : State) (r : SaveReg) (c : Nat) : Ram :=
  if r.space = 1 then (clu s c).xm else if r.space = 2 then (clu s c).ym else (clu s c).sp

theorem regionRam_putRegion {r : SaveReg} {c : Nat} (bs : List Byte) (h : placeOf s x r.member = some c) :
    regionRam (putRegion s x r bs) r c = (regionRam s r c).write r.start bs := by
  obtain ⟨m, space, start, len, spilled⟩ := r
  unfold putRegion regionRam
  simp only at h
  simp only [h]
  obtain rfl | rfl | hsp : space = 1 ∨ space = 2 ∨ (space ≠ 1 ∧ space ≠ 2) := by omega
  · simp [xyWrite]
  · simp [xyWrite]
  · obtain ⟨h1, h2⟩ := hsp
    simp [h1, h2, spWrite]

/-- The clusters of a job whose restore is complete. -/
def restoredState (s : State) (x z : Job) : State :=
  z.saved.foldl (putCore z) (regionsBack s z (restoredBytes s x))

theorem onlyClusters_restoredState (s : State) (x z : Job) :
    OnlyClusters { s with freeCtr := s.freeCtr + 1 } (restoredState s x z) :=
  (onlyClusters_regionsBack ..).trans (onlyClusters_foldl (onlyClusters_putCore z) ..)

/-- What a resumed job loads anew: its grid record and its preloaded lines. -/
def membersLoaded (s : State) (z : Job) (g : Gen) : State :=
  (members s z).foldl (fun s c => preload (writeGrid s c z g) c z g) s

theorem membersLoaded_of_edge (hgrid : gridRec s g x.entry = none) (hedge : isRS s x.part = false) : membersLoaded s x g = s :=
  List.foldlRecOn (motive := (· = s)) _ _ rfl fun t ht c _ => by rw [ht, preload_writeGrid_of_edge hgrid hedge]

/-- The spill area that a job gives back. -/
def areaFreed (s : State) (z : Job) : State :=
  { s with disp := { s.disp with spillUsed := tsetD 0 s.disp.spillUsed z.part (tgetD 0 s.disp.spillUsed z.part - z.areaUsed) } }

theorem restoreJob_eq {j : Nat} (hgrid : gridRec s g x.entry = none) (hedge : isRS s x.part = false) :
    restoreJob s j x g = setJob (areaFreed (restoredState s x (inPlace s x)) x) j (some (resumedJob s x)) := by
  have hdef : restoreJob s j x g =
    setJob (areaFreed (membersLoaded (restoredState s x (inPlace s x)) (inPlace s x) g) x) j (some (resumedJob s x)) := rfl
  have honly := onlyClusters_restoredState s x (inPlace s x)
  rw [hdef, membersLoaded_of_edge (by rw [honly]; exact hgrid) (by rw [honly]; exact hedge)]

theorem restoreEnd_eq {r : SpillReq} (hdone : spillDone s true = some r) (hdrop : r.dropped = false)
    (hjob : job? s r.job = some x) (hphase : x.phase = .restoring) (hgen : genOf s x = some g) :
    restoreEnd s = reconsider (restoreJob (popSpill s r) r.job x g) := by
  obtain ⟨sp, hpop⟩ := popSpill_eq s r
  have hjob' : job? { s with disp := { s.disp with spill := sp } } r.job = some x := hjob
  have hgen' : genOf { s with disp := { s.disp with spill := sp } } x = some g := hgen
  simp only [restoreEnd, hdone, hpop, hjob', hgen', hdrop, hphase, Bool.false_eq_true, ne_eq, not_true_eq_false, or_self, if_false]

/-! ### What a restore leaves -/

theorem clu_restoreJob (hgrid : gridRec s g x.entry = none) (hedge : isRS s x.part = false) (j c : Nat) :
    clu (restoreJob s j x g) c = clu (restoredState s x (inPlace s x)) c := by
  rw [restoreJob_eq hgrid hedge]; rfl

theorem placeOf_regionsBack (z : Job) (l : List (SaveReg × List Byte)) (m : Nat) : placeOf (regionsBack s z l) z m = placeOf s z m :=
  placeOf_of_onlyClusters (onlyClusters_regionsBack s z l) z m

theorem clv_restoreJob (hgrid : gridRec s g x.entry = none) (hedge : isRS s x.part = false) (j : Nat) {q : Nat × Clv} {c : Nat}
    (hq : q ∈ x.saved) (hc : placeOf s (inPlace s x) q.1 = some c)
    (hinj : ∀ p ∈ x.saved, placeOf s (inPlace s x) p.1 = placeOf s (inPlace s x) q.1 → p = q) :
    (clu (restoreJob s j x g) c).clv = q.2 := by
  rw [clu_restoreJob hgrid hedge]
  refine clv_coresBack (z := inPlace s x) hq ?_ fun p hp => ?_
  · rwa [placeOf_regionsBack]
  · rw [placeOf_regionsBack, placeOf_regionsBack]; exact hinj p hp

theorem restoredBytes_single {q : SaveReg} {bs : List Byte} (hregions : x.regions = [q]) (hspilled : q.spilled = true)
    (himage : x.image = [bs]) (hpinned : x.pinned = []) : restoredBytes s x = [(q, bs)] := by
  simp [restoredBytes, hregions, hspilled, himage, hpinned, List.range_succ]

/-- The bytes of a region that was spilled are those of the image. -/
theorem get_restoreJob (hgrid : gridRec s g x.entry = none) (hedge : isRS s x.part = false) (j : Nat) {q : SaveReg}
    {bs : List Byte} {c i : Nat} (hregions : x.regions = [q]) (hspilled : q.spilled = true) (himage : x.image = [bs])
    (hpinned : x.pinned = []) (hi : i < bs.length) (hc : placeOf s (inPlace s x) q.member = some c) :
    (regionRam (restoreJob s j x g) q c).get (q.start + i) = bs.getD i 0 := by
  have hcores := memories_coresBack (inPlace s x) x.saved (regionsBack s (inPlace s x) (restoredBytes s x)) c
  obtain ⟨hxm, hym, hsp⟩ := hcores
  have hram : regionRam (restoreJob s j x g) q c = regionRam (regionsBack s (inPlace s x) (restoredBytes s x)) q c := by
    unfold regionRam
    rw [clu_restoreJob hgrid hedge, ← hxm, ← hym, ← hsp]; rfl
  have hplace : placeOf ((inPlace s x).units.foldl (fun t l => forget t (inPlace s x) (s.freeCtr + 1) l)
      { s with freeCtr := s.freeCtr + 1 }) (inPlace s x) q.member = some c :=
    (placeOf_of_onlyClusters (onlyClusters_foldl (fun t l => onlyClusters_forget t (inPlace s x) _ l) ..) ..).trans hc
  rw [hram, restoredBytes_single hregions hspilled himage hpinned, regionsBack, List.foldl_cons, List.foldl_nil,
    regionRam_putRegion bs hplace, Ram.get_write, if_pos ⟨Nat.le_add_right .., by omega⟩, Nat.add_sub_cancel_left]

end Sys2Proof.Machine
end

section
namespace Sys2Proof.Proofs

open Sys2Proof Sys2Proof.Machine

/-- Settles O26: the clusters of a unit are cleared, taken and their cores begun one after the other, and what each step sets the
later ones keep; the ends of a spill and of a restore come down to the image that the save set is written to and read from. -/
theorem jobsStartSpillAndResume : Obligations.JobsStartSpillAndResume := by
  unfold Obligations.JobsStartSpillAndResume
  intro s j x g hpart hgen hgrid hnodup _
  refine ⟨?start, ?spill, ?restore⟩
  case start =>
    intro l pc b hsel hphase hphys hjob hrun hfree hmoving hway hstep hbind
    refine ⟨startedState s j (startedJob s x) g pc, startedJob s x, ?_, ?_, rfl, fun i hi => ?_, fun c hc => ?_,
      fun c hc => ⟨?_, ?_, ?_, ?_⟩⟩
    · show Host.Outcome.next (jobStart s l) = _
      rw [jobStart_eq hsel hfree hmoving hway hstep hgen, startJob_eq hphase hgrid hbind hrun]
    · rw [job_startedState, if_pos rfl]
    · rw [job_startedState, if_neg hi]
    · exact clu_startedState_of_not_mem rfl hc
    · exact clu_job_startedState hc
    · exact fun k hk => ownerOf_startedState (z := startedJob s x) hpart hc hk
    · intro hlead
      rw [clv_startedState (z := startedJob s x) rfl hc hlead]
      exact ⟨rfl, rfl, rfl, rfl, rfl, fun n _ => sreg_freshCore ..⟩
    · intro k hk hkc hlast a hlo hhi
      rw [(kept_startedState c).2]
      exact get_footCleared (x := startedJob s x) hnodup hk hkc hlast hlo hhi
  case spill =>
    rintro r hdone rfl hdrop hjob hphase
    obtain ⟨sp, hpop⟩ := popSpill_eq s r
    refine ⟨setJob (popSpill s r) r.job (some (spilledJob s x)), spilledJob s x, ?_, ?_, ?_, rfl,
      length_spilledImage s x, fun i q hq hspilled hold => getD_spilledImage hq hspilled hold⟩
    · show Host.Outcome.next (spillEnd s) = _
      rw [spillEnd_eq hdone hdrop hjob hphase]
    · rw [hpop]; rfl
    · rw [job_setJob, if_pos rfl]
  case restore =>
    rintro r hdone rfl hdrop hjob hphase hedge hinj
    obtain ⟨sp, hpop⟩ := popSpill_eq s r
    have hgrid' : gridRec (popSpill s r) g x.entry = none := by rw [hpop]; exact hgrid
    have hedge' : isRS (popSpill s r) x.part = false := by rw [hpop]; exact hedge
    have hplace (m : Nat) : placeOf (popSpill s r) (inPlace (popSpill s r) x) m = placeOf s (inPlace s x) m := by rw [hpop]; rfl
    refine ⟨restoreJob (popSpill s r) r.job x g, resumedJob (popSpill s r) x, ?_, ?_, rfl, rfl, rfl, fun q hq c hc => ?_,
      fun q bs c i hregions hspilled himage hpinned hi hc => ?_⟩
    · show Host.Outcome.next (restoreEnd s) = _
      rw [restoreEnd_eq hdone hdrop hjob hphase hgen]
    · rw [restoreJob_eq hgrid' hedge', job_setJob, if_pos rfl]
    · exact clv_restoreJob hgrid' hedge' r.job hq ((hplace q.1).trans hc) fun p hp h => hinj q hq p hp (by rwa [hplace, hplace] at h)
    · exact get_restoreJob hgrid' hedge' r.job hregions hspilled himage hpinned hi ((hplace q.member).trans hc)

end Sys2Proof.Proofs
end

section
/-! Yield points, handlers and line fills of the Clove core (05 R155, R156; 06 R185, R191, R192). -/

namespace Sys2Proof.Machine

open Sys2Proof

/-! ### YIELD (R192) -/

/-- The core as it passes the yield point `idx`, whose wait flag is `wait`. -/
def passYield (idx : Nat) (wait : Bool) (q : Clv) : Clv :=
  { q with sinceYield := 0, lateLogged := false, waitYield := if wait then some idx else none, atYield := none }

/-- The yield table is read from memory. -/
theorem yieldEntry_congr {s t : State} (h : t.mem = s.mem) (g : Gen) (i : Nat) : yieldEntry? t g i = yieldEntry? s g i := by
  have hword (off : Nat) : gword t g off = gword s g off := by unfold gword extWord; rw [h]
  have hwalk (n off : Nat) : yieldAt t g n off = yieldAt s g n off := by
    induction n generalizing off with
    | zero => rfl
    | succ n ih => rw [yieldAt, yieldAt, hword, ih]
  unfold yieldEntry?
  simp only [hword, hwalk]

/-- A YIELD that the yield table names and nobody has asked for is passed in one a-cycle. -/
theorem yieldBody_passes {s : State} {c j idx off : Nat} {y : Job} {g : Gen} (h : CloveReady s c 4 j y g)
    (hentry : yieldEntry? s g idx = some off) (hpc : (gword s g off).toNat = (clu s c).clv.pc)
    (hreq : (clu s c).clv.yieldReq = false) :
    CloveNext s (yieldBody s c idx) c 4 1 j (clu s c) (passYield idx (yieldWait s g off) (landed s c)) [] := by
  refine cloveRun_core (passYield idx (yieldWait s g off)) h fun S hS => ?_
  have hentry' : yieldEntry? S g idx = some off := (yieldEntry_congr (by rw [hS]) g idx).trans hentry
  have hpc' : (gword S g off).toNat = (clu s c).clv.pc := by rw [hS]; exact hpc
  have hwait : yieldWait S g off = yieldWait s g off := by rw [hS]; rfl
  simp only [hentry', hpc', hreq, hwait, ne_eq, not_true, Bool.false_and, Bool.false_eq_true, if_false]
  rfl

theorem job_of_cloveFrame {s t : State} {c n j : Nat} {x : Cluster} {y : Job} (h : CloveFrame s t c n j x)
    (hy : job? s j = some y) : job? t j = some { y with ran := y.ran + n } := by
  obtain ⟨-, -, -, -, -, hjobs⟩ := h
  rw [hjobs j, if_pos rfl, hy]; rfl

/-- A job that is not asked to yield goes on after it. -/
theorem exec_yieldPoint_passes {s : State} {c j off : Nat} {y : Job} {g : Gen} {idx : BitVec 16} (h : CloveReady s c 4 j y g)
    (hphase : y.phase = .running) (hentry : yieldEntry? s g idx.toNat = some off)
    (hpc : (gword s g off).toNat = (clu s c).clv.pc) (hreq : (clu s c).clv.yieldReq = false) :
    ∃ t, exec (.yieldPoint c idx) s = .next t ∧
      CloveNext s t c 4 1 j (clu s c) (passYield idx.toNat (yieldWait s g off) (landed s c)) [] := by
  obtain ⟨hjob, hy⟩ := running_job h.1
  have hnext := yieldBody_passes h hentry hpc hreq
  refine ⟨_, ?_, hnext⟩
  have hexec : exec (.yieldPoint c idx) s = execYieldPoint c idx s := rfl
  have hstays : tryYield (yieldBody s c idx.toNat) j = yieldBody s c idx.toNat := by
    refine tryYield_of_not_yielding fun x hx => ?_
    rw [job_of_cloveFrame hnext.1.1 hy] at hx
    cases hx
    rw [hphase]; decide
  rw [hexec, execYieldPoint, hjob]
  exact congrArg _ hstays

/-! ### RTI (R156) -/

/-- a-cycles pass on the core of a cluster that is `x` but for its core `k`. -/
theorem cloveFrame_spend {s S : State} {c n j : Nat} {x : Cluster} {k : Clv} (hS : OnlyClu s S c { x with clv := k })
    (hj : x.job = some j) : CloveFrame s (spend S c n) c n j x := by
  obtain ⟨hself, hother, hframe, hpg, hdisp⟩ := spend_spec S c n j (by rw [hS.clu_self]; exact hj)
  have hdispS : S.disp = s.disp := by rw [hS.1]
  have hpgS : S.pg = s.pg := by rw [hS.1]
  refine ⟨?_, fun d hd => ?_, ?_, ?_, ?_, fun i => ?_⟩
  · rw [hframe, hS.1]
  · rw [hother d hd, hS.2 d, if_neg hd]
  · rw [hself, hS.clu_self]
  · rcases hpg with hpg | ⟨v, hpg⟩
    · exact Or.inl (hpg.trans hpgS)
    · refine Or.inr ⟨v, ?_⟩
      unfold OneReg
      rw [hpg]
      simp only [setRg, hpgS]
  · rw [hdisp, modJob]
    split
    · simp only [setJob, hdispS]
    · rw [hdispS]
  · have hjobs : job? (spend S c n) i = job? (modJob S j fun y => { y with ran := y.ran + n }) i := by
      simp only [job?, hdisp]
    rw [hjobs, job_modJob, job_of_onlyClu hS, job_of_onlyClu hS]

/-- The core of the cluster is free in that frame. -/
theorem cloveFrame_setClv {s t : State} {c n j : Nat} {x : Cluster} (h : CloveFrame s t c n j x) (q : Clv) :
    CloveFrame s (setClv t c q) c n j x := by
  obtain ⟨hframe, hother, hself, hpg, hdisp, hjobs⟩ := h
  refine ⟨?_, fun d hd => ?_, ?_, hpg, hdisp, fun i => ?_⟩
  · rw [hframe]; rfl
  · rw [clu_setClv, if_neg hd, hother d hd]
  · rw [clu_setClv, if_pos rfl]; rw [hself]
  · rw [job_setClv, hjobs]

/-- The core as RTI leaves it. -/
def returned (pc : Nat) (cst : Word) (q : Clv) : Clv := { q with pc := pc, cst := cst, shadow := none, delay := none, stall := 0 }

theorem exec_rti {s : State} {c j pc : Nat} {cst : Word} {y : Job} {g : Gen} (h : CloveReady s c 4 j y g)
    (hshadow : (clu s c).clv.shadow = some (pc, cst)) :
    ∃ t, exec (.rti c) s = .next t ∧ CloveDone s t c 1 j (clu s c) { landed s c with cst := cst, shadow := none } [] ∧
      (clu t c).clv.pc = pc ∧ (clu t c).clv.delay = none := by
  obtain ⟨hjob, -⟩ := running_job h.1
  obtain ⟨ic, hS⟩ := body_state s c (clu s c).clv.pc y
  set S := landLoads (touchLine s c y (clu s c).clv.pc) c
  obtain ⟨hself, -⟩ := spend_spec S c 1 j (by rw [hS.clu_self]; exact hjob)
  have hexec : exec (.rti c) s = .next (setClv (spend S c 1) c (returned pc cst (clu (spend S c 1) c).clv)) := by
    have hrun : exec (.rti c) s = execRti c s := rfl
    rw [hrun, execRti, cloveRun_eq h]
    simp only [hshadow]
    rfl
  rw [hself, hS.clu_self] at hexec
  have hframe := cloveFrame_spend (x := { clu s c with ic := ic }) (n := 1) hS hjob
  have hcore : (clu (setClv (spend S c 1) c (returned pc cst ((landed s c).spent 1))) c).clv =
      returned pc cst ((landed s c).spent 1) := by rw [clu_setClv, if_pos rfl]
  refine ⟨_, hexec, ⟨cloveFrame_setClv hframe _, ?_⟩, by rw [hcore]; rfl, by rw [hcore]; rfl⟩
  rw [hcore]; rfl

/-! ### Interrupts (R155, R156) -/

/-- The source taken is the first that is pending and enabled. -/
theorem takeable_eq {k : Clv} {i : Nat} (hi : i < 4) (hirq : k.irq.getLsbD (3 - i) = true) (hen : bit k.cst (7 - i) = true)
    (hfirst : ∀ i', i' < i → ¬ (k.irq.getLsbD (3 - i') = true ∧ bit k.cst (7 - i') = true)) : takeable k = some i := by
  unfold takeable
  rw [List.find?_range_eq_some]
  refine ⟨by rw [hirq, hen]; rfl, List.mem_range.2 hi, fun m hm => ?_⟩
  rw [Bool.not_eq_true', ← Bool.not_eq_true, Bool.and_eq_true]
  exact hfirst m hm

/-- The core as it enters the handler at `handler` for source `i`. -/
def entered (k : Clv) (i handler : Nat) : Clv :=
  { k with shadow := some (k.pc, k.cst), cst := k.cst &&& 0xFFFFFF0F, pc := handler, stall := 0, holdoff := 0,
           irq := k.irq &&& ~~~(1#4 <<< (3 - i)) }

theorem exec_interruptEntry {s : State} {c j i handler : Nat} {y : Job} {g : Gen} (hrun : running s c = some (j, y, g))
    (hshadow : (clu s c).clv.shadow = none) (hdelay : (clu s c).clv.delay = none) (hloads : (clu s c).clv.loads = [])
    (hreps : (clu s c).clv.reps = []) (hstall : (clu s c).clv.stall ≠ 5) (hi : i < 4)
    (htake : takeable (clu s c).clv = some i) (hhandler : handler? s g y.entry i = some handler) :
    exec (.interruptEntry c) s = .next (setClv s c (entered (clu s c).clv i handler)) := by
  have hexec : exec (.interruptEntry c) s = execInterruptEntry c s := rfl
  have hsource : (BitVec.ofNat 4 (2 ^ (3 - i))) = 1#4 <<< (3 - i) := by
    interval_cases i <;> rfl
  have hready : ¬ ((clu s c).clv.shadow.isSome = true ∨ (clu s c).clv.delay.isSome = true ∨ (clu s c).clv.loads ≠ [] ∨
      (clu s c).clv.reps ≠ [] ∨ ((clu s c).clv.stall = 5 ∧ (!cached s c y (clu s c).clv.pc) = true)) := by
    simp [hshadow, hdelay, hloads, hreps, hstall]
  rw [hexec, execInterruptEntry, hrun]
  simp only [if_neg hready, htake, hhandler, hsource]
  rfl

/-- The record that is appended while the ring has room (23 R666). -/
theorem logErr_room {s : State} (hroom : s.pg.ering.length < Config.errRing) (type reason source p : Nat) (w1 w2 w3 w4 w5 : Word) :
    ∃ r, logErr s type reason source p w1 w2 w3 w4 w5 = { s with pg := { s.pg with ering := s.pg.ering ++ [r] } } ∧
      r.hdr = recHdr type reason source p ∧ r.w1 = w1 ∧ r.w2 = w2 ∧ r.w3 = w3 ∧ r.w4 = w4 :=
  ⟨_, logRec_room s _ hroom, rfl, rfl, rfl, rfl, rfl⟩

/-- The core has noted that its yield point is late. -/
def lateNoted (s : State) (c : Nat) : State := setClv s c { (clu s c).clv with lateLogged := true }

/-- A late yield point is recorded once, while the error ring has room (R192). -/
theorem exec_yieldLate {s : State} {c j : Nat} {y : Job} {g : Gen} (hrun : running s c = some (j, y, g))
    (hgap : yieldGap s g < (clu s c).clv.sinceYield) (hlogged : (clu s c).clv.lateLogged = false)
    (hroom : s.pg.ering.length < Config.errRing) :
    ∃ r, exec (.yieldLate c) s = .next { lateNoted s c with pg := { s.pg with ering := s.pg.ering ++ [r] } } ∧
      r.hdr = recHdr 0x11 0x0F 0 y.part ∧ r.w1 = clHandle s c ∧ r.w2 = w32 y.slot ∧ r.w3 = w32 y.gen ∧
      r.w4 = w32 (clu s c).clv.pc := by
  have hexec : exec (.yieldLate c) s = execYieldLate c s := rfl
  obtain ⟨r, hlog, hrec⟩ := logErr_room (s := lateNoted s c) hroom 0x11 0x0F 0 y.part (clHandle s c) (w32 y.slot) (w32 y.gen)
    (w32 (clu s c).clv.pc) 0
  rw [hexec, execYieldLate, hrun]
  simp only [not_le.2 hgap, hlogged, Bool.false_eq_true, or_self, if_false]
  exact ⟨r, congrArg Host.Outcome.next hlog, hrec⟩

/-! ### Line fills (R185) -/

/-- A line fill finds no line in error. -/
theorem anyUE_eq_none {s : State} {a n : Nat} (h : ∀ l, l ∈ s.mem.ue → ¬ (a < l * 64 + 64 ∧ l * 64 < a + n)) :
    anyUE s a n = none := by
  unfold anyUE
  rw [List.find?_eq_none]
  intro l hl
  rw [decide_eq_true_eq]
  intro hue
  refine h l hue ?_
  unfold linesOf at hl
  split at hl
  · cases hl
  · obtain ⟨i, hi, rfl⟩ := List.mem_map.1 hl
    rw [List.mem_range] at hi
    omega

theorem mem_addLine (ic : List ICLine) (l : ICLine) : l ∈ addLine ic l := by
  unfold addLine
  simp only
  split <;> exact List.mem_cons_self

/-- Bringing lines in changes the cache of one cluster alone. -/
theorem onlyClu_takeLine {s t : State} {c : Nat} {x : Cluster} (h : OnlyClu s t c x) (y : Job) (g : Gen) (l : Nat) :
    ∃ ic, OnlyClu s (takeLine t c y g l) c { x with ic := ic } := by
  unfold takeLine
  split
  · exact ⟨_, h.update fun x => { x with ic := addLine x.ic ⟨y.part, y.slot, y.gen, l, false, false⟩ }⟩
  · exact ⟨x.ic, h⟩

/-- A line that memory gives without error is in the cache once it was brought in. -/
theorem cached_takeLine {s : State} {c off : Nat} {y : Job} {g : Gen} (hlen : off / 256 * 256 < g.len)
    (hue : anyUE s (g.base + off / 256 * 256) 256 = none) : cached (takeLine s c y g (off / 256)) c y off = true := by
  have hcong : cached s c y (off / 256 * 256) = cached s c y off := cached_congr (by omega)
  cases hin : cached s c y off with
  | true =>
    unfold takeLine
    rw [if_neg (by rw [hcong, hin]; simp)]
    exact hin
  | false =>
    unfold takeLine
    rw [if_pos ⟨hlen, by rw [hue]; rfl, by rw [hcong, hin]; rfl⟩, cached_iff]
    exact ⟨_, by simp only [clu_setClu, if_true]; exact mem_addLine .., rfl, rfl, rfl, rfl⟩

/-- The bucket charged for the lines. -/
theorem chargeLines_eq {s : State} {p n : Nat} (hn : n ≤ 2) (h : 8 ≤ (bucket s p).level) :
    ∃ b, chargeLines s p n = some (setBucket s p b) := by
  unfold chargeLines charge
  simp only
  rw [if_pos (by omega)]
  exact ⟨_, rfl⟩

theorem setStall_cached (s : State) (c off n : Nat) (y : Job) :
    cached (setClv s c { (clu s c).clv with stall := n }) c y off = cached s c y off := by
  simp only [cached, clu_setClv, if_true]

/-- A line fill that meets no error. -/
theorem exec_lineFill {s : State} {c j off : Nat} {y : Job} {g : Gen} (hrun : running s c = some (j, y, g))
    (hstall : (clu s c).clv.stall = 5) (hlen : off / 256 * 256 < g.len) (htokens : 8 ≤ (bucket s y.part).level)
    (hue : anyUE s (g.base + off / 256 * 256) 256 = none) :
    ∃ t, exec (.lineFill c off .clean) s = .next t ∧ cached t c y off = true ∧
      (clu t c).clv = { (clu s c).clv with stall := 0 } := by
  obtain ⟨b, hcharge⟩ := chargeLines_eq (s := s) (p := y.part)
    (n := if (off / 256 + 1) * 256 < g.len then 2 else 1) (by split <;> omega) htokens
  set S := setBucket s y.part b
  have hueS : anyUE S (g.base + off / 256 * 256) 256 = none := hue
  obtain ⟨ic, hnext⟩ := onlyClu_takeLine (onlyClu_refl S c) y g (off / 256 + 1)
  obtain ⟨ic', hline⟩ := onlyClu_takeLine hnext y g (off / 256)
  have hueN : anyUE (takeLine S c y g (off / 256 + 1)) (g.base + off / 256 * 256) 256 = none := by
    rw [hnext.1]; exact hueS
  have hexec : exec (.lineFill c off .clean) s = execLineFill c off .clean s := rfl
  refine ⟨_, ?_, (setStall_cached _ c off 0 y).trans (cached_takeLine hlen hueN), ?_⟩
  · rw [hexec, execLineFill, hrun]
    simp only [hstall, not_le.2 hlen, hcharge, hueS, ne_eq, not_true, or_self, if_false, reduceCtorEq]
  · rw [clu_setClv, if_pos rfl, hline.clu_self]; rfl

end Sys2Proof.Machine
end

section
/-! What the end of a member's code leaves (04 R122, 09 R300, 17 R529): its finished-tile queues are empty, its core has ended, and the job is
gone with its last member. -/

namespace Sys2Proof.Machine

open Sys2Proof

/-! ### Steps that leave clusters and jobs alone -/

/-- The clusters and the jobs are as before. -/
def SameWork (s t : State) : Prop := t.cl = s.cl ∧ t.disp.jobs = s.disp.jobs

theorem sameWork_refl (s : State) : SameWork s s := ⟨rfl, rfl⟩

theorem SameWork.trans {s t u : State} (h : SameWork s t) (h' : SameWork t u) : SameWork s u :=
  ⟨h'.1.trans h.1, h'.2.trans h.2⟩

theorem SameWork.clu {s t : State} (h : SameWork s t) (d : Nat) : Machine.clu t d = Machine.clu s d := by
  unfold Machine.clu; rw [h.1]

theorem SameWork.job {s t : State} (h : SameWork s t) (i : Nat) : job? t i = job? s i := by
  unfold job?; rw [h.2]

theorem HostOnly.sameWork {s t : State} (h : HostOnly s t) : SameWork s t := by
  obtain ⟨_, _, _, rfl⟩ := h; exact ⟨rfl, rfl⟩

theorem sameWork_foldl {α : Type} {f : State → α → State} (h : ∀ t a, SameWork t (f t a)) (l : List α) (s : State) :
    SameWork s (l.foldl f s) :=
  List.foldlRecOn l f (sameWork_refl s) fun t ht a _ => ht.trans (h t a)

theorem sameWork_setRg (s : State) (r i sel : Nat) (v : Word) : SameWork s (setRg s r i sel v) := ⟨rfl, rfl⟩

theorem sameWork_raise (s : State) (c i b : Nat) : SameWork s (raise s c i b) := ⟨raise_cl .., by rw [raise_disp]⟩

/-- A handle that goes back changes pods, books and records (R736). -/
theorem sameWork_deliver (s : State) (p : Nat) (h : BitVec 128) (src : Nat) (held : Bool) : SameWork s (deliver s p h src held) := by
  have hbook (t : State) (r : Nat) (d : Int) : SameWork t (book t r p d) := sameWork_setRg ..
  have hput (t : State) (n : Nat) : SameWork t (podPut t n h) := ⟨rfl, rfl⟩
  have hflow (t : State) (l : List (BitVec 128 × Nat)) : SameWork t (setOverflow t p l) := ⟨rfl, rfl⟩
  have hlog (t : State) (w1 w2 w3 w4 w5 : Word) : SameWork t (logErr t 0x1A 0x10 0 p w1 w2 w3 w4 w5) :=
    ⟨logErr_cl .., by rw [logErr_disp]⟩
  have hmoved : SameWork s (if hHole h = true ∨ (!held) = true then s
      else book (book s PODQ_PART_HELD p (-1)) PODQ_PART_INPODS p 1) := by
    split
    · exact sameWork_refl s
    · exact (hbook ..).trans (hbook ..)
  unfold deliver
  simp only
  split
  · exact hmoved.trans (hput ..)
  · split
    · exact hmoved.trans (hflow ..)
    · refine SameWork.trans ?_ ((hlog ..).trans (sameWork_raise ..))
      split
      · exact sameWork_refl s
      · exact (hbook ..).trans (hbook ..)

theorem sameWork_returnHeld (p : Nat) (l : List Held) (s : State) : SameWork s (returnHeld s p l) := by
  induction l generalizing s with
  | nil => exact sameWork_refl s
  | cons h l ih => exact (sameWork_deliver ..).trans (ih _)

theorem sameWork_askVolts (s : State) : SameWork s (askVolts s) := by
  unfold askVolts
  simp only
  split
  · exact ⟨rfl, rfl⟩
  · split <;> exact ⟨rfl, rfl⟩

/-- A job boundary of a cluster changes registers, units and power alone. -/
theorem sameWork_jobBoundary (s : State) (c : Nat) : SameWork s (jobBoundary s c) := by
  have hstep : SameWork s (stepBoundary s c) := by
    unfold stepBoundary
    split
    · exact sameWork_refl s
    · split
      · exact sameWork_refl s
      · split
        · exact sameWork_refl s
        · refine SameWork.trans ?_ (sameWork_askVolts _)
          split <;> exact ⟨rfl, rfl⟩
  unfold jobBoundary
  simp only
  split
  · exact hstep
  · exact hstep.trans ⟨rfl, rfl⟩

/-! ### Removing a job (R300, R529) -/

/-- Finished-tile queues are as before, and a core that had ended stays so. -/
def CoresKept (s t : State) : Prop :=
  ∀ d, (clu t d).ftq = (clu s d).ftq ∧ ((clu s d).clv.ended = true → (clu t d).clv.ended = true)

theorem CoresKept.trans {s t u : State} (h : CoresKept s t) (h' : CoresKept t u) : CoresKept s u :=
  fun d => ⟨(h' d).1.trans (h d).1, fun he => (h' d).2 ((h d).2 he)⟩

theorem SameWork.coresKept {s t : State} (h : SameWork s t) : CoresKept s t := fun d => by
  rw [h.clu]; exact ⟨rfl, id⟩

theorem coresKept_haltCore (s : State) (c : Nat) : CoresKept s (haltCore s c) := fun d => by
  unfold haltCore
  rw [clu_setClu]
  split
  · rename_i hd; rw [hd]; exact ⟨rfl, fun _ => rfl⟩
  · exact ⟨rfl, id⟩

/-- Clusters that run job `j`. -/
def runClusters (s : State) (j : Nat) (x : Job) : List Nat :=
  (physUnits s x ++ mapUnits s x).eraseDups.filter fun c => decide ((clu s c).job = some j)

/-- The job is gone, and its clusters have halted. -/
def jobRemoved (s : State) (j : Nat) (x : Job) : State :=
  setJob ((runClusters s j x).foldl haltCore (dropSpill (dropWaits (returnHeld s x.part x.held) j (runClusters s j x)) j)) j none

/-- The area that it held is free. -/
def areaReleased (s : State) (x : Job) : State :=
  { s with disp := { s.disp with
    spillUsed := tsetD 0 s.disp.spillUsed x.part (tgetD 0 s.disp.spillUsed x.part - x.areaUsed) } }

/-- A late job is counted, and a slot job is handed to the radio pipeline. -/
def jobNoted (s : State) (j : Nat) (x : Job) : State :=
  let s := if x.late then satRg s SYS_LATE_CNT 0 x.part 1 else s
  match x.inst with
  | some n => { s with radio := { s.radio with rx := s.radio.rx ++ [⟨j, x.part, n, x.marks, x.causes, s.tmu.ticks⟩] } }
  | none => s

theorem closeJob_eq (s : State) (j : Nat) (x : Job) (status : Nat) (mark : Bool) : closeJob s j x status mark =
    (runClusters s j x).foldl jobBoundary (releaseGens (endRec (itemRecs (jobNoted (areaReleased (jobRemoved s j x) x) j x) x
      mark x.open) x status (match x.inst with | some n => w32 n | none => 0))) := rfl

theorem sameWork_jobNoted (s : State) (j : Nat) (x : Job) : SameWork s (jobNoted s j x) := by
  have hlate : SameWork s (if x.late then satRg s SYS_LATE_CNT 0 x.part 1 else s) := by
    split
    · exact ⟨rfl, rfl⟩
    · exact sameWork_refl s
  unfold jobNoted
  simp only
  split
  · exact hlate.trans ⟨rfl, rfl⟩
  · exact hlate

theorem sameWork_closeJob_removed (s : State) (j : Nat) (x : Job) (status : Nat) (mark : Bool) :
    SameWork (jobRemoved s j x) (closeJob s j x status mark) := by
  rw [closeJob_eq]
  have harea : SameWork (jobRemoved s j x) (areaReleased (jobRemoved s j x) x) := ⟨rfl, rfl⟩
  have hgens (t : State) : SameWork t (releaseGens t) := ⟨rfl, rfl⟩
  exact ((((harea.trans (sameWork_jobNoted ..)).trans (itemRecs_hostOnly ..).sameWork).trans
    (endRec_hostOnly ..).sameWork).trans (hgens _)).trans (sameWork_foldl sameWork_jobBoundary ..)

theorem coresKept_jobRemoved (s : State) (j : Nat) (x : Job) : CoresKept s (jobRemoved s j x) := by
  have hwaits (t : State) (cs : List Nat) : SameWork t (dropSpill (dropWaits t j cs) j) := ⟨rfl, rfl⟩
  have hset (t : State) : CoresKept t (setJob t j none) := fun d => by rw [clu_setJob]; exact ⟨rfl, id⟩
  have hhalt (t : State) : CoresKept t ((runClusters s j x).foldl haltCore t) :=
    List.foldlRecOn _ haltCore (sameWork_refl t).coresKept fun u hu c _ => hu.trans (coresKept_haltCore u c)
  have hback := (sameWork_returnHeld x.part x.held s).trans (hwaits _ (runClusters s j x))
  exact (hback.coresKept.trans (hhalt _)).trans (hset _)

theorem job_closeJob (s : State) (j : Nat) (x : Job) (status : Nat) (mark : Bool) :
    job? (closeJob s j x status mark) j = none := by
  rw [(sameWork_closeJob_removed ..).job, jobRemoved, job_setJob, if_pos rfl]

theorem coresKept_closeJob (s : State) (j : Nat) (x : Job) (status : Nat) (mark : Bool) :
    CoresKept s (closeJob s j x status mark) :=
  CoresKept.trans (coresKept_jobRemoved s j x) (sameWork_closeJob_removed ..).coresKept

/-! ### The end of a member's code (R122) -/

/-- The units and hand-overs are as before, so are the cores, and job `j` differs in its marks alone. -/
structure Discards (s t : State) (j : Nat) : Prop where
  units : t.units = s.units
  safe : t.safe = s.safe
  cores : ∀ d, (clu t d).clv = (clu s d).clv
  jobs : ∀ x, job? s j = some x → ∃ x', job? t j = some x' ∧ SameButMarks x x'

theorem discards_refl (s : State) (j : Nat) : Discards s s j :=
  ⟨rfl, rfl, fun _ => rfl, fun x hx => ⟨x, hx, rfl⟩⟩

theorem Discards.trans {s t u : State} {j : Nat} (h : Discards s t j) (h' : Discards t u j) : Discards s u j := by
  refine ⟨h'.units.trans h.units, h'.safe.trans h.safe, fun d => (h'.cores d).trans (h.cores d), fun x hx => ?_⟩
  obtain ⟨x', hx', hsame⟩ := h.jobs x hx
  obtain ⟨x'', hx'', hsame'⟩ := h'.jobs x' hx'
  exact ⟨x'', hx'', hsame.trans hsame'⟩

/-- Discarding empties the queue of one cluster. -/
theorem discardFtq_ftq (s : State) (j c d : Nat) :
    (clu (discardFtq s j c) d).ftq = if d = c then [] else (clu s d).ftq := by
  unfold discardFtq
  simp only
  split
  · split
    · rename_i hq hd; rw [hd]; exact hq
    · rfl
  · rw [clu_modJob, clu_raise, clu_setClu]
    split
    · rfl
    · rfl

theorem discards_discardFtq (s : State) (j c : Nat) : Discards s (discardFtq s j c) j := by
  unfold discardFtq
  simp only
  split
  · exact discards_refl s j
  · refine ⟨by simp, by simp, fun d => ?_, fun x hx => ⟨x.markAll 2 x.open, ?_, markAll_same ..⟩⟩
    · rw [clu_modJob, clu_raise, clu_setClu]
      split
      · rename_i hd; rw [hd]
      · rfl
    · rw [job_modJob, if_pos rfl, job_raise, job_setClu, satRg, job_setRg, hx]; rfl

/-- The finished-tile queues of the clusters `l` are discarded. -/
def ftqsDiscarded (s : State) (j : Nat) (l : List Nat) : State := l.foldl (fun s h => discardFtq s j h) s

theorem discards_ftqsDiscarded (s : State) (j : Nat) (l : List Nat) : Discards s (ftqsDiscarded s j l) j :=
  List.foldlRecOn (motive := fun t => Discards s t j) l _ (discards_refl s j) fun t ht h _ => ht.trans (discards_discardFtq t j h)

theorem ftq_ftqsDiscarded {s : State} {j h : Nat} {l : List Nat} (hh : h ∈ l) : (clu (ftqsDiscarded s j l) h).ftq = [] :=
  foldl_reaches (fun _ => True) (fun t => (clu t h).ftq = []) (fun _ _ _ _ => trivial)
    (fun t _ => by rw [discardFtq_ftq, if_pos rfl])
    (fun t ht b _ => by rw [discardFtq_ftq, ht, ite_self]) trivial hh

/-- The core of member `c` has ended. -/
def coreEnded (s : State) (c j : Nat) : State :=
  let t := ftqsDiscarded s j (halves s c)
  setClv t c { (clu t c).clv with ended := true, stall := 0 }

theorem memberEnd_eq {s : State} {c j : Nat} {x : Job} (hx : job? (coreEnded s c j) j = some x) : memberEnd s c j =
    if (members (coreEnded s c j) x).all (fun m => (clu (coreEnded s c j) m).clv.ended) then closeJob (coreEnded s c j) j x 0 false
    else coreEnded s c j := by
  have heq : memberEnd s c j = (match job? (coreEnded s c j) j with
      | none => coreEnded s c j
      | some x => if (members (coreEnded s c j) x).all (fun m => (clu (coreEnded s c j) m).clv.ended)
        then finishJob (coreEnded s c j) j else coreEnded s c j) := rfl
  rw [heq, hx]
  simp only [finishJob, hx]

theorem leadOf_congr {s t : State} (hunits : t.units = s.units) (hsafe : t.safe = s.safe) (c : Nat) :
    cherry t c = cherry s c ∧ leadOf t c = leadOf s c := by
  have hphys (l : Nat) : physOf t l = physOf s l := by unfold physOf; rw [hunits]
  have hlog : logOf t c = logOf s c := by unfold logOf; simp only [hphys, hsafe]
  have hcherry : cherry t c = cherry s c := by unfold cherry pairJoined; rw [hlog, hunits]
  exact ⟨hcherry, by unfold leadOf; rw [hcherry]⟩

theorem halves_congr {s t : State} {c : Nat} (hunits : t.units = s.units) (hsafe : t.safe = s.safe) : halves t c = halves s c := by
  obtain ⟨hcherry, hlead⟩ := leadOf_congr hunits hsafe c
  unfold halves
  rw [hcherry, hlead]

theorem members_congr {s t : State} {x z : Job} (hunits : t.units = s.units) (hsafe : t.safe = s.safe)
    (hu : z.units = x.units) (hp : z.phys = x.phys) : members t z = members s x := by
  have hphys (l : Nat) : physOf t l = physOf s l := by unfold physOf; rw [hunits]
  have hz : physUnits t z = physUnits s x := by unfold physUnits; rw [hu, hp, funext hphys]
  unfold members
  rw [hz]
  simp only [(leadOf_congr hunits hsafe _).2]

/-- What the end of a member's code leaves, said once. -/
theorem memberEnd_spec {s : State} {c j : Nat} {y : Job} (hy : job? s j = some y) :
    (clu (memberEnd s c j) c).clv.ended = true ∧ (∀ h ∈ halves s c, (clu (memberEnd s c j) h).ftq = []) ∧
      ((∀ m ∈ members s y, m ≠ c → (clu s m).clv.ended = true) → job? (memberEnd s c j) j = none) ∧
      ∀ m ∈ members s y, m ≠ c → (clu s m).clv.ended = false →
        ∃ y', job? (memberEnd s c j) j = some y' ∧ y'.ran = y.ran := by
  obtain ⟨hunits, hsafe, hcores, hjobs⟩ := discards_ftqsDiscarded s j (halves s c)
  obtain ⟨x, hx, hsame⟩ := hjobs y hy
  have hxE : job? (coreEnded s c j) j = some x := by rw [coreEnded, job_setClv]; exact hx
  have hmem : members (coreEnded s c j) x = members s y := members_congr hunits hsafe (by rw [hsame]) (by rw [hsame])
  have hended : (clu (coreEnded s c j) c).clv.ended = true := by rw [coreEnded, clu_setClv, if_pos rfl]
  have hother (m : Nat) (hm : m ≠ c) : (clu (coreEnded s c j) m).clv = (clu s m).clv := by
    rw [coreEnded, clu_setClv, if_neg hm, hcores]
  have hftq (h : Nat) (hh : h ∈ halves s c) : (clu (coreEnded s c j) h).ftq = [] := by
    rw [coreEnded, clu_setClv]
    split
    · rename_i hc; subst hc; exact ftq_ftqsDiscarded hh
    · exact ftq_ftqsDiscarded hh
  rw [memberEnd_eq hxE, hmem]
  by_cases hall : (members s y).all (fun m => (clu (coreEnded s c j) m).clv.ended) = true
  · rw [if_pos hall]
    have hkept := coresKept_closeJob (coreEnded s c j) j x 0 false
    refine ⟨(hkept c).2 hended, fun h hh => (hkept h).1.trans (hftq h hh), fun _ => job_closeJob .., fun m hm hne hrun => ?_⟩
    have hend := List.all_eq_true.1 hall m hm
    rw [hother m hne, hrun] at hend
    cases hend
  · rw [if_neg hall]
    refine ⟨hended, hftq, fun hrest => absurd (List.all_eq_true.2 fun m hm => ?_) hall, fun _ _ _ _ => ⟨x, hxE, by rw [hsame]⟩⟩
    by_cases hne : m = c
    · rw [hne]; exact hended
    · rw [hother m hne]; exact hrest m hm hne

/-- The member's work is done in the state in which the instruction acts as well. -/
theorem outstanding_of_onlyClu {s S : State} {c j : Nat} {ic : List ICLine} {k : Clv}
    (h : OnlyClu s S c { clu s c with ic := ic, clv := k }) : outstanding S c j = outstanding s c j := by
  have hhalves : halves S c = halves s c := by
    unfold halves; rw [cherry_of_onlyClu h, leadOf_of_onlyClu h]
  have hclu (d : Nat) : (clu S d).mxq = (clu s d).mxq ∧ (clu S d).vxq = (clu s d).vxq ∧ (clu S d).tiles = (clu s d).tiles ∧
      (clu S d).ftq = (clu s d).ftq := by
    rw [h.2 d]
    split
    · rename_i hd; rw [hd]; exact ⟨rfl, rfl, rfl, rfl⟩
    · exact ⟨rfl, rfl, rfl, rfl⟩
  have heng : S.eng = s.eng := by rw [h.1]
  unfold outstanding
  rw [hhalves, heng]
  congr 1
  funext d
  obtain ⟨hmx, hvx, htiles, hftq⟩ := hclu d
  simp only [hmx, hvx, htiles, hftq]

/-- END of a member whose work is done ends its code, after which the dispatcher chooses again. -/
theorem exec_endJob {s : State} {c j : Nat} {y : Job} {g : Gen} (h : CloveReady s c 4 j y g) (hdone : outstanding s c j = false) :
    ∃ t, exec (.endJob c) s = .next (reconsider (memberEnd t c j)) ∧ CloveFrame s t c 1 j (clu s c) := by
  obtain ⟨hjob, -⟩ := running_job h.1
  obtain ⟨ic, hS⟩ := body_state s c (clu s c).clv.pc y
  set S := landLoads (touchLine s c y (clu s c).clv.pc) c with hS'
  have hSdef : landLoads (touchLine s c y (clu s c).clv.pc) c = S := hS'.symm
  have hjobS : jobOn S c = j := by unfold jobOn; rw [hS.clu_self]; simp only [hjob]; rfl
  have houtS : outstanding S c j = false := (outstanding_of_onlyClu hS).trans hdone
  refine ⟨spend S c 1, ?_, cloveFrame_spend (x := { clu s c with ic := ic }) hS hjob⟩
  have hrun : exec (.endJob c) s = execEndJob c s := rfl
  rw [hrun, execEndJob, cloveRun_eq h]
  simp only [hSdef, hjobS, houtS, Bool.false_eq_true, if_false]

/-- What an instruction's frame leaves of the units. -/
theorem units_of_cloveFrame {s t : State} {c n j : Nat} {x : Cluster} (h : CloveFrame s t c n j x) :
    t.units = s.units ∧ t.safe = s.safe := by
  obtain ⟨hframe, -⟩ := h
  rw [hframe]; exact ⟨rfl, rfl⟩

end Sys2Proof.Machine
end

section

namespace Sys2Proof.Proofs

open Sys2Proof Sys2Proof.Machine

theorem yieldPassesAndRtiReturns : YieldPassesAndRtiReturns := by
  unfold YieldPassesAndRtiReturns
  intro s c j y g h hphase
  refine ⟨fun idx off hentry hpc hreq => ?_, fun pc cst hshadow => exec_rti h hshadow⟩
  obtain ⟨t, hexec, hnext⟩ := exec_yieldPoint_passes h hphase hentry hpc hreq
  exact ⟨t, _, hexec, hnext⟩

theorem interruptsEnterTheirHandler : InterruptsEnterTheirHandler := by
  unfold InterruptsEnterTheirHandler
  intro s c j y g hrun k
  refine ⟨fun i handler hi hshadow hdelay hloads hreps hstall hirq hen hfirst hhandler => ?_, fun hgap hlogged hroom => ?_⟩
  · refine ⟨_, exec_interruptEntry hrun hshadow hdelay hloads hreps hstall hi (takeable_eq hi hirq hen hfirst) hhandler,
      rfl, fun d hd => ?_, ?_⟩
    · rw [clu_setClv, if_neg hd]
    · rw [clu_setClv, if_pos rfl]; rfl
  · obtain ⟨r, hexec, hhdr, hunit, hslot, hgen, hoff⟩ := exec_yieldLate hrun hgap hlogged hroom
    have hcore : (clu (lateNoted s c) c).clv = { (clu s c).clv with lateLogged := true } := by
      rw [lateNoted, clu_setClv, if_pos rfl]
    have hlate : (clu (lateNoted s c) c).clv.lateLogged = true := by rw [hcore]
    have hpc : (clu (lateNoted s c) c).clv.pc = (clu s c).clv.pc := by rw [hcore]
    exact ⟨_, hexec, fun _ => ⟨r, rfl, hhdr, hunit, hslot, hgen, hoff⟩, hlate, hpc, fun _ => rfl, fun _ _ _ => rfl⟩

theorem endsAndLineFillsComplete : EndsAndLineFillsComplete := by
  unfold EndsAndLineFillsComplete
  intro s c j y g
  refine ⟨fun h hdone => ?_, fun off hrun hstall hlen htokens hue => ?_⟩
  · obtain ⟨t, hexec, hframe⟩ := exec_endJob h hdone
    obtain ⟨-, hy⟩ := running_job h.1
    obtain ⟨hunits, hsafe⟩ := units_of_cloveFrame hframe
    obtain ⟨hended, hftq, hlast, hrest⟩ := memberEnd_spec (c := c) (job_of_cloveFrame hframe hy)
    have hmem : members t { y with ran := y.ran + 1 } = members s y := members_congr hunits hsafe rfl rfl
    have hhalves : halves t c = halves s c := halves_congr hunits hsafe
    have hother (m : Nat) (hm : m ≠ c) : clu t m = clu s m := hframe.2.1 m hm
    rw [hmem] at hlast hrest
    rw [hhalves] at hftq
    exact ⟨_, hexec, hended, hftq, fun hall => hlast fun m hm hne => by rw [hother m hne]; exact hall m hm hne,
      fun m hm hne hrun => hrest m hm hne (by rw [hother m hne]; exact hrun)⟩
  · obtain ⟨t, hexec, hcached, hclv⟩ := exec_lineFill hrun hstall hlen htokens (anyUE_eq_none fun l hl => by
      have := hue l hl
      omega)
    exact ⟨t, hexec, hcached, by rw [hclv], by rw [hclv], by rw [hclv]⟩

/-- Settles O9: the core passes the yield point by one retirement, and every other row changes what its lemma says. -/
theorem yieldsInterruptsAndEnds : Obligations.YieldsInterruptsAndEnds :=
  ⟨yieldPassesAndRtiReturns, interruptsEnterTheirHandler, endsAndLineFillsComplete⟩

end Sys2Proof.Proofs
end

section
/-! A copy engine takes up its next descriptor (07 R209 to R219), passes it or skips it (06 R200 to R203). -/

namespace Sys2Proof.Machine

open Sys2Proof

/-! ### One descriptor of an engine's queue changes -/

@[simp] theorem engOf_setEng (s : State) (e k : Nat) (x : CopyEng) : engOf (setEng s e x) k = if k = e then x else engOf s k := by
  simp only [engOf, setEng, tgetD_tsetD]

/-- `t` is `s` with the descriptor `d` of engine `e` changed by `f`. -/
def TakenUp (s t : State) (e : Nat) (d : CopyDesc) (f : CopyDesc → CopyDesc) : Prop :=
  t = { s with eng := t.eng } ∧ (∀ k, k ≠ e → engOf t k = engOf s k) ∧
    engOf t e = { engOf s e with q := stepped (engOf s e).q d f }

theorem takenUp_modDesc (s : State) (e : Nat) (d : CopyDesc) (f : CopyDesc → CopyDesc) :
    TakenUp s (modDesc s e d.serial f) e d f := by
  unfold modDesc
  exact ⟨rfl, fun k hk => by rw [engOf_setEng, if_neg hk], by rw [engOf_setEng, if_pos rfl]; rfl⟩

/-! ### The row of the next descriptor (R212, R213, R217, R219, R229) -/

section
variable {s : State} {e op : Nat} {pre : List CopyDesc} {d : CopyDesc} {x : Job}

/-- The row `op` carries the next descriptor out: the descriptor `d` of job `x`, after the descriptors `pre`. -/
structure NextOfRow (s : State) (e op : Nat) (pre : List CopyDesc) (d : CopyDesc) (x : Job) : Prop where
  next : nextDesc [] (engOf s e).q = some (pre, d)
  job : job? s d.ins.job = some x
  opcode : opcodeOf d.ins.words = op
  row : op = 0x20 ∨ op = 0x21 ∨ op = 0x22

theorem NextOfRow.carried (h : NextOfRow s e op pre d x) :
    ¬ (isPod d.ins.words = true ∨ (opcodeOf d.ins.words ≠ op ∧ 0x20 ≤ opcodeOf d.ins.words ∧ opcodeOf d.ins.words ≤ 0x22)) := by
  have hrow := h.row
  simp only [isPod, h.opcode, decide_eq_true_eq]
  omega

theorem NextOfRow.isFill_iff (h : NextOfRow s e op pre d x) : isFill d.ins.words = true ↔ op = 0x21 := by
  rw [isFill, h.opcode, decide_eq_true_eq]

/-- What the row gives a descriptor that it makes ready to run. -/
def madeReady (s : State) (e : Nat) (x : Job) (src dst : Nat × Nat) (q : CopyDesc) : CopyDesc :=
  { q with started := true, src := src, dst := dst, part := engPart s e x, units := physUnits s x, gen := (x.part, x.slot, x.gen) }

theorem takeUp_ready (h : NextOfRow s e op pre d x) {src dst : Nat × Nat} (hgood : copyBad s e x d.ins.words = none)
    (hdst : spaceBase s e x d.ins.words (copyDstSp d.ins.words) (wd d.ins.words 3) (wd d.ins.words 4) = some dst)
    (hsrc : if op = 0x21 then src = (0, 0)
      else spaceBase s e x d.ins.words (copySrcSp d.ins.words) (wd d.ins.words 1) (wd d.ins.words 2) = some src)
    (hclear : hazard pre ((if op = 0x21 then [] else (srcRanges d.ins.words src.2).map (fun r => (src.1, r))) ++
      writesOf { d with dst := dst }) = false)
    (hafter : afterMet s e d = true) : takeUp s e op = modDesc s e d.serial (madeReady s e x src dst) := by
  unfold takeUp
  simp only [h.next, if_neg h.carried, h.job, hgood, hdst, h.isFill_iff]
  by_cases hfill : op = 0x21
  · rw [if_pos hfill] at hsrc hclear
    subst hsrc
    simp only [if_pos hfill, hclear, hafter, Bool.not_true, Bool.false_eq_true, or_self, if_false]
    rfl
  · rw [if_neg hfill] at hsrc hclear
    simp only [if_neg hfill, hsrc, hclear, hafter, Bool.not_true, Bool.false_eq_true, or_self, if_false]
    rfl

/-- A HALO whose neighbour lies beyond the grid has no destination. -/
theorem spaceBase_beyond {ws : List Word} {lo hi : Word} (h : haloUnit s e x ws = none) : spaceBase s e x ws 9 lo hi = none := by
  simp [spaceBase, h]

theorem takeUp_silent (h : NextOfRow s e op pre d x) (hgood : copyBad s e x d.ins.words = none)
    (hspace : copyDstSp d.ins.words = 9) (hbeyond : haloUnit s e x d.ins.words = none) :
    takeUp s e op = modDesc s e d.serial (fun q => { q with started := true, silent := true }) := by
  unfold takeUp
  simp only [h.next, if_neg h.carried, h.job, hgood, hspace, spaceBase_beyond hbeyond]
  cases (if isFill d.ins.words = true then some (0, 0)
    else spaceBase s e x d.ins.words (copySrcSp d.ins.words) (wd d.ins.words 1) (wd d.ins.words 2)) <;> rfl

theorem takeUp_skips (h : NextOfRow s e op pre d x) {r : Nat} (hbad : copyBad s e x d.ins.words = some r) :
    takeUp s e op = skipDesc s e d r 3 := by
  unfold takeUp
  simp only [h.next, if_neg h.carried, h.job, hbad]

end

/-! ### A descriptor is skipped (R201 to R203, R213) -/

/-- Items marked failed by an engine: the job's marks change, and FAULT may be raised on a core. -/
theorem markItems_failed_eq {s : State} {j : Nat} {y : Job} (hy : job? s j = some y) (idxs : List Nat) (c : Option Nat) :
    ∃ y' cl, markItems s j 2 idxs c = { setJob s j (some y') with cl := cl } ∧
      ∀ i, i ∈ idxs → i < y.nitems → 2 ≤ tgetD 0 y'.marks i := by
  obtain ⟨y', hmark, -, hall⟩ := markItems_spec s j 2 idxs y hy
  cases c with
  | none => exact ⟨y', s.cl, hmark, hall⟩
  | some c =>
    have hfault : markItems s j 2 idxs (some c) =
        if y.fresh idxs > 0 then raiseIrq (markItems s j 2 idxs none) (leadOf (markItems s j 2 idxs none) c) 3
        else markItems s j 2 idxs none := by
      unfold markItems
      simp only [hy, if_true, true_and]
    rw [hfault, hmark]
    split
    · obtain ⟨v, h⟩ := onlyClu_raiseIrq (setJob s j (some y')) (leadOf (setJob s j (some y')) c) 3
      exact ⟨y', _, h.1, hall⟩
    · exact ⟨y', s.cl, rfl, hall⟩

/-- A skip of a descriptor logs one record and marks its items failed. -/
theorem skipRec_items_eq {s : State} {j : Nat} {y : Job} (hy : job? s j = some y) (reason source : Nat) (unit : Word) (off tag : Nat)
    (idxs : List Nat) (c : Option Nat) : ∃ w y' cl, skipRec s j reason source unit off tag idxs c =
        { setJob (logErr s 0x11 reason source y.part unit (w32 y.slot) (w32 y.gen) (w32 off) w) j (some y') with cl := cl } ∧
      ∀ i, i ∈ idxs → i < y.nitems → 2 ≤ tgetD 0 y'.marks i := by
  unfold skipRec
  simp only [hy]
  obtain ⟨y', cl, hmark, hall⟩ := markItems_failed_eq (s := logErr s 0x11 reason source y.part unit (w32 y.slot) (w32 y.gen)
    (w32 off) (w32 (newlyFailed s j idxs * 2 ^ 16 + tag))) (by rw [job_logErr]; exact hy) idxs c
  exact ⟨_, y', cl, hmark, hall⟩

theorem engPage_code (e : Nat) : 19 ≤ (engPage e).1 := by
  unfold engPage
  split <;> simp

/-- The handle of an engine is formed from its number and the chip's index. -/
theorem engUnit_engEvt (s : State) (e b : Nat) : engUnit (engEvt s e b) e = engUnit s e := by
  have hcode := engPage_code e
  have hdom : rg (engEvt s e b) ILK_DOM_CFG 0 0 = rg s ILK_DOM_CFG 0 0 := by
    rw [engEvt, rg_raise, if_neg (rg_ilkDom_ne (by omega)), if_neg (rg_ilkDom_ne (by omega))]
  unfold engUnit engHandle handle chipIdx
  rw [hdom]

theorem evt_engEvt (s : State) (e : Nat) : bit (engReg (engEvt s e 0) e HDR_EVT) 0 = true := by
  rw [engReg, engEvt, rg_raise, if_pos rfl, bit, BitVec.getLsbD_or]
  simp [bitW]

/-- A descriptor skipped for a reason that is no denial: everything that the skip leaves. -/
theorem skipDesc_spec {s : State} {e : Nat} {d : CopyDesc} {x : Job} {r : Nat} (hjob : job? s d.ins.job = some x) (hr : r ≠ 0x1C) :
    ∃ y, job? (skipDesc s e d r 3) d.ins.job = some y ∧
      (engOf (skipDesc s e d r 3) e).q = stepped (engOf s e).q d (fun q => { q with started := true, skipped := true }) ∧
      (∀ n ∈ copyItems d.ins.words, n < x.nitems → 2 ≤ tgetD 0 y.marks n) ∧
      skipLogged s (skipDesc s e d r 3) x r 3 (engUnit s e) d.ins.off ∧
      bit (engReg (skipDesc s e d r 3) e HDR_EVT) 0 = true ∧ (skipDesc s e d r 3).mem = s.mem ∧
      (skipDesc s e d r 3).pod = s.pod ∧ (skipDesc s e d r 3).sync = s.sync := by
  have hjobE : job? (engEvt s e 0) d.ins.job = some x := by rw [engEvt, job_raise]; exact hjob
  obtain ⟨w, y, cl, hskip, hall⟩ := skipRec_items_eq hjobE r 3 (engUnit s e) d.ins.off (copyTag d.ins.words)
    (copyItems d.ins.words) (if e < 18 then some e else none)
  set L := logErr (engEvt s e 0) 0x11 r 3 x.part (engUnit s e) (w32 x.slot) (w32 x.gen) (w32 d.ins.off) w with hL
  clear_value L
  have heq : skipDesc s e d r 3 = modDesc { setJob L d.ins.job (some y) with cl := cl } e d.serial
      (fun q => { q with started := true, skipped := true }) := by
    unfold skipDesc
    simp only [if_neg hr, engUnit_engEvt, hskip]
  have hering : (engEvt s e 0).pg.ering = s.pg.ering := by rw [engEvt, raise_pg_ering]
  have heng : L.eng = s.eng := by rw [hL, logErr_eng, engEvt, raise_eng]
  have hmem : L.mem = s.mem := by rw [hL, logErr_mem, engEvt, raise_mem]
  have hpod : L.pod = s.pod := by rw [hL, logErr_pod, engEvt, raise_pod]
  have hsync : L.sync = s.sync := by rw [hL, logErr_sync, engEvt, raise_sync]
  have hqueue : engOf { setJob L d.ins.job (some y) with cl := cl } e = engOf s e := by
    unfold engOf; rw [← heng]; rfl
  rw [heq]
  refine ⟨y, ?_, ?_, hall, fun hroom => ?_, ?_, ?_, ?_, ?_⟩
  · exact (job_setJob ..).trans (if_pos rfl)
  · obtain ⟨-, -, hself⟩ := takenUp_modDesc { setJob L d.ins.job (some y) with cl := cl } e d
      (fun q => { q with started := true, skipped := true })
    rw [hself, hqueue]
  · obtain ⟨rec, hlog, hrec⟩ := logErr_room (s := engEvt s e 0) (by rw [hering]; exact hroom) 0x11 r 3 x.part (engUnit s e)
      (w32 x.slot) (w32 x.gen) (w32 d.ins.off) w
    have hpg : L.pg.ering = s.pg.ering ++ [rec] := by rw [hL, hlog, ← hering]
    exact ⟨rec, hpg, hrec⟩
  · have hcode := engPage_code e
    have hreg : engReg L e HDR_EVT = engReg (engEvt s e 0) e HDR_EVT := by
      rw [hL]; exact rg_logErr _ _ _ _ _ _ _ _ _ _ _ _ _ (by omega)
    have hbit := evt_engEvt s e
    rw [← hreg] at hbit
    exact hbit
  · exact hmem
  · exact hpod
  · exact hsync

end Sys2Proof.Machine
end

section

namespace Sys2Proof.Proofs

open Sys2Proof Sys2Proof.Machine

/-- Settles O20: the row of the opcode takes the next descriptor up, by the first of the three outcomes that applies. -/
theorem copyDescriptorsAreTakenUp : Obligations.CopyDescriptorsAreTakenUp := by
  unfold Obligations.CopyDescriptorsAreTakenUp
  intro s e pre d x hnext hjob ws p taken i hi hop
  have hexec : exec i.1 s = .next (takeUp s e i.2) ∧ (i.2 = 0x20 ∨ i.2 = 0x21 ∨ i.2 = 0x22) := by
    simp only [List.mem_cons, List.not_mem_nil, or_false] at hi
    rcases hi with rfl | rfl | rfl <;> exact ⟨rfl, by simp⟩
  obtain ⟨hrun, hrow⟩ := hexec
  have h : NextOfRow s e i.2 pre d x := ⟨hnext, hjob, hop, hrow⟩
  rw [hrun]
  refine ⟨fun src dst hgood hdst hsrc hclear hafter => ?_, fun hgood hspace hbeyond => ?_, fun r hbad hr => ?_⟩
  · exact ⟨_, congrArg _ (takeUp_ready h hgood hdst hsrc hclear hafter), takenUp_modDesc ..⟩
  · exact ⟨_, congrArg _ (takeUp_silent h hgood hspace hbeyond), takenUp_modDesc ..⟩
  · obtain ⟨y, hskip⟩ := skipDesc_spec (e := e) hjob hr
    exact ⟨_, y, congrArg _ (takeUp_skips h hbad), hskip⟩

end Sys2Proof.Proofs
end

section
/-! A host descriptor is answered (17 R525 to R535): the record goes to its ring or behind the staged ones, and the descriptor is gone. -/

namespace Sys2Proof.Machine

open Sys2Proof

/-! ### What a record leaves of the host interface (R532 to R536) -/

/-- Descriptors, receive buffers and messages that wait are as before; rings, staged records and the status line may change. -/
def SameQueues (s t : State) : Prop :=
  t.host.picked = s.host.picked ∧ t.host.rxbufs = s.host.rxbufs ∧ t.host.rxWait = s.host.rxWait

theorem SameQueues.trans {s t u : State} (h : SameQueues s t) (h' : SameQueues t u) : SameQueues s u := by
  obtain ⟨hpicked, hbufs, hwait⟩ := h
  obtain ⟨hpicked', hbufs', hwait'⟩ := h'
  exact ⟨hpicked'.trans hpicked, hbufs'.trans hbufs, hwait'.trans hwait⟩

/-- The status line is written to host memory; rings and staged records stay. -/
theorem writeStatus_queues (s : State) (p : Nat) : SameQueues s (writeStatus s p) ∧
    (writeStatus s p).host.rings = s.host.rings ∧ (writeStatus s p).host.staged = s.host.staged := by
  unfold writeStatus
  simp only
  split
  · exact ⟨⟨rfl, rfl, rfl⟩, rfl, rfl⟩
  · split
    · exact ⟨⟨rfl, rfl, rfl⟩, rfl, rfl⟩
    · exact ⟨⟨rfl, rfl, rfl⟩, rfl, rfl⟩

/-- Without an address no status line is written. -/
theorem writeStatus_of_no_address {s : State} {p : Nat}
    (h : addr64 (rg s HIF_STAT_ADDR_LO p 0) (rg s HIF_STAT_ADDR_HI p 0) = 0) : writeStatus s p = s := by
  unfold writeStatus
  simp only
  split
  · rfl
  · rw [if_pos (Or.inl h)]

theorem ring_setRing (s : State) (p r : Nat) (x : Ring) : ring (setRing s p r x) p r = x := by
  simp only [ring, setRing, tgetD_tsetD, if_true]

/-- A record that has entered its ring, before the status line. -/
def recordPut (s : State) (p r : Nat) (ws : List Word) : State :=
  let x := ring s p r
  let t := (x.tail + 1) % (ringCfg s p r).2.1
  setRing (hostWrite s (addr64 (rg s HIF_CQ_BASE_LO p r) (rg s HIF_CQ_BASE_HI p r) + x.tail * 32)
      (wordsLe (lset ws 0 (setFld (wd ws 0) 0 0 (b2n x.phase))))) p r
    { tail := t, phase := if t = 0 then !x.phase else x.phase, since := x.since + 1, first := some (x.first.getD s.tmu.ticks) }

theorem ringPut_eq (s : State) (p r : Nat) (ws : List Word) : ringPut s p r ws =
    if (ring s p r).since + 1 ≥ (ringCfg s p r).2.2 then sendRing (writeStatus (recordPut s p r ws) p) p r
    else writeStatus (recordPut s p r ws) p := rfl

theorem sendRing_queues (s : State) (p r : Nat) : SameQueues s (sendRing s p r) := ⟨rfl, rfl, rfl⟩

theorem sendRing_ring (s : State) (p r : Nat) : (ring (sendRing s p r) p r).tail = (ring s p r).tail := by
  have h : ring (sendRing s p r) p r = { ring s p r with since := 0, first := none } := ring_setRing s p r _
  rw [h]

theorem ringPut_queues (s : State) (p r : Nat) (ws : List Word) :
    SameQueues s (ringPut s p r ws) ∧ staged (ringPut s p r ws) p = staged s p := by
  obtain ⟨hqueues, -, hstaged⟩ := writeStatus_queues (recordPut s p r ws) p
  have hput : SameQueues s (recordPut s p r ws) := ⟨rfl, rfl, rfl⟩
  rw [ringPut_eq]
  unfold staged
  split
  · exact ⟨(hput.trans hqueues).trans (sendRing_queues ..), congrArg (tgetD [] · p) hstaged⟩
  · exact ⟨hput.trans hqueues, congrArg (tgetD [] · p) hstaged⟩

theorem ringPut_tail (s : State) (p r : Nat) (ws : List Word) :
    (ring (ringPut s p r ws) p r).tail = ((ring s p r).tail + 1) % (ringCfg s p r).2.1 := by
  obtain ⟨-, hrings, -⟩ := writeStatus_queues (recordPut s p r ws) p
  have hring : ring (writeStatus (recordPut s p r ws) p) p r = ring (recordPut s p r ws) p r := by unfold ring; rw [hrings]
  have hput : (ring (recordPut s p r ws) p r).tail = ((ring s p r).tail + 1) % (ringCfg s p r).2.1 := by
    rw [recordPut, ring_setRing]
  rw [ringPut_eq]
  split
  · rw [sendRing_ring, hring, hput]
  · rw [hring, hput]

theorem length_wordsLe (ws : List Word) : (wordsLe ws).length = 4 * ws.length := by
  induction ws with
  | nil => rfl
  | cons w ws ih =>
    have hcons : wordsLe (w :: ws) = wordLe w ++ wordsLe ws := rfl
    have hword : (wordLe w).length = 4 := length_natLe ..
    rw [hcons, List.length_append, hword, ih, List.length_cons]
    omega

theorem length_lset {α : Type} (l : List α) (n : Nat) (v : α) : (lset l n v).length = l.length := by
  induction l generalizing n with
  | nil => rfl
  | cons a l ih =>
    cases n with
    | zero => rfl
    | succ n => rw [lset, List.length_cons, ih, List.length_cons]

/-- A record of eight words is read back from its place, unless the status line was written since. -/
theorem ringPut_read {s : State} {p r : Nat} {ws : List Word} (hlen : ws.length = 8)
    (hstat : addr64 (rg s HIF_STAT_ADDR_LO p 0) (rg s HIF_STAT_ADDR_HI p 0) = 0) :
    hostRead (ringPut s p r ws) (addr64 (rg s HIF_CQ_BASE_LO p r) (rg s HIF_CQ_BASE_HI p r) + (ring s p r).tail * 32) 32 =
      wordsLe (lset ws 0 (setFld (wd ws 0) 0 0 (b2n (ring s p r).phase))) := by
  have hstatus : writeStatus (recordPut s p r ws) p = recordPut s p r ws := writeStatus_of_no_address hstat
  have hmem : (ringPut s p r ws).mem.host = (recordPut s p r ws).mem.host := by
    rw [ringPut_eq, hstatus]
    split
    · rfl
    · rfl
  have h32 : (wordsLe (lset ws 0 (setFld (wd ws 0) 0 0 (b2n (ring s p r).phase)))).length = 32 := by
    rw [length_wordsLe, length_lset, hlen]
  have hread := mread_mwrite 0 s.mem.host (addr64 (rg s HIF_CQ_BASE_LO p r) (rg s HIF_CQ_BASE_HI p r) + (ring s p r).tail * 32)
    (wordsLe (lset ws 0 (setFld (wd ws 0) 0 0 (b2n (ring s p r).phase))))
  rw [h32] at hread
  unfold hostRead
  rw [hmem]
  exact hread

theorem length_mkRec (s : State) (type status flags : Nat) (lo hi : Word) (item : Nat) (d1 d2 : Word) (seq : Nat) :
    (mkRec s type status flags lo hi item d1 d2 seq).length = 8 := rfl

theorem setStaged_queues (s : State) (p : Nat) (l : List (Nat × List Word)) : SameQueues s (setStaged s p l) := ⟨rfl, rfl, rfl⟩

theorem postRec_queues (s : State) (p r : Nat) (ws : List Word) : SameQueues s (postRec s p r ws) := by
  unfold postRec
  split
  · exact setStaged_queues ..
  · exact (ringPut_queues ..).1

/-- A record posted goes behind the staged ones, or into its ring. -/
theorem posted_postRec {s : State} {p r : Nat} {ws : List Word} (hlen : ws.length = 8) : posted s (postRec s p r ws) p r ws := by
  unfold posted postRec
  refine ⟨fun hwait => ?_, fun hgoes => ?_⟩
  · rw [if_pos hwait]
    simp only [staged, setStaged, tgetD_tsetD, if_true]
  · rw [if_neg (by rw [hgoes]; decide)]
    exact ⟨(ringPut_queues ..).2, ringPut_tail .., ringPut_read hlen⟩

/-! ### The descriptor goes (R525, R526) -/

/-- The only descriptor is taken away. -/
theorem dropDesc_single {s : State} {p : Nat} {d : List Word} (h : tgetD [] s.host.picked p = [d]) :
    dropDesc s p = { s with host := { s.host with picked := tsetD [] s.host.picked p [] } } := by
  unfold dropDesc screenAll
  rw [h]
  simp only [List.tail_cons, tgetD_tsetD, if_true, List.length_nil, screen]

/-- The row of its type carries the only descriptor out. -/
theorem hostCmd_single {s : State} {p type : Nat} {d : List Word} (h : hasDesc s p type d) (f : List Word → State → State) :
    hostCmd s p type f = dropDesc (f d s) p := by
  obtain ⟨hpicked, htype⟩ := h
  unfold hostCmd headDesc
  rw [hpicked]
  simp only [List.head?_cons, htype, ne_eq, not_true, if_false]

/-- A record of the descriptor's ring answers it. -/
theorem answered_cmdRec {v : State} {p st : Nat} {d : List Word} {d1 d2 : Word} (h : tgetD [] v.host.picked p = [d]) :
    answered v (dropDesc (cmdRec v p d st d1 d2) p) p d st d1 d2 := by
  have hrec : posted v (cmdRec v p d st d1 d2) p (dring d) (mkRec v 3 st 0 (wd d 1) (wd d 2) 0 d1 d2 (dseq d)) :=
    posted_postRec (length_mkRec ..)
  obtain ⟨hpicked, -, -⟩ := postRec_queues v p (dring d) (mkRec v 3 st 0 (wd d 1) (wd d 2) 0 d1 d2 (dseq d))
  obtain ⟨host, mem, out, hframe⟩ := cmdRec_hostOnly v p d st d1 d2
  have hsingle : tgetD [] (cmdRec v p d st d1 d2).host.picked p = [d] := by rw [cmdRec, hpicked]; exact h
  rw [dropDesc_single hsingle]
  refine ⟨?_, ?_, hrec⟩
  · unfold butHost
    rw [hframe]
  · simp only [tgetD_tsetD, if_true]

/-- A malformed descriptor raises the event of R542 and is answered with MALFORMED (R525). -/
theorem answered_badDesc {s : State} {p : Nat} {d : List Word} (h : tgetD [] s.host.picked p = [d]) :
    ∃ v, v = { s with pg := v.pg, out := v.out } ∧ evtBit v 7 p 0 = true ∧
      answered v (dropDesc (badDesc s p d 0x20) p) p d 0x20 0 0 := by
  obtain ⟨o, a, hraise⟩ := raise_eq s 7 p 0
  refine ⟨raise s 7 p 0, by rw [hraise], ?_, ?_⟩
  · rw [evtBit, bit, rg_raise, if_pos rfl, BitVec.getLsbD_or]
    simp [bitW]
  · have hbad : badDesc s p d 0x20 = cmdRec (raise s 7 p 0) p d 0x20 0 0 := rfl
    rw [hbad]
    exact answered_cmdRec (by rw [raise_host]; exact h)

end Sys2Proof.Machine
end

section
/-! The host's template and image descriptors (06 R177 to R184; 17 R530, R531). -/

namespace Sys2Proof.Machine

open Sys2Proof

/-! ### Malformed descriptors (R525) -/

theorem tplOk_dtypeOk {d : List Word} (h : dtypeOk d = false) : tplOk d = false := by
  unfold tplOk
  simp only [h, Bool.false_and]

/-- Every row answers a descriptor whose reserved fields are not zero with MALFORMED. -/
theorem exec_malformed {s : State} {p : Nat} {d : List Word} (h : dtypeOk d = false) :
    (hasDesc s p 2 d → exec (.tplReg p) s = .next (dropDesc (badDesc s p d 0x20) p)) ∧
    (hasDesc s p 3 d → exec (.tplDel p) s = .next (dropDesc (badDesc s p d 0x20) p)) ∧
    (hasDesc s p 0x10 d → exec (.imageReg p) s = .next (dropDesc (badDesc s p d 0x20) p)) ∧
    (hasDesc s p 0x11 d → exec (.imageRel p) s = .next (dropDesc (badDesc s p d 0x20) p)) ∧
    (hasDesc s p 0x31 d → exec (.rxbuf p) s = .next (dropDesc (badDesc s p d 0x20) p)) := by
  have htpl := tplOk_dtypeOk h
  refine ⟨fun hd => ?_, fun hd => ?_, fun hd => ?_, fun hd => ?_, fun hd => ?_⟩
  · have hexec : exec (.tplReg p) s = execTplReg p s := rfl
    rw [hexec, execTplReg, hostCmd_single hd]
    simp only [htpl, Bool.not_false, if_true]
  · have hexec : exec (.tplDel p) s = execTplDel p s := rfl
    rw [hexec, execTplDel, hostCmd_single hd]
    simp only [h, Bool.not_false, Bool.true_or, if_true]
  · have hexec : exec (.imageReg p) s = execImageReg p s := rfl
    rw [hexec, execImageReg, hostCmd_single hd]
    simp only [h, Bool.not_false, Bool.true_or, if_true]
  · have hexec : exec (.imageRel p) s = execImageRel p s := rfl
    rw [hexec, execImageRel, hostCmd_single hd]
    simp only [h, Bool.not_false, Bool.true_or, if_true]
  · have hexec : exec (.rxbuf p) s = execRxbuf p s := rfl
    rw [hexec, execRxbuf, hostCmd_single hd]
    simp only [h, Bool.not_false, Bool.true_or, if_true]

/-! ### Templates (R530, R531) -/

/-- The change that a template descriptor asks for. -/
def tplAsked (s : State) (p i : Nat) (body : Option Tpl) : TplChange :=
  { part := p, idx := i, body := body, since := tplSlot s p (match body, tplOf s p i with
      | some b, _ => b.words
      | none, some b => b.words
      | none, none => []) }

theorem askTpl_eq (s : State) (p i : Nat) (body : Option Tpl) : askTpl s p i body = { s with disp := { s.disp with
    tplTodo := s.disp.tplTodo.filter (fun t => !decide (t.part = p ∧ t.idx = i)) ++ [tplAsked s p i body] } } := rfl

/-- A template has one change that waits: the latest asked for. -/
theorem mem_tplTodo_askTpl (s : State) (p i : Nat) (body : Option Tpl) (q : TplChange) :
    q ∈ (askTpl s p i body).disp.tplTodo ↔
      q = tplAsked s p i body ∨ q ∈ s.disp.tplTodo ∧ (q.part, q.idx) ≠ (p, i) := by
  rw [askTpl_eq]
  simp only [List.mem_append, List.mem_filter, List.mem_singleton, Bool.not_eq_true', decide_eq_false_iff_not, ne_eq,
    Prod.mk.injEq]
  exact or_comm

theorem exec_tplReg {s : State} {p : Nat} {d : List Word} (h : hasDesc s p 2 d) (hgood : tplOk d = true) :
    exec (.tplReg p) s = .next (dropDesc (cmdRec (askTpl s p (fld (wd d 3) 31 24) (some ⟨d⟩)) p d 0 0 0) p) := by
  have hexec : exec (.tplReg p) s = execTplReg p s := rfl
  rw [hexec, execTplReg, hostCmd_single h]
  simp only [hgood, Bool.not_true, Bool.false_eq_true, if_false]

theorem exec_tplDel {s : State} {p : Nat} {d : List Word} (h : hasDesc s p 3 d) (hgood : dtypeOk d = true)
    (hindex : (wd d 3).toNat < 256) (hzero : zeroWords d 4 30 = true) :
    exec (.tplDel p) s = .next (dropDesc (cmdRec (askTpl s p (wd d 3).toNat none) p d 0 0 0) p) := by
  have hexec : exec (.tplDel p) s = execTplDel p s := rfl
  have hrange : ¬ 255 < (wd d 3).toNat := by omega
  rw [hexec, execTplDel, hostCmd_single h]
  simp only [hgood, hrange, hzero, Bool.not_true, decide_false, Bool.or_self, Bool.false_eq_true, if_false]

/-- A change whose timer has passed a boundary is applied, and the table of changes is empty. -/
theorem commitTpls_due {s : State} {q : TplChange} {b : Tpl} (htodo : s.disp.tplTodo = [q]) (hbody : q.body = some b)
    (hdue : tplSlot s q.part b.words ≠ q.since) :
    (commitTpls s).disp.tplTodo = [] ∧ tplOf (commitTpls s) q.part q.idx = some b := by
  have heq : commitTpls s = { s with disp := { s.disp with
      tpls := tsetD none s.disp.tpls (q.part * 256 + q.idx) (some b), tplTodo := [] } } := by
    unfold commitTpls
    simp [htodo, hbody, hdue]
  rw [heq]
  exact ⟨rfl, by simp [tplOf]⟩

/-- A change waits for the next boundary. -/
theorem commitTpls_waits {s : State} {q : TplChange} {b : Tpl} (htodo : s.disp.tplTodo = [q]) (hbody : q.body = some b)
    (hwait : tplSlot s q.part b.words = q.since) : commitTpls s = s := by
  have heq : commitTpls s = { s with disp := { s.disp with tpls := s.disp.tpls, tplTodo := [q] } } := by
    unfold commitTpls
    simp [htodo, hbody, hwait]
  rw [heq, ← htodo]

/-! ### Generations (R181, R183) -/

/-- A generation that is current, or that a job refers to. -/
def genKept (s : State) (g : Gen) : Prop := g.current = true ∨ genUsed s g = true

/-- The generation as its slot is retired. -/
def retired (p slot : Nat) (g : Gen) : Gen := if g.part = p ∧ g.slot = slot then { g with current := false } else g

theorem mem_retireSlot {s : State} {p slot : Nat} {g : Gen} :
    g ∈ (retireSlot s p slot).img.gens ↔ (∃ g' ∈ s.img.gens, retired p slot g' = g) ∧ genKept s g := by
  have heq : (retireSlot s p slot).img.gens = (s.img.gens.map (retired p slot)).filter (fun g => g.current || genUsed s g) := rfl
  rw [heq, List.mem_filter, List.mem_map, Bool.or_eq_true, genKept]

/-- Retiring a slot leaves the generations of the others that are current or in use. -/
theorem mem_retireSlot_other {s : State} {p slot : Nat} {g : Gen} (hother : (g.part, g.slot) ≠ (p, slot)) (hkept : genKept s g) :
    g ∈ (retireSlot s p slot).img.gens ↔ g ∈ s.img.gens := by
  have hne : ¬ (g.part = p ∧ g.slot = slot) := by simpa [Prod.ext_iff] using hother
  rw [mem_retireSlot]
  refine ⟨fun ⟨⟨g', hg', hret⟩, _⟩ => ?_, fun hg => ⟨⟨g, hg, by rw [retired, if_neg hne]⟩, hkept⟩⟩
  unfold retired at hret
  split at hret
  · rename_i hslot
    subst hret
    exact absurd hslot hne
  · rw [← hret]; exact hg'

/-- What stays of a retired slot is not current, and a job refers to it. -/
theorem retired_of_mem {s : State} {p slot : Nat} {g : Gen} (hg : g ∈ (retireSlot s p slot).img.gens)
    (hslot : (g.part, g.slot) = (p, slot)) : g.current = false ∧ genUsed s g = true := by
  obtain ⟨⟨g', -, hret⟩, hkept⟩ := mem_retireSlot.1 hg
  obtain ⟨hp, hs⟩ := Prod.mk.inj hslot
  have hcur : g.current = false := by
    unfold retired at hret
    split at hret
    · rw [← hret]
    · rename_i hne; rw [hret] at hne; exact absurd ⟨hp, hs⟩ hne
  rcases hkept with hkept | hkept
  · rw [hcur] at hkept; cases hkept
  · exact ⟨hcur, hkept⟩

theorem retireSlot_frame (s : State) (p slot : Nat) :
    retireSlot s p slot = { s with img := { s.img with gens := (retireSlot s p slot).img.gens } } := rfl

/-! ### IMAGE_REG (R177, R181) -/

/-- The next generation number of a slot. -/
def nextGen (s : State) (p slot : Nat) : Nat := (tgetD 0 s.img.genNo (p * 64 + slot) + 1) % 2 ^ 32

theorem register_eq {s : State} {p slot off len : Nat} {r : Nat × Nat × Nat} (hregion : partRegion s p = some r) :
    ∃ g : Gen, (g.part, g.slot, g.gen) = (p, slot, nextGen s p slot) ∧ g.base = r.1 + off ∧ g.len = len ∧ g.current = true ∧
      (register s p slot off len).img = { (retireSlot s p slot).img with
        gens := (retireSlot s p slot).img.gens ++ [g], genNo := tsetD 0 s.img.genNo (p * 64 + slot) (nextGen s p slot) } := by
  unfold register
  simp only [hregion]
  exact ⟨_, rfl, rfl, rfl, rfl, rfl⟩

theorem register_frame (s : State) (p slot off len : Nat) :
    register s p slot off len = { s with img := (register s p slot off len).img, sec := (register s p slot off len).sec } := by
  unfold register
  cases partRegion s p with
  | none => rfl
  | some r => rfl

/-- A registration leaves the other slots. -/
theorem mem_register_other {s : State} {p slot off len : Nat} {g : Gen} (hother : (g.part, g.slot) ≠ (p, slot))
    (hkept : genKept s g) : g ∈ (register s p slot off len).img.gens ↔ g ∈ s.img.gens := by
  cases hregion : partRegion s p with
  | none =>
    have heq : register s p slot off len = s := by unfold register; rw [hregion]
    rw [heq]
  | some r =>
    obtain ⟨g', hnew, -, -, -, himg⟩ := register_eq (slot := slot) (off := off) (len := len) hregion
    have hne : g ≠ g' := by
      rintro rfl
      exact hother (by rw [Prod.ext_iff] at hnew ⊢; exact ⟨hnew.1, (Prod.ext_iff.1 hnew.2).1⟩)
    rw [himg, List.mem_append, List.mem_singleton, mem_retireSlot_other hother hkept]
    exact or_iff_left hne

/-- The image becomes the slot's one current generation. -/
theorem register_current {s : State} {p slot off len : Nat} {r : Nat × Nat × Nat} (hregion : partRegion s p = some r) :
    tgetD 0 (register s p slot off len).img.genNo (p * 64 + slot) = nextGen s p slot ∧
      (∃ g ∈ (register s p slot off len).img.gens, g.current = true ∧ (g.part, g.slot, g.gen) = (p, slot, nextGen s p slot)) ∧
      ∀ g ∈ (register s p slot off len).img.gens, g.current = true → (g.part, g.slot) = (p, slot) →
        g.gen = nextGen s p slot ∧ g.base = r.1 + off ∧ g.len = len := by
  obtain ⟨g', hnew, hbase, hlen, hcur, himg⟩ := register_eq (slot := slot) (off := off) (len := len) hregion
  rw [himg]
  refine ⟨by simp, ⟨g', by simp, hcur, hnew⟩, fun g hg hgcur hslot => ?_⟩
  rcases List.mem_append.1 hg with hg | hg
  · obtain ⟨hold, -⟩ := retired_of_mem hg hslot
    rw [hgcur] at hold
    cases hold
  · rw [List.mem_singleton.1 hg]
    simp only [Prod.mk.injEq] at hnew
    exact ⟨hnew.2.2, hbase, hlen⟩

theorem exec_imageReg {s : State} {p : Nat} {d : List Word} (h : hasDesc s p 0x10 d) (hgood : dtypeOk d = true)
    (hrange : (wd d 5).toNat < 256) (hzero : tailZero s p d 7 = true) :
    exec (.imageReg p) s = .next (dropDesc (cmdRec
      (if apfStatus s p (wd d 3).toNat (addr64 (wd d 4) (wd d 5)) (wd d 6).toNat = 0
        then register s p (wd d 3).toNat (addr64 (wd d 4) (wd d 5)) (wd d 6).toNat else s)
      p d (apfStatus s p (wd d 3).toNat (addr64 (wd d 4) (wd d 5)) (wd d 6).toNat) 0 0) p) := by
  have hexec : exec (.imageReg p) s = execImageReg p s := rfl
  have hrange' : ¬ 255 < (wd d 5).toNat := by omega
  rw [hexec, execImageReg, hostCmd_single h]
  simp only [hgood, hrange', hzero, Bool.not_true, decide_false, Bool.or_self, Bool.false_eq_true, if_false]

/-! ### IMAGE_REL (R183) -/

theorem exec_imageRel {s : State} {p : Nat} {d : List Word} (h : hasDesc s p 0x11 d) (hgood : dtypeOk d = true)
    (hslot : (wd d 3).toNat < 64) (hzero : tailZero s p d 4 = true) :
    exec (.imageRel p) s = .next (dropDesc
      (if s.img.gens.any (fun g => decide (g.part = p ∧ g.slot = (wd d 3).toNat) && g.current)
        then cmdRec (retireSlot s p (wd d 3).toNat) p d 0 0 0 else cmdRec s p d 1 0 0) p) := by
  have hexec : exec (.imageRel p) s = execImageRel p s := rfl
  have hrange : ¬ 63 < (wd d 3).toNat := by omega
  rw [hexec, execImageRel, hostCmd_single h]
  simp only [hgood, hrange, hzero, Bool.not_true, decide_false, Bool.or_self, Bool.false_eq_true, if_false]

theorem hasCurrent_iff {s : State} {p slot : Nat} :
    s.img.gens.any (fun g => decide (g.part = p ∧ g.slot = slot) && g.current) = true ↔
      ∃ g ∈ s.img.gens, (g.part, g.slot, g.current) = (p, slot, true) := by
  simp only [List.any_eq_true, Bool.and_eq_true, decide_eq_true_eq, Prod.mk.injEq, and_assoc]

end Sys2Proof.Machine
end

section
/-! UNIT_QUERY, RXBUF and EXC_TX (01 R24; 17 R539), and O40. -/

namespace Sys2Proof.Machine

open Sys2Proof

section
variable {s : State} {p : Nat} {d : List Word}

/-! ### UNIT_QUERY (R24) -/

theorem exec_unitQuery_known (h : hasDesc s p 0x12 d) (hgood : dtypeOk d = true) (hzero : tailZero s p d 6 = true)
    (hhost : mayWriteHost s p = true) (hhandle : wd d 3 = handle s (fld (wd d 3) 31 29) (fld (wd d 3) 15 0))
    (hunit : unitExists s (fld (wd d 3) 31 29) (fld (wd d 3) 15 0) = true) :
    exec (.unitQuery p) s = .next (dropDesc (cmdRec (hostWrite s (addr64 (wd d 4) (wd d 5))
      (wordsLe (capRecord s p (fld (wd d 3) 31 29) (fld (wd d 3) 15 0)))) p d 0 0 0) p) := by
  have hexec : exec (.unitQuery p) s = execUnitQuery p s := rfl
  rw [hexec, execUnitQuery, hostCmd_single h]
  simp only [hgood, hzero, hhost, Bool.not_true, Bool.or_self, Bool.false_eq_true, if_false, if_pos (And.intro hhandle hunit)]

theorem exec_unitQuery_unknown (h : hasDesc s p 0x12 d) (hgood : dtypeOk d = true) (hzero : tailZero s p d 6 = true)
    (hhost : mayWriteHost s p = true) (hno : wd d 3 ≠ handle s (fld (wd d 3) 31 29) (fld (wd d 3) 15 0) ∨
      unitExists s (fld (wd d 3) 31 29) (fld (wd d 3) 15 0) = false) :
    exec (.unitQuery p) s = .next (dropDesc (cmdRec s p d 1 0 0) p) := by
  have hexec : exec (.unitQuery p) s = execUnitQuery p s := rfl
  have hno' : ¬ (wd d 3 = handle s (fld (wd d 3) 31 29) (fld (wd d 3) 15 0) ∧
      unitExists s (fld (wd d 3) 31 29) (fld (wd d 3) 15 0) = true) := by
    rintro ⟨hh, hu⟩
    rcases hno with hno | hno
    · exact hno hh
    · rw [hu] at hno; cases hno
  rw [hexec, execUnitQuery, hostCmd_single h]
  simp only [hgood, hzero, hhost, Bool.not_true, Bool.or_self, Bool.false_eq_true, if_false, if_neg hno']

/-! ### RXBUF (R539) -/

/-- The buffer that the descriptor posts stands behind the others. -/
def bufPosted (s : State) (p : Nat) (d : List Word) : State :=
  let bufs := tgetD [] s.host.rxbufs p ++ [(addr64 (wd d 3) (wd d 4), wd d 1, wd d 2, dring d)]
  { s with host := { s.host with rxbufs := tsetD [] s.host.rxbufs p bufs } }

theorem rxbufs_bufPosted (s : State) (p : Nat) (d : List Word) : tgetD [] (bufPosted s p d).host.rxbufs p =
    tgetD [] s.host.rxbufs p ++ [(addr64 (wd d 3) (wd d 4), wd d 1, wd d 2, dring d)] := by
  simp only [bufPosted, tgetD_tsetD, if_true]

theorem exec_rxbuf (h : hasDesc s p 0x31 d) (hgood : dtypeOk d = true) (hpage : fld (wd d 3) 11 0 = 0)
    (hzero : zeroWords d 5 30 = true) :
    exec (.rxbuf p) s = .next (dropDesc (pumpMsgs (bufPosted s p d) p (tgetD [] s.host.rxWait p).length) p) := by
  have hexec : exec (.rxbuf p) s = execRxbuf p s := rfl
  rw [hexec, execRxbuf, hostCmd_single h]
  simp only [hgood, hpage, hzero, ne_eq, not_true, decide_false, Bool.not_true, Bool.or_self, Bool.false_eq_true, if_false]
  rfl

/-- A message that fits one buffer is one piece. -/
theorem chunks_single {n : Nat} {m : List Byte} (hne : m ≠ []) (hlen : m.length ≤ n) : chunks n (m.length + 1) m = [m] := by
  have hn : n ≠ 0 := by
    rintro rfl
    exact hne (List.length_eq_zero_iff.1 (by omega))
  have hnil (f : Nat) : chunks n f [] = [] := by
    cases f with
    | zero => rfl
    | succ f => rw [chunks, if_pos (Or.inl rfl)]
  rw [chunks, if_neg (by simp [hne, hn]), List.take_of_length_le hlen, List.drop_of_length_le hlen, hnil]

/-- The state in which the record of a message is posted: the message no longer waits, and the buffer is used. -/
def msgWritten (s : State) (p a : Nat) (m : List Byte) : State :=
  let s := { s with host := { s.host with rxWait := tsetD [] s.host.rxWait p [] } }
  hostWrite { s with host := { s.host with rxbufs := tsetD [] s.host.rxbufs p [] } } a m

/-- One message waits, and one buffer is posted that holds it: the message is delivered. -/
theorem pumpMsgs_single {m : List Byte} {a r : Nat} {lo hi : Word} (hwait : tgetD [] s.host.rxWait p = [(m, none)])
    (hbufs : tgetD [] s.host.rxbufs p = [(a, lo, hi, r)]) (hne : m ≠ []) (hlen : m.length ≤ rxSize s p)
    (hhost : mayWriteHost s p = true) : pumpMsgs s p 1 =
      postRec (msgWritten s p a m) p r (mkRec (msgWritten s p a m) 4 0 2 lo hi 0 (w32 a) (w32 (a / 2 ^ 32)) 0) := by
  have hsize : rxSize s p ≠ 0 := by
    intro h0
    exact hne (List.length_eq_zero_iff.1 (by omega))
  unfold pumpMsgs
  simp only [hwait, chunks_single hne hlen, hhost, hbufs, List.length_singleton, le_refl, and_true, ne_eq, hsize,
    not_false_eq_true, if_true, pumpMsgs, fillBufs]
  rfl

/-- The message's record is posted, and the descriptor is gone. -/
theorem delivered_of_pumpMsgs {u : State} {m : List Byte} (h : tgetD [] s.host.picked p = [d])
    (hwait : tgetD [] s.host.rxWait p = [(m, none)]) (hbufs : tgetD [] s.host.rxbufs p = []) (hne : m ≠ [])
    (hlen : m.length ≤ rxSize s p) (hhost : mayWriteHost s p = true) (hu : dropDesc (pumpMsgs (bufPosted s p d) p 1) p = u) :
    butHost s u ∧ tgetD [] u.host.rxWait p = [] ∧ tgetD [] u.host.rxbufs p = [] ∧
      posted (hostWrite s (addr64 (wd d 3) (wd d 4)) m) u p (dring d)
        (mkRec s 4 0 2 (wd d 1) (wd d 2) 0 (w32 (addr64 (wd d 3) (wd d 4))) (w32 (addr64 (wd d 3) (wd d 4) / 2 ^ 32)) 0) := by
  set a := addr64 (wd d 3) (wd d 4) with ha
  have hbuf : tgetD [] (bufPosted s p d).host.rxbufs p = [(a, wd d 1, wd d 2, dring d)] := by
    rw [rxbufs_bufPosted, hbufs, ha]; rfl
  set W := msgWritten (bufPosted s p d) p a m with hW
  set ws := mkRec s 4 0 2 (wd d 1) (wd d 2) 0 (w32 a) (w32 (a / 2 ^ 32)) 0 with hws
  have hpump : pumpMsgs (bufPosted s p d) p 1 = postRec W p (dring d) ws := pumpMsgs_single hwait hbuf hne hlen hhost
  obtain ⟨hpicked, hrxbufs, hrxwait⟩ := postRec_queues W p (dring d) ws
  obtain ⟨host, mem, out, hframe⟩ := postRec_hostOnly W p (dring d) ws
  have hsingle : tgetD [] (postRec W p (dring d) ws).host.picked p = [d] := by rw [hpicked]; exact h
  have hgone : tgetD [] (postRec W p (dring d) ws).host.rxWait p = [] := by rw [hrxwait]; simp [hW, msgWritten, hostWrite]
  have hused : tgetD [] (postRec W p (dring d) ws).host.rxbufs p = [] := by rw [hrxbufs]; simp [hW, msgWritten, hostWrite]
  have hrec : posted W (postRec W p (dring d) ws) p (dring d) ws := posted_postRec rfl
  rw [hpump, dropDesc_single hsingle] at hu
  subst hu
  exact ⟨by unfold butHost; rw [hframe]; rfl, hgone, hused, hrec⟩

/-! ### EXC_TX (R539) -/

theorem exec_excTx (h : hasDesc s p 0x38 d) (hgood : dtypeOk d = true) (hhost : mayWriteHost s p = true)
    (hmin : 1 ≤ (wd d 6).toNat) (hmax : (wd d 6).toNat ≤ 9600) (hword : fld (wd d 5) 30 20 = 0) (hzero : zeroWords d 7 30 = true) :
    exec (.excTx p) s = .next (dropDesc (if portUp s (fld (wd d 5) 19 16) = true then { s with fh := { s.fh with txq := s.fh.txq ++
        [⟨fld (wd d 5) 19 16, if bit (wd d 5) 31 = true then some (fld (wd d 5) 15 0) else none,
          hostRead s (addr64 (wd d 3) (wd d 4)) (wd d 6).toNat, some d⟩] } } else cmdRec s p d 1 0 0) p) := by
  have hexec : exec (.excTx p) s = execExcTx p s := rfl
  have hrange : ¬ (fld (wd d 5) 30 20 ≠ 0 ∨ (wd d 6).toNat = 0 ∨ 9600 < (wd d 6).toNat) := by omega
  rw [hexec, execExcTx, hostCmd_single h]
  simp only [hgood, hhost, hrange, hzero, Bool.not_true, decide_false, Bool.or_self, Bool.false_eq_true, if_false]
  cases portUp s (fld (wd d 5) 19 16) <;> rfl

end

end Sys2Proof.Machine
end

section

namespace Sys2Proof.Proofs

open Sys2Proof Sys2Proof.Machine

theorem templatesWaitForTheirBoundary {s : State} {p : Nat} {d : List Word} :
    (hasDesc s p 2 d → tplOk d = true → ∃ v u, exec (.tplReg p) s = .next u ∧ answered v u p d 0 0 0 ∧
      v = { s with disp := { s.disp with tplTodo := v.disp.tplTodo } } ∧
      ∀ q, q ∈ v.disp.tplTodo ↔ q = ⟨p, fld (wd d 3) 31 24, some ⟨d⟩, tplSlot s p d⟩ ∨
        q ∈ s.disp.tplTodo ∧ (q.part, q.idx) ≠ (p, fld (wd d 3) 31 24)) ∧
    (hasDesc s p 3 d → dtypeOk d = true → (wd d 3).toNat < 256 → zeroWords d 4 30 = true → ∃ v u, exec (.tplDel p) s = .next u ∧
      answered v u p d 0 0 0 ∧ v = { s with disp := { s.disp with tplTodo := v.disp.tplTodo } } ∧
      (∀ q, (q.part, q.idx) ≠ (p, (wd d 3).toNat) → (q ∈ v.disp.tplTodo ↔ q ∈ s.disp.tplTodo)) ∧
      (∃ q ∈ v.disp.tplTodo, (q.part, q.idx) = (p, (wd d 3).toNat)) ∧
      ∀ q ∈ v.disp.tplTodo, (q.part, q.idx) = (p, (wd d 3).toNat) → q.body = none) := by
  refine ⟨fun h hgood => ⟨_, _, exec_tplReg h hgood, answered_cmdRec h.1, rfl, fun q => mem_tplTodo_askTpl ..⟩,
    fun h hgood hindex hzero => ⟨_, _, exec_tplDel h hgood hindex hzero, answered_cmdRec h.1, rfl, fun q hq => ?_, ?_, fun q hq hat => ?_⟩⟩
  · rw [mem_tplTodo_askTpl]
    refine ⟨fun hmem => ?_, fun hmem => Or.inr ⟨hmem, hq⟩⟩
    rcases hmem with rfl | ⟨hmem, -⟩
    · exact absurd rfl hq
    · exact hmem
  · exact ⟨tplAsked s p (wd d 3).toNat none, (mem_tplTodo_askTpl ..).2 (Or.inl rfl), rfl⟩
  · rcases (mem_tplTodo_askTpl ..).1 hq with rfl | ⟨-, hne⟩
    · rfl
    · exact absurd hat hne

section
variable {s : State} {p : Nat} {d : List Word}

theorem malformedIsAnswered (hbad : dtypeOk d = false) {e : Instr × Nat}
    (he : e ∈ [(Instr.tplReg p, 2), (.tplDel p, 3), (.imageReg p, 0x10), (.imageRel p, 0x11), (.rxbuf p, 0x31)])
    (h : hasDesc s p e.2 d) : ∃ v u, exec e.1 s = .next u ∧ v = { s with pg := v.pg, out := v.out } ∧ evtBit v 7 p 0 = true ∧
      answered v u p d 0x20 0 0 := by
  obtain ⟨hreg, hdel, himg, hrel, hrx⟩ := exec_malformed (s := s) (p := p) hbad
  obtain ⟨v, hv, hevt, hanswer⟩ := answered_badDesc h.1
  have hexec : exec e.1 s = .next (dropDesc (badDesc s p d 0x20) p) := by
    simp only [List.mem_cons, List.not_mem_nil, or_false] at he
    rcases he with rfl | rfl | rfl | rfl | rfl
    · exact hreg h
    · exact hdel h
    · exact himg h
    · exact hrel h
    · exact hrx h
  exact ⟨v, _, hexec, hv, hevt, hanswer⟩

theorem imageRegAnswers {slot off n st : Nat} (h : hasDesc s p 0x10 d) (hgood : dtypeOk d = true) (hrange : (wd d 5).toNat < 256)
    (hzero : tailZero s p d 7 = true) (hslot : slot = (wd d 3).toNat) (hoff : off = addr64 (wd d 4) (wd d 5))
    (hn : n = (wd d 6).toNat) (hst : st = apfStatus s p slot off n) :
    ∃ v u, exec (.imageReg p) s = .next u ∧ answered v u p d st 0 0 ∧ v = { s with img := v.img, sec := v.sec } ∧ (st ≠ 0 → v = s) ∧
      (∀ g, (g.part, g.slot) ≠ (p, slot) → genKept s g → (g ∈ v.img.gens ↔ g ∈ s.img.gens)) ∧
      ∀ r k, st = 0 → partRegion s p = some r → k = (tgetD 0 s.img.genNo (p * 64 + slot) + 1) % 2 ^ 32 →
        tgetD 0 v.img.genNo (p * 64 + slot) = k ∧ (∃ g ∈ v.img.gens, g.current = true ∧ (g.part, g.slot, g.gen) = (p, slot, k)) ∧
        ∀ g ∈ v.img.gens, g.current = true → (g.part, g.slot) = (p, slot) → g.gen = k ∧ g.base = r.1 + off ∧ g.len = n := by
  subst hslot hoff hn
  have hexec := exec_imageReg h hgood hrange hzero
  rw [← hst] at hexec
  by_cases hz : st = 0
  · rw [if_pos hz] at hexec
    refine ⟨_, _, hexec, answered_cmdRec (by rw [register_frame]; exact h.1), register_frame .., fun hne => absurd hz hne,
      fun g hother hkept => mem_register_other hother hkept, fun r k _ hregion hk => ?_⟩
    subst hk
    exact register_current hregion
  · rw [if_neg hz] at hexec
    exact ⟨s, _, hexec, answered_cmdRec h.1, rfl, fun _ => rfl, fun _ _ _ => Iff.rfl, fun _ _ hzero => absurd hzero hz⟩

theorem imageRelAnswers {slot : Nat} (h : hasDesc s p 0x11 d) (hgood : dtypeOk d = true) (hslot : slot = (wd d 3).toNat)
    (hlt : slot < 64) (hzero : tailZero s p d 4 = true) :
    ((∃ g ∈ s.img.gens, (g.part, g.slot, g.current) = (p, slot, true)) → ∃ v u, exec (.imageRel p) s = .next u ∧
      answered v u p d 0 0 0 ∧ v = { s with img := { s.img with gens := v.img.gens } } ∧
      (∀ g, (g.part, g.slot) ≠ (p, slot) → genKept s g → (g ∈ v.img.gens ↔ g ∈ s.img.gens)) ∧
      ∀ g ∈ v.img.gens, (g.part, g.slot) = (p, slot) → g.current = false ∧ genUsed s g = true) ∧
    ((∀ g ∈ s.img.gens, (g.part, g.slot, g.current) ≠ (p, slot, true)) → ∃ u, exec (.imageRel p) s = .next u ∧
      answered s u p d 1 0 0) := by
  subst hslot
  have hexec := exec_imageRel h hgood hlt hzero
  refine ⟨fun hcur => ?_, fun hcur => ?_⟩
  · rw [if_pos (hasCurrent_iff.2 hcur)] at hexec
    exact ⟨_, _, hexec, answered_cmdRec h.1, retireSlot_frame .., fun g hother hkept => mem_retireSlot_other hother hkept,
      fun g hg hat => retired_of_mem hg hat⟩
  · rw [if_neg (mt hasCurrent_iff.1 fun ⟨g, hg, hat⟩ => hcur g hg hat)] at hexec
    exact ⟨_, hexec, answered_cmdRec h.1⟩

theorem rxbufPosts {a : Nat} (h : hasDesc s p 0x31 d) (hgood : dtypeOk d = true) (hpage : fld (wd d 3) 11 0 = 0)
    (hzero : zeroWords d 5 30 = true) (ha : a = addr64 (wd d 3) (wd d 4)) :
    (tgetD [] s.host.rxWait p = [] → ∃ u, exec (.rxbuf p) s = .next u ∧ u = { s with host := u.host } ∧ tgetD [] u.host.picked p = [] ∧
      u.host.rings = s.host.rings ∧ tgetD [] u.host.rxbufs p = tgetD [] s.host.rxbufs p ++ [(a, wd d 1, wd d 2, dring d)]) ∧
    ∀ m, tgetD [] s.host.rxWait p = [(m, none)] → tgetD [] s.host.rxbufs p = [] → m ≠ [] → m.length ≤ rxSize s p → mayWriteHost s p = true →
      ∃ u, exec (.rxbuf p) s = .next u ∧ butHost s u ∧ tgetD [] u.host.rxWait p = [] ∧ tgetD [] u.host.rxbufs p = [] ∧
        posted (hostWrite s a m) u p (dring d) (mkRec s 4 0 2 (wd d 1) (wd d 2) 0 (w32 a) (w32 (a / 2 ^ 32)) 0) := by
  subst ha
  have hexec := exec_rxbuf h hgood hpage hzero
  refine ⟨fun hwait => ?_, fun m hwait hbufs hne hlen hhost => ?_⟩ <;> rw [hwait] at hexec
  · have hdrop : dropDesc (bufPosted s p d) p = _ := dropDesc_single (s := bufPosted s p d) h.1
    refine ⟨_, hexec.trans (congrArg Host.Outcome.next hdrop), rfl, ?_, rfl, rxbufs_bufPosted ..⟩
    simp only [tgetD_tsetD, if_true]
  · exact ⟨_, hexec, delivered_of_pumpMsgs h.1 hwait hbufs hne hlen hhost rfl⟩

theorem excTxQueues {w : Word} {n : Nat} (h : hasDesc s p 0x38 d) (hgood : dtypeOk d = true) (hhost : mayWriteHost s p = true)
    (hw : w = wd d 5) (hn : n = (wd d 6).toNat) (hmin : 1 ≤ n) (hmax : n ≤ 9600) (hword : fld w 30 20 = 0)
    (hzero : zeroWords d 7 30 = true) :
    (portUp s (fld w 19 16) = true → ∃ u, exec (.excTx p) s = .next u ∧ tgetD [] u.host.picked p = [] ∧
      u = { s with host := { s.host with picked := u.host.picked }, fh := { s.fh with txq := s.fh.txq ++
        [⟨fld w 19 16, if bit w 31 = true then some (fld w 15 0) else none, hostRead s (addr64 (wd d 3) (wd d 4)) n, some d⟩] } }) ∧
    (portUp s (fld w 19 16) = false → ∃ u, exec (.excTx p) s = .next u ∧ answered s u p d 1 0 0) := by
  subst hw hn
  have hexec := exec_excTx h hgood hhost hmin hmax hword hzero
  refine ⟨fun hup => ?_, fun hdown => ?_⟩
  · rw [if_pos hup] at hexec
    refine ⟨_, hexec.trans (congrArg Host.Outcome.next (dropDesc_single h.1)), ?_, rfl⟩
    simp only [tgetD_tsetD, if_true]
  · rw [if_neg (by rw [hdown]; decide)] at hexec
    exact ⟨_, hexec, answered_cmdRec h.1⟩

theorem unitQueryWritesItsRecord {l n : Nat} (h : hasDesc s p 0x12 d) (hgood : dtypeOk d = true) (hzero : tailZero s p d 6 = true)
    (hhost : mayWriteHost s p = true) (hl : l = fld (wd d 3) 31 29) (hn : n = fld (wd d 3) 15 0) :
    (wd d 3 = handle s l n → unitExists s l n = true → ∃ u, exec (.unitQuery p) s = .next u ∧
      answered (hostWrite s (addr64 (wd d 4) (wd d 5)) (wordsLe (capRecord s p l n))) u p d 0 0 0) ∧
    (wd d 3 ≠ handle s l n ∨ unitExists s l n = false → ∃ u, exec (.unitQuery p) s = .next u ∧ answered s u p d 1 0 0) := by
  subst hl hn
  exact ⟨fun hhandle hunit => ⟨_, exec_unitQuery_known h hgood hzero hhost hhandle hunit, answered_cmdRec h.1⟩,
    fun hno => ⟨_, exec_unitQuery_unknown h hgood hzero hhost hno, answered_cmdRec h.1⟩⟩

end

/-- Settles O40: each row runs its own effect on the only descriptor and answers it, by what posting its record leaves. -/
theorem hostDescriptorsAreAnswered : Obligations.HostDescriptorsAreAnswered := by
  unfold Obligations.HostDescriptorsAreAnswered
  intro s p d _ kept i
  exact ⟨fun hbad e he h => malformedIsAnswered hbad he h, templatesWaitForTheirBoundary.1, templatesWaitForTheirBoundary.2,
    fun q b htodo hbody => ⟨commitTpls_due htodo hbody, commitTpls_waits htodo hbody⟩,
    fun slot off n st => imageRegAnswers, fun slot => imageRelAnswers, fun l n => unitQueryWritesItsRecord,
    fun a => rxbufPosts, fun w n => excTxQueues⟩

end Sys2Proof.Proofs
end

section
/-! Pod operations (07 R222 to R228, R736): an operation that is carried out leaves no other waiting one behind, the books and the list
of held handles follow the handle, and a limit that passes ends the wait. -/

namespace Sys2Proof.Machine

open Sys2Proof

/-! ### Rounds of waiting operations (R224) -/

/-- What every attempt of a waiting operation keeps holds once the rounds are over. -/
theorem podsChanged_induct {P : State → Prop} (htry : ∀ t k q, P t → podCur t k = some q → P (podTry t k q)) {s : State}
    (hs : P s) : P (podsChanged s) := by
  have hround : ∀ t, P t → P (podRound t) := by
    intro t ht
    refine List.foldlRecOn _ _ ht fun u hu k _ => ?_
    cases hcur : podCur u k with
    | none => exact hu
    | some q => exact htry u k q hu hcur
  have hserve : ∀ n t, P t → P (servePods n t) := by
    intro n
    induction n with
    | zero => exact fun t ht => ht
    | succ n ih =>
      intro t ht
      unfold servePods
      simp only
      split
      · exact ht
      · exact ih _ (hround t ht)
  exact hserve _ s hs

/-- With no operation waiting nothing is tried. -/
theorem podsChanged_of_idle {s : State} (h : ∀ k, podCur s k = none) : podsChanged s = s :=
  podsChanged_induct (P := (· = s)) (fun t k q ht hcur => by rw [ht, h k] at hcur; cases hcur) rfl

theorem podCur_eq_some {s : State} {e : Nat} {q : CopyDesc} (h : podCur s e = some q) :
    q ∈ (engOf s e).q ∧ isPod q.ins.words = true ∧ q.started = true ∧ allStarted q = false := by
  have hq := List.find?_some h
  simp only [Bool.and_eq_true, Bool.not_eq_true'] at hq
  obtain ⟨⟨hpod, hstarted⟩, hall⟩ := hq
  exact ⟨List.mem_of_find?_eq_some h, hpod, hstarted, hall⟩

/-! ### The descriptor of an engine that an operation changes -/

/-- Descriptor `d` of engine `e` has become `y`; the other descriptors and engines are as before. -/
def DescNow (s t : State) (e : Nat) (d y : CopyDesc) : Prop :=
  (∀ k, k ≠ e → engOf t k = engOf s k) ∧ (engOf t e).q = stepped (engOf s e).q d (fun _ => y)

/-- No pod operation but descriptor `d` of engine `e` may wait, and its number names it alone. -/
structure SoleWaiter (s : State) (e : Nat) (d : CopyDesc) : Prop where
  others : ∀ k, k ≠ e → podCur s k = none
  same : ∀ q ∈ (engOf s e).q, q.serial = d.serial → q = d
  rest : ∀ q ∈ (engOf s e).q, q.serial ≠ d.serial → isPod q.ins.words = true → q.started = false ∨ allStarted q = true

section
variable {s t u : State} {e : Nat} {d y : CopyDesc}

theorem descNow_refl (h : SoleWaiter s e d) : DescNow s s e d d := by
  refine ⟨fun _ _ => rfl, ?_⟩
  unfold stepped
  conv_lhs => rw [← List.map_id (engOf s e).q]
  refine List.map_congr_left fun q hq => ?_
  split
  · exact h.same q hq ‹_›
  · rfl

theorem DescNow.congr (h : DescNow s t e d y) (heng : u.eng = t.eng) : DescNow s u e d y := by
  unfold DescNow engOf at *
  rw [heng]
  exact h

theorem DescNow.modDesc (h : DescNow s t e d y) (hserial : y.serial = d.serial) (f : CopyDesc → CopyDesc) :
    DescNow s (modDesc t e d.serial f) e d (f y) := by
  obtain ⟨hothers, hq⟩ := h
  refine ⟨fun k hk => ?_, ?_⟩
  · rw [Machine.modDesc, engOf_setEng, if_neg hk, hothers k hk]
  · rw [Machine.modDesc, engOf_setEng, if_pos rfl, hq]
    simp only [stepped, List.map_map]
    refine List.map_congr_left fun q _ => ?_
    by_cases hs : q.serial = d.serial <;> simp [hs, hserial]

/-- Whoever waits now is the descriptor as it has become. -/
theorem DescNow.cur (h : DescNow s t e d y) (hsole : SoleWaiter s e d) {k : Nat} {q : CopyDesc} (hcur : podCur t k = some q) :
    k = e ∧ q = y := by
  obtain ⟨hothers, hq⟩ := h
  have hk : k = e := by
    by_contra hk
    have hnone := hsole.others k hk
    rw [podCur, ← hothers k hk] at hnone
    exact absurd (hcur.symm.trans hnone) (by simp)
  subst hk
  obtain ⟨hmem, hpod, hstarted, hall⟩ := podCur_eq_some hcur
  rw [hq, stepped, List.mem_map] at hmem
  obtain ⟨p, hp, hpq⟩ := hmem
  refine ⟨rfl, ?_⟩
  by_cases hserial : p.serial = d.serial
  · rw [if_pos hserial] at hpq
    exact hpq.symm
  · rw [if_neg hserial] at hpq
    subst hpq
    rcases hsole.rest p hp hserial hpod with hno | hdone
    · rw [hstarted] at hno; cases hno
    · rw [hall] at hdone; cases hdone

/-- The descriptor `y` is `d` taken up: a pod operation that has started. -/
structure Carries (d y : CopyDesc) : Prop where
  pod : isPod d.ins.words = true
  ins : y.ins = d.ins
  serial : y.serial = d.serial
  started : y.started = true

/-- Once the operation is carried out its descriptor stands so, and nobody else waits. -/
theorem podsChanged_podActed (h : DescNow s t e d y) (hsole : SoleWaiter s e d) (hy : Carries d y) :
    podsChanged (podActed t e y) = podActed t e y ∧ podStands s (podActed t e y) e d true := by
  have hnow : DescNow s (podActed t e y) e d { y with acted := true, podWait := none, podHandle := none } := by
    have hmod := h.modDesc hy.serial fun q => { q with acted := true, podWait := none, podHandle := none }
    rw [← hy.serial] at hmod
    exact hmod
  have ⟨hothers, hq⟩ := hnow
  refine ⟨podsChanged_of_idle fun k => ?_, hothers, _, hq, hy.ins, hy.serial, hy.started, rfl, rfl, rfl⟩
  cases hcur : podCur (podActed t e y) k with
  | none => rfl
  | some q =>
    obtain ⟨-, hq⟩ := hnow.cur hsole hcur
    obtain ⟨-, hpod, hstarted, hall⟩ := podCur_eq_some hcur
    subst hq
    simp [allStarted, hy.started, hy.ins, hy.pod] at hall

end

/-! ### What a pod operation may change -/

/-- Engines, pods, registers, clusters and jobs may have changed, nothing else. -/
def PodWork (s t : State) : Prop :=
  t = { s with eng := t.eng, pod := t.pod, pg := t.pg, cl := t.cl, disp := { s.disp with jobs := t.disp.jobs } }

theorem PodWork.trans {s t u : State} (h : PodWork s t) (h' : PodWork t u) : PodWork s u := by
  unfold PodWork at h h'
  rw [h] at h'
  exact h'

theorem podWork_modDesc (s : State) (e n : Nat) (f : CopyDesc → CopyDesc) : PodWork s (modDesc s e n f) := rfl
theorem podWork_setPod (s : State) (n : Nat) (x : Pod) : PodWork s (setPod s n x) := rfl
theorem podWork_podPut (s : State) (n : Nat) (h : BitVec 128) : PodWork s (podPut s n h) := rfl
theorem podWork_modJob (s : State) (j : Nat) (f : Job → Job) : PodWork s (modJob s j f) := by
  unfold modJob
  split <;> rfl

theorem leadOf_of_podWork {s t : State} (h : PodWork s t) (c : Nat) : leadOf t c = leadOf s c :=
  (leadOf_congr (by unfold PodWork at h; rw [h]) (by unfold PodWork at h; rw [h]) c).2

theorem rg_congr {s t : State} (h : t.pg = s.pg) (r i sel : Nat) : rg t r i sel = rg s r i sel := by
  unfold rg
  rw [h]

theorem job_congr {s t : State} (h : t.disp = s.disp) (j : Nat) : job? t j = job? s j := by
  unfold job?
  rw [h]

theorem podOf_congr {s t : State} (h : t.pod = s.pod) (n : Nat) : podOf t n = podOf s n := by
  unfold podOf
  rw [h]

theorem podPut_pod_congr {s t : State} (h : t.pod = s.pod) (n : Nat) (v : BitVec 128) : (podPut t n v).pod = (podPut s n v).pod := by
  unfold podPut setPod podOf
  simp only [h]

theorem podTakes_congr {s t : State} (hpod : t.pod = s.pod) {n : Nat} (hcfg : rg t PODQ_POD_CFG 0 n = rg s PODQ_POD_CFG 0 n)
    (p : Nat) : podTakes t n p = podTakes s n p := by
  unfold podTakes podCfg
  rw [hcfg, podOf_congr hpod]

/-! ### The books of a partition (R227) -/

theorem rkey_reg_ne {r r' n n' : Nat} (h : r ≠ r') (hn : n < 65536) (hn' : n' < 65536) : rkey r 0 n ≠ rkey r' 0 n' := fun hkey =>
  h (rkey_inj (by decide) (by decide) hn hn' hkey).1

@[simp] theorem rg_book_self (s : State) (r p : Nat) (n : Int) : rg (book s r p n) r 0 p = rg s r 0 p + w32 (wrapN 32 n) :=
  rg_setRg_self ..
/-- A book leaves every other register of any selector. -/
theorem rg_book_ne {r r' p p' : Nat} (h : r' ≠ r) (hp : p < 65536) (hp' : p' < 65536) (s : State) (n : Int) :
    rg (book s r p n) r' 0 p' = rg s r' 0 p' :=
  rg_setRg_ne s _ (rkey_reg_ne h hp' hp)

/-- What a handle that moves changes in the books of its partition: two registers, each with its amount. -/
abbrev BookEntry : Type := (Nat × Int) × (Nat × Int)

/-- A handle goes into a pod: a new one, or one that was held. -/
def entryIn (fresh : Bool) : BookEntry :=
  if fresh then ((PODQ_PART_TOTAL, 1), (PODQ_PART_INPODS, 1)) else ((PODQ_PART_HELD, -1), (PODQ_PART_INPODS, 1))
/-- A handle comes out of a pod: it is freed, or held. -/
def entryOut (freed : Bool) : BookEntry :=
  if freed then ((PODQ_PART_TOTAL, -1), (PODQ_PART_INPODS, -1)) else ((PODQ_PART_INPODS, -1), (PODQ_PART_HELD, 1))
/-- Every entry that keeps the balance of R227. -/
def bookEntries : List BookEntry := [entryIn true, entryIn false, entryOut true, entryOut false]

theorem entryIn_mem (fresh : Bool) : entryIn fresh ∈ bookEntries := by cases fresh <;> simp [bookEntries]
theorem entryOut_mem (freed : Bool) : entryOut freed ∈ bookEntries := by cases freed <;> simp [bookEntries]

/-- The books of partition `p` once the handle `h` has moved; a hole stays outside them. -/
def rebook (s : State) (p : Nat) (h : BitVec 128) (b : BookEntry) : State :=
  if hHole h then s else book (book s b.1.1 p b.1.2) b.2.1 p b.2.2

/-- A state that differs in the pages alone. -/
def OnlyPages (s t : State) : Prop := t = { s with pg := t.pg }

theorem podWork_of_onlyPages {s t : State} (h : OnlyPages s t) : PodWork s t := by
  unfold OnlyPages at h
  rw [h]
  rfl

theorem onlyPages_rebook (s : State) (p : Nat) (h : BitVec 128) (b : BookEntry) : OnlyPages s (rebook s p h b) := by
  unfold rebook
  split
  · rfl
  · rfl

theorem book_pg_congr {s t : State} (h : t.pg = s.pg) (r p : Nat) (n : Int) : (book t r p n).pg = (book s r p n).pg := by
  unfold book setRg rg
  rw [h]

theorem rebook_pg_congr {s t : State} (hpg : t.pg = s.pg) (p : Nat) (h : BitVec 128) (b : BookEntry) :
    (rebook t p h b).pg = (rebook s p h b).pg := by
  unfold rebook
  split
  · exact hpg
  · exact book_pg_congr (book_pg_congr hpg ..) ..

theorem sameBalance_refl (s : State) (p : Nat) : sameBalance s s p := rfl
theorem sameBalance_trans {s t u : State} {p : Nat} (h : sameBalance s t p) (h' : sameBalance t u p) : sameBalance s u p :=
  Eq.trans h' h

theorem w32_wrapN_one : w32 (wrapN 32 1) = 1 := by decide
theorem w32_wrapN_neg_one : w32 (wrapN 32 (-1)) = -1 := by decide

/-- An entry keeps the balance, whatever handle it is for (R227). -/
theorem sameBalance_rebook (s : State) {p : Nat} (hp : p < 32) (h : BitVec 128) {b : BookEntry} (hb : b ∈ bookEntries) :
    sameBalance s (rebook s p h b) p := by
  have hp : p < 65536 := by omega
  have hne {r r' : Nat} (h : r' ≠ r) := rg_book_ne h hp hp
  unfold rebook
  split
  · rfl
  · simp only [bookEntries, List.mem_cons, List.not_mem_nil, or_false] at hb
    unfold sameBalance
    rcases hb with rfl | rfl | rfl | rfl <;>
      simp (disch := decide) only [entryIn, entryOut, if_true, Bool.false_eq_true, if_false, rg_book_self, hne, w32_wrapN_one,
        w32_wrapN_neg_one] <;> bv_omega

/-- A handle that passes from pod to pod is held between the two and no longer. -/
theorem rg_rebook_out_in (s : State) {p : Nat} (hp : p < 32) (h : BitVec 128) :
    rg (rebook (rebook s p h (entryOut false)) p h (entryIn false)) PODQ_PART_TOTAL 0 p = rg s PODQ_PART_TOTAL 0 p ∧
      rg (rebook (rebook s p h (entryOut false)) p h (entryIn false)) PODQ_PART_HELD 0 p = rg s PODQ_PART_HELD 0 p := by
  have hp : p < 65536 := by omega
  have hne {r r' : Nat} (h : r' ≠ r) := rg_book_ne h hp hp
  unfold rebook
  split
  · exact ⟨rfl, rfl⟩
  · simp (disch := decide) only [entryIn, entryOut, Bool.false_eq_true, if_false, rg_book_self, hne, w32_wrapN_one,
      w32_wrapN_neg_one]
    exact ⟨trivial, by bv_omega⟩

/-- The registers that are no books of any partition. -/
abbrev NoBook (r : Nat) : Prop := r ≠ PODQ_PART_TOTAL ∧ r ≠ PODQ_PART_INPODS ∧ r ≠ PODQ_PART_HELD

/-- An entry leaves every other register, of any pod or partition. -/
theorem rg_rebook {r p n : Nat} (hr : NoBook r) (hp : p < 32) (hn : n < 512) (s : State) (h : BitVec 128) {b : BookEntry}
    (hb : b ∈ bookEntries) : rg (rebook s p h b) r 0 n = rg s r 0 n := by
  obtain ⟨htotal, hpods, hheld⟩ := hr
  have hne {r' : Nat} (h : r ≠ r') := rg_book_ne h (by omega : p < 65536) (by omega : n < 65536)
  have hregs : r ≠ b.1.1 ∧ r ≠ b.2.1 := by
    simp only [bookEntries, List.mem_cons, List.not_mem_nil, or_false] at hb
    rcases hb with rfl | rfl | rfl | rfl <;> simp [entryIn, entryOut, htotal, hpods, hheld]
  unfold rebook
  split
  · rfl
  · rw [hne hregs.2, hne hregs.1]

/-! ### A handle passes: the books, and the job's list of held handles (R227, R228) -/

/-- The handle `h` of partition `p` has moved by the entry `b`; unless `keep`, the list of job `j` becomes what `f` makes of it. -/
def passHandle (s : State) (p : Nat) (h : BitVec 128) (b : BookEntry) (keep : Bool) (j : Nat) (f : List Held → List Held) : State :=
  if keep then rebook s p h b else modJob (rebook s p h b) j (fun x => { x with held := f x.held })

section
variable (s : State) (p : Nat) (h : BitVec 128) (b : BookEntry) (keep : Bool) (j : Nat) (f : List Held → List Held)

theorem podWork_passHandle : PodWork s (passHandle s p h b keep j f) := by
  unfold passHandle
  split
  · exact podWork_of_onlyPages (onlyPages_rebook ..)
  · exact (podWork_of_onlyPages (onlyPages_rebook ..)).trans (podWork_modJob ..)

theorem passHandle_pg : (passHandle s p h b keep j f).pg = (rebook s p h b).pg := by
  unfold passHandle
  split
  · rfl
  · exact modJob_pg ..
theorem passHandle_pod : (passHandle s p h b keep j f).pod = s.pod := by
  unfold passHandle
  rw [apply_ite State.pod, modJob_pod, ite_self, onlyPages_rebook s p h b]
theorem passHandle_cl : (passHandle s p h b keep j f).cl = s.cl := by
  unfold passHandle
  rw [apply_ite State.cl, modJob_cl, ite_self, onlyPages_rebook s p h b]
theorem passHandle_eng : (passHandle s p h b keep j f).eng = s.eng := by
  unfold passHandle
  rw [apply_ite State.eng, modJob_eng, ite_self, onlyPages_rebook s p h b]
theorem passHandle_mem : (passHandle s p h b keep j f).mem = s.mem := by
  unfold passHandle
  rw [apply_ite State.mem, modJob_mem, ite_self, onlyPages_rebook s p h b]

theorem job_passHandle (k : Nat) : job? (passHandle s p h b keep j f) k =
    if k = j ∧ keep = false then (job? s k).map (fun x => { x with held := f x.held }) else job? s k := by
  have hjob : job? (rebook s p h b) k = job? s k := by rw [onlyPages_rebook s p h b]; rfl
  unfold passHandle
  cases keep with
  | true => simp [hjob]
  | false =>
    by_cases hk : k = j
    · subst hk; simp [hjob]
    · simp [hk, hjob]

end

end Sys2Proof.Machine
end

section
/-! The halves of a pod operation (07 R222 to R228): the handle that is written to HBUF, and what sending or taking a handle changes. -/

namespace Sys2Proof.Machine

open Sys2Proof

/-! ### A handle is written to HBUF (R223) -/

theorem onlyClusters_healBad (s : State) (k o n : Nat) : OnlyClusters s (healBad s k o n) := by
  unfold healBad
  simp only
  split <;> rfl

theorem onlyClusters_unitPut (units : List Nat) (n a : Nat) (bs : List Byte) (s : State) : OnlyClusters s (unitPut s units n a bs) := by
  induction n generalizing s a bs with
  | zero => rfl
  | succ n ih =>
    unfold unitPut
    simp only
    split
    · rfl
    · refine OnlyClusters.trans ?_ (ih ..)
      split
      · exact (onlyClusters_setClu ..).trans (onlyClusters_healBad ..)
      · rfl

theorem onlyClusters_writeHandle (s : State) (e : Nat) (d : CopyDesc) (h : BitVec 128) : OnlyClusters s (writeHandle s e d h) := by
  unfold writeHandle putAt
  by_cases he : e < 18
  · simp only [if_pos he]
    rfl
  · simp only [if_neg he]
    exact onlyClusters_unitPut ..

/-- Bytes that lie in one cluster of the unit are written in one piece. -/
theorem unitPut_one_piece (s : State) (c : Nat) (r : List Nat) {a : Nat} {bs : List Byte} (hne : bs ≠ [])
    (hfit : a + bs.length ≤ Config.spadBytes) : unitPut s (c :: r) (bs.length + 1) a bs = healBad (spWrite s c a bs) c a bs.length := by
  have hlen : 0 < bs.length := List.length_pos_iff.2 hne
  have ha : a < Config.spadBytes := by omega
  have hloc : unitLoc s (c :: r) a = some (c, a) := by
    rw [unitLoc, Nat.div_eq_of_lt ha, Nat.mod_eq_of_lt ha]; rfl
  have hmin : Nat.min bs.length (Config.spadBytes - a % Config.spadBytes) = bs.length := by
    rw [Nat.mod_eq_of_lt ha]
    exact Nat.min_eq_left (by omega)
  obtain ⟨m, hm⟩ : ∃ m, bs.length = m + 1 := ⟨bs.length - 1, by omega⟩
  unfold unitPut
  simp only [if_neg hne, hloc, hmin, List.take_length, List.drop_length]
  rw [hm]
  unfold unitPut
  rfl

/-- What heals is the list of bad ranges of the leading cluster. -/
theorem clu_healBad (s : State) (k o n c : Nat) : (clu (healBad s k o n) c).sp = (clu s c).sp ∧
    (c ≠ leadOf s k → clu (healBad s k o n) c = clu s c) := by
  unfold healBad
  simp only
  split
  · exact ⟨rfl, fun _ => rfl⟩
  · rw [clu_setClu]
    split
    · rename_i hc
      exact ⟨by rw [hc], fun hne => absurd hc hne⟩
    · exact ⟨rfl, fun _ => rfl⟩

/-- The bytes of a handle, least significant first. -/
theorem getD_natLe_bits {m : Nat} (v : BitVec m) {n i : Nat} (hi : i < n) :
    (natLe n v.toNat).getD i 0 = (v >>> (8 * i)).setWidth 8 := by
  rw [getD_natLe _ _ _ hi]
  apply BitVec.eq_of_toNat_eq
  rw [BitVec.toNat_ofNat, BitVec.toNat_setWidth, BitVec.toNat_ushiftRight, Nat.shiftRight_eq_div_pow, Nat.pow_mul]

theorem get_write_handle (r : Ram) (a b : Nat) (h : BitVec 128) : (r.write a (natLe 16 h.toNat)).get b =
    if a ≤ b ∧ b < a + 16 then (h >>> (8 * (b - a))).setWidth 8 else r.get b := by
  rw [Ram.get_write, length_natLe]
  exact ite_congr rfl (fun hb => getD_natLe_bits h (by omega)) (fun _ => rfl)

theorem handleAt_writeHandle (s : State) (e : Nat) (d : CopyDesc) (h : BitVec 128) :
    handleAt s (writeHandle s e d h) e d.units (podBuf d.ins.words) h := by
  unfold handleAt
  refine ⟨fun he => ?_, fun he c r hunits hfit => ?_⟩
  · have hwrite : writeHandle s e d h =
        setClu s e { clu s e with xm := (clu s e).xm.write (podBuf d.ins.words) (natLe 16 h.toNat) } := by
      unfold writeHandle putAt
      simp only [if_pos he]
      rfl
    rw [hwrite]
    refine ⟨fun c hc => by rw [clu_setClu, if_neg hc], by rw [clu_setClu, if_pos rfl], fun b => ?_⟩
    rw [clu_setClu, if_pos rfl]
    exact get_write_handle ..
  · have hwrite : writeHandle s e d h =
        healBad (spWrite s c (podBuf d.ins.words) (natLe 16 h.toNat)) c (podBuf d.ins.words) 16 := by
      unfold writeHandle putAt
      simp only [if_neg (by omega : ¬ e < 18), hunits]
      have hone := unitPut_one_piece s c r (a := podBuf d.ins.words) (bs := natLe 16 h.toNat)
        (List.ne_nil_of_length_pos (by simp)) (by simpa using hfit)
      rw [length_natLe] at hone ⊢
      exact hone
    rw [hwrite]
    have hput (k : Nat) : clu (spWrite s c (podBuf d.ins.words) (natLe 16 h.toNat)) k =
        if k = c then { clu s c with sp := (clu s c).sp.write (podBuf d.ins.words) (natLe 16 h.toNat) } else clu s k := clu_setClu ..
    refine ⟨fun k hk hlead => ?_, fun b => ?_⟩
    · rw [(clu_healBad _ _ _ _ k).2 (by rw [(leadOf_congr rfl rfl c).2]; exact hlead), hput, if_neg hk]
    · rw [(clu_healBad _ _ _ _ c).1, hput, if_pos rfl]
      exact get_write_handle ..

theorem handleAt_congr {s s' t t' : State} {e a : Nat} {units : List Nat} {h : BitVec 128} (hat : handleAt s' t' e units a h)
    (hs : s'.cl = s.cl) (ht : t.cl = t'.cl) (hlead : ∀ c, leadOf s' c = leadOf s c) : handleAt s t e units a h := by
  have hcs (c : Nat) : clu s' c = clu s c := by unfold clu; rw [hs]
  have hct (c : Nat) : clu t c = clu t' c := by unfold clu; rw [ht]
  unfold handleAt at *
  simp only [hcs, hlead] at hat
  simp only [hct]
  exact hat

/-! ### The halves of an operation (R224 to R228) -/

theorem rebook_entryIn (s : State) (p : Nat) (h : BitVec 128) (fresh : Bool) : rebook s p h (entryIn fresh) =
    if hHole h then s else if fresh then book (book s PODQ_PART_TOTAL p 1) PODQ_PART_INPODS p 1
      else book (book s PODQ_PART_HELD p (-1)) PODQ_PART_INPODS p 1 := by
  cases fresh <;> rfl
theorem rebook_entryOut (s : State) (p : Nat) (h : BitVec 128) (freed : Bool) : rebook s p h (entryOut freed) =
    if hHole h then s else if freed then book (book s PODQ_PART_TOTAL p (-1)) PODQ_PART_INPODS p (-1)
      else book (book s PODQ_PART_INPODS p (-1)) PODQ_PART_HELD p 1 := by
  cases freed <;> rfl

/-- The state once the handle of `w` is accounted for as one in a pod. -/
def handleSent (s : State) (w : CopyDesc) : State :=
  passHandle s w.part (pushed w) (entryIn (w.podHandle.isNone && podNew w.ins.words))
    (hHole (pushed w) || (w.podHandle.isSome || podNew w.ins.words)) w.ins.job (delFirst (fun q => hSame q.h (pushed w)))
/-- The state once the handle `h` that a POP took from pod `n` is accounted for. -/
def handleTaken (s : State) (w : CopyDesc) (n : Nat) (h : BitVec 128) : State :=
  passHandle s w.part h (entryOut (podFree w.ins.words)) (hHole h || podFree w.ins.words) w.ins.job (· ++ [⟨h, n⟩])

theorem pushHalf_of_room {s : State} {w : CopyDesc} (e : Nat) (h : podTakes s (podDst w.ins.words) w.part = true) :
    pushHalf s e w = podActed (podPut (handleSent s w) (podDst w.ins.words) (pushed w)) e w := by
  unfold pushHalf handleSent passHandle
  simp only [h, rebook_entryIn, Bool.not_true, Bool.false_eq_true, if_false, Bool.or_eq_true]
  rfl

theorem pushHalf_of_no_room {s : State} {w : CopyDesc} (e : Nat) (h : podTakes s (podDst w.ins.words) w.part = false) :
    pushHalf s e w = s := by
  unfold pushHalf
  simp [h]

theorem popHead_of_empty {t : State} {n : Nat} (w : CopyDesc) (h : (podOf t n).q = []) : ∃ ex, popHead t w n = (t, ex, none) := by
  unfold popHead
  simp only [h]
  split
  · unfold examine
    simp only [h]
    exact ⟨_, rfl⟩
  · exact ⟨_, rfl⟩

/-- A pod whose head is not stale gives it (R224, R226). -/
theorem popHead_of_head {t : State} {w : CopyDesc} {n : Nat} {h : BitVec 128} {r : List (BitVec 128)} (hq : (podOf t n).q = h :: r)
    (hfresh : podChk w.ins.words = true → hOld (podMin w.ins.words) h = false) (hex : w.examined = (0, 0)) :
    ∃ ex, popHead t w n = (setPod t n { podOf t n with q := r }, ex, some h) := by
  unfold popHead
  simp only [hq]
  split
  · rename_i hchk
    simp only [hex, ite_self]
    unfold examine
    simp [hq, hfresh hchk]
  · exact ⟨_, rfl⟩

theorem popHalf_of_none {s : State} {e : Nat} {w : CopyDesc} {ex : Nat × Nat} (h : popHead s w (podSrc w.ins.words) = (s, ex, none)) :
    popHalf s e w = modDesc s e w.serial (fun q => { q with examined := ex }) := by
  unfold popHalf
  simp only [h]

theorem popHalf_of_pop {s u : State} {w : CopyDesc} {ex : Nat × Nat} {h : BitVec 128} (e : Nat) (hop : opcodeOf w.ins.words = 0x31)
    (hhead : popHead s w (podSrc w.ins.words) = (u, ex, some h)) :
    popHalf s e w = podActed (writeHandle (handleTaken u w (podSrc w.ins.words) h) e w h) e w := by
  have hno : decide (0x31 = 0x32) = false := rfl
  unfold popHalf handleTaken passHandle
  simp only [hhead, hop, hno, rebook_entryOut, Bool.not_false, Bool.true_and, Bool.false_eq_true, if_false, Bool.or_eq_true]

/-- A MOVE whose pod `n` gave the handle `h` keeps it while it tries to pass it on. -/
def movedDesc (s : State) (h : BitVec 128) (n : Nat) (q : CopyDesc) : CopyDesc :=
  { q with podHandle := some (h, n), podWait := some s.tmu.ticks }

theorem popHalf_of_move {s u : State} {w : CopyDesc} {ex : Nat × Nat} {h : BitVec 128} (e : Nat) (hop : opcodeOf w.ins.words = 0x32)
    (hhead : popHead s w (podSrc w.ins.words) = (u, ex, some h)) :
    let o := rebook u w.part h (entryOut false)
    popHalf s e w = pushHalf (modDesc o e w.serial (movedDesc o h (podSrc w.ins.words))) e (movedDesc o h (podSrc w.ins.words) w) := by
  unfold popHalf
  simp only [hhead, hop, rebook_entryOut, decide_true, Bool.not_true, Bool.false_and, Bool.false_eq_true, if_false, if_true]
  rfl

end Sys2Proof.Machine
end

section
/-! PUSH, POP and MOVE (07 R213, R217, R222 to R228): the next descriptor of an engine is taken up, and waits or is carried out. -/

namespace Sys2Proof.Machine

open Sys2Proof

/-! ### An operation is taken up (R213, R217, R223) -/

/-- What the row of opcode `op` makes of the descriptor `d` of job `x`, written over `q`. -/
def podTaken (s : State) (e op : Nat) (d : CopyDesc) (x : Job) (q : CopyDesc) : CopyDesc :=
  { q with started := true, podWait := some s.tmu.ticks, part := engPart s e x, units := physUnits s x
           dst := (if e < 18 then 1 else 0, podBuf d.ins.words)
           handle := if op = 0x30 then readHandle s e { d with units := physUnits s x } else 0 }
/-- The state in which the operation is tried for the first time. -/
def podBegun (s : State) (e op : Nat) (d : CopyDesc) (x : Job) : State := modDesc s e d.serial (podTaken s e op d x)

section
variable {s : State} {e op : Nat} {d : CopyDesc} {x : Job}

theorem podStart_of_ready (h : PodReady s e op d x) :
    podStart s e op = podsChanged (podTry (podBegun s e op d x) e (podTaken s e op d x d)) := by
  obtain ⟨⟨pre, hnext, hclear⟩, hop, hjob, -, hgood, -⟩ := h
  unfold podStart
  simp only [hnext, hop, hjob, hclear, hgood, ne_eq, not_true_eq_false, if_false, Bool.false_eq_true]
  rfl

theorem opcode_of_ready (h : PodReady s e op d x) : opcodeOf d.ins.words = op := by
  obtain ⟨-, hop, -⟩ := h
  exact hop

theorem job_of_ready (h : PodReady s e op d x) : job? s d.ins.job = some x := by
  obtain ⟨-, -, hjob, -⟩ := h
  exact hjob

theorem soleWaiter_of_ready (h : PodReady s e op d x) : SoleWaiter s e d := by
  obtain ⟨-, -, -, -, -, hidle, hsame, -⟩ := h
  refine ⟨fun k _ => hidle k, hsame, fun q hq _ hpod => ?_⟩
  have hnone := hidle e
  rw [podCur, List.find?_eq_none] at hnone
  have hq := hnone q hq
  simpa [hpod, Classical.or_iff_not_imp_left] using hq

theorem carries_podTaken (h : PodReady s e op d x) (hrow : 0x30 ≤ op ∧ op ≤ 0x32) : Carries d (podTaken s e op d x d) :=
  ⟨by rw [isPod, opcode_of_ready h]; exact decide_eq_true hrow, rfl, rfl, rfl⟩

theorem podHandle_podTaken (h : PodReady s e op d x) : (podTaken s e op d x d).podHandle = none := by
  obtain ⟨-, -, -, -, -, -, -, -, -, -, -, hnone, -⟩ := h
  exact hnone

theorem examined_podTaken (h : PodReady s e op d x) : (podTaken s e op d x d).examined = (0, 0) := by
  obtain ⟨-, -, -, -, -, -, -, -, -, -, -, -, hex⟩ := h
  exact hex

theorem descNow_podBegun (h : PodReady s e op d x) : DescNow s (podBegun s e op d x) e d (podTaken s e op d x d) :=
  (descNow_refl (soleWaiter_of_ready h)).modDesc rfl (podTaken s e op d x)

theorem engPart_lt (h : PodReady s e op d x) : engPart s e x < 32 := by
  obtain ⟨-, -, -, hpart, -⟩ := h
  unfold engPart
  split
  · exact Nat.mod_lt _ (by decide)
  · exact hpart

theorem podTry_push {t : State} {w : CopyDesc} (h : opcodeOf w.ins.words = 0x30) : podTry t e w = pushHalf t e w := by
  simp [podTry, h]
theorem podTry_pop {t : State} {w : CopyDesc} (h : opcodeOf w.ins.words ≠ 0x30) (hnone : w.podHandle = none) :
    podTry t e w = popHalf t e w := by
  simp [podTry, h, hnone]

/-! ### It waits (R224) -/

/-- Only the engines have changed, and the descriptor `d` of engine `e` waits as `w`, whatever it has examined. -/
def Waits (s t : State) (e : Nat) (d w : CopyDesc) : Prop :=
  t = { s with eng := t.eng } ∧ ∃ ex, DescNow s t e d { w with examined := ex }

/-- An operation whose attempts change nothing but what it has examined waits. -/
theorem podStart_waits (h : PodReady s e op d x)
    (htry : ∀ t w, t = { s with eng := t.eng } → w.ins = d.ins → w.serial = d.serial → w.part = engPart s e x → w.podHandle = none →
      podTry t e w = t ∨ ∃ ex, podTry t e w = modDesc t e d.serial (fun q => { q with examined := ex })) :
    podStart s e op = { s with eng := (podStart s e op).eng } ∧ podStands s (podStart s e op) e d false := by
  have hstep (t : State) (ex : Nat × Nat) (ht : t = { s with eng := t.eng })
      (hnow : DescNow s t e d { podTaken s e op d x d with examined := ex }) :
      Waits s (podTry t e { podTaken s e op d x d with examined := ex }) e d (podTaken s e op d x d) := by
    have hnone := podHandle_podTaken h
    rcases htry t { podTaken s e op d x d with examined := ex } ht rfl rfl rfl hnone with heq | ⟨ex', heq⟩ <;> rw [heq]
    · exact ⟨ht, ex, hnow⟩
    · refine ⟨?_, ex', hnow.modDesc rfl fun q => { q with examined := ex' }⟩
      unfold modDesc setEng
      rw [ht]
  have hwaits : Waits s (podStart s e op) e d (podTaken s e op d x d) := by
    rw [podStart_of_ready h]
    refine podsChanged_induct (P := fun t => Waits s t e d (podTaken s e op d x d)) ?_
      (hstep _ (podTaken s e op d x d).examined rfl (descNow_podBegun h))
    rintro t k q ⟨ht, ex, hnow⟩ hcur
    obtain ⟨rfl, rfl⟩ := hnow.cur (soleWaiter_of_ready h) hcur
    exact hstep t ex ht hnow
  obtain ⟨heq, ex, hothers, hq⟩ := hwaits
  obtain ⟨-, -, -, -, -, -, -, -, hacted, -, -, hnone, -⟩ := h
  exact ⟨heq, hothers, _, hq, rfl, rfl, rfl, hacted, hnone, rfl⟩

theorem push_waits (h : PodReady s e 0x30 d x) (hfull : podTakes s (podDst d.ins.words) (engPart s e x) = false) :
    ∃ t, exec (.push e) s = .next t ∧ t = { s with eng := t.eng } ∧ podStands s t e d false := by
  refine ⟨podStart s e 0x30, rfl, podStart_waits h fun t w ht hins _ hpart _ => .inl ?_⟩
  rw [podTry_push (by rw [hins]; exact opcode_of_ready h)]
  apply pushHalf_of_no_room
  rw [hins, hpart, ht]
  exact hfull

theorem pop_waits (h : PodReady s e 0x31 d x) (hempty : (podOf s (podSrc d.ins.words)).q = []) :
    ∃ t, exec (.pop e) s = .next t ∧ t = { s with eng := t.eng } ∧ podStands s t e d false := by
  refine ⟨podStart s e 0x31, rfl, podStart_waits h fun t w ht hins hserial _ hnone => .inr ?_⟩
  obtain ⟨ex, hhead⟩ := popHead_of_empty (t := t) (n := podSrc w.ins.words) w (by rw [hins, ht]; exact hempty)
  rw [podTry_pop (by rw [hins, opcode_of_ready h]; decide) hnone, popHalf_of_none hhead, hserial]
  exact ⟨ex, rfl⟩

/-! ### It is carried out (R224 to R228) -/

/-- What an operation of job `j` in partition `p` leaves: everything outside engines, pods, registers, clusters and the job, and the
balance of the books. -/
def PodFrame (s t : State) (j p : Nat) : Prop :=
  PodWork s t ∧ (∀ k, k ≠ j → job? t k = job? s k) ∧ sameBalance s t p

theorem sameBalance_of_pg {s t u : State} {p : Nat} (h : sameBalance s t p) (hpg : u.pg = t.pg) : sameBalance s u p := by
  unfold sameBalance at *
  rw [rg_congr hpg, rg_congr hpg, rg_congr hpg]
  exact h

section
variable {u v : State} {w : CopyDesc} {hd : BitVec 128} {b : BookEntry} {keep : Bool} {f : List Held → List Held}

/-- An attempt that carries the operation out is the whole step. In `u` the handle `hd` has still to be accounted for; `v` differs from
the state in which it is in pods and clusters alone, and `w` is what the descriptor has become by then. -/
theorem podStart_passes (h : PodReady s e op d x) (hb : b ∈ bookEntries) (hu : PodWork s u) (hjobs : u.disp = s.disp)
    (hbal : sameBalance s u (engPart s e x)) (hv : PodWork (passHandle u (engPart s e x) hd b keep d.ins.job f) v)
    (hvpg : v.pg = (passHandle u (engPart s e x) hd b keep d.ins.job f).pg)
    (hvdisp : v.disp = (passHandle u (engPart s e x) hd b keep d.ins.job f).disp) (hw : Carries d w) (hnow : DescNow s v e d w)
    (htry : podTry (podBegun s e op d x) e (podTaken s e op d x d) = podActed v e w) :
    podStart s e op = podActed v e w ∧ PodFrame s (podStart s e op) d.ins.job (engPart s e x) ∧ podStands s (podStart s e op) e d true ∧
      (podStart s e op).pg = (rebook u (engPart s e x) hd b).pg ∧
      job? (podStart s e op) d.ins.job = some (if keep = true then x else { x with held := f x.held }) := by
  obtain ⟨hdone, hstands⟩ := podsChanged_podActed hnow (soleWaiter_of_ready h) hw
  have heq : podStart s e op = podActed v e w := by rw [podStart_of_ready h, htry, hdone]
  have hpg : (podActed v e w).pg = (rebook u (engPart s e x) hd b).pg := hvpg.trans (passHandle_pg ..)
  have hjob (k : Nat) : job? (podActed v e w) k =
      if k = d.ins.job ∧ keep = false then (job? s k).map (fun x => { x with held := f x.held }) else job? s k := by
    rw [← job_congr hjobs, ← job_passHandle]
    exact job_congr hvdisp k
  rw [heq]
  refine ⟨rfl, ⟨?_, fun k hk => ?_, ?_⟩, hstands, hpg, ?_⟩
  · exact ((hu.trans (podWork_passHandle ..)).trans hv).trans (podWork_modDesc ..)
  · exact (hjob k).trans (if_neg fun hno => hk hno.1)
  · exact sameBalance_of_pg (sameBalance_trans hbal (sameBalance_rebook u (engPart_lt h) hd hb)) hpg
  · rw [hjob, job_of_ready h]
    cases keep <;> simp

end

theorem push_passes (h : PodReady s e 0x30 d x) (hroom : podTakes s (podDst d.ins.words) (engPart s e x) = true) :
    let hd := readHandle s e { d with units := physUnits s x }
    ∃ t, exec (.push e) s = .next t ∧ PodFrame s t d.ins.job (engPart s e x) ∧ podStands s t e d true ∧ t.cl = s.cl ∧
      t.pod = (podPut s (podDst d.ins.words) hd).pod ∧ t.pg = (rebook s (engPart s e x) hd (entryIn (podNew d.ins.words))).pg ∧
      job? t d.ins.job = some (if hHole hd ∨ podNew d.ins.words = true then x
        else { x with held := delFirst (fun q => hSame q.h hd) x.held }) := by
  intro hd
  set B := podBegun s e 0x30 d x
  set w := podTaken s e 0x30 d x d
  have hnone : w.podHandle = none := podHandle_podTaken h
  have hpushed : pushed w = hd := by rw [pushed, hnone]; rfl
  set u := passHandle B (engPart s e x) hd (entryIn (podNew d.ins.words)) (hHole hd || podNew d.ins.words) d.ins.job
    (delFirst (fun q => hSame q.h hd))
  have hsent : handleSent B w = u := by
    unfold handleSent
    rw [hpushed, hnone]
    rfl
  have htry : podTry B e w = podActed (podPut u (podDst d.ins.words) hd) e w := by
    have hop : opcodeOf w.ins.words = 0x30 := opcode_of_ready (d := d) h
    rw [podTry_push hop, pushHalf_of_room (s := B) (w := w) e hroom, hpushed, hsent]
    rfl
  have hnow : DescNow s (podPut u (podDst d.ins.words) hd) e d w := (descNow_podBegun h).congr (passHandle_eng ..)
  obtain ⟨heq, hframe, hstands, hpg, hjob⟩ := podStart_passes h (entryIn_mem _) (podWork_modDesc ..) rfl (sameBalance_refl ..)
    (podWork_podPut ..) rfl rfl (carries_podTaken h (by decide)) hnow htry
  refine ⟨podStart s e 0x30, rfl, hframe, hstands, ?_, ?_, hpg.trans (rebook_pg_congr (s := s) (t := B) rfl ..), ?_⟩
  · rw [heq]
    exact passHandle_cl ..
  · rw [heq]
    exact podPut_pod_congr (s := s) (t := u) (passHandle_pod ..) ..
  · simpa only [Bool.or_eq_true] using hjob

theorem OnlyClusters.podWork {t u : State} (h : OnlyClusters t u) : PodWork t u := by
  unfold OnlyClusters at h
  rw [h]
  rfl

/-- The state in which the head of the descriptor's pod has been taken, with `r` left behind it. -/
def podPopped (s : State) (n : Nat) (r : List (BitVec 128)) : State := setPod s n { podOf s n with q := r }

theorem pop_passes (h : PodReady s e 0x31 d x) {hd : BitVec 128} {r : List (BitVec 128)}
    (hq : (podOf s (podSrc d.ins.words)).q = hd :: r) (hfresh : podChk d.ins.words = true → hOld (podMin d.ins.words) hd = false) :
    ∃ t, exec (.pop e) s = .next t ∧ PodFrame s t d.ins.job (engPart s e x) ∧ podStands s t e d true ∧
      t.pod = (podPopped s (podSrc d.ins.words) r).pod ∧ handleAt s t e (physUnits s x) (podBuf d.ins.words) hd ∧
      t.pg = (rebook s (engPart s e x) hd (entryOut (podFree d.ins.words))).pg ∧
      job? t d.ins.job = some (if hHole hd ∨ podFree d.ins.words = true then x
        else { x with held := x.held ++ [⟨hd, podSrc d.ins.words⟩] }) := by
  set B := podBegun s e 0x31 d x
  set w := podTaken s e 0x31 d x d
  have hop : opcodeOf w.ins.words = 0x31 := opcode_of_ready (d := d) h
  obtain ⟨ex, hhead⟩ := popHead_of_head (t := B) (w := w) hq hfresh (examined_podTaken h)
  set u := podPopped B (podSrc d.ins.words) r
  set v := handleTaken u w (podSrc d.ins.words) hd
  have hwrite : OnlyClusters v (writeHandle v e w hd) := onlyClusters_writeHandle ..
  have htry : podTry B e w = podActed (writeHandle v e w hd) e w :=
    (podTry_pop (by rw [hop]; decide) (podHandle_podTaken h)).trans (popHalf_of_pop e hop hhead)
  have hnow : DescNow s (writeHandle v e w hd) e d w :=
    (descNow_podBegun h).congr ((by rw [hwrite] : (writeHandle v e w hd).eng = v.eng).trans (passHandle_eng ..))
  have hvwork : PodWork s v := ((podWork_modDesc ..).trans (podWork_setPod ..)).trans (podWork_passHandle ..)
  obtain ⟨heq, hframe, hstands, hpg, hjob⟩ := podStart_passes h (u := u) (entryOut_mem _)
    ((podWork_modDesc ..).trans (podWork_setPod ..)) rfl (sameBalance_refl ..) hwrite.podWork (by rw [hwrite]; rfl)
    (by rw [hwrite]; rfl) (carries_podTaken h (by decide)) hnow htry
  refine ⟨podStart s e 0x31, rfl, hframe, hstands, ?_, ?_, hpg.trans (rebook_pg_congr (s := s) (t := u) rfl ..), ?_⟩
  · rw [heq]
    exact (by rw [hwrite] : (writeHandle v e w hd).pod = v.pod).trans (passHandle_pod ..)
  · rw [heq]
    exact handleAt_congr (handleAt_writeHandle v e w hd) (passHandle_cl ..) rfl (leadOf_of_podWork hvwork)
  · simp only [Bool.or_eq_true] at hjob
    exact hjob

theorem move_passes (h : PodReady s e 0x32 d x) {hd : BitVec 128} {r : List (BitVec 128)}
    (hq : (podOf s (podSrc d.ins.words)).q = hd :: r) (hfresh : podChk d.ins.words = true → hOld (podMin d.ins.words) hd = false)
    (hroom : podTakes (podPopped s (podSrc d.ins.words) r) (podDst d.ins.words) (engPart s e x) = true) :
    ∃ t, exec (.move e) s = .next t ∧ PodFrame s t d.ins.job (engPart s e x) ∧ podStands s t e d true ∧
      t.pod = (podPut (podPopped s (podSrc d.ins.words) r) (podDst d.ins.words) hd).pod ∧ t.cl = s.cl ∧ job? t d.ins.job = some x ∧
      rg t PODQ_PART_TOTAL 0 (engPart s e x) = rg s PODQ_PART_TOTAL 0 (engPart s e x) ∧
      rg t PODQ_PART_HELD 0 (engPart s e x) = rg s PODQ_PART_HELD 0 (engPart s e x) := by
  have hp := engPart_lt h
  set p := engPart s e x
  set B := podBegun s e 0x32 d x
  set w := podTaken s e 0x32 d x d
  have hop : opcodeOf w.ins.words = 0x32 := opcode_of_ready (d := d) h
  obtain ⟨ex, hhead⟩ := popHead_of_head (t := B) (w := w) hq hfresh (examined_podTaken h)
  set o := rebook (podPopped B (podSrc d.ins.words) r) p hd (entryOut false)
  have hout : OnlyPages (podPopped B (podSrc d.ins.words) r) o := onlyPages_rebook ..
  set f := movedDesc o hd (podSrc d.ins.words)
  set u := modDesc o e w.serial f
  have hopg : o.pg = (rebook s p hd (entryOut false)).pg := rebook_pg_congr (s := s) (t := podPopped B (podSrc d.ins.words) r) rfl ..
  have hpod : u.pod = (podPopped s (podSrc d.ins.words) r).pod := (by rw [hout]; rfl : o.pod = _)
  have hcfg : rg u PODQ_POD_CFG 0 (podDst d.ins.words) = rg s PODQ_POD_CFG 0 (podDst d.ins.words) :=
    (rg_congr hopg ..).trans (rg_rebook (by decide) hp (Nat.mod_lt _ (by decide)) s hd (entryOut_mem _))
  set v := handleSent u (f w)
  have htry : podTry B e w = podActed (podPut v (podDst d.ins.words) hd) e (f w) := by
    rw [podTry_pop (by rw [hop]; decide) (podHandle_podTaken h), popHalf_of_move e hop hhead]
    exact pushHalf_of_room e ((podTakes_congr hpod hcfg p).trans hroom)
  have hnow : DescNow s u e d (f w) :=
    ((descNow_podBegun h).congr (by rw [hout]; rfl : o.eng = B.eng)).modDesc rfl f
  have hwork : PodWork s u :=
    (((podWork_modDesc ..).trans (podWork_setPod ..)).trans (podWork_of_onlyPages hout)).trans (podWork_modDesc ..)
  have hbal : sameBalance s u p := sameBalance_of_pg (sameBalance_rebook s hp hd (entryOut_mem _)) hopg
  obtain ⟨heq, hframe, hstands, hpg, hjob⟩ := podStart_passes h (u := u) (v := podPut v (podDst d.ins.words) hd) (w := f w)
    (entryIn_mem false) hwork (by rw [hout]; rfl : o.disp = s.disp) hbal (podWork_podPut ..) rfl rfl
    ⟨(carries_podTaken h (by decide)).pod, rfl, rfl, rfl⟩ (hnow.congr (passHandle_eng ..)) htry
  have hbooks : (podStart s e 0x32).pg = (rebook (rebook s p hd (entryOut false)) p hd (entryIn false)).pg :=
    hpg.trans (rebook_pg_congr (t := u) hopg ..)
  refine ⟨podStart s e 0x32, rfl, hframe, hstands, ?_, ?_, ?_, ?_⟩
  · rw [heq]
    exact podPut_pod_congr ((passHandle_pod ..).trans hpod) ..
  · rw [heq]
    exact (passHandle_cl ..).trans (by rw [hout]; rfl : o.cl = s.cl)
  · have hheld : (f w).podHandle.isSome = true := rfl
    simpa [hheld] using hjob
  · rw [rg_congr hbooks, rg_congr hbooks]
    exact rg_rebook_out_in s hp hd
end

end Sys2Proof.Machine
end

section
/-! The end of a pod wait (07 R224) and of the return overflow (R736). -/

namespace Sys2Proof.Machine

open Sys2Proof

/-! ### A limit has passed (R224) -/

/-- The end of the wait of `d` is recorded as a choice, counted in a field of PART_EXPIRE, and its event raised. -/
def expiryNoted (s : State) (d : CopyDesc) (hi lo : Nat) : State :=
  raise (satFld (decision s d.part 2 d.ins.job d.serial 0) PODQ_PART_EXPIRE 0 d.part hi lo) 5 0 1

theorem onlyNoted_expiryNoted (s : State) (d : CopyDesc) (hi lo : Nat) : OnlyNoted s (expiryNoted s d hi lo) :=
  ((onlyRecorded_record ..).1.trans (onlyNoted_of_pages ..)).trans (onlyNoted_raise ..)

/-- Registers of a pod page that a passed limit leaves. -/
theorem rg_expiryNoted {s : State} {d : CopyDesc} (hi lo : Nat) {r n : Nat} (hpart : d.part < 32) (hn : n < 512) (hpage : 4096 ≤ r)
    (hexp : r ≠ PODQ_PART_EXPIRE) (hevt : r ≠ 5 * 4096 + HDR_EVT) (hcount : r ≠ 5 * 4096 + HDR_EVT_COUNT) :
    rg (expiryNoted s d hi lo) r 0 n = rg s r 0 n := by
  unfold expiryNoted
  rw [rg_raise, if_neg (rkey_reg_ne hevt (by omega) (by decide)), if_neg (rkey_reg_ne hcount (by omega) (by decide)), satFld,
    rg_setRg_ne _ _ (rkey_reg_ne hexp (by omega) (by omega))]
  exact (onlyRecorded_record ..).2 r 0 n hpage

theorem evt_expiryNoted (s : State) (d : CopyDesc) (hi lo : Nat) :
    bit (rg (expiryNoted s d hi lo) (5 * 4096 + HDR_EVT) 0 0) 1 = true := by
  unfold expiryNoted
  rw [rg_raise, if_pos rfl]
  exact bit_or_bitW _ (by decide)

/-- A half of PART_EXPIRE written reads as written. -/
theorem fld_setFld_half (w : Word) {hi lo v : Nat} (hhalf : hi = 15 ∧ lo = 0 ∨ hi = 31 ∧ lo = 16) (hv : v ≤ 65535) :
    fld (setFld w hi lo v) hi lo = v := by
  have hw := w.isLt
  unfold fld setFld fld
  rw [BitVec.toNat_ofNat]
  rcases hhalf with ⟨rfl, rfl⟩ | ⟨rfl, rfl⟩ <;> omega

theorem fld_expiryNoted (s : State) {d : CopyDesc} {hi lo : Nat} (hpart : d.part < 32)
    (hhalf : hi = 15 ∧ lo = 0 ∨ hi = 31 ∧ lo = 16) : fld (rg (expiryNoted s d hi lo) PODQ_PART_EXPIRE 0 d.part) hi lo =
      Nat.min 65535 (fld (rg s PODQ_PART_EXPIRE 0 d.part) hi lo + 1) := by
  have hmax : 2 ^ (hi + 1 - lo) - 1 = 65535 := by
    rcases hhalf with ⟨rfl, rfl⟩ | ⟨rfl, rfl⟩ <;> rfl
  have hrec : rg (decision s d.part 2 d.ins.job d.serial 0) PODQ_PART_EXPIRE 0 d.part = rg s PODQ_PART_EXPIRE 0 d.part :=
    (onlyRecorded_record ..).2 _ _ _ (by decide)
  unfold expiryNoted
  rw [rg_raise, if_neg (rkey_reg_ne (by decide) (by omega) (by decide)), if_neg (rkey_reg_ne (by decide) (by omega) (by decide)),
    satFld, rg_setRg_self, hrec, hmax]
  exact fld_setFld_half _ hhalf (Nat.min_le_left ..)

theorem sameBalance_expiryNoted (s : State) {d : CopyDesc} (hi lo : Nat) (hpart : d.part < 32) :
    sameBalance s (expiryNoted s d hi lo) d.part := by
  have hreg {r : Nat} := rg_expiryNoted (s := s) hi lo (r := r) hpart (by omega : d.part < 512)
  unfold sameBalance
  rw [hreg, hreg, hreg] <;> decide

/-! ### What takes the place of the handle (R224, R736) -/

theorem hHole_hSet_failed (h : BitVec 128) : hHole (hSet h 30) = hHole h := by
  unfold hHole hSet
  rw [BitVec.getLsbD_or, show (BitVec.ofNat 128 (2 ^ 30)).getLsbD 31 = false from rfl, Bool.or_false]

theorem rebook_modJob (s : State) (p : Nat) (h : BitVec 128) (b : BookEntry) (j : Nat) (f : Job → Job) :
    rebook (modJob s j f) p h b = modJob (rebook s p h b) j f := by
  have hbook (t : State) (r : Nat) (n : Int) : book (modJob t j f) r p n = modJob (book t r p n) j f := by
    have hjob : job? (book t r p n) j = job? t j := rfl
    unfold modJob
    rw [hjob]
    cases job? t j <;> rfl
  unfold rebook
  split
  · rfl
  · rw [hbook, hbook]

/-- A RETURN pod with room takes the handle; the books follow where they count it as held. -/
theorem deliver_of_room {s : State} {p : Nat} (h : BitVec 128) {src : Nat} (held : Bool)
    (hroom : podTakes s (podCfg s src).2.2.2 p = true) : deliver s p h src held =
      podPut (if held then rebook s p h (entryIn false) else s) (podCfg s src).2.2.2 h := by
  unfold deliver
  rw [rebook_entryIn]
  cases held <;> simp [hroom]

/-- Marking a handle FAILED does not matter to the books. -/
theorem rebook_hSet_failed (s : State) (p : Nat) (h : BitVec 128) (b : BookEntry) : rebook s p (hSet h 30) b = rebook s p h b := by
  unfold rebook
  rw [hHole_hSet_failed]

/-- The state in which a push whose limit has passed gives its handle back: a new one is in the books as one in a pod, another
is off the job's list. -/
def pushGivenUp (s : State) (w : CopyDesc) : State :=
  if (w.podHandle.isNone && podNew w.ins.words) = true then rebook s w.part (pushed w) (entryIn true)
  else if hHole (pushed w) ∨ w.podHandle.isSome ∨ podNew w.ins.words then s else unhold s w.ins.job (pushed w)

theorem pushExpire_eq (s : State) (e : Nat) (d : CopyDesc) : pushExpire (decision s d.part 2 d.ins.job d.serial 0) e d =
    podActed (deliver (pushGivenUp (expiryNoted s d 31 16) d) d.part (hSet (pushed d) 30) (podDst d.ins.words)
      (!(d.podHandle.isNone && podNew d.ins.words))) e d := by
  unfold pushExpire pushGivenUp
  simp only [rebook_entryIn]
  cases hfresh : (d.podHandle.isNone && podNew d.ins.words) with
  | false =>
    simp only [Bool.false_and, Bool.false_eq_true, if_false]
    rfl
  | true =>
    have hnew : podNew d.ins.words = true := (Bool.and_eq_true_iff.1 hfresh).2
    simp only [Bool.true_and, if_true, hnew, or_true, Bool.not_eq_true', ← Bool.not_eq_true, ite_not]
    rfl

/-- Given back, it is accounted for as one in a pod (R227). -/
theorem handleSent_eq_pushGivenUp (s : State) (w : CopyDesc) : handleSent s w =
    if (!(w.podHandle.isNone && podNew w.ins.words)) = true then rebook (pushGivenUp s w) w.part (hSet (pushed w) 30) (entryIn false)
    else pushGivenUp s w := by
  rw [rebook_hSet_failed]
  unfold handleSent pushGivenUp passHandle
  cases hfresh : (w.podHandle.isNone && podNew w.ins.words) with
  | true => simp [(Bool.and_eq_true_iff.1 hfresh).2]
  | false =>
    simp only [Bool.or_eq_true, Bool.not_false, if_true, Bool.false_eq_true, if_false]
    split
    · rfl
    · exact (rebook_modJob ..).symm

theorem pod_pushGivenUp (s : State) (w : CopyDesc) : (pushGivenUp s w).pod = s.pod := by
  unfold pushGivenUp
  split
  · rw [onlyPages_rebook]
  · split
    · rfl
    · exact modJob_pod ..

theorem rg_pushGivenUp {w : CopyDesc} {r n : Nat} (hr : NoBook r) (hpart : w.part < 32) (hn : n < 512) (s : State) :
    rg (pushGivenUp s w) r 0 n = rg s r 0 n := by
  unfold pushGivenUp
  split
  · exact rg_rebook hr hpart hn s _ (entryIn_mem _)
  · split
    · rfl
    · exact rg_modJob ..

/-- A push whose limit has passed sends its handle, marked FAILED, to the RETURN pod of its destination. -/
theorem pushExpire_of_room {s : State} {d : CopyDesc} (e : Nat) (hpart : d.part < 32)
    (hroom : podTakes s (fld (rg s PODQ_POD_CFG 0 (podDst d.ins.words)) 8 0) d.part = true) :
    pushExpire (decision s d.part 2 d.ins.job d.serial 0) e d =
      podActed (podPut (handleSent (expiryNoted s d 31 16) d) (fld (rg s PODQ_POD_CFG 0 (podDst d.ins.words)) 8 0)
        (hSet (pushed d) 30)) e d := by
  set u := pushGivenUp (expiryNoted s d 31 16) d
  have hcfg {n : Nat} (hn : n < 512) : rg u PODQ_POD_CFG 0 n = rg s PODQ_POD_CFG 0 n :=
    (rg_pushGivenUp (by decide) hpart hn _).trans
      (rg_expiryNoted 31 16 hpart hn (by decide) (by decide) (by decide) (by decide))
  have hpod : u.pod = s.pod := (pod_pushGivenUp ..).trans (by rw [onlyNoted_expiryNoted])
  have hret : (podCfg u (podDst d.ins.words)).2.2.2 = fld (rg s PODQ_POD_CFG 0 (podDst d.ins.words)) 8 0 :=
    congrArg (fun w => fld w 8 0) (hcfg (Nat.mod_lt _ (by decide)))
  have htakes : podTakes u (podCfg u (podDst d.ins.words)).2.2.2 d.part = true := by
    rw [hret]
    exact (podTakes_congr hpod (hcfg (Nat.mod_lt _ (by decide))) _).trans hroom
  rw [pushExpire_eq, deliver_of_room _ _ htakes, hret, handleSent_eq_pushGivenUp]

/-- What the end of a wait leaves, whichever half it ends: the descriptor carried out, the event, the count in PART_EXPIRE, and the
balance of the books. -/
def Expired (s t : State) (e : Nat) (d : CopyDesc) (hi lo : Nat) : Prop :=
  podStands s t e d true ∧ bit (rg t (5 * 4096 + HDR_EVT) 0 0) 1 = true ∧
    fld (rg t PODQ_PART_EXPIRE 0 d.part) hi lo = Nat.min 65535 (fld (rg s PODQ_PART_EXPIRE 0 d.part) hi lo + 1) ∧
    sameBalance s t d.part ∧ t.mem = s.mem

section
variable {s : State} {e t0 : Nat} {d : CopyDesc}

/-- The limit of the pod operation that engine `e` waits with has passed, and no other engine waits with one. -/
structure LimitPassed (s : State) (e t0 : Nat) (d : CopyDesc) : Prop where
  cur : podCur s e = some d
  sole : SoleWaiter s e d
  part : d.part < 32
  since : d.podWait = some t0
  lapsed : passed s t0 (wd d.ins.words 2).toNat = true
  live : replaying s d.part = false

theorem exec_podWaitExpire (h : LimitPassed s e t0 d) : exec (.podWaitExpire e) s =
    .next (podsChanged (podExpire (decision s d.part 2 d.ins.job d.serial 0) e d)) := by
  show execPodWaitExpire e s = _
  unfold execPodWaitExpire
  simp only [h.cur, h.since, h.lapsed, h.live, Bool.not_false, Bool.and_self, if_true]

theorem carries_of_limitPassed (h : LimitPassed s e t0 d) : Carries d d := by
  obtain ⟨-, hpod, hstarted, -⟩ := podCur_eq_some h.cur
  exact ⟨hpod, rfl, rfl, hstarted⟩

theorem descNow_of_eng (h : LimitPassed s e t0 d) {v : State} (heng : v.eng = s.eng) : DescNow s v e d d :=
  (descNow_refl h.sole).congr heng

theorem pop_expires (h : LimitPassed s e t0 d) (hop : opcodeOf d.ins.words ≠ 0x30) (hnone : d.podHandle = none) :
    ∃ t, exec (.podWaitExpire e) s = .next t ∧ Expired s t e d 15 0 ∧ t.pod = s.pod ∧
      handleAt s t e d.units (podBuf d.ins.words) (BitVec.ofNat 128 (podMin d.ins.words * 2 ^ 32 + 2 ^ 31 + 2 ^ 27 + 0xFFFFFF)) := by
  set hole := hHoleFor (podMin d.ins.words)
  set n := expiryNoted s d 15 0
  have hnoted : OnlyNoted s n := onlyNoted_expiryNoted ..
  have hwrite : OnlyClusters n (writeHandle n e d hole) := onlyClusters_writeHandle ..
  have heng : (writeHandle n e d hole).eng = s.eng := by rw [hwrite, hnoted]
  have hpg : (podActed (writeHandle n e d hole) e d).pg = n.pg := (by rw [hwrite] : (writeHandle n e d hole).pg = n.pg)
  obtain ⟨hdone, hstands⟩ := podsChanged_podActed (descNow_of_eng h heng) h.sole (carries_of_limitPassed h)
  have hexpire : podExpire (decision s d.part 2 d.ins.job d.serial 0) e d = podActed (writeHandle n e d hole) e d := by
    unfold podExpire
    rw [if_neg (by simp [hop, hnone])]
    rfl
  refine ⟨_, (exec_podWaitExpire h).trans (congrArg _ ((congrArg podsChanged hexpire).trans hdone)),
    ⟨hstands, ?_, ?_, ?_, ?_⟩, ?_, ?_⟩
  · rw [rg_congr hpg]
    exact evt_expiryNoted ..
  · rw [rg_congr hpg]
    exact fld_expiryNoted s h.part (.inl ⟨rfl, rfl⟩)
  · exact sameBalance_of_pg (sameBalance_expiryNoted s 15 0 h.part) hpg
  · exact (by rw [hwrite, hnoted] : (writeHandle n e d hole).mem = s.mem)
  · exact (by rw [hwrite, hnoted] : (writeHandle n e d hole).pod = s.pod)
  · have hmin : podMin d.ins.words % 65536 = podMin d.ins.words := Nat.mod_mod ..
    rw [← hmin]
    exact handleAt_congr (handleAt_writeHandle n e d hole) (by rw [hnoted]) rfl
      fun c => (leadOf_congr (by rw [hnoted]) (by rw [hnoted]) c).2

theorem push_expires (h : LimitPassed s e t0 d) (hop : opcodeOf d.ins.words = 0x30 ∨ d.podHandle.isSome = true)
    (hroom : podTakes s (fld (rg s PODQ_POD_CFG 0 (podDst d.ins.words)) 8 0) d.part = true) :
    ∃ t, exec (.podWaitExpire e) s = .next t ∧ Expired s t e d 31 16 ∧ t.cl = s.cl ∧
      t.pod = (podPut s (fld (rg s PODQ_POD_CFG 0 (podDst d.ins.words)) 8 0) (pushed d ||| 0x40000000)).pod := by
  set ret := fld (rg s PODQ_POD_CFG 0 (podDst d.ins.words)) 8 0
  set n := expiryNoted s d 31 16
  have hnoted : OnlyNoted s n := onlyNoted_expiryNoted ..
  set v := podPut (handleSent n d) ret (hSet (pushed d) 30)
  have heng : v.eng = s.eng := (passHandle_eng ..).trans (by rw [hnoted])
  have hpg : (podActed v e d).pg = (rebook n d.part (pushed d) (entryIn (d.podHandle.isNone && podNew d.ins.words))).pg :=
    passHandle_pg ..
  obtain ⟨hdone, hstands⟩ := podsChanged_podActed (descNow_of_eng h heng) h.sole (carries_of_limitPassed h)
  have hexpire : podExpire (decision s d.part 2 d.ins.job d.serial 0) e d = podActed v e d := by
    unfold podExpire
    rw [if_pos hop]
    exact pushExpire_of_room e h.part hroom
  have hreg {r k : Nat} (hr : NoBook r) (hk : k < 512) : rg (podActed v e d) r 0 k = rg n r 0 k := by
    rw [rg_congr hpg]
    exact rg_rebook hr h.part hk n _ (entryIn_mem _)
  refine ⟨_, (exec_podWaitExpire h).trans (congrArg _ ((congrArg podsChanged hexpire).trans hdone)),
    ⟨hstands, ?_, ?_, ?_, ?_⟩, ?_, ?_⟩
  · rw [hreg (by decide) (by decide)]
    exact evt_expiryNoted ..
  · rw [hreg (by decide) (by have := h.part; omega)]
    exact fld_expiryNoted s h.part (.inr ⟨rfl, rfl⟩)
  · exact sameBalance_of_pg (sameBalance_trans (sameBalance_expiryNoted s 31 16 h.part)
      (sameBalance_rebook n h.part _ (entryIn_mem _))) hpg
  · exact (passHandle_mem ..).trans (by rw [hnoted])
  · exact (passHandle_cl ..).trans (by rw [hnoted])
  · exact podPut_pod_congr ((passHandle_pod ..).trans (by rw [hnoted])) ..

end

/-! ### The return overflow (R736) -/

theorem overflow_setOverflow (s : State) (p k : Nat) (l : List (BitVec 128 × Nat)) :
    overflow (setOverflow s p l) k = if k = p then l else overflow s k := by
  simp only [overflow, setOverflow, tgetD_tsetD]
theorem podOf_setOverflow (s : State) (p n : Nat) (l : List (BitVec 128 × Nat)) : podOf (setOverflow s p l) n = podOf s n := rfl
theorem podOf_setPod (s : State) (n k : Nat) (x : Pod) : podOf (setPod s n x) k = if k = n then x else podOf s k := by
  simp only [podOf, setPod, tgetD_tsetD]
theorem overflow_podPut (s : State) (n k : Nat) (h : BitVec 128) : overflow (podPut s n h) k = overflow s k := rfl
theorem podCur_congr {s t : State} (h : t.eng = s.eng) (k : Nat) : podCur t k = podCur s k := by
  unfold podCur engOf
  rw [h]

theorem delFirst_append {α : Type} {P : α → Bool} {a b : List α} {x : α} (ha : ∀ y ∈ a, P y = false) (hx : P x = true) :
    delFirst P (a ++ x :: b) = a ++ b := by
  induction a with
  | nil => simp [delFirst, hx]
  | cons y a ih =>
    rw [List.forall_mem_cons] at ha
    simp [delFirst, ha.1, ih ha.2]

/-- The first handle of the overflow that its RETURN pod can take leaves it. -/
theorem drainOverflow_of_first {s : State} {p : Nat} {a b : List (BitVec 128 × Nat)} {q : BitVec 128 × Nat}
    (hlist : overflow s p = a ++ q :: b) (hno : ∀ r ∈ a, podTakes s r.2 p = false) (hyes : podTakes s q.2 p = true) :
    drainOverflow s p = podPut (setOverflow s p (a ++ b)) q.2 q.1 := by
  have hfind : (overflow s p).find? (fun q => podTakes s q.2 p) = some q := by
    rw [hlist, List.find?_append, List.find?_eq_none.2 (fun r hr => by simp [hno r hr]), List.find?_cons_of_pos (by exact hyes)]
    rfl
  have hdel : delFirst (fun r => decide (r = q)) (overflow s p) = a ++ b := by
    rw [hlist]
    refine delFirst_append (fun r hr => decide_eq_false ?_) (decide_eq_true rfl)
    rintro rfl
    rw [hno r hr] at hyes
    cases hyes
  unfold drainOverflow
  simp only [hfind, hdel]

theorem overflow_drains {s : State} {p : Nat} {a b : List (BitVec 128 × Nat)} {q : BitVec 128 × Nat} (hidle : ∀ k, podCur s k = none)
    (hlist : overflow s p = a ++ q :: b) (hno : ∀ r ∈ a, podTakes s r.2 p = false) (hyes : podTakes s q.2 p = true) :
    ∃ t, exec (.returnOverflowDrain p) s = .next t ∧ t = { s with pod := t.pod } ∧ overflow t p = a ++ b ∧
      (∀ k, k ≠ p → overflow t k = overflow s k) ∧ podOf t q.2 = ⟨(podOf s q.2).q ++ [q.1],
        Nat.max (podOf s q.2).high ((podOf s q.2).q.length + 1), (podOf s q.2).pushes + 1⟩ ∧
      ∀ k, k ≠ q.2 → podOf t k = podOf s k := by
  have hdrain := drainOverflow_of_first hlist hno hyes
  set t := podPut (setOverflow s p (a ++ b)) q.2 q.1 with ht
  have hexec : exec (.returnOverflowDrain p) s = .next t := by
    show Host.Outcome.next (podsChanged (drainOverflow s p)) = _
    rw [hdrain, podsChanged_of_idle (s := t) fun k => (podCur_congr (s := s) rfl k).trans (hidle k)]
  refine ⟨t, hexec, rfl, ?_, fun k hk => ?_, ?_, fun k hk => ?_⟩
  · rw [ht, overflow_podPut, overflow_setOverflow, if_pos rfl]
  · rw [ht, overflow_podPut, overflow_setOverflow, if_neg hk]
  · rw [ht, podPut, podOf_setPod, if_pos rfl, podOf_setOverflow]
  · rw [ht, podPut, podOf_setPod, if_neg hk, podOf_setOverflow]

end Sys2Proof.Machine
end

section

namespace Sys2Proof.Proofs

open Sys2Proof Sys2Proof.Machine

theorem podsPassHandles : PodsPassHandles := by
  intro s e d x ws p units frame
  refine ⟨?_, fun h hempty => pop_waits h hempty, ?_⟩
  · intro h hd
    refine ⟨fun hroom => ?_, fun hfull => push_waits h hfull⟩
    obtain ⟨t, hexec, ⟨hwork, hjobs, hbal⟩, hstands, hcl, hpod, hpg, hjob⟩ := push_passes h hroom
    rw [rebook_entryIn] at hpg
    exact ⟨t, hexec, ⟨hwork, hjobs, hbal⟩, hstands, hcl, hpod, hpg, hjob⟩
  · intro hd r hq hfresh popped
    refine ⟨fun h => ?_, fun h hroom => ?_⟩
    · obtain ⟨t, hexec, ⟨hwork, hjobs, hbal⟩, hstands, hpod, hat, hpg, hjob⟩ := pop_passes h hq hfresh
      rw [rebook_entryOut] at hpg
      exact ⟨t, hexec, ⟨hwork, hjobs, hbal⟩, hstands, hpod, hat, hpg, hjob⟩
    · obtain ⟨t, hexec, ⟨hwork, hjobs, hbal⟩, hrest⟩ := move_passes h hq hfresh hroom
      exact ⟨t, hexec, ⟨hwork, hjobs, hbal⟩, hrest⟩

theorem podWaitsEnd : PodWaitsEnd := by
  intro s
  refine ⟨?_, fun p a b q hidle hlist hno hyes => overflow_drains hidle hlist hno hyes⟩
  intro e t0 d hcur hothers hpart hsince hlapsed hlive _ _ hsame hrest ws seen
  have h : LimitPassed s e t0 d := ⟨hcur, ⟨hothers, hsame, hrest⟩, hpart, hsince, hlapsed, hlive⟩
  refine ⟨fun hop hnone => pop_expires h hop hnone, ?_⟩
  intro hop hd ret hroom
  have hpushed : hd = pushed d := by
    show (d.podHandle.map (fun q => q.1)).getD d.handle = _
    unfold pushed
    cases d.podHandle <;> rfl
  rw [hpushed]
  exact push_expires h hop hroom

/-- Settles O22: an operation that is carried out leaves nobody waiting, one that is not stays as it is at every round, and the end of
a wait carries it out with a hole or through the RETURN pod. -/
theorem podsPassHandlesAndEndWaits : Obligations.PodsPassHandlesAndEndWaits := ⟨podsPassHandles, podWaitsEnd⟩

end Sys2Proof.Proofs
end

section
/-! Operations of the sync unit (08 R242 to R252): what a change of an object leaves, which waits it releases, and their order. -/

namespace Sys2Proof.Machine

open Sys2Proof

/-! ### Values of objects (R242, R243) -/

/-- A state that differs in the sync unit, the pages and what was sent. -/
def OnlyObjects (s t : State) : Prop := t = { s with sync := t.sync, pg := t.pg, out := t.out }

theorem OnlyObjects.trans {s t u : State} (h : OnlyObjects s t) (h' : OnlyObjects t u) : OnlyObjects s u := by
  unfold OnlyObjects at h h'
  rw [h] at h'
  exact h'

/-- Object `o` has come to hold `v`: the other objects and every wait are as before. -/
structure ObjectHolds (s t : State) (o : Nat) (v : Word) : Prop where
  frame : OnlyObjects s t
  waits : t.sync.waits = s.sync.waits
  value : objVal t o = v
  others : ∀ k, k ≠ o → objVal t k = objVal s k

theorem objectHolds_refl (s : State) (o : Nat) : ObjectHolds s s o (objVal s o) := ⟨rfl, rfl, rfl, fun _ _ => rfl⟩

theorem ObjectHolds.trans {s t u : State} {o : Nat} {v w : Word} (h : ObjectHolds s t o v) (h' : ObjectHolds t u o w) :
    ObjectHolds s u o w :=
  ⟨h.frame.trans h'.frame, h'.waits.trans h.waits, h'.value, fun k hk => (h'.others k hk).trans (h.others k hk)⟩

theorem objectHolds_objPut (s : State) (o : Nat) (v unit : Word) : ObjectHolds s (objPut s o v unit) o v :=
  ⟨rfl, rfl, by rw [objVal_objPut, if_pos rfl], fun k hk => by rw [objVal_objPut, if_neg hk]⟩

theorem objectHolds_setRg {s t : State} {o : Nat} {v : Word} (h : ObjectHolds s t o v) (r i sel : Nat) (w : Word) :
    ObjectHolds s (setRg t r i sel w) o v := h.trans ⟨rfl, rfl, h.value, fun _ _ => rfl⟩

theorem objectHolds_raise {s t : State} {o : Nat} {v : Word} (h : ObjectHolds s t o v) (c i b : Nat) :
    ObjectHolds s (raise t c i b) o v := by
  refine h.trans ⟨?_, by rw [raise_sync], ?_, fun k _ => ?_⟩
  · obtain ⟨_, _, heq⟩ := raise_eq t c i b
    rw [heq]; rfl
  · rw [objVal, raise_sync]; exact h.value
  · rw [objVal, raise_sync]; rfl

/-- ADD leaves the saturated sum (R243). -/
theorem objectHolds_objAddTo (s : State) (o : Nat) (v unit : Word) :
    ObjectHolds s (objAddTo s o v unit) o (satAdd (objVal s o) v.toNat) := by
  unfold objAddTo satAdd
  simp only
  split
  · rw [show Nat.min 0xFFFFFFFF ((objVal s o).toNat + v.toNat) = 0xFFFFFFFF from Nat.min_eq_left (by omega)]
    exact objectHolds_raise (objectHolds_setRg (objectHolds_objPut ..) ..) ..
  · rw [show Nat.min 0xFFFFFFFF ((objVal s o).toNat + v.toNat) = (objVal s o).toNat + v.toNat from Nat.min_eq_right (by omega)]
    exact objectHolds_objPut ..

theorem toNat_satAdd (w : Word) (n : Nat) : (satAdd w n).toNat = Nat.min 0xFFFFFFFF (w.toNat + n) := by
  have hle : Nat.min 0xFFFFFFFF (w.toNat + n) ≤ 0xFFFFFFFF := Nat.min_le_left ..
  rw [satAdd, w32, BitVec.toNat_ofNat, Nat.mod_eq_of_lt (by omega)]

/-! ### WAKE reaches the cores of a job (05 R155) -/

/-- Interrupt sources may have been raised on cores, nothing else has changed. -/
structure Alerted (s t : State) : Prop where
  frame : t = { s with cl := t.cl }
  cores : ∀ d, ∃ q, clu t d = { clu s d with clv := { (clu s d).clv with irq := (clu s d).clv.irq ||| q } }

theorem alerted_refl (s : State) : Alerted s s := ⟨rfl, fun d => ⟨0#4, by rw [BitVec.or_zero]⟩⟩

theorem Alerted.trans {s t u : State} (h : Alerted s t) (h' : Alerted t u) : Alerted s u := by
  refine ⟨?_, fun d => ?_⟩
  · have := h'.frame
    rw [h.frame] at this
    exact this
  · obtain ⟨q, hq⟩ := h.cores d
    obtain ⟨q', hq'⟩ := h'.cores d
    exact ⟨q ||| q', by rw [hq', hq, BitVec.or_assoc]⟩

theorem alerted_raiseIrq (s : State) (c b : Nat) : Alerted s (raiseIrq s c b) := by
  unfold raiseIrq
  simp only
  split
  · exact alerted_refl s
  · refine ⟨rfl, fun d => ?_⟩
    rw [clu_setClv]
    split
    · rename_i hd
      rw [hd]
      exact ⟨_, rfl⟩
    · exact (alerted_refl s).cores d

/-- WAKE on a core, where it leads its unit. -/
def wakeCore (s : State) (c : Nat) : State := if leadOf s c = c then raiseIrq s c 1 else s

theorem alerted_wakeCore (s : State) (c : Nat) : Alerted s (wakeCore s c) := by
  unfold wakeCore
  split
  · exact alerted_raiseIrq s c 1
  · exact alerted_refl s

theorem alerted_wakeCores (cs : List Nat) (s : State) : Alerted s (cs.foldl wakeCore s) :=
  List.foldlRecOn cs wakeCore (alerted_refl s) fun t ht c _ => ht.trans (alerted_wakeCore t c)

/-! ### Entries that leave the table (R251) -/

/-- What stands in a list beside one of its places. -/
theorem mem_append_of_ne {α : Type} {l r : List α} {v w : α} (h : v ∈ l ++ w :: r) (hne : v ≠ w) : v ∈ l ++ r := by
  simp only [List.mem_append, List.mem_cons] at h ⊢
  exact h.imp_right fun h => h.resolve_left hne

/-- Entries are told apart by their numbers. -/
def DistinctIds (s : State) : Prop := (s.sync.waits.map (fun w => w.id)).Nodup

/-- The entry that is taken away is the first with its number. -/
theorem waits_delWait {s : State} {l r : List WaitEnt} {w : WaitEnt} (h : s.sync.waits = l ++ w :: r)
    (hfirst : ∀ v ∈ l, v.id ≠ w.id) : (delWait s w.id).sync.waits = l ++ r := by
  show delFirst _ s.sync.waits = _
  rw [h]
  exact delFirst_append (fun v hv => decide_eq_false (hfirst v hv)) (decide_eq_true rfl)

theorem id_ne_of_distinctIds {s : State} {l r : List WaitEnt} {w : WaitEnt} (hd : DistinctIds s)
    (h : s.sync.waits = l ++ w :: r) : ∀ v ∈ l, v.id ≠ w.id := fun v hv => by
  unfold DistinctIds at hd
  rw [h, List.map_append, List.nodup_append] at hd
  exact hd.2.2 _ (List.mem_map_of_mem hv) _ (List.mem_map_of_mem List.mem_cons_self)

theorem spend_sync (s : State) (c n : Nat) : (spend s c n).sync = s.sync := by
  unfold spend
  simp only
  split <;> split <;> simp

theorem retire_sync (s : State) (c len n : Nat) (loads : List (LoadDest × Word)) (br : Option (Option Nat)) :
    (retire s c len n loads br).sync = s.sync := by
  simp only [retire, setClu_sync, spend_sync]

theorem finishSync_sync (s : State) (c : Nat) (w : WaitEnt) (n : Nat) : (finishSync s c w n).sync = s.sync := by
  unfold finishSync
  simp only
  split
  · rfl
  · rw [retire_sync]; rfl

theorem postRec_sync (s : State) (p r : Nat) (ws : List Word) : (postRec s p r ws).sync = s.sync := by
  obtain ⟨_, _, _, heq⟩ := postRec_hostOnly s p r ws
  rw [heq]

/-- The end of a registration: its job learns the outcome, and the job's cores are woken (R246, R256). -/
theorem completeWait_reg {w : WaitEnt} {j : Nat} (hw : w.who = .reg j) (s : State) (n : Nat) : completeWait s w n =
    (coresOf (modJob (if n = 1 then raise s 4 0 1 else s) j (fun x => { x with regDone := some n })) j).foldl wakeCore
      (modJob (if n = 1 then raise s 4 0 1 else s) j (fun x => { x with regDone := some n })) := by
  unfold completeWait
  simp only [hw]
  rfl

/-- The end of a wait that aborts no job leaves the sync unit. -/
theorem completeWait_sync {w : WaitEnt} {n : Nat} (h : n = 0 ∨ w.cont = true ∨ ∃ j, w.who = .reg j) (s : State) :
    (completeWait s w n).sync = s.sync := by
  have hgoes : (∀ j, w.who ≠ .reg j) → n = 0 ∨ w.cont = true := fun hno =>
    h.imp_right (Or.resolve_right · fun ⟨j, hj⟩ => hno j hj)
  have hraised : (if n = 1 then raise s 4 0 1 else s).sync = s.sync := by
    split
    · exact raise_sync ..
    · rfl
  unfold completeWait
  cases hw : w.who with
  | core c => simp only [if_pos (hgoes (by simp [hw])), finishSync_sync, hraised]
  | reg j =>
    refine (congrArg State.sync (alerted_wakeCores _ _).frame).trans ?_
    exact (modJob_sync ..).trans hraised
  | yieldReg j c => simp only [if_pos (hgoes (by simp [hw])), modJob_sync, hraised]
  | host p lo hi seq r => exact postRec_sync ..
  | engine unit => rfl
  | peer port rp => rfl

/-! ### ACQUIREs in their order (R252) -/

/-- ACQUIREs on object `o`, in the order of their arrival. -/
def acquiresOn (s : State) (o : Nat) : List WaitEnt := s.sync.waits.filter (fun w => decide (w.obj = o ∧ w.op = 8))

/-- The first `n` ACQUIREs on object `o` have been served: it holds so much less, and no other entry has left. -/
structure AcquiresServed (s t : State) (o n : Nat) : Prop where
  rest : acquiresOn t o = (acquiresOn s o).drop n
  balance : (objVal t o).toNat + (((acquiresOn s o).take n).map (fun w => w.operand.toNat)).sum = (objVal s o).toNat
  sub : t.sync.waits.Sublist s.sync.waits
  kept : ∀ w ∈ s.sync.waits, ¬ (w.obj = o ∧ w.op = 8) → w ∈ t.sync.waits
  others : ∀ k, k ≠ o → objVal t k = objVal s k

theorem acquiresServed_none (s : State) (o : Nat) : AcquiresServed s s o 0 :=
  ⟨rfl, by simp, List.Sublist.refl _, fun _ hw _ => hw, fun _ _ => rfl⟩

/-- One more is served before the rest are. -/
theorem AcquiresServed.cons {s u t : State} {o n : Nat} {w : WaitEnt} {l r : List WaitEnt} (hs : s.sync.waits = l ++ w :: r)
    (hw : w.obj = o ∧ w.op = 8) (hl : ∀ v ∈ l, ¬ (v.obj = o ∧ v.op = 8)) (hu : u.sync.waits = l ++ r)
    (hval : (objVal u o).toNat + w.operand.toNat = (objVal s o).toNat) (hothers : ∀ k, k ≠ o → objVal u k = objVal s k)
    (h : AcquiresServed u t o n) : AcquiresServed s t o (n + 1) := by
  have hnone : l.filter (fun w => decide (w.obj = o ∧ w.op = 8)) = [] :=
    List.filter_eq_nil_iff.2 fun v hv => by rw [decide_eq_true_eq]; exact hl v hv
  have hacqs : acquiresOn s o = w :: acquiresOn u o := by
    rw [acquiresOn, acquiresOn, hs, hu, List.filter_append, List.filter_append, hnone, List.nil_append, List.nil_append,
      List.filter_cons_of_pos (by rwa [decide_eq_true_eq])]
  have hsub : u.sync.waits.Sublist s.sync.waits := by
    rw [hs, hu]; exact (List.sublist_cons_self w r).append_left l
  refine ⟨?_, ?_, h.sub.trans hsub, fun v hv hne => h.kept v ?_ hne, fun k hk => (h.others k hk).trans (hothers k hk)⟩
  · rw [h.rest, hacqs, List.drop_succ_cons]
  · have := h.balance
    rw [hacqs, List.take_succ_cons, List.map_cons, List.sum_cons]
    omega
  · rw [hs] at hv
    rw [hu]
    exact mem_append_of_ne hv fun he => hne (he ▸ hw)

theorem DistinctIds.sublist {s t : State} (hd : DistinctIds s) (h : t.sync.waits.Sublist s.sync.waits) : DistinctIds t :=
  List.Nodup.sublist (h.map _) hd

theorem serveAcquires_spec (o : Nat) : ∀ (n : Nat) (s : State), DistinctIds s → (acquiresOn s o).length ≤ n →
    ∃ k, AcquiresServed s (serveAcquires s o n) o k ∧
      ∀ w ∈ (acquiresOn (serveAcquires s o n) o).head?, objVal (serveAcquires s o n) o < w.operand := by
  intro n
  induction n with
  | zero =>
    intro s _ hlen
    have hnil : acquiresOn s o = [] := List.length_eq_zero_iff.1 (by omega)
    exact ⟨0, acquiresServed_none s o, by simp [serveAcquires, hnil]⟩
  | succ n ih =>
    intro s hd hlen
    unfold serveAcquires
    have hhead : s.sync.waits.find? (fun w => decide (w.obj = o ∧ w.op = 8)) = (acquiresOn s o).head? := by
      rw [acquiresOn, List.head?_filter]
    split
    case h_1 hfind =>
      rw [hfind] at hhead
      exact ⟨0, acquiresServed_none s o, by simp [← hhead]⟩
    case h_2 w hfind =>
      obtain ⟨hw, l, r, hsplit, hl⟩ := List.find?_eq_some_iff_append.1 hfind
      rw [decide_eq_true_eq] at hw
      have hl : ∀ v ∈ l, ¬ (v.obj = o ∧ v.op = 8) := fun v hv => by
        have := hl v hv
        rwa [Bool.not_eq_true', decide_eq_false_iff_not] at this
      by_cases hle : w.operand.toNat ≤ (objVal s o).toNat
      · rw [if_pos hle]
        simp only
        set u := completeWait (objPut (delWait s w.id) o (objVal s o - w.operand) w.handle) w 0 with hu
        have hsync : u.sync = (objPut (delWait s w.id) o (objVal s o - w.operand) w.handle).sync :=
          completeWait_sync (Or.inl rfl) _
        have hval (k : Nat) : objVal u k = if k = o then objVal s o - w.operand else objVal s k := by
          rw [objVal, hsync]
          exact objVal_objPut ..
        have hwaits : u.sync.waits = l ++ r := by
          rw [hsync]
          exact waits_delWait hsplit (id_ne_of_distinctIds hd hsplit)
        have hstep (t : State) (k : Nat) (h : AcquiresServed u t o k) : AcquiresServed s t o (k + 1) :=
          h.cons hsplit hw hl hwaits (by rw [hval, if_pos rfl, BitVec.toNat_sub_of_le (BitVec.le_def.2 hle)]; omega)
            fun k hk => by rw [hval, if_neg hk]
        have hone := (hstep u 0 (acquiresServed_none u o))
        obtain ⟨k, hserved, hleft⟩ := ih u (hd.sublist hone.sub) (by rw [hone.rest, List.length_drop]; omega)
        exact ⟨k + 1, hstep _ k hserved, hleft⟩
      · rw [if_neg hle]
        refine ⟨0, acquiresServed_none s o, fun v hv => ?_⟩
        rw [← hhead, hfind] at hv
        cases hv
        exact BitVec.lt_def.2 (not_le.1 hle)

/-! ### The other waits (R251, R253) -/

theorem lowest_eq_none {l : List WaitEnt} : lowest l = none ↔ l = [] := by
  cases l with
  | nil => simp [lowest]
  | cons w l =>
    simp only [lowest, reduceCtorEq, iff_false]
    split
    · simp
    · split <;> simp

theorem lowest_mem {l : List WaitEnt} {w : WaitEnt} (h : lowest l = some w) : w ∈ l := by
  induction l generalizing w with
  | nil => cases h
  | cons v l ih =>
    unfold lowest at h
    split at h
    · cases h; exact List.mem_cons_self
    · rename_i u hu
      split at h
      · cases h; exact List.mem_cons_of_mem _ (ih hu)
      · cases h; exact List.mem_cons_self

/-- Waits on object `o` but ACQUIREs may have been released: no value has changed, and no other entry has left. -/
structure OthersReleased (s t : State) (o : Nat) : Prop where
  objs : t.sync.objs = s.sync.objs
  sub : t.sync.waits.Sublist s.sync.waits
  kept : ∀ w ∈ s.sync.waits, ¬ (w.obj = o ∧ w.op ≠ 8) → w ∈ t.sync.waits
  acquires : acquiresOn t o = acquiresOn s o

theorem othersReleased_refl (s : State) (o : Nat) : OthersReleased s s o :=
  ⟨rfl, List.Sublist.refl _, fun _ hw _ => hw, rfl⟩

theorem OthersReleased.trans {s t u : State} {o : Nat} (h : OthersReleased s t o) (h' : OthersReleased t u o) :
    OthersReleased s u o :=
  ⟨h'.objs.trans h.objs, h'.sub.trans h.sub, fun w hw hne => h'.kept w (h.kept w hw hne) hne, h'.acquires.trans h.acquires⟩

theorem OthersReleased.objVal {s t : State} {o : Nat} (h : OthersReleased s t o) (k : Nat) :
    Machine.objVal t k = Machine.objVal s k := by
  unfold Machine.objVal
  rw [h.objs]

theorem othersReleased_one {s u : State} {o : Nat} {w : WaitEnt} {l r : List WaitEnt} (hs : s.sync.waits = l ++ w :: r)
    (hw : w.obj = o ∧ w.op ≠ 8) (hobjs : u.sync.objs = s.sync.objs) (hu : u.sync.waits = l ++ r) : OthersReleased s u o := by
  have hskip : ¬ (w.obj = o ∧ w.op = 8) := fun h => hw.2 h.2
  refine ⟨hobjs, ?_, fun v hv hne => ?_, ?_⟩
  · rw [hs, hu]; exact (List.sublist_cons_self w r).append_left l
  · rw [hs] at hv
    rw [hu]
    exact mem_append_of_ne hv fun he => hne (he ▸ hw)
  · rw [acquiresOn, acquiresOn, hs, hu, List.filter_append, List.filter_append,
      List.filter_cons_of_neg (by rwa [decide_eq_true_eq])]

theorem serveOthers_spec (o : Nat) : ∀ (n : Nat) (s : State), DistinctIds s → s.sync.waits.length ≤ n →
    OthersReleased s (serveOthers s o n) o ∧
      ∀ w ∈ (serveOthers s o n).sync.waits, w.obj = o → w.op ≠ 8 →
        waitHolds w.op w.operand (objVal (serveOthers s o n) o) = false := by
  intro n
  induction n with
  | zero =>
    intro s _ hlen
    have hnil : s.sync.waits = [] := List.length_eq_zero_iff.1 (by omega)
    exact ⟨othersReleased_refl s o, by simp [serveOthers, hnil]⟩
  | succ n ih =>
    intro s hd hlen
    unfold serveOthers
    split
    case h_1 hlow =>
      have hnone := List.filter_eq_nil_iff.1 (lowest_eq_none.1 hlow)
      refine ⟨othersReleased_refl s o, fun w hw hobj hop => ?_⟩
      simpa [hobj, hop] using hnone w hw
    case h_2 w hlow =>
      have hmem := List.mem_filter.1 (lowest_mem hlow)
      have hw : w.obj = o ∧ w.op ≠ 8 := by
        have := hmem.2
        simp only [Bool.and_eq_true, decide_eq_true_eq] at this
        exact this.1
      obtain ⟨l, r, hsplit⟩ := List.append_of_mem hmem.1
      set u := completeWait (delWait s w.id) w 0 with hu
      have hsync : u.sync = (delWait s w.id).sync := completeWait_sync (Or.inl rfl) _
      have hwaits : u.sync.waits = l ++ r := by
        rw [hsync]
        exact waits_delWait hsplit (id_ne_of_distinctIds hd hsplit)
      have hone : OthersReleased s u o := othersReleased_one hsplit hw (by rw [hsync]; rfl) hwaits
      obtain ⟨hrest, hleft⟩ := ih u (hd.sublist hone.sub) (by
        have hlen' := congrArg List.length hsplit
        rw [hwaits, List.length_append]
        rw [List.length_append, List.length_cons] at hlen'
        omega)
      exact ⟨hone.trans hrest, hleft⟩

/-- The end of a cycle for object `o`: ACQUIREs in order, then the other waits whose condition holds. -/
theorem evalObj_spec {s : State} (hd : DistinctIds s) (o : Nat) : ∃ (t : State) (n : Nat), AcquiresServed s t o n ∧
    OthersReleased t (evalObj s o) o ∧ (∀ w ∈ (acquiresOn t o).head?, objVal t o < w.operand) ∧
    ∀ w ∈ (evalObj s o).sync.waits, w.obj = o → w.op ≠ 8 → waitHolds w.op w.operand (objVal (evalObj s o) o) = false := by
  obtain ⟨n, hserved, hhead⟩ := serveAcquires_spec o s.sync.waits.length s hd (List.length_filter_le ..)
  obtain ⟨hothers, hleft⟩ := serveOthers_spec o s.sync.waits.length (serveAcquires s o s.sync.waits.length)
    (hd.sublist hserved.sub) hserved.sub.length_le
  exact ⟨_, n, hserved, hothers, hhead, hleft⟩

end Sys2Proof.Machine
end

section

namespace Sys2Proof.Proofs

open Sys2Proof Sys2Proof.Machine

theorem waitsAreServedInOrder : WaitsAreServedInOrder := by
  intro s unit p o v howner hd acq
  have hadd := objectHolds_objAddTo s o v unit
  obtain ⟨t, n, hserved, hothers, hhead, hleft⟩ := evalObj_spec (s := objAddTo s o v unit)
    (by unfold DistinctIds; rw [hadd.waits]; exact hd) o
  have hacq : acquiresOn (objAddTo s o v unit) o = acq s := by rw [acquiresOn, hadd.waits]
  have hexec : exec (.syncAdd (.engine unit p o v)) s = .next (reconsider (evalObj (objAddTo s o v unit) o)) := by
    have hdo : syncDo s 4 (.engine unit p o v) .nothing = evalObj (objAddTo s o v unit) o := by
      simp only [syncDo, syncEngine, howner, ne_eq, not_true, if_false]
      rfl
    show Host.Outcome.next (reconsider (syncDo s 4 (.engine unit p o v) .nothing)) = _
    rw [hdo]
  refine ⟨evalObj (objAddTo s o v unit) o, n, hexec, ?_, ?_, fun w hw => ?_, hleft, fun w hw hne => ?_, fun w hw => ?_,
    fun k hk => ?_⟩
  · rw [← hacq, ← hserved.rest]
    exact hothers.acquires
  · have hbalance := hserved.balance
    rw [hacq, hadd.value, toNat_satAdd] at hbalance
    rw [hothers.objVal]
    exact hbalance
  · rw [hothers.objVal]
    refine hhead w ?_
    rw [← hothers.acquires]
    exact hw
  · refine hothers.kept w (hserved.kept w (by rw [hadd.waits]; exact hw) fun h => hne h.1) fun h => hne h.1
  · rw [← hadd.waits]
    exact hserved.sub.subset (hothers.sub.subset hw)
  · rw [hothers.objVal, hserved.others k hk, hadd.others k hk]

end Sys2Proof.Proofs
end

section
/-! The end of a wait whose limit has passed (08 R248, R249, R256, R263): a SYNC that completes, a registration that learns its
outcome, a job that aborts, and O24. -/

namespace Sys2Proof.Machine

open Sys2Proof

/-! ### The page of the sync unit (R261) -/

/-- The register EVT of the sync unit's page. -/
abbrev syncEvt (s : State) : Word := rg s (4 * 4096 + HDR_EVT) 0 0

/-- A register of a later page, of any page of that kind and any selector. -/
theorem syncEvt_setRg_above {r : Nat} (hr : 5 * 4096 ≤ r) (s : State) (i sel : Nat) (v : Word) :
    syncEvt (setRg s r i sel v) = syncEvt s :=
  rg_setRg_ne s v (by unfold rkey HDR_EVT; omega)

/-- A register of an earlier page. -/
theorem syncEvt_setRg_below {r sel : Nat} (hr : r < 4 * 4096) (hsel : sel < 65536) (s : State) (v : Word) :
    syncEvt (setRg s r 0 sel v) = syncEvt s :=
  rg_setRg_ne s v (by unfold rkey HDR_EVT; omega)

theorem syncEvt_raise_self (s : State) (b : Nat) : syncEvt (raise s 4 0 b) = syncEvt s ||| bitW b :=
  (rg_raise ..).trans (if_pos rfl)

/-- An event of the sync unit reads as set once it is raised. -/
theorem bit_syncEvt_raise (s : State) {b : Nat} (hb : b < 32) : bit (syncEvt (raise s 4 0 b)) b = true := by
  rw [syncEvt_raise_self]
  exact bit_or_bitW _ hb

theorem syncEvt_raise_other {c : Nat} (hc : c < 4 ∨ 4 < c) (s : State) (b : Nat) : syncEvt (raise s c 0 b) = syncEvt s :=
  (rg_raise ..).trans ((if_neg (by unfold rkey; omega)).trans (if_neg (by unfold rkey HDR_EVT HDR_EVT_COUNT; omega)))

/-! ### The choice is recorded (20 R592, R597) -/

theorem ering_record (s : State) (p type : Nat) (body : List Byte) : (record s p type body).pg.ering = s.pg.ering := by
  have hstage (t : State) (cont : Bool) (b : List Byte) : (recStage t type cont b).pg.ering = t.pg.ering := by
    unfold recStage
    simp only
    split
    · rw [raise_pg_ering]; rfl
    · rfl
  unfold record
  split
  · exact List.foldlRecOn (motive := fun q : State × Bool => q.1.pg.ering = s.pg.ering) _ _ rfl
      fun q hq b _ => (hstage q.1 q.2 b).trans hq
  · rfl

/-- The state in which the expiry of entry `w` is carried out: the choice is recorded. -/
def expiryDecided (s : State) (w : WaitEnt) : State := decision s w.part 2 w.obj w.id 0

theorem onlyRecorded_expiryDecided (s : State) (w : WaitEnt) : OnlyRecorded s (expiryDecided s w) := onlyRecorded_record ..

/-- An entry whose limit has passed, outside a replay, is the one that expires. -/
theorem exec_waitExpire {s : State} {w : WaitEnt} {l r : List WaitEnt} (hs : s.sync.waits = l ++ w :: r)
    (hl : ∀ v ∈ l, v.id ≠ w.id) (hpassed : passed s w.arrived w.limit = true) (hlive : replaying s w.part = false) :
    exec (.waitExpire w.id) s = .next (reconsider (expireEntry (expiryDecided s w) w)) := by
  have hfind : s.sync.waits.find? (fun v => decide (v.id = w.id)) = some w := by
    rw [List.find?_eq_some_iff_append]
    exact ⟨decide_eq_true rfl, l, r, hs, fun v hv => by rw [decide_eq_false (hl v hv)]; rfl⟩
  have hexp : expireWait s w.id = expireEntry (expiryDecided s w) w := by
    unfold expireWait
    simp only [hfind, hpassed, hlive, Bool.not_true, Bool.false_or, Bool.false_eq_true, if_false]
    rfl
  show Host.Outcome.next (reconsider (expireWait s w.id)) = _
  rw [hexp]

/-! ### A SYNC completes (R246, R248) -/

theorem spend_mem (s : State) (c n : Nat) : (spend s c n).mem = s.mem := by
  unfold spend
  simp only
  split <;> split <;> simp

theorem clu_spend (s : State) (c n d : Nat) :
    clu (spend s c n) d = if d = c then { clu s c with clv := (clu s c).clv.spent n } else clu s d := by
  unfold spend
  simp only
  split <;> split <;> simp

theorem syncEvt_spend (s : State) (c n : Nat) : syncEvt (spend s c n) = syncEvt s := by
  unfold spend
  simp only
  split <;> split <;> simp (disch := decide) only [syncEvt, rg_modJob, syncEvt_setRg_above, rg_setClv]

/-- The core and its cluster once an instruction that is no branch has retired. -/
theorem clu_retire (s : State) (c len n d : Nat) (loads : List (LoadDest × Word)) : ∃ x,
    clu (retire s c len n loads none) d = (if d = c then x else clu s d) ∧ (∀ k, x.clv.sreg k = (clu s c).clv.sreg k) ∧
      ((clu s c).clv.delay = none → (clu s c).clv.reps = [] → x.clv.pc = (clu s c).clv.pc + len) := by
  have hclu : clu (spend s c n) c = { clu s c with clv := (clu s c).clv.spent n } := by rw [clu_spend, if_pos rfl]
  obtain ⟨ic, k, hadv, hflow⟩ := advancePc_eq (clu (spend s c n) c) len none
  have hseq := advancePc_next (clu (spend s c n) c) len
  refine ⟨{ advancePc (clu (spend s c n) c) len none with
    clv := { (advancePc (clu (spend s c n) c) len none).clv with loads := loads, stall := 0 } }, ?_, fun m => ?_, fun hdelay hreps => ?_⟩
  · simp only [retire, clu_setClu, clu_spend]
    split
    · rfl
    · rfl
  · rw [hadv]
    show tgetD 0 k.s _ = _
    rw [hflow, hclu]
    rfl
  · have hpc := (hseq.1 (by rw [hclu]; exact hdelay) (by rw [hclu]; exact hreps)).1
    rw [hclu] at hpc ⊢
    exact hpc

theorem syncEvt_retire (s : State) (c len n : Nat) (loads : List (LoadDest × Word)) :
    syncEvt (retire s c len n loads none) = syncEvt s := by
  simp only [retire, syncEvt, rg_setClu]
  exact syncEvt_spend s c n

theorem retire_mem (s : State) (c len n : Nat) (loads : List (LoadDest × Word)) (br : Option (Option Nat)) :
    (retire s c len n loads br).mem = s.mem := by
  simp only [retire, setClu_mem, spend_mem]

theorem sreg_setS (k : Clv) (n m : Nat) (v : Word) : (k.setS n v).sreg m = if m = n then v else k.sreg m := by
  show tgetD 0 (tsetD 0 k.s n v) m = _
  rw [tgetD_tsetD]
  rfl

/-- What the end of a SYNC at its own word leaves: its outcome in SD, the core one word on. -/
theorem finishSync_spec {s : State} {c n : Nat} {w : WaitEnt} (hpc : (clu s c).clv.pc = w.off) :
    let t := finishSync s c w n
    syncEvt t = syncEvt s ∧ t.mem = s.mem ∧ (∀ d, d ≠ c → clu t d = clu s d) ∧
      (∀ m, (clu t c).clv.sreg m = if m = w.sd then w32 n else (clu s c).clv.sreg m) ∧
      ((clu s c).clv.delay = none → (clu s c).clv.reps = [] → (clu t c).clv.pc = w.off + 4) := by
  intro t
  set u := setClv (wrapRg s CLV_STALL_COUNT c 0 (cyclesSince s c w.arrived)) c
    { (clu s c).clv.setS w.sd (w32 n) with waitYield := none, waitDone := none } with hu
  have ht : t = retire u c 4 (cyclesSince s c w.arrived) [] none := by
    show finishSync s c w n = _
    unfold finishSync
    simp only [hpc, ne_eq, not_true, if_false]
    rfl
  have hclv : (clu u c).clv = { (clu s c).clv.setS w.sd (w32 n) with waitYield := none, waitDone := none } := by
    rw [hu, clu_setClv, if_pos rfl]
  rw [ht]
  refine ⟨?_, retire_mem .., fun d hd => ?_, fun m => ?_, fun hdelay hreps => ?_⟩
  · rw [syncEvt_retire]
    exact syncEvt_setRg_above (by decide) s c 0 _
  · obtain ⟨x, hx, -⟩ := clu_retire u c 4 (cyclesSince s c w.arrived) d []
    rw [hx, if_neg hd, hu, clu_setClv, if_neg hd]
    rfl
  · obtain ⟨x, hx, hsreg, -⟩ := clu_retire u c 4 (cyclesSince s c w.arrived) c []
    rw [hx, if_pos rfl, hsreg, hclv]
    exact sreg_setS ..
  · obtain ⟨x, hx, -, hnext⟩ := clu_retire u c 4 (cyclesSince s c w.arrived) c []
    rw [hx, if_pos rfl, hnext (by rw [hclv]; exact hdelay) (by rw [hclv]; exact hreps), hclv]
    exact congrArg (· + 4) hpc

/-! ### An entry expires (R248, R256) -/

section
variable {s : State} {w : WaitEnt} {l r : List WaitEnt}

/-- The state in which an entry that aborts no job completes: it has left the table, and WAIT_EXPIRE is raised. -/
def entryExpired (s : State) (w : WaitEnt) : State := raise (delWait (expiryDecided s w) w.id) 4 0 1

theorem waits_delWait_decided (hs : s.sync.waits = l ++ w :: r) (hl : ∀ v ∈ l, v.id ≠ w.id) :
    (delWait (expiryDecided s w) w.id).sync = { s.sync with waits := l ++ r } := by
  have hsync : (expiryDecided s w).sync = s.sync := by rw [(onlyRecorded_expiryDecided s w).1]
  have hwaits := waits_delWait (s := expiryDecided s w) (by rw [hsync]; exact hs) hl
  show { (expiryDecided s w).sync with waits := (delWait (expiryDecided s w) w.id).sync.waits } = _
  rw [hwaits, hsync]

theorem clu_entryExpired (s : State) (w : WaitEnt) (d : Nat) : clu (entryExpired s w) d = clu s d := by
  rw [entryExpired, clu_raise]
  show clu (expiryDecided s w) d = _
  rw [(onlyRecorded_expiryDecided s w).1]
  rfl

theorem job_entryExpired (s : State) (w : WaitEnt) (j : Nat) : job? (entryExpired s w) j = job? s j := by
  rw [entryExpired, job_raise]
  exact job_of_onlyNoted (onlyRecorded_expiryDecided s w).1 j

theorem mem_entryExpired (s : State) (w : WaitEnt) : (entryExpired s w).mem = s.mem := by
  rw [entryExpired, raise_mem]
  show (expiryDecided s w).mem = _
  rw [(onlyRecorded_expiryDecided s w).1]

/-- A SYNC with CONT goes on with EXPIRED. -/
theorem expireEntry_core {c : Nat} (hw : w.who = .core c) (hcont : w.cont = true) :
    expireEntry (expiryDecided s w) w = finishSync (entryExpired s w) c w 1 := by
  unfold expireEntry completeWait
  simp only [hw, hcont, Bool.not_true, Bool.false_and, Bool.false_eq_true, if_false, or_true, if_true]
  rfl

/-- A registration learns its outcome. -/
theorem expireEntry_reg {j : Nat} (hw : w.who = .reg j) : expireEntry (expiryDecided s w) w =
    (coresOf (modJob (entryExpired s w) j (fun x => { x with regDone := some 1 })) j).foldl wakeCore
      (modJob (entryExpired s w) j (fun x => { x with regDone := some 1 })) := by
  have hgoes : expireEntry (expiryDecided s w) w = completeWait (delWait (expiryDecided s w) w.id) w 1 := by
    unfold expireEntry
    simp only [hw, Bool.and_false, Bool.false_and, Bool.false_eq_true, if_false]
  rw [hgoes, completeWait_reg hw]
  rfl

/-- An entry that aborts no job leaves the table, and nothing else of the sync unit changes. -/
theorem expireEntry_sync (hs : s.sync.waits = l ++ w :: r) (hl : ∀ v ∈ l, v.id ≠ w.id)
    (h : w.cont = true ∨ ∃ j, w.who = .reg j) : (expireEntry (expiryDecided s w) w).sync = { s.sync with waits := l ++ r } := by
  have hgoes : expireEntry (expiryDecided s w) w = completeWait (delWait (expiryDecided s w) w.id) w 1 := by
    rcases h with h | ⟨j, h⟩ <;> simp [expireEntry, h]
  rw [hgoes, completeWait_sync (Or.inr h), waits_delWait_decided hs hl]

theorem evt_entryExpired (s : State) (w : WaitEnt) : bit (syncEvt (entryExpired s w)) 1 = true := bit_syncEvt_raise _ (by decide)

end

/-! ### A job aborts (R249, R263, R300) -/

/-- What the abort of a job keeps of the sync unit, the error ring and the sync unit's events; waits may leave the table. -/
structure AbortKeeps (s t : State) : Prop where
  sync : t.sync = { s.sync with waits := t.sync.waits }
  waits : t.sync.waits ⊆ s.sync.waits
  records : s.pg.ering ⊆ t.pg.ering
  event : syncEvt t = syncEvt s
  safe : t.safe = s.safe

theorem AbortKeeps.trans {s t u : State} (h : AbortKeeps s t) (h' : AbortKeeps t u) : AbortKeeps s u := by
  refine ⟨?_, fun _ hv => h.waits (h'.waits hv), fun _ hr => h'.records (h.records hr), h'.event.trans h.event, h'.safe.trans h.safe⟩
  have := h'.sync
  rw [h.sync] at this
  exact this

theorem abortKeeps_of_eq {s t : State} (hsync : t.sync = s.sync) (hpg : t.pg = s.pg) (hsafe : t.safe = s.safe) : AbortKeeps s t :=
  ⟨by rw [hsync], by rw [hsync]; exact List.Subset.refl _, by rw [hpg]; exact List.Subset.refl _, rg_congr hpg .., hsafe⟩

theorem abortKeeps_refl (s : State) : AbortKeeps s s := abortKeeps_of_eq rfl rfl rfl

theorem abortKeeps_foldl {α : Type} {f : State → α → State} {l : List α} (h : ∀ t, ∀ a ∈ l, AbortKeeps t (f t a)) (s : State) :
    AbortKeeps s (l.foldl f s) :=
  List.foldlRecOn l f (abortKeeps_refl s) fun t ht a ha => ht.trans (h t a ha)

theorem HostOnly.abortKeeps {s t : State} (h : HostOnly s t) : AbortKeeps s t := by
  obtain ⟨_, _, _, rfl⟩ := h
  exact abortKeeps_of_eq rfl rfl rfl

theorem abortKeeps_of_setRg {s : State} {r i sel : Nat} {v : Word} (h : syncEvt (setRg s r i sel v) = syncEvt s) :
    AbortKeeps s (setRg s r i sel v) :=
  ⟨rfl, List.Subset.refl _, List.Subset.refl _, h, rfl⟩

theorem abortKeeps_raise {c : Nat} (hc : c < 4 ∨ 4 < c) (s : State) (b : Nat) : AbortKeeps s (raise s c 0 b) :=
  ⟨by rw [raise_sync], by rw [raise_sync]; exact List.Subset.refl _, by rw [raise_pg_ering]; exact List.Subset.refl _,
    syncEvt_raise_other hc s b, raise_safe ..⟩

/-- A record is appended or dropped; those that stand in the ring stay. -/
theorem abortKeeps_logErr (s : State) (type reason source p : Nat) (w1 w2 w3 w4 w5 : Word) :
    AbortKeeps s (logErr s type reason source p w1 w2 w3 w4 w5) := by
  refine ⟨by rw [logErr_sync], by rw [logErr_sync]; exact List.Subset.refl _, ?_, rg_logErr _ _ _ _ _ _ _ _ _ _ _ _ _ (by decide),
    logErr_safe ..⟩
  unfold logErr logRec
  split
  · exact List.subset_append_left ..
  · rw [raise_pg_ering]
    exact List.Subset.refl _

/-- A handle that goes back (R736). -/
theorem abortKeeps_deliver (s : State) (p : Nat) (h : BitVec 128) (src : Nat) (held : Bool) : AbortKeeps s (deliver s p h src held) := by
  have hbook (t : State) {r : Nat} (hr : 5 * 4096 ≤ r) (n : Int) : AbortKeeps t (book t r p n) :=
    abortKeeps_of_setRg (syncEvt_setRg_above hr ..)
  have hmoved : AbortKeeps s (if hHole h = true ∨ (!held) = true then s
      else book (book s PODQ_PART_HELD p (-1)) PODQ_PART_INPODS p 1) := by
    split
    · exact abortKeeps_refl s
    · exact (hbook _ (by decide) _).trans (hbook _ (by decide) _)
  unfold deliver
  simp only
  split
  · exact hmoved.trans (abortKeeps_of_eq rfl rfl rfl)
  · split
    · exact hmoved.trans (abortKeeps_of_eq rfl rfl rfl)
    · refine AbortKeeps.trans ?_ ((abortKeeps_logErr ..).trans (abortKeeps_raise (by decide) ..))
      split
      · exact abortKeeps_refl s
      · exact (hbook _ (by decide) _).trans (hbook _ (by split <;> decide) _)

theorem abortKeeps_returnHeld (p : Nat) (l : List Held) (s : State) : AbortKeeps s (returnHeld s p l) := by
  induction l generalizing s with
  | nil => exact abortKeeps_refl s
  | cons h l ih => exact (abortKeeps_deliver ..).trans (ih _)

/-- Descriptors of the job that have not started leave their engine (R249). -/
theorem abortKeeps_dropDescs (s : State) (j e : Nat) : AbortKeeps s (dropDescs s j e) := by
  have hcount (t : State) (n : Nat) :
      AbortKeeps t (if e < 18 then wrapRg t FTE_DESC_SKIPPED e 0 n else wrapRg t CPE_DESC_SKIPPED (e - 18) 0 n) := by
    split
    · exact abortKeeps_of_setRg (syncEvt_setRg_above (r := FTE_DESC_SKIPPED) (by decide) ..)
    · exact abortKeeps_of_setRg (syncEvt_setRg_above (r := CPE_DESC_SKIPPED) (by decide) ..)
  unfold dropDescs
  simp only
  refine AbortKeeps.trans (AbortKeeps.trans ?_ (abortKeeps_foldl (fun t d _ => ?_) _)) (hcount _ _)
  · exact abortKeeps_of_eq rfl rfl rfl
  · split
    · exact abortKeeps_deliver ..
    · exact abortKeeps_refl t

theorem abortKeeps_dropWaits (s : State) (j : Nat) (cs : List Nat) : AbortKeeps s (dropWaits s j cs) :=
  ⟨rfl, List.filter_subset_self .., List.Subset.refl _, rfl, rfl⟩

theorem abortKeeps_jobRemoved (s : State) (j : Nat) (x : Job) : AbortKeeps s (jobRemoved s j x) := by
  have hhalt (t : State) : AbortKeeps t ((runClusters s j x).foldl haltCore t) :=
    abortKeeps_foldl (f := haltCore) (fun t c _ => abortKeeps_of_eq rfl rfl rfl) t
  have hback := (abortKeeps_returnHeld x.part x.held s).trans (abortKeeps_dropWaits _ j (runClusters s j x))
  have hspill (t : State) : AbortKeeps t (dropSpill t j) := abortKeeps_of_eq rfl rfl rfl
  have hset (t : State) : AbortKeeps t (setJob t j none) := abortKeeps_of_eq rfl rfl rfl
  exact ((hback.trans (hspill _)).trans (hhalt _)).trans (hset _)

theorem abortKeeps_jobNoted (s : State) (j : Nat) {x : Job} (hp : x.part < 32) : AbortKeeps s (jobNoted s j x) := by
  have hlate : AbortKeeps s (if x.late then satRg s SYS_LATE_CNT 0 x.part 1 else s) := by
    split
    · exact abortKeeps_of_setRg (syncEvt_setRg_below (by decide) (by omega) ..)
    · exact abortKeeps_refl s
  unfold jobNoted
  simp only
  split
  · exact hlate.trans (abortKeeps_of_eq rfl rfl rfl)
  · exact hlate

/-- Every index handed over to a spare is a logical one (21 R617), so that every index of a cluster is. -/
theorem logOf_lt {s : State} {c l : Nat} (hrot : ∀ n h, (tgetD {} s.safe.rot n).handed = some h → h.1 < 16)
    (h : logOf s c = some l) : l < 16 := by
  unfold logOf at h
  split at h
  · cases h
    exact List.mem_range.1 (List.mem_of_find?_eq_some ‹_›)
  · obtain ⟨e, he, rfl⟩ := Option.map_eq_some_iff.1 h
    exact hrot c e he

theorem abortKeeps_askVolts (s : State) : AbortKeeps s (askVolts s) := by
  unfold askVolts
  simp only
  split
  · exact abortKeeps_of_eq rfl rfl rfl
  · split <;> exact abortKeeps_of_eq rfl rfl rfl

theorem abortKeeps_stepBoundary {s : State} (hrot : ∀ n h, (tgetD {} s.safe.rot n).handed = some h → h.1 < 16) (c : Nat) :
    AbortKeeps s (stepBoundary s c) := by
  unfold stepBoundary
  split
  case h_1 => exact abortKeeps_refl s
  case h_2 l hlog =>
    have hl := logOf_lt hrot hlog
    split
    case h_1 => exact abortKeeps_refl s
    case h_2 d _ =>
      have hclk : AbortKeeps s (setRg s PWC_CLK_STAT 0 l (w32 d)) :=
        abortKeeps_of_setRg (syncEvt_setRg_below (by decide) (by omega) ..)
      split
      · exact abortKeeps_refl s
      · refine (hclk.trans ?_).trans (abortKeeps_askVolts _)
        split <;> exact abortKeeps_of_eq rfl rfl rfl

theorem abortKeeps_jobBoundary {s : State} (hrot : ∀ n h, (tgetD {} s.safe.rot n).handed = some h → h.1 < 16) (c : Nat) :
    AbortKeeps s (jobBoundary s c) := by
  have hstep := abortKeeps_stepBoundary hrot c
  unfold jobBoundary
  simp only
  split
  · exact hstep
  · exact hstep.trans (abortKeeps_of_eq rfl rfl rfl)

theorem abortKeeps_closeJob {s : State} {x : Job} (hp : x.part < 32)
    (hrot : ∀ n h, (tgetD {} s.safe.rot n).handed = some h → h.1 < 16) (j status : Nat) (mark : Bool) :
    AbortKeeps s (closeJob s j x status mark) := by
  rw [closeJob_eq]
  have harea (t : State) : AbortKeeps t (areaReleased t x) := abortKeeps_of_eq rfl rfl rfl
  have hgens (t : State) : AbortKeeps t (releaseGens t) := abortKeeps_of_eq rfl rfl rfl
  have hclosed := (((((abortKeeps_jobRemoved s j x).trans (harea _)).trans (abortKeeps_jobNoted _ j hp)).trans
    (itemRecs_hostOnly _ x mark x.open).abortKeeps).trans
    (endRec_hostOnly _ x status (match x.inst with | some n => w32 n | none => 0)).abortKeeps).trans (hgens _)
  refine List.foldlRecOn _ jobBoundary hclosed fun t ht c _ => ht.trans (abortKeeps_jobBoundary ?_ c)
  rw [ht.safe]
  exact hrot

/-- Aborting a job removes it, and keeps what `AbortKeeps` says. -/
theorem abortJob_spec {s : State} {j : Nat} {x : Job} (hx : job? s j = some x) (hp : x.part < 32)
    (hrot : ∀ n h, (tgetD {} s.safe.rot n).handed = some h → h.1 < 16) (stop mark : Bool) :
    job? (abortJob s j stop mark) j = none ∧ AbortKeeps s (abortJob s j stop mark) := by
  unfold abortJob
  simp only [hx]
  refine ⟨job_closeJob .., ?_⟩
  have hdropped : AbortKeeps s (((physUnits s x ++ mapUnits s x).eraseDups.filter fun c => decide ((clu s c).job = some j)).foldl
      (fun s c => dropDescs (clearStreams s stop c) j c) s) :=
    abortKeeps_foldl (fun t c _ => AbortKeeps.trans (t := clearStreams t stop c) (abortKeeps_of_eq rfl rfl rfl)
      (abortKeeps_dropDescs ..)) s
  have hmarked (t : State) : AbortKeeps t (setJob t j (some (x.markAll 2 x.open))) := abortKeeps_of_eq rfl rfl rfl
  refine (hdropped.trans (hmarked _)).trans (abortKeeps_closeJob ?_ ?_ j 1 mark)
  · rw [markAll_same 2 x.open x]
    exact hp
  · rw [(hdropped.trans (hmarked _)).safe]
    exact hrot

/-- The abort of R249: WAIT_ABORT, the record at the SYNC's offset, and the job is gone. -/
theorem waitAbort_spec {s : State} {j : Nat} {x : Job} (hx : job? s j = some x) (hp : x.part < 32)
    (hrot : ∀ n h, (tgetD {} s.safe.rot n).handed = some h → h.1 < 16) (w : WaitEnt) :
    let t := waitAbort s j w
    job? t j = none ∧ bit (syncEvt t) 2 = true ∧ t.sync.waits ⊆ s.sync.waits ∧ t.sync = { s.sync with waits := t.sync.waits } ∧
      (s.pg.ering.length < Config.errRing → ∃ r ∈ t.pg.ering, r.hdr = recHdr 0x12 0x1A 5 x.part ∧ r.w4 = w32 w.off) := by
  intro t
  set u := logErr (raise s 4 0 2) 0x12 0x1A 5 x.part w.handle (w32 x.slot) (w32 x.gen) (w32 w.off)
    (w32 (x.fresh x.open * 2 ^ 16)) with hu
  have ht : t = abortJob u j false false := by
    show waitAbort s j w = _
    unfold waitAbort
    simp only [hx]
    rfl
  have hsync : u.sync = s.sync := by rw [hu, logErr_sync, raise_sync]
  obtain ⟨hgone, hkeeps⟩ := abortJob_spec (s := u) (by rw [hu, job_logErr, job_raise]; exact hx) hp
    (by rw [hu, logErr_safe, raise_safe]; exact hrot) false false
  rw [ht]
  refine ⟨hgone, ?_, hsync ▸ hkeeps.waits, hsync ▸ hkeeps.sync, fun hroom => ?_⟩
  · rw [hkeeps.event, (abortKeeps_logErr ..).event]
    exact bit_syncEvt_raise s (by decide)
  · obtain ⟨r, hlog, hhdr, -, -, -, hoff⟩ := logErr_room (s := raise s 4 0 2) (by rw [raise_pg_ering]; exact hroom) 0x12 0x1A 5
      x.part w.handle (w32 x.slot) (w32 x.gen) (w32 w.off) (w32 (x.fresh x.open * 2 ^ 16))
    refine ⟨r, hkeeps.records ?_, hhdr, hoff⟩
    rw [hu, hlog]
    exact List.mem_append_right _ (List.mem_singleton_self r)

/-- The wait graph is captured and held, unless one is held already (R263). -/
def graphHeld (s : State) : State :=
  if s.sync.hold then s else { captureWg s true with sync := { (captureWg s true).sync with hold := true } }

theorem graphHeld_spec (s : State) : (graphHeld s).sync.waits = s.sync.waits ∧ (graphHeld s).sync.objs = s.sync.objs ∧
    (graphHeld s).sync.hold = true ∧
    (s.sync.hold = false → (graphHeld s).sync.source = true ∧ (graphHeld s).sync.wg.length = s.sync.waits.length) := by
  unfold graphHeld
  cases hhold : s.sync.hold with
  | true => exact ⟨rfl, rfl, hhold, fun h => by cases h⟩
  | false => exact ⟨rfl, rfl, rfl, fun _ => ⟨rfl, List.length_map _⟩⟩

theorem graphHeld_frame (s : State) : (graphHeld s).disp = s.disp ∧ (graphHeld s).pg.ering = s.pg.ering ∧
    (graphHeld s).safe = s.safe := by
  unfold graphHeld
  split <;> exact ⟨rfl, rfl, rfl⟩

/-- The graph is captured before the entry leaves the table. -/
theorem expireEntry_abort {s : State} {w : WaitEnt} {c : Nat} (hw : w.who = .core c) (hcont : w.cont = false) :
    expireEntry s w = waitAbort (delWait (graphHeld s) w.id) (jobOn s c) w := by
  unfold expireEntry completeWait graphHeld
  cases hhold : s.sync.hold with
  | true =>
    simp only [hw, hcont, Bool.not_true, Bool.not_false, Bool.and_false, Bool.and_true, Bool.false_eq_true, if_false, if_true, or_false,
      Nat.one_ne_zero]
    rfl
  | false =>
    simp only [hw, hcont, Bool.not_false, Bool.and_true, Bool.false_eq_true, if_false, if_true, or_false, Nat.one_ne_zero]
    rfl

/-- A SYNC without CONT whose limit has passed: its job aborts. -/
theorem expireEntry_aborts {s : State} {w : WaitEnt} {l r : List WaitEnt} {c j : Nat} {x : Job} (hs : s.sync.waits = l ++ w :: r)
    (hl : ∀ v ∈ l, v.id ≠ w.id) (hw : w.who = .core c) (hcont : w.cont = false) (hj : (clu s c).job = some j)
    (hx : job? s j = some x) (hp : x.part < 32) (hrot : ∀ n h, (tgetD {} s.safe.rot n).handed = some h → h.1 < 16) :
    let t := expireEntry (expiryDecided s w) w
    job? t j = none ∧ bit (syncEvt t) 2 = true ∧ (∀ v ∈ t.sync.waits, v ∈ l ++ r) ∧ t.sync.objs = s.sync.objs ∧
      t.sync.hold = true ∧ (s.sync.hold = false → t.sync.source = true ∧ t.sync.wg.length = s.sync.waits.length) ∧
      (s.pg.ering.length < Config.errRing → ∃ r ∈ t.pg.ering, r.hdr = recHdr 0x12 0x1A 5 x.part ∧ r.w4 = w32 w.off) := by
  intro t
  obtain ⟨hnoted, -⟩ := onlyRecorded_expiryDecided s w
  have hsync : (expiryDecided s w).sync = s.sync := by rw [hnoted]
  have hon : jobOn (expiryDecided s w) c = j := by
    rw [hnoted]
    show ((clu s c).job).getD 0 = j
    rw [hj]; rfl
  obtain ⟨hwaits, hobjs, hheld, hgraph⟩ := graphHeld_spec (expiryDecided s w)
  obtain ⟨hdisp, hering, hsafe⟩ := graphHeld_frame (expiryDecided s w)
  rw [hsync] at hwaits hobjs hgraph
  set u := delWait (graphHeld (expiryDecided s w)) w.id with hu
  have hleft : u.sync.waits = l ++ r := waits_delWait (hwaits.trans hs) hl
  have hxu : job? u j = some x := (job_congr (s := expiryDecided s w) hdisp j).trans ((job_of_onlyNoted hnoted j).trans hx)
  have hsafeu : u.safe = s.safe := hsafe.trans (by rw [hnoted])
  have heringu : u.pg.ering = s.pg.ering := hering.trans (ering_record ..)
  have ht : t = waitAbort u j w := by rw [hu, ← hon]; exact expireEntry_abort hw hcont
  obtain ⟨hgone, habort, hsub, hkept, hlog⟩ := waitAbort_spec hxu hp (hsafeu ▸ hrot) w
  rw [ht]
  exact ⟨hgone, habort, fun v hv => hleft ▸ hsub hv, by rw [hkept]; exact hobjs, by rw [hkept]; exact hheld,
    fun hhold => by rw [hkept]; exact hgraph hhold, fun hroom => hlog (by rw [heringu]; exact hroom)⟩

end Sys2Proof.Machine
end

section

namespace Sys2Proof.Proofs

open Sys2Proof Sys2Proof.Machine

theorem waitsExpire : WaitsExpire := by
  intro s id w l r hs hl hid hpassed hlive evt
  subst hid
  have hexec := exec_waitExpire hs hl hpassed hlive
  refine ⟨fun c hw hcont hpc => ?_, fun j x hw hx => ?_, fun c j x hw hcont hj hx hp hrot => ?_⟩
  · obtain ⟨hevt, hmem, hothers, hsreg, hnext⟩ := finishSync_spec (s := entryExpired s w) (n := 1) (by rw [clu_entryExpired]; exact hpc)
    simp only [clu_entryExpired] at hothers hsreg hnext
    refine ⟨_, hexec, expireEntry_sync hs hl (Or.inl hcont), ?_⟩
    rw [expireEntry_core hw hcont]
    refine ⟨?_, by rw [hsreg, if_pos rfl]; rfl, fun n hn => by rw [hsreg, if_neg hn], hothers, hnext, by rw [hmem, mem_entryExpired]⟩
    show bit (syncEvt _) 1 = true
    rw [hevt]
    exact evt_entryExpired s w
  · refine ⟨_, { x with regDone := some 1 }, hexec, expireEntry_sync hs hl (Or.inr ⟨j, hw⟩), ?_⟩
    rw [expireEntry_reg hw, (alerted_wakeCores _ _).frame]
    refine ⟨?_, ?_, rfl⟩
    · show bit (rg (modJob _ _ _) _ _ _) 1 = true
      rw [rg_modJob]
      exact evt_entryExpired s w
    · show job? (modJob _ _ _) j = _
      rw [job_modJob, if_pos rfl, job_entryExpired, hx]
      rfl
  · obtain ⟨hgone, habort, hleft, hobjs, hheld, hgraph, hlog⟩ := expireEntry_aborts hs hl hw hcont hj hx hp hrot
    exact ⟨_, hexec, hgone, habort, hleft, hobjs, hheld, hgraph, fun hroom => hlog (Nat.lt_succ_of_lt hroom)⟩

/-- Settles O24: the end of a cycle serves one ACQUIRE after the other and leaves the rest of the table, and the end of a limit takes
its entry alone out of the table. -/
theorem waitsAreServedOrExpire : Obligations.WaitsAreServedOrExpire := ⟨waitsAreServedInOrder, waitsExpire⟩

end Sys2Proof.Proofs
end

section
/-! Engines and the objects of their partition (08 R240, R242 to R244, R254). -/

namespace Sys2Proof.Machine

open Sys2Proof

/-! ### Operations while nobody waits (R242, R243, R254) -/

/-- Without a Saffron object a WRITE has no further effect (R627). -/
theorem saffWrite_of_noSaff {s : State} {o : Nat} (h : noSaff s o) (v : Word) : saffWrite s o v = s := by
  have hnone : (List.range Config.cells).filter (fun c =>
      bit (rg s SYS_SAFF_CFG 0 c) 31 && decide (fld (rg s SYS_SAFF_CFG 0 c) 13 0 = o)) = [] := by
    refine List.filter_eq_nil_iff.2 fun n hn => ?_
    rw [Bool.and_eq_true, decide_eq_true_eq]
    rintro ⟨hon, hsame⟩
    rcases h n (List.mem_range.1 hn) with hoff | hother
    · rw [hoff] at hon; cases hon
    · exact hother hsame
  unfold saffWrite
  simp only
  rw [hnone]
  rfl

/-- The registers of the sync unit's page, and those of later pages, are no Saffron objects. -/
theorem noSaff_setRg {s : State} {o r : Nat} (h : noSaff s o) (hr : 4 * 4096 ≤ r) (v : Word) : noSaff (setRg s r 0 0 v) o := by
  intro n hn
  have hn : n < 96 := hn
  rw [rg_setRg_ne s v (by unfold rkey SYS_SAFF_CFG; omega)]
  exact h n hn

theorem noSaff_raise {s : State} {o : Nat} (h : noSaff s o) (b : Nat) : noSaff (raise s 4 0 b) o := by
  intro n hn
  have hn' : n < 96 := hn
  rw [rg_raise, if_neg (by unfold rkey SYS_SAFF_CFG HDR_EVT; omega), if_neg (by unfold rkey SYS_SAFF_CFG HDR_EVT_COUNT; omega)]
  exact h n hn

theorem noSaff_objPut {s : State} {o : Nat} (h : noSaff s o) (k : Nat) (v unit : Word) : noSaff (objPut s k v unit) o := h

theorem noSaff_objAddTo {s : State} {o : Nat} (h : noSaff s o) (k : Nat) (v unit : Word) : noSaff (objAddTo s k v unit) o := by
  unfold objAddTo
  simp only
  split
  · exact noSaff_raise (noSaff_setRg (noSaff_objPut h _ _ _) (by decide) _) _
  · exact noSaff_objPut h _ _ _

theorem noSaff_setWins {s : State} {o : Nat} (h : noSaff s o) (k : Nat) : noSaff (setWins s k) o :=
  noSaff_raise (noSaff_setRg h (by decide) _) _

/-- Object `o` after a WRITE of `v`, or a CLEAR with `v` 0, and what comes in the same cycle (R254). -/
def writtenWith (s : State) (o : Nat) (v unit : Word) : SameCycle → State
  | .nothing => objPut s o v unit
  | .set => setWins (objPut (objPut s o v unit) o 1 unit) o
  | .add a => setWins (objAddTo (objPut s o v unit) o a unit) o

/-- What the object holds then. -/
def writtenValue (v : Word) : SameCycle → Word
  | .nothing => v
  | .set => 1
  | .add a => satAdd v a.toNat

theorem objectHolds_setWins {s t : State} {o : Nat} {v : Word} (h : ObjectHolds s t o v) : ObjectHolds s (setWins t o) o v :=
  objectHolds_raise (objectHolds_setRg h ..) ..

theorem objectHolds_writtenWith (s : State) (o : Nat) (v unit : Word) (same : SameCycle) :
    ObjectHolds s (writtenWith s o v unit same) o (writtenValue v same) := by
  have hput := objectHolds_objPut s o v unit
  cases same with
  | nothing => exact hput
  | set => exact objectHolds_setWins (hput.trans (objectHolds_objPut ..))
  | add a =>
    have hadd := objectHolds_objAddTo (objPut s o v unit) o a unit
    rw [hput.value] at hadd
    exact objectHolds_setWins (hput.trans hadd)

theorem noSaff_writtenWith {s : State} {o : Nat} (h : noSaff s o) (v unit : Word) (same : SameCycle) :
    noSaff (writtenWith s o v unit same) o := by
  cases same with
  | nothing => exact noSaff_objPut h _ _ _
  | set => exact noSaff_setWins (noSaff_objPut (noSaff_objPut h _ _ _) _ _ _) _
  | add a => exact noSaff_setWins (noSaff_objAddTo (noSaff_objPut h _ _ _) _ _ _) _

/-- Whatever comes in the same cycle wins. -/
theorem writtenWith_wins {same : SameCycle} (h : same ≠ .nothing) (s : State) (o : Nat) (v unit : Word) :
    ∃ t, writtenWith s o v unit same = setWins t o := by
  cases same with
  | nothing => exact absurd rfl h
  | set => exact ⟨_, rfl⟩
  | add a => exact ⟨_, rfl⟩

/-- The set wins: the event, and the object that it names (R254). -/
theorem setWins_noted (s : State) (o : Nat) :
    bit (syncEvt (setWins s o)) 0 = true ∧ rg (setWins s o) SYU_COLLIDE_IDX 0 0 = w32 (2 ^ 31 + o) := by
  refine ⟨bit_syncEvt_raise _ (by decide), ?_⟩
  rw [setWins, rg_raise, if_neg (by decide), if_neg (by decide), rg_setRg_self]

/-- A sum that fits is stored. -/
theorem objAddTo_of_fits {s : State} {o : Nat} {v : Word} (h : (objVal s o).toNat + v.toNat < 2 ^ 32) (unit : Word) :
    objAddTo s o v unit = objPut s o (objVal s o + v) unit := by
  have hsum : w32 ((objVal s o).toNat + v.toNat) = objVal s o + v := by
    rw [w32, BitVec.ofNat_add, BitVec.ofNat_toNat, BitVec.ofNat_toNat, BitVec.setWidth_eq, BitVec.setWidth_eq]
  unfold objAddTo
  simp only
  rw [if_neg (by omega), hsum]

/-- A sum beyond the largest value is reported (R243). -/
theorem objAddTo_saturated {s : State} {o : Nat} {v : Word} (h : 2 ^ 32 ≤ (objVal s o).toNat + v.toNat) (unit : Word) :
    bit (syncEvt (objAddTo s o v unit)) 3 = true ∧ rg (objAddTo s o v unit) SYU_SAT_IDX 0 0 = w32 (2 ^ 31 + o) := by
  unfold objAddTo
  simp only
  rw [if_pos (by omega)]
  refine ⟨bit_syncEvt_raise _ (by decide), ?_⟩
  rw [rg_raise, if_neg (by decide), if_neg (by decide), rg_setRg_self]

section
variable {s : State} {o : Nat} (v unit : Word) (same : SameCycle)

theorem objOp_read : objOp s 0 o v unit same = (objVal s o, s) := rfl

theorem objOp_write (hwaits : s.sync.waits = []) (hsaff : noSaff s o) :
    objOp s 1 o v unit same = (0, writtenWith s o v unit same) := by
  have hdone : objOp s 1 o v unit same = (0, saffWrite (evalObj (writtenWith s o v unit same) o) o v) := by cases same <;> rfl
  rw [hdone, evalObj_of_no_waits ((objectHolds_writtenWith ..).waits.trans hwaits),
    saffWrite_of_noSaff (noSaff_writtenWith hsaff _ _ _)]

theorem objOp_set (hwaits : s.sync.waits = []) : objOp s 2 o v unit same = (0, objPut s o 1 unit) := by
  have hdone : objOp s 2 o v unit same = (0, evalObj (objPut s o 1 unit) o) := by cases same <;> rfl
  rw [hdone, evalObj_of_no_waits (s := objPut s o 1 unit) hwaits]

theorem objOp_clear (hwaits : s.sync.waits = []) : objOp s 3 o v unit same = (0, writtenWith s o 0 unit same) := by
  have hdone : objOp s 3 o v unit same = (0, evalObj (writtenWith s o 0 unit same) o) := by cases same <;> rfl
  rw [hdone, evalObj_of_no_waits ((objectHolds_writtenWith ..).waits.trans hwaits)]

theorem objOp_add (hwaits : s.sync.waits = []) : objOp s 4 o v unit same = (0, objAddTo s o v unit) := by
  have hdone : objOp s 4 o v unit same = (0, evalObj (objAddTo s o v unit) o) := rfl
  rw [hdone, evalObj_of_no_waits ((objectHolds_objAddTo ..).waits.trans hwaits)]

theorem objOp_tryAcquire (hwaits : s.sync.waits = []) : objOp s 9 o v unit same =
    if v ≤ objVal s o then (1, objPut s o (objVal s o - v) unit) else (0, s) := by
  have hdone : objOp s 9 o v unit same = if v.toNat ≤ (objVal s o).toNat then
      (1, evalObj (objPut s o (objVal s o - v) unit) o) else (0, s) := rfl
  rw [hdone, evalObj_of_no_waits (s := objPut s o (objVal s o - v) unit) hwaits]
  exact if_congr BitVec.le_def.symm rfl rfl

/-- What TRY_ACQUIRE leaves in the object. -/
theorem objectHolds_tryAcquire (hwaits : s.sync.waits = []) :
    ObjectHolds s (objOp s 9 o v unit same).2 o (if v ≤ objVal s o then objVal s o - v else objVal s o) := by
  rw [objOp_tryAcquire v unit same hwaits]
  split
  · exact objectHolds_objPut ..
  · exact objectHolds_refl ..

end

theorem satAdd_zero_left (v : Word) : satAdd 0 v.toNat = v := by
  apply BitVec.eq_of_toNat_eq
  have hv := v.isLt
  rw [toNat_satAdd, show (0 : Word).toNat = 0 from rfl, Nat.zero_add]
  exact Nat.min_eq_right (by omega)

/-! ### A denial (R240) -/

theorem trigger_frame (s : State) (p t : Nat) : ∃ sf, trigger s p t = { s with safe := sf } := by
  unfold trigger
  split
  · exact ⟨_, rfl⟩
  · exact ⟨s.safe, rfl⟩

/-- A denial changes no object, no memory and no cluster; it is recorded, and raises its event. -/
structure Denied (s u : State) (reason p : Nat) (unit : Word) : Prop where
  sync : u.sync = s.sync
  mem : u.mem = s.mem
  clusters : u.cl = s.cl
  event : bit (rg u (8 * 4096 + HDR_EVT) 0 0) 3 = true
  recorded : s.pg.ering.length < Config.errRing → ∃ r, u.pg.ering = s.pg.ering ++ [r] ∧ r.hdr = recHdr 0x15 reason 0 p ∧ r.w1 = unit

theorem denied_deny (s : State) (reason p : Nat) (unit : Word) (addr : Nat) (write : Bool) :
    Denied s (deny s reason p unit addr write) reason p unit := by
  obtain ⟨sf, htrig⟩ := trigger_frame s p 5
  unfold deny
  rw [htrig]
  refine ⟨by rw [raise_sync, logErr_sync], by rw [raise_mem, logErr_mem], by rw [raise_cl, logErr_cl], ?_, fun hroom => ?_⟩
  · rw [rg_raise, if_pos rfl]
    exact bit_or_bitW _ (by decide)
  · obtain ⟨r, hlog, hhdr, hunit, -⟩ := logErr_room (s := { s with safe := sf }) hroom 0x15 reason 0 p unit (w32 addr)
      (w32 (b2n write * 2 ^ 31 + addr / 2 ^ 32 % 256)) 0 0
    exact ⟨r, by rw [raise_pg_ering, hlog], hhdr, hunit⟩

theorem denied_raise {s u : State} {reason p : Nat} {unit : Word} (h : Denied s u reason p unit) (b : Nat) :
    Denied s (raise u 4 0 b) reason p unit := by
  refine ⟨by rw [raise_sync, h.sync], by rw [raise_mem, h.mem], by rw [raise_cl, h.clusters], ?_, fun hroom => ?_⟩
  · rw [rg_raise, if_neg (by decide), if_neg (by decide)]
    exact h.event
  · rw [raise_pg_ering]
    exact h.recorded hroom

/-! ### An engine's operation (R244) -/

section
variable {s : State} {i : Instr} {unit v : Word} {p o op : Nat} {same : SameCycle}
  (hexec : exec i s = .next (syncStep s op (.engine unit p o v) same))

include hexec in
/-- It acts where its partition owns the object. -/
theorem exec_engine_owned (howner : objOwner s o = some p) (hop : opWaits op = false) :
    exec i s = .next (reconsider (objOp s op o v unit same).2) := by
  have hdo : syncDo s op (.engine unit p o v) same = (objOp s op o v unit same).2 := by
    simp only [syncDo, syncEngine, howner, hop, ne_eq, not_true, Bool.false_eq_true, if_false]
  rw [hexec, syncStep, hdo]

include hexec in
/-- It is denied where its partition does not. -/
theorem exec_engine_denied (hno : objOwner s o ≠ some p) :
    ∃ u, exec i s = .next (reconsider u) ∧ Denied s u 4 p unit := by
  have hdeny := denied_deny s 4 p unit o (decide (op ≠ 0 ∧ ¬ opWaits op))
  have hdo : syncDo s op (.engine unit p o v) same = if opWaits op then
      raise (deny s 4 p unit o (decide (op ≠ 0 ∧ ¬ opWaits op))) 4 0 4 else deny s 4 p unit o (decide (op ≠ 0 ∧ ¬ opWaits op)) := by
    simp only [syncDo, syncEngine, if_pos hno]
  refine ⟨_, by rw [hexec, syncStep], ?_⟩
  rw [hdo]
  split
  · exact denied_raise hdeny 4
  · exact hdeny

end

end Sys2Proof.Machine
end

section

namespace Sys2Proof.Proofs

open Sys2Proof Sys2Proof.Machine

theorem enginesUpdateObjects : EnginesUpdateObjects := by
  intro s unit p o v b hwaits hsaff q a evt
  refine ⟨fun howner => ⟨?_, fun hover => ?_⟩, fun hno i hi => ?_⟩
  · have row {i : Instr} {op : Nat} {same : SameCycle} {x : Word} {wins : Bool}
        (hexec : exec i s = .next (syncStep s op q same)) (hop : opWaits op = false)
        (hx : ObjectHolds s (objOp s op o v unit same).2 o x) (hwins : wins = true → ∃ t, (objOp s op o v unit same).2 = setWins t o) :
        ∃ u, exec i s = .next (reconsider u) ∧ u = { s with sync := u.sync, pg := u.pg, out := u.out } ∧ u.sync.waits = [] ∧
          objVal u o = x ∧ (∀ n, n ≠ o → objVal u n = objVal s n) ∧
          (wins = true → evt u 0 = true ∧ rg u SYU_COLLIDE_IDX 0 0 = w32 (2 ^ 31 + o)) := by
      refine ⟨_, exec_engine_owned hexec howner hop, hx.frame, hx.waits.trans hwaits, hx.value, hx.others, fun h => ?_⟩
      obtain ⟨t, ht⟩ := hwins h
      rw [ht]
      exact setWins_noted t o
    have hwrite (same : SameCycle) : ObjectHolds s (objOp s 1 o v unit same).2 o (writtenValue v same) := by
      rw [objOp_write v unit same hwaits hsaff]
      exact objectHolds_writtenWith ..
    have hclear (same : SameCycle) : ObjectHolds s (objOp s 3 o v unit same).2 o (writtenValue 0 same) := by
      rw [objOp_clear v unit same hwaits]
      exact objectHolds_writtenWith ..
    have hset : ObjectHolds s (objOp s 2 o v unit .nothing).2 o 1 := by
      rw [objOp_set v unit .nothing hwaits]
      exact objectHolds_objPut ..
    have hadd : ObjectHolds s (objOp s 4 o v unit .nothing).2 o (satAdd a v.toNat) := by
      rw [objOp_add v unit .nothing hwaits]
      exact objectHolds_objAddTo ..
    have hclearAdd : ObjectHolds s (objOp s 3 o v unit (.add b)).2 o b := by
      have h := hclear (.add b)
      rwa [writtenValue, satAdd_zero_left] at h
    have hwinsWrite {same : SameCycle} (h : same ≠ .nothing) : ∃ t, (objOp s 1 o v unit same).2 = setWins t o := by
      rw [objOp_write v unit same hwaits hsaff]
      exact writtenWith_wins h ..
    have hwinsClear {same : SameCycle} (h : same ≠ .nothing) : ∃ t, (objOp s 3 o v unit same).2 = setWins t o := by
      rw [objOp_clear v unit same hwaits]
      exact writtenWith_wins h ..
    have hno {P : Prop} (h : false = true) : P := absurd h (by decide)
    intro e he
    simp only [List.mem_cons, List.not_mem_nil, or_false] at he
    rcases he with rfl | rfl | rfl | rfl | rfl | rfl | rfl | rfl | rfl | rfl
    · exact row (op := 0) rfl rfl (objectHolds_refl s o) hno
    · exact row (op := 1) rfl rfl (hwrite .nothing) hno
    · exact row (op := 2) rfl rfl hset hno
    · exact row (op := 3) rfl rfl (hclear .nothing) hno
    · exact row (op := 4) rfl rfl hadd hno
    · exact row (op := 9) rfl rfl (objectHolds_tryAcquire v unit .nothing hwaits) hno
    · exact row (op := 1) rfl rfl (hwrite .set) fun _ => hwinsWrite (by decide)
    · exact row (op := 3) rfl rfl (hclear .set) fun _ => hwinsClear (by decide)
    · exact row (op := 1) rfl rfl (hwrite (.add b)) fun _ => hwinsWrite (by simp)
    · exact row (op := 3) rfl rfl hclearAdd fun _ => hwinsClear (by simp)
  · refine ⟨_, exec_engine_owned (op := 4) (same := .nothing) rfl howner rfl, ?_⟩
    rw [objOp_add v unit .nothing hwaits]
    exact objAddTo_saturated hover unit
  · have denied {op : Nat} (hexec : exec i s = .next (syncStep s op q .nothing)) :
        ∃ u, exec i s = .next (reconsider u) ∧ u.sync = s.sync ∧ u.mem = s.mem ∧ u.cl = s.cl ∧
          bit (rg u (8 * 4096 + HDR_EVT) 0 0) 3 = true ∧
          (s.pg.ering.length < 16384 → ∃ r, u.pg.ering = s.pg.ering ++ [r] ∧ r.hdr = recHdr 0x15 4 0 p ∧ r.w1 = unit) := by
      obtain ⟨u, hu, hd⟩ := exec_engine_denied hexec hno
      exact ⟨u, hu, hd.sync, hd.mem, hd.clusters, hd.event, hd.recorded⟩
    simp only [List.mem_cons, List.not_mem_nil, or_false] at hi
    rcases hi with rfl | rfl | rfl | rfl | rfl | rfl | rfl | rfl | rfl | rfl
    · exact denied (op := 0) rfl
    · exact denied (op := 1) rfl
    · exact denied (op := 2) rfl
    · exact denied (op := 3) rfl
    · exact denied (op := 4) rfl
    · exact denied (op := 5) rfl
    · exact denied (op := 6) rfl
    · exact denied (op := 7) rfl
    · exact denied (op := 8) rfl
    · exact denied (op := 9) rfl

end Sys2Proof.Proofs
end

section
/-! SYNC on a Clove core (08 R242, R245 to R247, R256): operations that complete, waits that hold or take an entry, registrations. -/

namespace Sys2Proof.Machine

open Sys2Proof

/-! ### The state in which a SYNC acts -/

/-- The state in which the body of the instruction at `c` works: its line touched, the loads before it landed. -/
def bodyState (s : State) (c : Nat) (y : Job) : State := landLoads (touchLine s c y (clu s c).clv.pc) c

section
variable {s : State} {c j o : Nat} {y : Job} {g : Gen} {sa sb sd sl : BitVec 5} {cont : Bool}

/-- The entry of a wait on object `o` for `who`, before it is numbered. -/
def newEntry (s : State) (c o : Nat) (y : Job) (sb sd sl : BitVec 5) (cont : Bool) (who : Waiter) (op : Nat) : WaitEnt :=
  { id := 0, who := who, op := op, obj := o, operand := (clu s c).clv.sreg sb.toNat, arrived := 0,
    limit := ((clu s c).clv.sreg sl.toNat).toNat, cont := cont, part := y.part, handle := clHandle s c, off := (clu s c).clv.pc,
    sd := sd.toNat }

theorem bodyState_onlyClu (s : State) (c : Nat) (y : Job) :
    ∃ ic, OnlyClu s (bodyState s c y) c { clu s c with ic := ic, clv := landed s c } := body_state ..

theorem bodyState_frame (s : State) (c : Nat) (y : Job) : bodyState s c y = { s with cl := (bodyState s c y).cl } := by
  obtain ⟨ic, h⟩ := bodyState_onlyClu s c y
  exact h.1

theorem bodyState_sync (s : State) (c : Nat) (y : Job) : (bodyState s c y).sync = s.sync := by rw [bodyState_frame]

theorem objVal_bodyState (s : State) (c : Nat) (y : Job) (n : Nat) : objVal (bodyState s c y) n = objVal s n := by
  unfold objVal
  rw [bodyState_sync]

theorem waits_bodyState (hwaits : s.sync.waits = []) : (bodyState s c y).sync.waits = [] := by rw [bodyState_sync, hwaits]

theorem jobOn_bodyState (hjob : (clu s c).job = some j) : jobOn (bodyState s c y) c = j := by
  obtain ⟨ic, h⟩ := bodyState_onlyClu s c y
  unfold jobOn
  rw [h.clu_self]
  simp only [hjob]
  rfl

theorem clHandle_bodyState (s : State) (c : Nat) (y : Job) : clHandle (bodyState s c y) c = clHandle s c := by
  obtain ⟨ic, h⟩ := bodyState_onlyClu s c y
  exact clHandle_of_onlyClu h c

/-- The latched outcome of an earlier wait is not this SYNC's. -/
theorem latched_none (h : SyncReady s c j y g sa o) :
    (if (clu s c).clv.shadow.isNone then (clu s c).clv.waitDone else none) = none := by
  obtain ⟨-, hlatch, -⟩ := h
  split
  · exact hlatch (Option.isNone_iff_eq_none.1 ‹_›)
  · rfl

theorem object_bodyState (h : SyncReady s c j y g sa o) :
    (if ((clu s c).clv.sreg sa.toNat).toNat < 2 ^ 17 then jobObj (bodyState s c y) y ((clu s c).clv.sreg sa.toNat).toNat
      else none) = some o := by
  obtain ⟨-, -, hidx, hobj, -⟩ := h
  rw [if_pos hidx, bodyState_frame]
  exact hobj

theorem owner_bodyState (h : SyncReady s c j y g sa o) : objOwner (bodyState s c y) o = some y.part := by
  obtain ⟨-, -, -, -, howner, -⟩ := h
  rw [bodyState_frame]
  exact howner

theorem noSaff_bodyState (h : SyncReady s c j y g sa o) : noSaff (bodyState s c y) o := by
  obtain ⟨-, -, -, -, -, hsaff⟩ := h
  rw [bodyState_frame]
  exact hsaff

/-! ### What a SYNC does -/

/-- An operation that does not wait. -/
theorem syncCore_operates (h : SyncReady s c j y g sa o) {op : Nat} (hop : opWaits op = false) (hb : op ≠ 11) (ha : op ≠ 10)
    (same : SameCycle) :
    let r := objOp (bodyState s c y) op o ((clu s c).clv.sreg sb.toNat) (clHandle s c) same
    syncCore s op c sa sb sd sl cont same =
      retire (if op = 0 ∨ op = 9 then setClv r.2 c ((clu r.2 c).clv.setS sd.toNat r.1) else r.2) c 4 1 [] none := by
  intro r
  unfold syncCore
  rw [cloveRun_eq h.1]
  have hS : landLoads (touchLine s c y (clu s c).clv.pc) c = bodyState s c y := rfl
  simp only [hS, latched_none h, object_bodyState h, owner_bodyState h, clHandle_bodyState, hop, hb, ha, if_false, Bool.false_and,
    Bool.false_eq_true, ne_eq, not_true, false_and]
  by_cases hr : op = 0 ∨ op = 9
  · rw [if_pos hr, if_pos hr]
    rfl
  · rw [if_neg hr, if_neg hr]

/-- A wait while nobody waits: it is over where its condition holds, and takes an entry where it does not. -/
theorem syncCore_waits (h : SyncReady s c j y g sa o) (hwaits : s.sync.waits = []) (hlim : (clu s c).clv.sreg sl.toNat ≠ 0)
    {op : Nat} (hop : 5 ≤ op ∧ op ≤ 8) (same : SameCycle) :
    let S := bodyState s c y
    let v := (clu s c).clv.sreg sb.toNat
    let T := if op = 8 then objPut S o (objVal s o - v) (clHandle s c) else S
    syncCore s op c sa sb sd sl cont same =
      if waitHolds op v (objVal s o) then
        retire (setClv T c { (clu T c).clv.setS sd.toNat 0 with waitYield := none }) c 4 1 [] none
      else
        let U := addWait S (newEntry s c o y sb sd sl cont (.core c) op)
        setClv U c { (clu U c).clv with stall := 6 } := by
  intro S v T
  have hlim' : ((clu s c).clv.sreg sl.toNat).toNat ≠ 0 := fun h0 => hlim (BitVec.eq_of_toNat_eq h0)
  have hopw : opWaits op = true := by simp [opWaits, hop]
  have hput (a w : Word) : evalObj (objPut (bodyState s c y) o a w) o = objPut (bodyState s c y) o a w :=
    evalObj_of_no_waits (s := objPut (bodyState s c y) o a w) (waits_bodyState hwaits) o
  unfold syncCore
  rw [cloveRun_eq h.1]
  have hS : landLoads (touchLine s c y (clu s c).clv.pc) c = bodyState s c y := rfl
  simp only [hS, latched_none h, object_bodyState h, owner_bodyState h, clHandle_bodyState, bodyState_sync, hwaits, hopw, hlim',
    objVal_bodyState, hput, show op ≠ 11 by omega, show op ≠ 10 by omega, if_false, decide_false, Bool.and_false,
    Bool.false_eq_true, ne_eq, not_true, false_and, List.any_nil, Bool.not_false, or_true, true_and, if_true]
  by_cases hw : waitHolds op v (objVal s o) = true
  · rw [if_pos hw, if_pos hw]
    rfl
  · rw [if_neg hw, if_neg hw]
    rfl

/-- A registration while nobody waits. -/
theorem syncCore_registers (h : SyncReady s c j y g sa o) (hwaits : s.sync.waits = []) (hlim : (clu s c).clv.sreg sl.toNat ≠ 0)
    (hdone : y.regDone = none) (same : SameCycle) : syncCore s 10 c sa sb sd sl cont same =
      retire (evalObj (addWait (bodyState s c y) (newEntry s c o y sb sd sl cont (.reg j) 10)) o) c 4 1 [] none := by
  have hlim' : ((clu s c).clv.sreg sl.toNat).toNat ≠ 0 := fun h0 => hlim (BitVec.eq_of_toNat_eq h0)
  unfold syncCore
  rw [cloveRun_eq h.1]
  have hS : landLoads (touchLine s c y (clu s c).clv.pc) c = bodyState s c y := rfl
  simp only [hS, latched_none h, object_bodyState h, owner_bodyState h, clHandle_bodyState, bodyState_sync, hwaits, hdone, hlim',
    jobOn_bodyState (running_job h.1.1).1, show (10 : Nat) ≠ 11 by decide, if_false, if_true, decide_false, Bool.and_false,
    Bool.false_eq_true, ne_eq, not_true, List.any_nil, Option.isSome_none, or_self, and_false]
  rfl

/-- What WAKE_CAUSE answers while nobody waits: the known outcome of the job's registration, or 3 (R246). -/
def causeWord (y : Job) : Word := (y.regDone.map w32).getD 3

/-- The state once a known outcome is freed. -/
def causeFreed (s : State) (c j : Nat) (y : Job) : State :=
  if y.regDone.isSome then modJob (bodyState s c y) j (fun x => { x with regDone := none }) else bodyState s c y

/-- WAKE_CAUSE while nobody waits. -/
theorem syncCore_wakes (h : SyncReady s c j y g sa o) (hwaits : s.sync.waits = []) (same : SameCycle) :
    syncCore s 11 c sa sb sd sl cont same =
      retire (setClv (causeFreed s c j y) c ((clu (causeFreed s c j y) c).clv.setS sd.toNat (causeWord y))) c 4 1 [] none := by
  unfold syncCore causeFreed causeWord
  rw [cloveRun_eq h.1]
  have hS : landLoads (touchLine s c y (clu s c).clv.pc) c = bodyState s c y := rfl
  simp only [hS, latched_none h, object_bodyState h, bodyState_sync, hwaits, jobOn_bodyState (running_job h.1.1).1, if_true,
    List.any_nil, Bool.false_eq_true, if_false]
  cases y.regDone <;> rfl

/-! ### The core goes on (R245, R246) -/

/-- A state that differs from the body's in the sync unit alone. -/
theorem onlyClu_of_sync {T : State} (hT : T = { bodyState s c y with sync := T.sync }) :
    ∃ ic, OnlyClu { s with sync := T.sync } T c { clu s c with ic := ic, clv := landed s c } := by
  obtain ⟨ic, hframe, hclu⟩ := bodyState_onlyClu s c y
  rw [hframe] at hT
  refine ⟨ic, ?_, fun d => ?_⟩
  · rw [hT]
  · rw [hT]; exact hclu d

/-- The instruction completes in one a-cycle; what it did to the sync unit stands. -/
theorem goesOn_of_retire {U : State} {i : Instr} {ic : List ICLine} {k : Clv} (hjob : (clu s c).job = some j)
    (hexec : exec i s = .next (reconsider (retire U c 4 1 [] none)))
    (hU : OnlyClu { s with sync := U.sync } U c { clu s c with ic := ic, clv := k }) :
    ∃ u, exec i s = .next (reconsider u) ∧ u.sync = U.sync ∧
      CloveNext { s with sync := u.sync } u c 4 1 j (clu s c) k [] := by
  obtain ⟨hdone, hseq, -⟩ := retire_done (x := { clu s c with ic := ic }) (len := 4) (n := 1) (loads := []) (br := none) hU hjob
  refine ⟨_, hexec, retire_sync .., ?_⟩
  rw [retire_sync]
  exact ⟨hdone, hseq rfl⟩

/-- Object `o` holds `x`, nobody waits, and the core goes on as `k`. -/
def SyncGoesOn (s u : State) (c j o : Nat) (x : Word) (k : Clv) : Prop :=
  objVal u o = x ∧ (∀ n, n ≠ o → objVal u n = objVal s n) ∧ u.sync.waits = [] ∧
    CloveNext { s with sync := u.sync } u c 4 1 j (clu s c) k []

theorem syncGoesOn_of_holds {T U : State} {i : Instr} {ic : List ICLine} {k : Clv} {x : Word} (hjob : (clu s c).job = some j)
    (hwaits : s.sync.waits = []) (hT : ObjectHolds (bodyState s c y) T o x) (hsync : U.sync = T.sync)
    (hexec : exec i s = .next (reconsider (retire U c 4 1 [] none)))
    (hU : OnlyClu { s with sync := U.sync } U c { clu s c with ic := ic, clv := k }) :
    ∃ u, exec i s = .next (reconsider u) ∧ SyncGoesOn s u c j o x k := by
  obtain ⟨u, hu, hsame, hnext⟩ := goesOn_of_retire hjob hexec hU
  have hval (n : Nat) : objVal u n = objVal T n := by unfold objVal; rw [hsame, hsync]
  refine ⟨u, hu, by rw [hval, hT.value], fun n hn => by rw [hval, hT.others n hn, objVal_bodyState], ?_, hnext⟩
  rw [hsame, hsync, hT.waits, bodyState_sync, hwaits]

/-- An operation that does not wait acts on its object, and on SD where it answers. -/
theorem operation_goesOn (h : SyncReady s c j y g sa o) (hwaits : s.sync.waits = []) {i : Instr} {op : Nat} {x r : Word} {t : State}
    (hexec : exec i s = .next (syncStep s op (.core c sa sb sd sl cont) .nothing)) (hop : opWaits op = false) (hreg : op < 10)
    (hr : objOp (bodyState s c y) op o ((clu s c).clv.sreg sb.toNat) (clHandle s c) .nothing = (r, t))
    (ht : t = { bodyState s c y with sync := t.sync }) (hx : ObjectHolds (bodyState s c y) t o x) :
    ∃ u, exec i s = .next (reconsider u) ∧
      SyncGoesOn s u c j o x (if op = 0 ∨ op = 9 then (landed s c).setS sd.toNat r else landed s c) := by
  obtain ⟨ic, hT⟩ := onlyClu_of_sync ht
  have hcore := syncCore_operates (sb := sb) (sd := sd) (sl := sl) (cont := cont) h hop (by omega) (by omega) .nothing
  simp only [hr] at hcore
  rw [syncStep, syncDo, hcore] at hexec
  have hclv : (clu t c).clv = landed s c := by rw [hT.clu_self]
  obtain ⟨hjob, -⟩ := running_job h.1.1
  by_cases hanswers : op = 0 ∨ op = 9
  · rw [if_pos hanswers] at hexec ⊢
    rw [hclv] at hexec
    exact syncGoesOn_of_holds (U := setClv _ c _) hjob hwaits hx rfl hexec (onlyClu_setClv hT _)
  · rw [if_neg hanswers] at hexec ⊢
    exact syncGoesOn_of_holds hjob hwaits hx rfl hexec hT

/-- A wait whose condition holds is over at once; ACQUIRE takes its operand. -/
theorem wait_goesOn (h : SyncReady s c j y g sa o) (hwaits : s.sync.waits = []) (hlim : (clu s c).clv.sreg sl.toNat ≠ 0) {i : Instr}
    {op : Nat} (hexec : exec i s = .next (syncStep s op (.core c sa sb sd sl cont) .nothing)) (hop : 5 ≤ op ∧ op ≤ 8)
    (hholds : waitHolds op ((clu s c).clv.sreg sb.toNat) (objVal s o) = true) :
    ∃ u, exec i s = .next (reconsider u) ∧
      SyncGoesOn s u c j o (if op = 8 then objVal s o - (clu s c).clv.sreg sb.toNat else objVal s o)
        { (landed s c).setS sd.toNat 0 with waitYield := none } := by
  have hcore := syncCore_waits (sb := sb) (sd := sd) (cont := cont) h hwaits hlim hop .nothing
  simp only [if_pos hholds] at hcore
  rw [syncStep, syncDo, hcore] at hexec
  obtain ⟨hjob, -⟩ := running_job h.1.1
  set T := if op = 8 then objPut (bodyState s c y) o (objVal s o - (clu s c).clv.sreg sb.toNat) (clHandle s c)
    else bodyState s c y with hTdef
  have hT : T = { bodyState s c y with sync := T.sync } := by
    rw [hTdef]
    split <;> rfl
  have hx : ObjectHolds (bodyState s c y) T o (if op = 8 then objVal s o - (clu s c).clv.sreg sb.toNat else objVal s o) := by
    rw [hTdef]
    split
    · exact objectHolds_objPut ..
    · exact objVal_bodyState s c y o ▸ objectHolds_refl ..
  obtain ⟨ic, hclu⟩ := onlyClu_of_sync hT
  have hclv : (clu T c).clv = landed s c := by rw [hclu.clu_self]
  rw [hclv] at hexec
  exact syncGoesOn_of_holds (U := setClv _ c _) hjob hwaits hx rfl hexec (onlyClu_setClv hclu _)

/-! ### The core waits (R246, R251) -/

/-- The entry as it stands in the table. -/
def enteredEntry (s : State) (w : WaitEnt) : WaitEnt := { w with id := s.sync.nextId, arrived := s.tmu.ticks }

theorem addWait_bodyState (hwaits : s.sync.waits = []) (w : WaitEnt) : addWait (bodyState s c y) w = { bodyState s c y with
    sync := { s.sync with waits := [enteredEntry s w], nextId := s.sync.nextId + 1, high := Nat.max s.sync.high 1 } } := by
  have hticks : (bodyState s c y).tmu = s.tmu := by rw [bodyState_frame]
  unfold addWait
  simp only [bodyState_sync, hwaits, hticks]
  rfl

/-- A wait whose condition fails takes an entry, and the core stalls. -/
theorem wait_stalls (h : SyncReady s c j y g sa o) (hwaits : s.sync.waits = []) (hlim : (clu s c).clv.sreg sl.toNat ≠ 0) {i : Instr}
    {op : Nat} (hexec : exec i s = .next (syncStep s op (.core c sa sb sd sl cont) .nothing)) (hop : 5 ≤ op ∧ op ≤ 8)
    (hfails : waitHolds op ((clu s c).clv.sreg sb.toNat) (objVal s o) = false) :
    ∃ u, exec i s = .next (reconsider u) ∧ u = { s with sync := u.sync, cl := u.cl } ∧
      u.sync = { s.sync with waits := [enteredEntry s (newEntry s c o y sb sd sl cont (.core c) op)],
                             nextId := s.sync.nextId + 1, high := Nat.max s.sync.high 1 } ∧
      (∀ n, n ≠ c → clu u n = clu s n) ∧ clu u c = { clu s c with clv := { landed s c with stall := 6 }, ic := (clu u c).ic } := by
  have hcore := syncCore_waits (sb := sb) (sd := sd) (cont := cont) h hwaits hlim hop .nothing
  simp only [hfails, Bool.false_eq_true, if_false] at hcore
  rw [syncStep, syncDo, hcore] at hexec
  set U := addWait (bodyState s c y) (newEntry s c o y sb sd sl cont (.core c) op) with hUdef
  have hU := addWait_bodyState (c := c) (y := y) hwaits (newEntry s c o y sb sd sl cont (.core c) op)
  rw [← hUdef] at hU
  obtain ⟨ic, hclu⟩ := onlyClu_of_sync (T := U) (s := s) (c := c) (y := y) (by rw [hU])
  have hstall := onlyClu_setClv hclu { (clu U c).clv with stall := 6 }
  refine ⟨_, hexec, hstall.1, ?_, fun n hn => (hstall.2 n).trans (if_neg hn), ?_⟩
  · rw [setClv_sync, hU]
  · rw [hstall.clu_self, hclu.clu_self]

end

end Sys2Proof.Machine
end

section
/-! Registrations and WAKE_CAUSE on a Clove core (08 R246, R247, R256), and O23. -/

namespace Sys2Proof.Machine

open Sys2Proof

/-! ### WAKE reaches the cores of a job (05 R155) -/

/-- A core that runs leads its unit and has not ended. -/
theorem running_leads {s : State} {c j : Nat} {y : Job} {g : Gen} (h : running s c = some (j, y, g)) :
    c < 18 ∧ leadOf s c = c ∧ (clu s c).clv.ended = false := by
  obtain ⟨hjob, hy⟩ := running_job h
  unfold running at h
  simp only [hjob, hy] at h
  split at h
  · rename_i hrun
    simp only [Bool.and_eq_true, decide_eq_true_eq, Bool.not_eq_true'] at hrun
    obtain ⟨⟨⟨hc, hlead⟩, hended⟩, -⟩ := hrun
    exact ⟨hc, hlead, hended⟩
  · cases h

/-- Each core that leads and runs has the source WAKE. -/
theorem wake_raised {s : State} {c : Nat} {cs : List Nat} (hc : c ∈ cs) (hlead : leadOf s c = c)
    (hrun : (clu s c).clv.ended = false) : (clu (cs.foldl wakeCore s) c).clv.irq.getLsbD 1 = true := by
  obtain ⟨l, r, rfl⟩ := List.append_of_mem hc
  rw [List.foldl_append, List.foldl_cons]
  set t := l.foldl wakeCore s with ht
  have hbefore : Alerted s t := alerted_wakeCores l s
  obtain ⟨q, hq⟩ := hbefore.cores c
  have hlead' : leadOf t c = c := by rw [hbefore.frame]; exact hlead
  have hwoken : (clu (wakeCore t c) c).clv.irq.getLsbD 1 = true := by
    have hrun' : (clu t c).clv.ended = false := by rw [hq]; exact hrun
    rw [wakeCore, if_pos hlead', raiseIrq]
    simp only [hrun', Bool.false_eq_true, if_false, clu_setClv, if_true, BitVec.getLsbD_or]
    exact Bool.or_eq_true_iff.2 (Or.inr (by decide))
  obtain ⟨q', hq'⟩ := (alerted_wakeCores r (wakeCore t c)).cores c
  rw [hq', BitVec.getLsbD_or, hwoken, Bool.true_or]

/-! ### Registrations (R246, R247, R256) -/

/-- The only entry stays while its condition fails. -/
theorem evalObj_of_unmet {s : State} {o : Nat} {w : WaitEnt} (hs : s.sync.waits = [w]) (hop : w.op ≠ 8)
    (hfails : waitHolds w.op w.operand (objVal s o) = false) : evalObj s o = s := by
  simp [evalObj, hs, serveAcquires, serveOthers, lowest, hop, hfails]

/-- It leaves the table when its condition holds. -/
theorem evalObj_of_met {s : State} {o : Nat} {w : WaitEnt} (hs : s.sync.waits = [w]) (hobj : w.obj = o) (hop : w.op ≠ 8)
    (hholds : waitHolds w.op w.operand (objVal s o) = true) : evalObj s o = completeWait (delWait s w.id) w 0 := by
  have hacq : serveAcquires s o 1 = s := by simp [serveAcquires, hs, hop]
  unfold evalObj
  simp only [hs, List.length_singleton, hacq]
  simp [serveOthers, hs, hobj, hop, hholds, lowest]

/-- What retiring an instruction keeps of a running core and its job. -/
theorem retire_keeps {s : State} {c j len n : Nat} {z : Job} (hjob : (clu s c).job = some j) (hz : job? s j = some z) :
    (clu (retire s c len n [] none) c).clv.irq = (clu s c).clv.irq ∧
      (∀ m, (clu (retire s c len n [] none) c).clv.sreg m = (clu s c).clv.sreg m) ∧
      job? (retire s c len n [] none) j = some { z with ran := z.ran + n } := by
  obtain ⟨hframe, k, hclv, hflow, -⟩ := retire_spec s c len n j [] none hjob
  unfold SameButFlow at hflow
  refine ⟨by rw [hclv, hflow]; rfl, fun m => ?_, job_of_cloveFrame hframe hz⟩
  rw [hclv]
  show tgetD 0 k.s m = _
  rw [hflow]
  rfl

/-- WAKE reaches a core that runs the job, in a state that has the units and the core of the instruction. -/
theorem wake_reaches {s V : State} {c j : Nat} {y : Job} {g : Gen} {ic : List ICLine} (hrun : running s c = some (j, y, g))
    (hunits : V.units = s.units) (hsafe : V.safe = s.safe) (hclu : clu V c = { clu s c with ic := ic, clv := landed s c }) :
    let W := (coresOf V j).foldl wakeCore V
    W = { V with cl := W.cl } ∧ (clu W c).job = some j ∧ (clu W c).clv.irq.getLsbD 1 = true := by
  intro W
  obtain ⟨hjob, -⟩ := running_job hrun
  obtain ⟨hc, hlead, hended⟩ := running_leads hrun
  have halert : Alerted V W := alerted_wakeCores (coresOf V j) V
  obtain ⟨q, hq⟩ := halert.cores c
  refine ⟨halert.frame, by rw [hq, hclu]; exact hjob, wake_raised ?_ ((leadOf_congr hunits hsafe c).2.trans hlead) ?_⟩
  · exact List.mem_filter.2 ⟨List.mem_range.2 hc, decide_eq_true (by rw [hclu]; exact hjob)⟩
  · rw [hclu, landed_eq]
    exact hended

section
variable {s : State} {c j o : Nat} {y : Job} {g : Gen} {sa sb sd sl : BitVec 5} {cont : Bool}

/-- A registration whose condition fails stays in the table; the core goes on. -/
theorem register_waits (h : SyncReady s c j y g sa o) (hwaits : s.sync.waits = []) (hlim : (clu s c).clv.sreg sl.toNat ≠ 0)
    (hdone : y.regDone = none) (hlt : objVal s o < (clu s c).clv.sreg sb.toNat) :
    ∃ u, exec (.register (.core c sa sb sd sl cont)) s = .next (reconsider u) ∧
      u.sync.waits = [enteredEntry s (newEntry s c o y sb sd sl cont (.reg j) 10)] ∧
      CloveNext { s with sync := u.sync } u c 4 1 j (clu s c) (landed s c) [] := by
  have hcore := syncCore_registers (sb := sb) (sd := sd) (cont := cont) h hwaits hlim hdone .nothing
  set U := addWait (bodyState s c y) (newEntry s c o y sb sd sl cont (.reg j) 10) with hUdef
  have hU := addWait_bodyState (c := c) (y := y) hwaits (newEntry s c o y sb sd sl cont (.reg j) 10)
  rw [← hUdef] at hU
  have hentries : U.sync.waits = [enteredEntry s (newEntry s c o y sb sd sl cont (.reg j) 10)] := by rw [hU]
  have hval : objVal U o = objVal s o := by rw [hU]; rfl
  rw [evalObj_of_unmet hentries (show (10 : Nat) ≠ 8 by decide) (by
    rw [hval]
    exact decide_eq_false (not_le.2 (BitVec.lt_def.1 hlt)))] at hcore
  obtain ⟨ic, hclu⟩ := onlyClu_of_sync (T := U) (s := s) (c := c) (y := y) (by rw [hU])
  have hexec : exec (.register (.core c sa sb sd sl cont)) s = .next (reconsider (retire U c 4 1 [] none)) := by
    show Host.Outcome.next (reconsider (syncCore s 10 c sa sb sd sl cont .nothing)) = _
    rw [hcore]
  obtain ⟨u, hu, hsync, hnext⟩ := goesOn_of_retire (running_job h.1.1).1 hexec hclu
  exact ⟨u, hu, by rw [hsync, hentries], hnext⟩

/-- A registration whose condition holds leaves its outcome with the job, and WAKE. -/
theorem register_satisfied (h : SyncReady s c j y g sa o) (hwaits : s.sync.waits = []) (hlim : (clu s c).clv.sreg sl.toNat ≠ 0)
    (hdone : y.regDone = none) (hle : (clu s c).clv.sreg sb.toNat ≤ objVal s o) :
    ∃ u z, exec (.register (.core c sa sb sd sl cont)) s = .next (reconsider u) ∧ u.sync.waits = [] ∧ job? u j = some z ∧
      z.regDone = some 0 ∧ (clu u c).clv.irq.getLsbD 1 = true ∧ ∀ n, objVal u n = objVal s n := by
  have hcore := syncCore_registers (sb := sb) (sd := sd) (cont := cont) h hwaits hlim hdone .nothing
  set e := enteredEntry s (newEntry s c o y sb sd sl cont (.reg j) 10) with he
  set U := addWait (bodyState s c y) (newEntry s c o y sb sd sl cont (.reg j) 10) with hUdef
  have hU := addWait_bodyState (c := c) (y := y) hwaits (newEntry s c o y sb sd sl cont (.reg j) 10)
  rw [← hUdef, ← he] at hU
  have hentries : U.sync.waits = [e] := by rw [hU]
  have hobjs : U.sync.objs = s.sync.objs := by rw [hU]
  rw [evalObj_of_met hentries (show o = o from rfl) (show (10 : Nat) ≠ 8 by decide) (by
    unfold objVal
    rw [hobjs]
    exact decide_eq_true (BitVec.le_def.1 hle)), completeWait_reg (show e.who = .reg j from rfl), if_neg (show ¬ (0 : Nat) = 1 by decide)] at hcore
  set V := modJob (delWait U e.id) j (fun x => { x with regDone := some 0 }) with hV
  set W := (coresOf V j).foldl wakeCore V with hW
  obtain ⟨-, hy⟩ := running_job h.1.1
  obtain ⟨ic, hclu⟩ := onlyClu_of_sync (T := U) (s := s) (c := c) (y := y) (by rw [hU])
  have hVframe : V = { s with cl := V.cl, sync := V.sync, disp := V.disp } := by
    rw [hV, modJob, hU, bodyState_frame]
    split <;> rfl
  obtain ⟨hWframe, hWjob, hwoken⟩ := wake_reaches (V := V) h.1.1 (by rw [hVframe]) (by rw [hVframe])
    ((clu_modJob ..).trans hclu.clu_self)
  rw [← hW] at hWframe hWjob hwoken
  have hWz : job? W j = some { y with regDone := some 0 } := by
    have hUy : job? (delWait U e.id) j = some y := by
      show job? U j = _
      rw [hU, bodyState_frame]
      exact hy
    rw [hWframe]
    show job? V j = _
    rw [hV, job_modJob, if_pos rfl, hUy]
    rfl
  have hWsync : W.sync = (delWait U e.id).sync := by rw [hWframe]; exact modJob_sync ..
  obtain ⟨hirq, -, hz⟩ := retire_keeps (len := 4) (n := 1) hWjob hWz
  have hexec : exec (.register (.core c sa sb sd sl cont)) s = .next (reconsider (retire W c 4 1 [] none)) := by
    show Host.Outcome.next (reconsider (syncCore s 10 c sa sb sd sl cont .nothing)) = _
    rw [hcore]
  refine ⟨_, _, hexec, ?_, hz, rfl, by rw [hirq]; exact hwoken, fun n => ?_⟩
  · rw [retire_sync, hWsync]
    exact waits_delWait (l := []) (r := []) hentries (by simp)
  · unfold objVal
    rw [retire_sync, hWsync]
    exact congrArg (tgetD 0 · n) hobjs

theorem clu_causeFreed (s : State) (c j : Nat) (y : Job) (d : Nat) : clu (causeFreed s c j y) d = clu (bodyState s c y) d := by
  unfold causeFreed
  split
  · exact clu_modJob ..
  · rfl

theorem causeFreed_sync (s : State) (c j : Nat) (y : Job) : (causeFreed s c j y).sync = s.sync := by
  unfold causeFreed
  split
  · rw [modJob_sync, bodyState_sync]
  · exact bodyState_sync ..

theorem job_causeFreed (hy : job? s j = some y) : job? (causeFreed s c j y) j = some { y with regDone := none } := by
  obtain ⟨ic, hclu⟩ := bodyState_onlyClu s c y
  have hyS : job? (bodyState s c y) j = some y := (job_of_onlyClu hclu j).trans hy
  unfold causeFreed
  split
  · rw [job_modJob, if_pos rfl, hyS]
    rfl
  · rename_i hnone
    rw [hyS, ← Option.not_isSome_iff_eq_none.1 hnone]

/-- WAKE_CAUSE answers the outcome of the registration, and frees it. -/
theorem wakeCause_answers (h : SyncReady s c j y g sa o) (hwaits : s.sync.waits = []) :
    ∃ u z, exec (.wakeCause (.core c sa sb sd sl cont)) s = .next (reconsider u) ∧ job? u j = some z ∧ z.regDone = none ∧
      u.sync = s.sync ∧ (clu u c).clv.sreg sd.toNat = causeWord y := by
  have hcore := syncCore_wakes (sb := sb) (sd := sd) (sl := sl) (cont := cont) h hwaits .nothing
  set U := causeFreed s c j y with hU
  obtain ⟨hjob, hy⟩ := running_job h.1.1
  obtain ⟨ic, hclu⟩ := bodyState_onlyClu s c y
  have hjobU : (clu U c).job = some j := by rw [hU, clu_causeFreed, hclu.clu_self]; exact hjob
  obtain ⟨-, hsreg, hz⟩ := retire_keeps (len := 4) (n := 1) (s := setClv U c ((clu U c).clv.setS sd.toNat (causeWord y))) (c := c)
    (j := j) (by rw [clu_setClv, if_pos rfl]; exact hjobU) (by rw [job_setClv]; exact job_causeFreed hy)
  have hexec : exec (.wakeCause (.core c sa sb sd sl cont)) s = .next (reconsider (syncCore s 11 c sa sb sd sl cont .nothing)) := rfl
  rw [hcore] at hexec
  refine ⟨_, _, hexec, hz, rfl, ?_, ?_⟩
  · rw [retire_sync, setClv_sync, hU, causeFreed_sync]
  · rw [hsreg, clu_setClv, if_pos rfl, sreg_setS, if_pos rfl]

end

end Sys2Proof.Machine
end

section

namespace Sys2Proof.Proofs

open Sys2Proof Sys2Proof.Machine

theorem coreSynchronisation : CoreSynchronisation := by
  intro s c j o y g sa sb sd sl cont h hwaits q k v a goesOn entry
  have hval : objVal (bodyState s c y) o = a := objVal_bodyState ..
  have hwaitsS := waits_bodyState (c := c) (y := y) hwaits
  have hsaff := noSaff_bodyState h
  have hput (x : Word) := objectHolds_objPut (bodyState s c y) o x (clHandle s c)
  refine ⟨?_, fun hlim => ?_, fun hlim hdone => ⟨?_, ?_⟩, ?_⟩
  · intro e he hcond hlim
    simp only [objRows, List.mem_cons, List.not_mem_nil, or_false] at he
    rcases he with rfl | rfl | rfl | rfl | rfl | rfl | rfl | rfl | rfl | rfl
    · exact operation_goesOn (op := 0) h hwaits rfl rfl (by decide) (by rw [objOp_read, hval]) rfl (hval ▸ objectHolds_refl ..)
    · exact operation_goesOn (op := 1) h hwaits rfl rfl (by decide) (objOp_write _ _ _ hwaitsS hsaff) rfl (hput _)
    · exact operation_goesOn (op := 2) h hwaits rfl rfl (by decide) (objOp_set _ _ _ hwaitsS) rfl (hput _)
    · exact operation_goesOn (op := 3) h hwaits rfl rfl (by decide) (objOp_clear _ _ _ hwaitsS) rfl (hput _)
    · have hsum := objAddTo_of_fits (s := bodyState s c y) (by rw [hval]; exact hcond) (clHandle s c)
      rw [hval] at hsum
      exact operation_goesOn (op := 4) h hwaits rfl rfl (by decide) ((objOp_add _ _ _ hwaitsS).trans (by rw [hsum])) rfl (hput _)
    · have htry := objOp_tryAcquire (o := o) v (clHandle s c) .nothing hwaitsS
      rw [hval] at htry
      by_cases hle : v ≤ a
      · rw [if_pos hle] at htry
        simp only [if_pos hle]
        exact operation_goesOn (op := 9) h hwaits rfl rfl (by decide) htry rfl (hput _)
      · rw [if_neg hle] at htry
        simp only [if_neg hle]
        exact operation_goesOn (op := 9) h hwaits rfl rfl (by decide) htry rfl (hval ▸ objectHolds_refl ..)
    · exact wait_goesOn (op := 5) h hwaits (hlim rfl) rfl (by decide) (decide_eq_true hcond)
    · exact wait_goesOn (op := 6) h hwaits (hlim rfl) rfl (by decide) (decide_eq_true hcond)
    · exact wait_goesOn (op := 7) h hwaits (hlim rfl) rfl (by decide) (decide_eq_true (BitVec.le_def.1 hcond))
    · exact wait_goesOn (op := 8) h hwaits (hlim rfl) rfl (by decide) (decide_eq_true (BitVec.le_def.1 hcond))
  · have hless (hlt : a < v) : waitHolds 7 v a = false := decide_eq_false (not_le.2 (BitVec.lt_def.1 hlt))
    intro e he hcond
    simp only [List.mem_cons, List.not_mem_nil, or_false] at he
    rcases he with rfl | rfl | rfl | rfl
    · exact wait_stalls (op := 5) h hwaits hlim rfl (by decide) (decide_eq_false (not_not.2 hcond))
    · exact wait_stalls (op := 6) h hwaits hlim rfl (by decide) (decide_eq_false hcond)
    · exact wait_stalls (op := 7) h hwaits hlim rfl (by decide) (hless hcond)
    · exact wait_stalls (op := 8) h hwaits hlim rfl (by decide) (hless hcond)
  · exact fun hlt => register_waits h hwaits hlim hdone hlt
  · exact fun hle => register_satisfied h hwaits hlim hdone hle
  · obtain ⟨u, z, hexec, hz, hfreed, hsync, hanswer⟩ := wakeCause_answers (sb := sb) (sd := sd) (sl := sl) (cont := cont) h hwaits
    refine ⟨u, z, hexec, hz, hfreed, hsync, hanswer.trans ?_⟩
    unfold causeWord
    cases y.regDone <;> rfl

/-- Settles O23: while nobody waits an operation changes its object alone, and a core goes on, stalls on its entry, or is woken as its
condition stands. -/
theorem objectsFollowTheirOperations : Obligations.ObjectsFollowTheirOperations := ⟨coreSynchronisation, enginesUpdateObjects⟩

end Sys2Proof.Proofs
end

section
/-! What reconsidering the waits and the units leaves of a device without jobs (08 R251, 09 R269): the dispatcher's books. -/

namespace Sys2Proof.Machine

open Sys2Proof

/-- No number names a job. -/
def NoJobs (s : State) : Prop := ∀ j, job? s j = none

theorem NoJobs.congr {s t : State} (hdisp : t.disp = s.disp) (h : NoJobs s) : NoJobs t := fun j => by
  unfold job?
  rw [hdisp]
  exact h j

theorem modJob_of_none {s : State} {j : Nat} (h : job? s j = none) (f : Job → Job) : modJob s j f = s := by
  unfold modJob
  rw [h]

/-! ### Waits that are released (R251, R252) -/

theorem spend_disp {s : State} (h : NoJobs s) (c n : Nat) : (spend s c n).disp = s.disp := by
  have hpeak (t : State) : (if heldOff (clu s c).clv n > (rg s CLV_HOLD_PEAK c 0).toNat then
      setRg t CLV_HOLD_PEAK c 0 (w32 (heldOff (clu s c).clv n)) else t).disp = t.disp := by
    split <;> rfl
  unfold spend
  simp only
  split
  · rw [modJob_of_none (h.congr (by rw [hpeak]; rfl) _), hpeak]; rfl
  · rw [hpeak]; rfl

theorem retire_disp {s : State} (h : NoJobs s) (c len n : Nat) (loads : List (LoadDest × Word)) (br : Option (Option Nat)) :
    (retire s c len n loads br).disp = s.disp := spend_disp h c n

theorem finishSync_disp {s : State} (h : NoJobs s) (c : Nat) (w : WaitEnt) (n : Nat) : (finishSync s c w n).disp = s.disp := by
  unfold finishSync
  simp only
  split
  · rfl
  · refine (retire_disp ?_ ..).trans rfl
    exact h.congr rfl

/-- A released wait of a device without jobs changes cores, rings and what is sent. -/
theorem completeWait_disp {s : State} (h : NoJobs s) (w : WaitEnt) : (completeWait s w 0).disp = s.disp := by
  cases hw : w.who with
  | core c =>
    unfold completeWait
    simp only [hw, true_or, if_true]
    exact finishSync_disp h ..
  | reg j =>
    have hnone : modJob s j (fun x => { x with regDone := some 0 }) = s := modJob_of_none (h j) _
    have heq := completeWait_reg hw s 0
    simp only [Nat.zero_ne_one, if_false, hnone] at heq
    rw [heq, (alerted_wakeCores _ _).frame]
  | yieldReg j c =>
    unfold completeWait
    simp only [hw, true_or, if_true]
    exact congrArg State.disp (modJob_of_none (h j) _)
  | host p lo hi seq r =>
    unfold completeWait
    simp only [hw]
    obtain ⟨_, _, _, heq⟩ := postRec_hostOnly s p r (mkRec s 3 0 0 lo hi 0 (objVal s w.obj) 0 seq.toNat)
    rw [heq]
  | engine unit =>
    unfold completeWait
    simp only [hw]
  | peer port rp =>
    unfold completeWait
    simp only [hw]
    rfl

theorem serveAcquires_disp (o n : Nat) {s : State} (h : NoJobs s) : (serveAcquires s o n).disp = s.disp := by
  induction n generalizing s with
  | zero => rfl
  | succ n ih =>
    unfold serveAcquires
    split
    case h_1 => rfl
    case h_2 w _ =>
      have htaken : NoJobs (objPut (delWait s w.id) o (objVal s o - w.operand) w.handle) := h
      simp only
      split
      · rw [ih (htaken.congr (completeWait_disp htaken w)), completeWait_disp htaken w]; rfl
      · rfl

theorem serveOthers_disp (o n : Nat) {s : State} (h : NoJobs s) : (serveOthers s o n).disp = s.disp := by
  induction n generalizing s with
  | zero => rfl
  | succ n ih =>
    unfold serveOthers
    split
    case h_1 => rfl
    case h_2 w _ =>
      have htaken : NoJobs (delWait s w.id) := h
      rw [ih (htaken.congr (completeWait_disp htaken w)), completeWait_disp htaken w]; rfl

theorem evalObj_disp (o : Nat) {s : State} (h : NoJobs s) : (evalObj s o).disp = s.disp := by
  have hacquires := serveAcquires_disp o s.sync.waits.length h
  exact (serveOthers_disp o _ (h.congr hacquires)).trans hacquires

theorem settle_disp {s : State} (h : NoJobs s) : (settle s).disp = s.disp :=
  List.foldlRecOn (motive := fun t => t.disp = s.disp) _ evalObj rfl fun _ ht o _ => (evalObj_disp o (h.congr ht)).trans ht

/-! ### Units without a job (R269) -/

theorem reviewJob_of_none {s : State} {j : Nat} (h : job? s j = none) : reviewJob s j = s := by
  unfold reviewJob
  rw [h]

/-- Where no number names a job, nothing runs, yields or is spilled: the dispatcher's books stay. -/
theorem reconsider_disp {s : State} (h : NoJobs s) : (reconsider s).disp = s.disp := by
  have hidle : reconsider s = settle s :=
    List.foldlRecOn (motive := fun t => t = settle s) (runningJobs (settle s)) reviewJob rfl fun t ht j _ => by
      rw [ht, reviewJob_of_none (h.congr (settle_disp h) j)]
  rw [hidle, settle_disp h]

end Sys2Proof.Machine
end

section

namespace Sys2Proof.Proofs

open Sys2Proof Sys2Proof.Machine

/-- The reset of partition 1 has aborted its jobs and waits for the next scan tick to end (23 R663). -/
def resetEnding : State :=
  { State.reset with
    disp := { State.reset.disp with parts := [(0, some { cls := .mgmt }), (1, some { cls := .edge })], resetting := [1] }
    safe := { resets := [{ part := 1, full := false, trig := 0, since := 0 }] } }

set_option maxRecDepth 4000 in
theorem resetEnding_scanTick : (snapTick (resetTick (safeTick (scanTick resetEnding)))).disp.resetting = [] := by decide

/-- Refutes O25: a scan tick also ends the partition resets that wait for it (23 R663, log 100), so that the dispatcher's books are not
as before; here partition 1 is no longer being reset. -/
theorem not_jobsAreAdmittedOrRejected : ¬ Obligations.JobsAreAdmittedOrRejected := by
  unfold Obligations.JobsAreAdmittedOrRejected
  intro h
  obtain ⟨-, hscan⟩ := h resetEnding
  obtain ⟨u, hexec, -, -, hdisp, -⟩ := hscan rfl rfl (fun _ hr => nomatch hr)
  have hrow : exec .scanTick resetEnding = .next (snapTick (resetTick (safeTick (scanTick resetEnding)))) := rfl
  have hnext : snapTick (resetTick (safeTick (scanTick resetEnding))) = reconsider u :=
    Host.Outcome.next.inj (hrow.symm.trans hexec)
  have hnone : NoJobs u := NoJobs.congr (s := resetEnding) hdisp fun _ => rfl
  have hkept : (reconsider u).disp.resetting = [1] := by rw [reconsider_disp hnone, hdisp]; rfl
  rw [← hnext, resetEnding_scanTick] at hkept
  exact absurd hkept (by decide)

/-- An edge job that runs on cluster 0. -/
def strayJob : Job := { part := 0, slot := 0, gen := 0, entry := 0, units := [0], phase := .running }

/-- Window 0 of cluster 0, which serves partition 1 for 500 ns, is about to start. The table of jobs lists number 0 twice, first as no
job and then as `strayJob`, and a spill of job 0 waits. -/
def strayState : State :=
  let s := setRg (setRg (setRg State.reset SYS_FLOOR_CFG 0 0 0x80000000) SYS_FLOOR_PERIOD 0 0 10000) SYS_WIN_CFG 0 0
    (w32 (2 ^ 31 + 2 ^ 26 + 500))
  { s with disp := { s.disp with
    jobs := [(0, none), (0, some strayJob)]
    spill := [{ job := 0, restore := false, deadline := 0, bytes := 64 }] } }

theorem strayState_noJobs : NoJobs strayState := fun j => by
  have hread : job? strayState j = if 0 = j then none else if 0 = j then some strayJob else none := rfl
  rw [hread]
  split
  · rfl
  · rfl

theorem strayState_spill : (floorStart strayState 0 0).disp.spill = [{ job := 0, restore := false, deadline := 0, bytes := 64 }] := by
  decide

theorem strayState_leaves : jobsOn strayState 0 (fun x => mustLeave strayState 0 0 x && !replaying strayState x.part) =
    [(0, strayJob)] := by decide

/-- Refutes O27: its hypotheses let the table of jobs list one number twice. The window then finds an edge job on the cluster, the abort
finds no job of that number, and the spill that waits is neither cancelled nor discarded (09 R300). -/
theorem not_floorsAndDeadlinesAreKept : ¬ Obligations.FloorsAndDeadlinesAreKept := by
  unfold Obligations.FloorsAndDeadlinesAreKept
  intro h
  obtain ⟨-, hstart, -⟩ := h strayState 0 0 (by decide) rfl rfl (fun _ _ hh => nomatch hh)
  obtain ⟨-, hleave⟩ := hstart (by decide) rfl (by decide)
  obtain ⟨u, hexec, -, hgone, hothers, hspill, -⟩ := hleave 0 strayJob strayState_leaves (by decide)
  have hrow : exec (.floorWindowStart 0 0) strayState = .next (floorStart strayState 0 0) := rfl
  have hnext : floorStart strayState 0 0 = reconsider u := Host.Outcome.next.inj (hrow.symm.trans hexec)
  have hnone : NoJobs u := fun k => by
    by_cases hk : k = 0
    · rw [hk]; exact hgone
    · rw [hothers k hk]; exact strayState_noJobs k
  have hkept : u.disp.spill = [{ job := 0, restore := false, deadline := 0, bytes := 64 }] := by
    rw [← reconsider_disp hnone, ← hnext]; exact strayState_spill
  obtain ⟨hstarted, -⟩ := hspill _ (by rw [hkept]; exact List.mem_singleton_self _) rfl
  exact absurd hstarted (by decide)

end Sys2Proof.Proofs
end

section
/-! Messages to the host (10 R335, 17 R539): what a delivery leaves alone, and that what has gone out stays. -/

namespace Sys2Proof.Machine

open Sys2Proof

/-! ### Deliveries (R532 to R539) -/

/-- What posting a record or delivering a message may do: the host interface, host memory and the outputs change, the descriptors
that wait stay, and outputs are added alone. -/
structure Tells (s t : State) : Prop where
  host : HostOnly s t
  out : s.out <:+ t.out
  picked : t.host.picked = s.host.picked

theorem Tells.refl (s : State) : Tells s s := ⟨.rfl' s, List.suffix_rfl, rfl⟩

theorem Tells.trans {s t u : State} (h : Tells s t) (h' : Tells t u) : Tells s u :=
  ⟨h.host.trans h'.host, h.out.trans h'.out, h'.picked.trans h.picked⟩

section
variable (s : State) (p c r : Nat)

theorem tells_emit (o : Output) : Tells s (emit s o) := ⟨emit_hostOnly .., List.suffix_cons .., rfl⟩
theorem tells_setRing (x : Ring) : Tells s (setRing s p r x) := ⟨setRing_hostOnly .., List.suffix_rfl, rfl⟩
theorem tells_setStaged (l : List (Nat × List Word)) : Tells s (setStaged s p l) := ⟨setStaged_hostOnly .., List.suffix_rfl, rfl⟩
theorem tells_hostWrite (a : Nat) (bs : List Byte) : Tells s (hostWrite s a bs) := ⟨hostWrite_hostOnly .., List.suffix_rfl, rfl⟩

theorem writeStatus_out : (writeStatus s p).out = s.out := by
  unfold writeStatus
  simp only [apply_ite State.out, hostWrite, ite_self]

theorem tells_writeStatus : Tells s (writeStatus s p) := by
  obtain ⟨⟨hpicked, -, -⟩, -, -⟩ := writeStatus_queues s p
  exact ⟨writeStatus_hostOnly .., by rw [writeStatus_out], hpicked⟩

theorem tells_sendRing : Tells s (sendRing s p r) := (tells_setRing s p r _).trans (tells_emit _ _)

theorem tells_ringPut (ws : List Word) : Tells s (ringPut s p r ws) := by
  have hput : Tells s (recordPut s p r ws) := (tells_hostWrite s _ _).trans (tells_setRing _ _ _ _)
  have hstatus := hput.trans (tells_writeStatus _ p)
  rw [ringPut_eq]
  split
  · exact hstatus.trans (tells_sendRing ..)
  · exact hstatus

theorem tells_postRec (ws : List Word) : Tells s (postRec s p r ws) := by
  unfold postRec
  split
  · exact tells_setStaged ..
  · exact tells_ringPut ..

theorem tells_cmdRec (d : List Word) (st : Nat) (d1 d2 : Word) : Tells s (cmdRec s p d st d1 d2) := tells_postRec ..

theorem tells_fillBufs (exc : Option (Nat × Word)) (l : List (List Byte)) : Tells s (fillBufs s p exc l) := by
  induction l generalizing s with
  | nil => exact .refl s
  | cons b bs ih =>
    unfold fillBufs
    split
    · exact .refl s
    · rename_i a lo hi ring rest hbufs
      have hwrite : Tells s (hostWrite { s with host := { s.host with rxbufs := tsetD [] s.host.rxbufs p rest } } a b) :=
        ⟨.trans ⟨_, _, _, rfl⟩ (hostWrite_hostOnly ..), List.suffix_rfl, rfl⟩
      refine Tells.trans ?_ (ih _)
      simp only
      split
      · exact (hwrite.trans (tells_postRec ..)).trans (tells_postRec ..)
      · exact hwrite.trans (tells_postRec ..)

theorem tells_deliverMsg (bs : List Byte) : Tells s (deliverMsg s p bs) := by
  unfold deliverMsg deliverTo
  simp only
  split
  · exact tells_fillBufs ..
  · exact ⟨⟨_, _, _, rfl⟩, List.suffix_rfl, rfl⟩

/-! ### Messages (R335) -/

theorem tells_fapiSend (m : FapiMsg) : Tells s (fapiSend s p c m) := (tells_deliverMsg ..).trans (tells_emit ..)

@[simp] theorem fapiSend_radio (m : FapiMsg) : (fapiSend s p c m).radio = s.radio := by
  obtain ⟨_, _, _, h⟩ := (tells_fapiSend s p c m).host
  rw [h]

theorem sent_fapiSend (m : FapiMsg) : sent s (fapiSend s p c m) p c m := by
  obtain ⟨l, hl⟩ := (tells_deliverMsg s p (Config.fapiBytes m)).out
  exact ⟨.fapi p c m :: l, by rw [List.cons_append, hl]; rfl, List.mem_cons_self⟩

end

section
variable {s t u : State} {p c : Nat} {m : FapiMsg}

/-- What was sent stays sent. -/
theorem sent_of_suffix (h : sent s t p c m) (hout : t.out <:+ u.out) : sent s u p c m := by
  obtain ⟨l, hl, hm⟩ := h
  obtain ⟨k, hk⟩ := hout
  exact ⟨k ++ l, by rw [← hk, hl, List.append_assoc], List.mem_append_right k hm⟩

/-- What was sent since was sent since an earlier state. -/
theorem sent_since (hout : s.out <:+ t.out) (h : sent t u p c m) : sent s u p c m := by
  obtain ⟨k, hk⟩ := hout
  obtain ⟨l, hl, hm⟩ := h
  exact ⟨l ++ k, by rw [hl, ← hk, List.append_assoc], List.mem_append_left k hm⟩

end

end Sys2Proof.Machine
end

section
/-! The FAPI descriptor and the states of a cell (10 R335, R336, R338), and O30. -/

namespace Sys2Proof.Machine

open Sys2Proof

/-! ### The recorder is idle (20 R597, R602) -/

theorem record_of_idle {s : State} (h : s.trace.run = none) (p type : Nat) (body : List Byte) : record s p type body = s := by
  have hidle : recording s p = false := by unfold recording; rw [h]
  unfold record
  rw [hidle]
  rfl

theorem decision_of_idle {s : State} (h : s.trace.run = none) (p choice who value cyc : Nat) :
    decision s p choice who value cyc = s := record_of_idle h ..

theorem replaying_of_idle {s : State} (h : s.trace.replay = none) (p : Nat) : replaying s p = false := by
  unfold replaying
  rw [h]

theorem forcedMet_of_idle {s : State} (h : s.trace.replay = none) (choice job : Nat) : forcedMet s choice job = s := by
  unfold forcedMet
  rw [h]

/-! ### What a FAPI message may change -/

/-- The radio's state, contexts, the host interface, pages and memories may change; the descriptors stay and outputs are added alone. -/
structure FapiWork (s t : State) : Prop where
  frame : t = { s with radio := t.radio, cxs := t.cxs, host := t.host, pg := t.pg, mem := t.mem, out := t.out }
  out : s.out <:+ t.out
  picked : t.host.picked = s.host.picked

theorem FapiWork.trans {s t u : State} (h : FapiWork s t) (h' : FapiWork t u) : FapiWork s u := by
  obtain ⟨hframe, hout, hpicked⟩ := h
  obtain ⟨hframe', hout', hpicked'⟩ := h'
  refine ⟨?_, hout.trans hout', hpicked'.trans hpicked⟩
  rw [hframe] at hframe'
  exact hframe'

theorem fapiWork_of_radio (s : State) (x : Radio) : FapiWork s { s with radio := x } := ⟨rfl, List.suffix_rfl, rfl⟩
theorem FapiWork.refl (s : State) : FapiWork s s := fapiWork_of_radio s s.radio

theorem Tells.fapiWork {s t : State} (h : Tells s t) : FapiWork s t := by
  refine ⟨?_, h.out, h.picked⟩
  obtain ⟨_, _, _, hframe⟩ := h.host
  rw [hframe]

theorem fapiWork_send (s : State) (p c : Nat) (m : FapiMsg) : FapiWork s (fapiSend s p c m) := (tells_fapiSend s p c m).fapiWork

/-! ### The descriptor is taken -/

theorem takeFapi_of_ready {s : State} {p c : Nat} (h : FapiReady s p c) (f : State → State) :
    ∃ d, tgetD [] s.host.picked p = [d] ∧ takeFapi s p c f = dropDesc (cmdRec (f s) p d 0 0 0) p := by
  obtain ⟨d, hpicked, htype, hgood, hcell, hhost, howner, hrun, -⟩ := h
  have hmine : ¬ ((cellOf s c).part.isSome = true ∧ (cellOf s c).part ≠ some p) := by
    rintro ⟨hsome, hother⟩
    rcases howner with hnone | hown
    · rw [hnone] at hsome; cases hsome
    · exact hother hown
  refine ⟨d, hpicked, ?_⟩
  unfold takeFapi headDesc
  rw [hpicked]
  simp only [List.head?_cons, htype, hgood, hcell, hhost, hmine, ne_eq, not_true, Bool.not_true, Bool.false_eq_true, or_self,
    if_false, record_of_idle hrun]

section
variable {s t : State} {p c : Nat} {i : Instr} {f : State → State}

/-- A message is carried out on the state, its descriptor answered and taken; the radio's state is what the message leaves. -/
theorem fapi_taken (h : FapiReady s p c) (hexec : exec i s = .next (takeFapi s p c f)) (hf : f s = t) (hwork : FapiWork s t) :
    ∃ u, exec i s = .next u ∧ fapiDone s u p ∧ u.radio = t.radio ∧ t.out <:+ u.out := by
  obtain ⟨d, hpicked, htake⟩ := takeFapi_of_ready h f
  obtain ⟨hframe, hout, hsame⟩ := hwork
  have hanswer := tells_cmdRec t p d 0 0 0
  have hsingle : tgetD [] (cmdRec t p d 0 0 0).host.picked p = [d] := by rw [hanswer.picked, hsame, hpicked]
  rw [hf, dropDesc_single hsingle] at htake
  refine ⟨_, hexec.trans (congrArg _ htake), ⟨by simp, ?_⟩, ?_, hanswer.out⟩
  · obtain ⟨host, mem, out, hrec⟩ := hanswer.host
    rw [hrec, hframe]
  · obtain ⟨host, mem, out, hrec⟩ := hanswer.host
    rw [hrec]

/-- A message that is answered and changes nothing. -/
theorem fapi_answered {m : FapiMsg} (h : FapiReady s p c) (hexec : exec i s = .next (takeFapi s p c f)) (hf : f s = fapiSend s p c m) :
    ∃ u, exec i s = .next u ∧ fapiDone s u p ∧ u.radio = s.radio ∧ sent s u p c m := by
  obtain ⟨u, hu, hdone, hradio, hout⟩ := fapi_taken h hexec hf (fapiWork_send s p c m)
  exact ⟨u, hu, hdone, by rw [hradio, fapiSend_radio], sent_of_suffix (sent_fapiSend s p c m) hout⟩

/-! ### One cell alone changes -/

/-- Cell `c` is `x`, and nothing else has changed. -/
structure OnlyCell (s t : State) (c : Nat) (x : Cell) : Prop where
  frame : t = { s with radio := { s.radio with cells := t.radio.cells } }
  self : cellOf t c = x
  others : ∀ e, e ≠ c → cellOf t e = cellOf s e

theorem cellOf_setCell (s : State) (c e : Nat) (x : Cell) : cellOf (setCell s c x) e = if e = c then x else cellOf s e := by
  simp only [cellOf, setCell, tgetD_tsetD]

theorem cellOf_congr {s t : State} (h : t.radio = s.radio) (c : Nat) : cellOf t c = cellOf s c := by
  unfold cellOf
  rw [h]

theorem OnlyCell.setCell {y : Cell} (h : OnlyCell s t c y) (x : Cell) : OnlyCell s (setCell t c x) c x := by
  obtain ⟨hframe, -, hothers⟩ := h
  refine ⟨?_, by rw [cellOf_setCell, if_pos rfl], fun e he => by rw [cellOf_setCell, if_neg he, hothers e he]⟩
  rw [hframe]
  rfl

theorem onlyCell_refl (s : State) (c : Nat) : OnlyCell s s c (cellOf s c) := ⟨rfl, rfl, fun _ _ => rfl⟩
theorem onlyCell_setCell (s : State) (c : Nat) (x : Cell) : OnlyCell s (setCell s c x) c x := (onlyCell_refl s c).setCell x

theorem OnlyCell.fapiWork {x : Cell} (h : OnlyCell s t c x) : FapiWork s t := by
  rw [h.frame]
  exact fapiWork_of_radio ..

/-- A message that changes its cell. -/
theorem fapi_setsCell {x : Cell} (h : FapiReady s p c) (hexec : exec i s = .next (takeFapi s p c f)) (hf : f s = t)
    (hcell : OnlyCell s t c x) :
    ∃ u, exec i s = .next u ∧ fapiDone s u p ∧ (∀ e, e ≠ c → cellOf u e = cellOf s e) ∧ cellOf u c = x := by
  obtain ⟨u, hu, hdone, hradio, -⟩ := fapi_taken h hexec hf hcell.fapiWork
  exact ⟨u, hu, hdone, fun e he => (cellOf_congr hradio e).trans (hcell.others e he), (cellOf_congr hradio c).trans hcell.self⟩

/-- A message that changes its cell and is answered. -/
theorem fapi_setsCell_answered {x : Cell} {m : FapiMsg} (h : FapiReady s p c) (hexec : exec i s = .next (takeFapi s p c f))
    (hf : f s = fapiSend t p c m) (hcell : OnlyCell s t c x) : ∃ u, exec i s = .next u ∧ fapiDone s u p ∧
      (∀ e, e ≠ c → cellOf u e = cellOf s e) ∧ sent s u p c m ∧ cellOf u c = x := by
  have hwork := hcell.fapiWork
  obtain ⟨u, hu, hdone, hradio, hout⟩ := fapi_taken h hexec hf (hwork.trans (fapiWork_send t p c m))
  rw [fapiSend_radio] at hradio
  exact ⟨u, hu, hdone, fun e he => (cellOf_congr hradio e).trans (hcell.others e he),
    sent_of_suffix (sent_since hwork.out (sent_fapiSend t p c m)) hout, (cellOf_congr hradio c).trans hcell.self⟩

end

/-! ### CONFIG (R336, R338) -/

/-- The tick from which a configuration keeps learned receivers off (11 R357). -/
def learnedOffWith (s : State) (c : Nat) (x : CellConfig) : Option Nat :=
  if x.learnedRx.getD 1 = 0 then some ((cellOf s c).learnedOff.getD s.tmu.ticks) else none

section
variable {s : State} {p c : Nat} {x old : CellConfig}

theorem onlyCell_applyCfg {t : State} {k : Cell} (h : OnlyCell s t c k) (hoff : k.learnedOff = (cellOf s c).learnedOff)
    (x : CellConfig) : OnlyCell s (applyCfg t c x) c { k with cfg := some x, todo := none, learnedOff := learnedOffWith s c x } := by
  have hticks : t.tmu = s.tmu := by rw [h.frame]
  have happly : applyCfg t c x = setCell t c { k with cfg := some x, todo := none, learnedOff := learnedOffWith s c x } := by
    simp only [applyCfg, learnedOffWith, cfgLearned, h.self, hoff, hticks]
  rw [happly]
  exact h.setCell _

theorem configCell_running (hst : (cellOf s c).st = .running) (hcfg : (cellOf s c).cfg = some old) : configCell s p c x =
    if x.otherChange = true ∨ tlvsOk x old.rxAnts = false then fapiSend s p c (.configResponse false)
    else fapiSend (setCell s c { cellOf s c with todo := some (mergeTlvs ((cellOf s c).todo.getD old) x) }) p c (.configResponse true) := by
  unfold configCell
  simp only [hst, hcfg]
  cases x.otherChange with
  | true => simp
  | false => cases tlvsOk x old.rxAnts <;> simp

theorem configCell_idle (hst : (cellOf s c).st ≠ .running) : configCell s p c x =
    if cfgOk s c x = true then
      fapiSend (applyCfg (setCell s c { cellOf s c with part := some p, st := .configured }) c x) p c (.configResponse true)
    else fapiSend s p c (.configResponse false) := by
  unfold configCell
  simp only
  split
  · rename_i hrun _
    exact absurd hrun hst
  · cases cfgOk s c x <;> simp [hst]

end

end Sys2Proof.Machine
end

section

namespace Sys2Proof.Proofs

open Sys2Proof Sys2Proof.Machine

/-- Settles O30: each message does one thing to its cell, or is answered and does nothing, and its descriptor is taken. -/
theorem cellsFollowFapiStates : Obligations.CellsFollowFapiStates := by
  unfold Obligations.CellsFollowFapiStates
  intro s p c m x h k others off
  have hconfig : exec (.configRequest p c x) s = .next (takeFapi s p c (fun s => configCell s p c x)) := rfl
  have hstart : exec (.startRequest p c) s = .next (takeFapi s p c (fun s => startCell s p c)) := rfl
  have hstop : exec (.stopRequest p c) s = .next (takeFapi s p c (fun s => stopCell s p c)) := rfl
  refine ⟨fapi_answered h (f := fun s => fapiSend s p c .paramResponse) rfl rfl,
    fapi_answered h (f := fun s => fapiError s p c (.other m) .unsupported 0 none) rfl rfl, fun hst hok => ?_, fun hst hbad => ?_,
    fun old hst hcfg => ⟨fun hno htlv => ?_, fun hbad => ?_⟩, fun hst ha hb => ?_, fun hno => ?_, fun hst hb => ?_, fun hno => ?_⟩
  · have hcell := onlyCell_applyCfg (onlyCell_setCell s c { k with part := some p, st := .configured }) rfl x
    exact fapi_setsCell_answered h hconfig ((configCell_idle hst).trans (if_pos hok)) hcell
  · exact fapi_answered h hconfig ((configCell_idle hst).trans (if_neg (by rw [hbad]; decide)))
  · exact fapi_setsCell_answered h hconfig ((configCell_running hst hcfg).trans (if_neg (by simp [hno, htlv]))) (onlyCell_setCell s c _)
  · exact fapi_answered h hconfig ((configCell_running hst hcfg).trans (if_pos hbad))
  · exact fapi_setsCell h hstart (if_pos ⟨hst, ha, hb⟩) (onlyCell_setCell s c _)
  · have hrefused : ¬ (k.st = .configured ∧ k.startAt = none ∧ k.stopAt = none) := by
      rintro ⟨hst, ha, hb⟩
      simp [hst, ha, hb] at hno
    exact fapi_answered h hstart (if_neg hrefused)
  · exact fapi_setsCell h hstop (if_pos ⟨hst, hb⟩) (onlyCell_setCell s c _)
  · have hrefused : ¬ (k.st = .running ∧ k.stopAt = none) := by
      rintro ⟨hst, hb⟩
      simp [hst, hb] at hno
    exact fapi_answered h hstop (if_neg hrefused)

end Sys2Proof.Proofs
end

section
/-! The slots of a cell and their items (10 R309, R334): what is found after a slot is added, changed or removed. -/

namespace Sys2Proof.Machine

open Sys2Proof

/-! ### Lists -/

section
variable {α : Type} {p q : α → Bool} {f : α → α}

/-- Changing the first element that satisfies `p` is seen by whoever looks for it. -/
theorem find_updFirst_self (h : ∀ a, p a = true → p (f a) = true) (l : List α) : (updFirst p f l).find? p = (l.find? p).map f := by
  induction l with
  | nil => rfl
  | cons a l ih =>
    by_cases ha : p a = true
    · simp [updFirst, ha, h a ha]
    · simp [updFirst, ha, ih]

/-- Whoever looks for something else sees no change. -/
theorem find_updFirst_other (h : ∀ a, p a = true → q a = false ∧ q (f a) = false) (l : List α) :
    (updFirst p f l).find? q = l.find? q := by
  induction l with
  | nil => rfl
  | cons a l ih =>
    by_cases ha : p a = true
    · simp [updFirst, ha, (h a ha).1, (h a ha).2]
    · simp [updFirst, ha, List.find?_cons, ih]

/-- Removing what is not looked for changes nothing. -/
theorem find_filter_of_keeps (h : ∀ a, q a = true → p a = true) (l : List α) : (l.filter p).find? q = l.find? q := by
  rw [List.find?_filter]
  congr 1
  funext a
  cases hq : q a with
  | false => simp
  | true => simp [h a hq]

theorem getElem_lset (l : List α) (i j : Nat) (v : α) : (lset l i v)[j]? = if j = i then l[i]?.map (fun _ => v) else l[j]? := by
  induction l generalizing i j with
  | nil => simp [lset]
  | cons a l ih => cases i <;> cases j <;> simp [lset, ih]

theorem map_lset {β : Type} (g : α → β) {l : List α} {i : Nat} {a v : α} (ha : l[i]? = some a) (hv : g v = g a) :
    (lset l i v).map g = l.map g := by
  induction l generalizing i with
  | nil => rfl
  | cons b l ih =>
    cases i with
    | zero =>
      obtain rfl : b = a := by simpa using ha
      simp [lset, hv]
    | succ i => simp [lset, ih (i := i) (by simpa using ha)]

theorem mem_lset {l : List α} {i : Nat} {a v : α} (h : a ∈ lset l i v) : a = v ∨ a ∈ l := by
  induction l generalizing i with
  | nil => exact Or.inr h
  | cons b l ih =>
    cases i with
    | zero =>
      rcases List.mem_cons.1 h with rfl | h
      · exact Or.inl rfl
      · exact Or.inr (List.mem_cons_of_mem _ h)
    | succ i =>
      rcases List.mem_cons.1 h with rfl | h
      · exact Or.inr List.mem_cons_self
      · exact (ih h).imp_right (List.mem_cons_of_mem _)

end

/-- What belongs to one slot belongs to no other. -/
theorem otherSlot {a b c n c' n' : Nat} (h : (c', n') ≠ (c, n)) (hab : decide (a = c ∧ b = n) = true) :
    decide (a = c' ∧ b = n') = false := by
  obtain ⟨rfl, rfl⟩ := of_decide_eq_true hab
  exact decide_eq_false fun ⟨hc, hn⟩ => h (by rw [hc, hn])

/-! ### The uplink of a slot -/

section
variable {s t : State} {c n i : Nat} {x : UlItem}

theorem ulOf_congr (h : t.radio.ul = s.radio.ul) (c n : Nat) : ulOf t c n = ulOf s c n := by
  unfold ulOf
  rw [h]

theorem ulOf_setItem_self (s : State) (c n i : Nat) (x : UlItem) :
    ulOf (setItem s c n i x) c n = (ulOf s c n).map (fun v => { v with items := lset v.items i x }) := by
  unfold ulOf setItem
  refine find_updFirst_self ?_ _
  exact fun _ h => h

theorem ulOf_setItem_other (s : State) (i : Nat) (x : UlItem) {c n c' n' : Nat} (h : (c', n') ≠ (c, n)) :
    ulOf (setItem s c n i x) c' n' = ulOf s c' n' := by
  unfold ulOf setItem
  refine find_updFirst_other ?_ _
  exact fun _ hv => ⟨otherSlot h hv, otherSlot h hv⟩

theorem itemOf_congr (h : t.radio.ul = s.radio.ul) (c n i : Nat) : itemOf t c n i = itemOf s c n i := by
  unfold itemOf
  rw [ulOf_congr h]

theorem ulOf_of_itemOf (h : itemOf s c n i = some x) : ∃ v, ulOf s c n = some v ∧ v.items[i]? = some x := Option.bind_eq_some_iff.1 h

/-- Setting an item sets that item alone. -/
theorem itemSet_setItem {y : UlItem} (h : itemOf s c n i = some y) (x : UlItem) : itemSet s (setItem s c n i x) c n i x := by
  obtain ⟨v, hv, hy⟩ := ulOf_of_itemOf h
  refine ⟨?_, fun c' n' i' hne => ?_⟩
  · unfold itemOf
    rw [ulOf_setItem_self, hv]
    simp [getElem_lset, hy]
  · unfold itemOf
    by_cases hslot : (c', n') = (c, n)
    · obtain ⟨rfl, rfl⟩ := Prod.mk.inj hslot
      have hi : i' ≠ i := fun hi => hne (by rw [hi])
      rw [ulOf_setItem_self, hv]
      simp [getElem_lset, hi]
    · rw [ulOf_setItem_other s i x hslot]

end

/-! ### The downlink of a slot -/

section
variable {s t : State} {c n i : Nat} {x : DlItem}

theorem dlOf_congr (h : t.radio.dl = s.radio.dl) (c n : Nat) : dlOf t c n = dlOf s c n := by
  unfold dlOf
  rw [h]

theorem dlItem_congr (h : t.radio.dl = s.radio.dl) (c n i : Nat) : dlItem t c n i = dlItem s c n i := by
  unfold dlItem
  rw [dlOf_congr h]

theorem dlOf_setDl_self (s : State) (c n i : Nat) (x : DlItem) :
    dlOf (setDl s c n i x) c n = (dlOf s c n).map (fun v => { v with items := lset v.items i x }) := by
  unfold dlOf setDl
  refine find_updFirst_self ?_ _
  exact fun _ h => h

theorem dlOf_setDl_other (s : State) (i : Nat) (x : DlItem) {c n c' n' : Nat} (h : (c', n') ≠ (c, n)) :
    dlOf (setDl s c n i x) c' n' = dlOf s c' n' := by
  unfold dlOf setDl
  refine find_updFirst_other ?_ _
  exact fun _ hv => ⟨otherSlot h hv, otherSlot h hv⟩

theorem dlItem_setDl_self {y : DlItem} (h : dlItem s c n i = some y) (x : DlItem) : dlItem (setDl s c n i x) c n i = some x := by
  obtain ⟨v, hv, hy⟩ := Option.bind_eq_some_iff.1 h
  unfold dlItem
  rw [dlOf_setDl_self, hv]
  simp [getElem_lset, hy]

theorem dlItem_setDl_ne (s : State) (x : DlItem) {c n i c' n' i' : Nat} (h : (c', n', i') ≠ (c, n, i)) :
    dlItem (setDl s c n i x) c' n' i' = dlItem s c' n' i' := by
  unfold dlItem
  by_cases hslot : (c', n') = (c, n)
  · obtain ⟨rfl, rfl⟩ := Prod.mk.inj hslot
    have hi : i' ≠ i := fun hi => h (by rw [hi])
    rw [dlOf_setDl_self]
    cases dlOf s c' n' <;> simp [getElem_lset, hi]
  · rw [dlOf_setDl_other s i x hslot]

end

end Sys2Proof.Machine
end

section
/-! Slot requests (10 R309, R333, R334, R337): when one is taken or refused, what taking it leaves, and O31. -/

namespace Sys2Proof.Machine

open Sys2Proof

/-! ### Why a request is refused (R333, R337) -/

section
variable {s : State} {c n kind : Nat} {ul : Bool}

theorem takesSlots_iff {k : Cell} : takesSlots k = true ↔ k.st = .running ∨ k.startAt.isSome = true := by
  simp [takesSlots]

theorem slotErr_of_takesSlots (htakes : (cellOf s c).st = .running ∨ (cellOf s c).startAt.isSome = true)
    (hreplay : s.trace.replay = none) : slotErr s c n kind =
      if farAhead s c n = true then some .invalidSfn else if onTime s c n (decide (kind = 1)) = true then none else some .late := by
  unfold slotErr
  simp only [takesSlots_iff.2 htakes, replaying_of_idle hreplay, Bool.not_true, Bool.false_eq_true, if_false, Bool.not_eq_true']
  cases onTime s c n (decide (kind = 1)) <;> rfl

theorem slotErr_of_open (h : slotOpen s c n ul) (hul : decide (kind = 1) = ul) (hreplay : s.trace.replay = none) :
    slotErr s c n kind = none := by
  obtain ⟨htakes, hnear, hlead⟩ := h
  have htime : onTime s c n ul = true := decide_eq_true hlead
  rw [slotErr_of_takesSlots htakes hreplay, hul, hnear, if_neg (by decide), if_pos htime]

theorem slotErr_of_late (h : slotLate s c n ul) (hul : decide (kind = 1) = ul) (hreplay : s.trace.replay = none) :
    slotErr s c n kind = some .late := by
  obtain ⟨htakes, hnear, hlate⟩ := h
  have hno : ¬ onTime s c n ul = true := by
    unfold onTime
    simpa using hlate
  rw [slotErr_of_takesSlots htakes hreplay, hul, hnear, if_neg (by decide), if_neg hno]

theorem slotErr_of_far (hrun : (cellOf s c).st = .running) (hfar : farAhead s c n = true) (hreplay : s.trace.replay = none) :
    slotErr s c n kind = some .invalidSfn := by
  rw [slotErr_of_takesSlots (Or.inl hrun) hreplay, if_pos hfar]

theorem leadNs_eq (s : State) (c : Nat) (ul : Bool) :
    leadNs s c ul = (if cellLte s c = true ∨ cellMu s c = 0 then 1000000 else if cellMu s c = 1 then 500000
      else if cellMu s c = 2 then 300000 else 200000) / (if ul = true then 2 else 1) := by
  unfold leadNs
  by_cases hlte : cellLte s c = true
  · cases ul <;> simp [hlte]
  · rcases hmu : cellMu s c with _ | _ | _ | k <;> cases ul <;> simp [hlte]

end

/-! ### A request that is refused -/

/-- The refusal of a late request is noted for requests that a slot has to have; it is a choice that no trace looks at here (R334). -/
theorem noteLate_late {s : State} (hrun : s.trace.run = none) (hreplay : s.trace.replay = none) (c n kind : Nat) :
    noteLate s .late c n kind =
      if kind ≤ 1 then { s with radio := { s.radio with lateSeen := s.radio.lateSeen ++ [(c, n, decide (kind = 1))] } } else s := by
  unfold noteLate
  simp only [forcedMet_of_idle hreplay, decision_of_idle hrun, if_true]

theorem noteLate_other {s : State} {e : FapiErr} (he : e ≠ .late) (c n kind : Nat) : noteLate s e c n kind = s := if_neg he

section
variable {s : State} {p c n kind : Nat} {i : Instr} {f : State → State}

theorem idle_of_fapiReady (h : FapiReady s p c) : s.trace.run = none ∧ s.trace.replay = none := by
  obtain ⟨d, -, -, -, -, -, -, hrun, hreplay⟩ := h
  exact ⟨hrun, hreplay⟩

theorem fapiSend_trace (s : State) (p c : Nat) (m : FapiMsg) : (fapiSend s p c m).trace = s.trace := by
  obtain ⟨_, _, _, h⟩ := (tells_fapiSend s p c m).host
  rw [h]

theorem noteLate_fapiError (h : FapiReady s p c) (r : FapiReq) (pdu : Option Nat) (kind : Nat) :
    FapiWork s (noteLate (fapiError s p c r .late n pdu) .late c n kind) ∧
      (noteLate (fapiError s p c r .late n pdu) .late c n kind).radio =
        { s.radio with lateSeen := (noteLate (fapiError s p c r .late n pdu) .late c n kind).radio.lateSeen } ∧
      sent s (noteLate (fapiError s p c r .late n pdu) .late c n kind) p c (.errorIndication r .late n pdu) := by
  obtain ⟨hrun, hreplay⟩ := idle_of_fapiReady h
  have hwork := fapiWork_send s p c (.errorIndication r .late n pdu)
  have hsent := sent_fapiSend s p c (.errorIndication r .late n pdu)
  have hradio := fapiSend_radio s p c (.errorIndication r .late n pdu)
  rw [noteLate_late (by rw [fapiError, fapiSend_trace]; exact hrun) (by rw [fapiError, fapiSend_trace]; exact hreplay)]
  split
  · refine ⟨hwork.trans (fapiWork_of_radio ..), ?_, hsent⟩
    simp only [fapiError, hradio]
  · exact ⟨hwork, by rw [fapiError, hradio], hsent⟩

/-- A request that comes late is answered, and only noted. -/
theorem request_late (h : FapiReady s p c) (hexec : exec i s = .next (takeFapi s p c f)) {r : FapiReq}
    (hf : f s = noteLate (fapiError s p c r .late n none) .late c n kind) : ∃ u, exec i s = .next u ∧ fapiDone s u p ∧
      u.radio = { s.radio with lateSeen := u.radio.lateSeen } ∧ sent s u p c (.errorIndication r .late n none) := by
  obtain ⟨hwork, hradio, hsent⟩ := noteLate_fapiError (n := n) h r none kind
  obtain ⟨u, hu, hdone, hsame, hout⟩ := fapi_taken h hexec hf hwork
  exact ⟨u, hu, hdone, by rw [hsame, hradio], sent_of_suffix hsent hout⟩

/-- A request for a slot too far ahead is answered and changes nothing. -/
theorem request_far (h : FapiReady s p c) (hexec : exec i s = .next (takeFapi s p c f)) {r : FapiReq}
    (hf : f s = noteLate (fapiError s p c r .invalidSfn n none) .invalidSfn c n kind) : ∃ u, exec i s = .next u ∧ fapiDone s u p ∧
      u.radio = s.radio ∧ sent s u p c (.errorIndication r .invalidSfn n none) :=
  fapi_answered h hexec (hf.trans (noteLate_other (by decide) ..))

end

/-! ### DL_TTI and UL_DCI (R309) -/

section
variable {s : State} {p c n : Nat}

theorem dlTti_refused {e : FapiErr} (h : slotErr s c n 0 = some e) (ds : List DlPdu) :
    dlTti s p c n ds = noteLate (fapiError s p c .dlTti e n none) e c n 0 := by
  unfold dlTti
  rw [h]

theorem dlTti_taken {ds : List DlPdu} (h : slotErr s c n 0 = none) (hbad : dlBad ds = none) (hnew : dlOf s c n = none) :
    dlTti s p c n ds = { s with radio := { s.radio with dl := s.radio.dl ++ [⟨p, c, n, ds.map (fun x => { pdu := x }), 0, true⟩] } } := by
  unfold dlTti
  rw [h, hbad, hnew]

theorem ulDci_refused {e : FapiErr} (h : slotErr s c n 2 = some e) (k : Nat) :
    ulDci s p c n k = noteLate (fapiError s p c .ulDci e n none) e c n 2 := by
  unfold ulDci
  rw [h]

theorem ulDci_taken {k : Nat} (h : slotErr s c n 2 = none) (hk : k ≤ 64) (hnew : dlOf s c n = none) :
    ulDci s p c n k = { s with radio := { s.radio with dl := s.radio.dl ++ [⟨p, c, n, [], k, false⟩] } } := by
  unfold ulDci
  rw [h, hnew]
  simp only [Nat.zero_add, if_neg (Nat.not_lt.2 hk)]

end

/-! ### UL_TTI: contexts are prefetched (14 R450) -/

/-- The context cache and the registers may change. -/
def CacheWork (s t : State) : Prop := t = { s with cxs := t.cxs, pg := t.pg }

theorem CacheWork.trans {s t u : State} (h : CacheWork s t) (h' : CacheWork t u) : CacheWork s u := by
  unfold CacheWork at *
  rw [h] at h'
  exact h'

theorem cacheWork_touchSect {s : State} (h : s.mem.ue = []) (p i n : Nat) (dirty zero : Bool) :
    CacheWork s (touchSect s p i n dirty zero).1 := by
  have hgood (a b : Nat) : anyUE s a b = none := by
    unfold anyUE
    simp [h]
  unfold touchSect
  simp only
  split
  · rfl
  · split
    · rfl
    · split
      · rfl
      · rename_i l _ _
        have hclean (a b : Nat) : anyUE (wrapRg (setSects s (⟨i, n, p, dirty⟩ :: l)) CXS_MISS_COUNT 0 0 1) a b = none := hgood a b
        rw [hclean]
        rfl

theorem cacheWork_pinSect {s : State} (h : s.mem.ue = []) (p c n i k : Nat) : CacheWork s (pinSect s p c n i k) := by
  have htouch := cacheWork_touchSect h p i k false false
  unfold pinSect
  simp only
  split
  · split
    · exact htouch.trans rfl
    · exact htouch
  · rfl

theorem cacheWork_prefetch {s : State} (h : s.mem.ue = []) (p c n : Nat) (x : UlPdu) : CacheWork s (prefetch s p c n x) := by
  unfold prefetch
  split
  · rfl
  · refine List.foldlRecOn (motive := CacheWork s) _ _ rfl fun t ht k _ => ht.trans (cacheWork_pinSect ?_ ..)
    unfold CacheWork at ht
    rw [ht]
    exact h

theorem CacheWork.fapiWork {s t : State} (h : CacheWork s t) : FapiWork s t := by
  unfold CacheWork at h
  rw [h]
  exact ⟨rfl, List.suffix_rfl, rfl⟩

/-! ### UL_TTI: the items of the slot -/

/-- The slot holds the PDUs in order, on bank `b`, without a path; one without a context has failed. -/
def HoldsPdus (s : State) (p c n : Nat) (us : List UlPdu) (b : Nat) : Prop :=
  ∃ x, ulOf s c n = some x ∧ x.part = p ∧ x.items.map (fun i => i.pdu) = us ∧
    ∀ i ∈ x.items, i.bank = b ∧ i.path = none ∧ (i.status = none ∨ i.status = some 1)

/-- The uplink of one slot may have changed, with what a FAPI message may change; no line of memory has an error. -/
structure TakesPdus (s t : State) (c n : Nat) : Prop where
  work : FapiWork s t
  radio : t.radio = { s.radio with ul := t.radio.ul }
  others : ∀ e m, (e, m) ≠ (c, n) → ulOf t e m = ulOf s e m
  holds : ∀ p us b, HoldsPdus s p c n us b → HoldsPdus t p c n us b
  clean : t.mem.ue = s.mem.ue

section
variable {s t u : State} {p c n k : Nat}

theorem TakesPdus.trans (h : TakesPdus s t c n) (h' : TakesPdus t u c n) : TakesPdus s u c n := by
  refine ⟨h.work.trans h'.work, ?_, fun e m hne => (h'.others e m hne).trans (h.others e m hne),
    fun p us b hs => h'.holds p us b (h.holds p us b hs), h'.clean.trans h.clean⟩
  have hradio := h'.radio
  rw [h.radio] at hradio
  exact hradio

theorem takesPdus_of_radio (hwork : FapiWork s t) (hradio : t.radio = s.radio) (hclean : t.mem.ue = s.mem.ue) : TakesPdus s t c n := by
  have hul (e m : Nat) : ulOf t e m = ulOf s e m := ulOf_congr (by rw [hradio]) e m
  refine ⟨hwork, by rw [hradio], fun e m _ => hul e m, fun p us b hs => ?_, hclean⟩
  unfold HoldsPdus
  rw [hul]
  exact hs

theorem takesPdus_fapiError (s : State) (p c n : Nat) (r : FapiReq) (e : FapiErr) (m : Nat) (pdu : Option Nat) :
    TakesPdus s (fapiError s p c r e m pdu) c n := by
  refine takesPdus_of_radio (fapiWork_send ..) (fapiSend_radio ..) ?_
  obtain ⟨_, _, _, h⟩ := (tells_fapiSend s p c (.errorIndication r e m pdu)).host
  rw [fapiError, h]

theorem takesPdus_prefetch (h : s.mem.ue = []) (p c n : Nat) (x : UlPdu) : TakesPdus s (prefetch s p c n x) c n := by
  have hcache := cacheWork_prefetch h p c n x
  unfold CacheWork at hcache
  refine takesPdus_of_radio (cacheWork_prefetch h p c n x).fapiWork ?_ ?_
  · rw [hcache]
  · rw [hcache]

/-- An item that fails keeps its PDU, its bank and its place. -/
theorem holdsPdus_setItem {us : List UlPdu} {b : Nat} {x : UlItem} (hx : itemOf s c n k = some x) (h : HoldsPdus s p c n us b) :
    HoldsPdus (setItem s c n k { x with status := some 1 }) p c n us b := by
  obtain ⟨v, hv, hpart, hpdus, hitems⟩ := h
  have hk : v.items[k]? = some x := by simpa [itemOf, hv] using hx
  obtain ⟨hbank, hpath, -⟩ := hitems x (List.mem_of_getElem? hk)
  refine ⟨{ v with items := lset v.items k { x with status := some 1 } }, by rw [ulOf_setItem_self, hv]; rfl, hpart, ?_, fun i hi => ?_⟩
  · rw [← hpdus]
    exact map_lset _ hk rfl
  · rcases mem_lset hi with rfl | hi
    · exact ⟨hbank, hpath, Or.inr rfl⟩
    · exact hitems i hi

theorem takesPdus_finalItem (s : State) (c n k : Nat) : TakesPdus s (finalItem s c n k 1) c n := by
  unfold finalItem
  split
  · rename_i x hx
    exact ⟨fapiWork_of_radio .., rfl, fun e m hne => ulOf_setItem_other s k _ hne, fun p us b => holdsPdus_setItem hx, rfl⟩
  · exact takesPdus_of_radio (.refl s) rfl rfl

theorem takesPdus_takePdus (p c n : Nat) (us : List UlPdu) : ∀ {s : State} (k : Nat), s.mem.ue = [] →
    TakesPdus s (takePdus s p c n k us) c n := by
  induction us with
  | nil => exact fun _ _ => takesPdus_of_radio (.refl _) rfl rfl
  | cons x us ih =>
    intro s k h
    have hone : TakesPdus s (if noContext s p x then fapiError (finalItem s c n k 1) p c .ulTti .invalidConfig n (some k)
        else if x.kind = .pusch ∨ x.kind = .srs then prefetch s p c n x else s) c n := by
      split
      · exact (takesPdus_finalItem ..).trans (takesPdus_fapiError ..)
      · split
        · exact takesPdus_prefetch h ..
        · exact takesPdus_of_radio (.refl s) rfl rfl
    exact hone.trans (ih (k + 1) (hone.clean.trans h))

theorem ulTti_refused {e : FapiErr} (h : slotErr s c n 1 = some e) (us : List UlPdu) :
    ulTti s p c n us = noteLate (fapiError s p c .ulTti e n none) e c n 1 := by
  unfold ulTti
  rw [h]

/-- The slot as UL_TTI.request opens it. -/
def slotOpened (s : State) (p c n : Nat) (us : List UlPdu) : State :=
  { s with radio := { s.radio with
    ul := s.radio.ul ++ [⟨p, c, n, us.map (fun x => { pdu := x, bank := (cellOf s c).bank }), false⟩] } }

theorem ulTti_taken {us : List UlPdu} (h : slotErr s c n 1 = none) (hbad : ulBad (cellLte s c) us = none) (hnew : ulOf s c n = none) :
    ulTti s p c n us = takePdus (slotOpened s p c n us) p c n 0 us := by
  unfold ulTti
  rw [h, hbad, hnew]
  rfl

theorem ulOf_slotOpened_other {us : List UlPdu} {e m : Nat} (h : (e, m) ≠ (c, n)) : ulOf (slotOpened s p c n us) e m = ulOf s e m := by
  have hne : decide (c = e ∧ n = m) = false := otherSlot h (by simp)
  simp only [ulOf, slotOpened, List.find?_append, List.find?_singleton, hne, Bool.false_eq_true, if_false, Option.or_none]

theorem holdsPdus_slotOpened (us : List UlPdu) (hnew : ulOf s c n = none) :
    HoldsPdus (slotOpened s p c n us) p c n us (cellOf s c).bank := by
  refine ⟨⟨p, c, n, us.map (fun x => { pdu := x, bank := (cellOf s c).bank }), false⟩, ?_, rfl, by simp [Function.comp_def],
    fun i hi => ?_⟩
  · unfold ulOf at hnew
    simp only [ulOf, slotOpened, List.find?_append, List.find?_singleton, hnew, decide_true, and_self, if_true, Option.none_or]
  · obtain ⟨x, -, rfl⟩ := List.mem_map.1 hi
    exact ⟨rfl, rfl, Or.inl rfl⟩

end

/-! ### TX_Data (R334) -/

section
variable {s : State} {p c n : Nat} {x : TxPayload} {y : DlItem}

theorem txData_taken (h : slotErr s c n 3 = none) (hrun : s.trace.run = none) (hreplay : s.trace.replay = none)
    (hy : dlItem s c n x.pdu = some y) (hkind : y.pdu.kind = .pdsch) :
    txData s p c n [x] = setDl s c n x.pdu { y with payload := some (hostRead s x.addr x.len) } := by
  unfold txData
  simp only [h, List.foldl_cons, List.foldl_nil, txPayload, hy, if_pos hkind, record_of_idle hrun, hostReadFor,
    replaying_of_idle hreplay, Bool.false_eq_true, if_false]

theorem txData_late (h : slotErr s c n 3 = some .late) : txData s p c n [x] = noteLate (txLate s p c n x) .late c n 3 := by
  unfold txData
  simp only [h, List.foldl_cons, List.foldl_nil]

/-- A late payload is answered; of its PDU only that the host has been told is noted. -/
theorem txLate_spec (s : State) (p c n : Nat) (x : TxPayload) :
    FapiWork s (txLate s p c n x) ∧ (txLate s p c n x).trace = s.trace ∧ (txLate s p c n x).radio.ul = s.radio.ul ∧
      sent s (txLate s p c n x) p c (.errorIndication .txData .late n (some x.pdu)) ∧
      ∀ y z, dlItem s c n x.pdu = some y → dlItem (txLate s p c n x) c n x.pdu = some z → z.payload = y.payload := by
  have hwork := fapiWork_send s p c (.errorIndication .txData .late n (some x.pdu))
  have hsent := sent_fapiSend s p c (.errorIndication .txData .late n (some x.pdu))
  have hradio := fapiSend_radio s p c (.errorIndication .txData .late n (some x.pdu))
  have htrace := fapiSend_trace s p c (.errorIndication .txData .late n (some x.pdu))
  have hitem (i : Nat) : dlItem (fapiSend s p c (.errorIndication .txData .late n (some x.pdu))) c n i = dlItem s c n i :=
    dlItem_congr (by rw [hradio]) c n i
  unfold txLate fapiError
  simp only
  split
  · rename_i z hz
    refine ⟨hwork.trans (fapiWork_of_radio ..), htrace, (congrArg Radio.ul hradio :), hsent, fun y w hy hw => ?_⟩
    rw [hitem, hy, Option.some.injEq] at hz
    rw [dlItem_setDl_self ((hitem x.pdu).trans hy), Option.some.injEq] at hw
    rw [← hw, hz]
  · refine ⟨hwork, htrace, congrArg Radio.ul hradio, hsent, fun y z hy hz => ?_⟩
    rw [hitem, hy, Option.some.injEq] at hz
    rw [hz]

end

end Sys2Proof.Machine
end

section

namespace Sys2Proof.Proofs

open Sys2Proof Sys2Proof.Machine

section
variable {s : State} {p c n : Nat}

theorem ulTtiIsTakenWhole {us : List UlPdu} (h : FapiReady s p c) (hslot : slotOpen s c n true) (hclean : s.mem.ue = [])
    (hbad : ulBad (cellLte s c) us = none) (hnew : ulOf s c n = none) :
    ∃ u x, exec (.ulTtiRequest p c n us) s = .next u ∧ fapiDone s u p ∧ ulOf u c n = some x ∧ x.part = p ∧
      x.items.map (fun i => i.pdu) = us ∧
      (∀ i ∈ x.items, i.bank = (cellOf s c).bank ∧ i.path = none ∧ (i.status = none ∨ i.status = some 1)) ∧
      (∀ e m, (e, m) ≠ (c, n) → ulOf u e m = ulOf s e m) ∧ u.radio.dl = s.radio.dl ∧ u.radio.cells = s.radio.cells := by
  have htaken := takesPdus_takePdus (s := slotOpened s p c n us) p c n us 0 hclean
  have hwork : FapiWork s (takePdus (slotOpened s p c n us) p c n 0 us) := .trans (fapiWork_of_radio ..) htaken.work
  obtain ⟨u, hu, hdone, hradio, -⟩ := fapi_taken h (i := .ulTtiRequest p c n us) (f := fun s => ulTti s p c n us) rfl
    (ulTti_taken (slotErr_of_open hslot rfl (idle_of_fapiReady h).2) hbad hnew) hwork
  obtain ⟨x, hx, hpart, hpdus, hitems⟩ := htaken.holds _ _ _ (holdsPdus_slotOpened us hnew)
  have hul := ulOf_congr (congrArg Radio.ul hradio)
  refine ⟨u, x, hu, hdone, (hul c n).trans hx, hpart, hpdus, hitems, fun e m hne => ?_, ?_, ?_⟩
  · rw [hul, htaken.others e m hne, ulOf_slotOpened_other hne]
  · rw [hradio, htaken.radio]
    rfl
  · rw [hradio, htaken.radio]
    rfl

theorem txDataGivesThePayload {t : TxPayload} {y : DlItem} (h : FapiReady s p c) (hslot : slotOpen s c n false)
    (hy : dlItem s c n t.pdu = some y) (hkind : y.pdu.kind = .pdsch) :
    ∃ u, exec (.txDataRequest p c n [t]) s = .next u ∧ fapiDone s u p ∧
      dlItem u c n t.pdu = some { y with payload := some (hostRead s t.addr t.len) } ∧ u.radio.ul = s.radio.ul ∧
      (∀ i, i ≠ t.pdu → dlItem u c n i = dlItem s c n i) ∧ ∀ e m i, (e, m) ≠ (c, n) → dlItem u e m i = dlItem s e m i := by
  obtain ⟨hrun, hreplay⟩ := idle_of_fapiReady h
  obtain ⟨u, hu, hdone, hradio, -⟩ := fapi_taken h (i := .txDataRequest p c n [t]) (f := fun s => txData s p c n [t]) rfl
    (txData_taken (slotErr_of_open hslot rfl hreplay) hrun hreplay hy hkind) (fapiWork_of_radio ..)
  have hdl := dlItem_congr (congrArg Radio.dl hradio)
  refine ⟨u, hu, hdone, (hdl ..).trans (dlItem_setDl_self hy _), by rw [hradio]; rfl, fun i hi => ?_, fun e m i hne => ?_⟩
  · exact (hdl ..).trans (dlItem_setDl_ne s _ (by simp [hi]))
  · exact (hdl ..).trans (dlItem_setDl_ne s _ fun heq => hne (by rw [Prod.mk.injEq] at heq ⊢; exact ⟨heq.1, (Prod.mk.inj heq.2).1⟩))

theorem lateTxDataIsAnswered (h : FapiReady s p c) (hslot : slotLate s c n false) (t : TxPayload) :
    ∃ u, exec (.txDataRequest p c n [t]) s = .next u ∧ fapiDone s u p ∧ u.radio.ul = s.radio.ul ∧
      sent s u p c (.errorIndication .txData .late n (some t.pdu)) ∧
      ∀ y z, dlItem s c n t.pdu = some y → dlItem u c n t.pdu = some z → z.payload = y.payload := by
  obtain ⟨hrun, hreplay⟩ := idle_of_fapiReady h
  obtain ⟨hwork, htrace, hul, hsent, hpayload⟩ := txLate_spec s p c n t
  have hf : txData s p c n [t] = txLate s p c n t := by
    rw [txData_late (slotErr_of_late hslot rfl hreplay), noteLate_late (by rw [htrace, hrun]) (by rw [htrace, hreplay]), if_neg (by decide)]
  obtain ⟨u, hu, hdone, hradio, hout⟩ := fapi_taken h (i := .txDataRequest p c n [t]) (f := fun s => txData s p c n [t]) rfl hf hwork
  refine ⟨u, hu, hdone, by rw [hradio, hul], sent_of_suffix hsent hout, fun y z hy hz => hpayload y z hy ?_⟩
  rw [← hz]
  exact (dlItem_congr (congrArg Radio.dl hradio) ..).symm

theorem requestsAreRefusedWhole (h : FapiReady s p c) (ds : List DlPdu) (us : List UlPdu) (k : Nat) {e : Instr × FapiReq × Bool}
    (he : e ∈ [(Instr.dlTtiRequest p c n ds, FapiReq.dlTti, false), (.ulTtiRequest p c n us, .ulTti, true),
      (.ulDciRequest p c n k, .ulDci, false)]) :
    (slotLate s c n e.2.2 → ∃ u, exec e.1 s = .next u ∧ fapiDone s u p ∧ u.radio = { s.radio with lateSeen := u.radio.lateSeen } ∧
      sent s u p c (.errorIndication e.2.1 .late n none)) ∧
    ((cellOf s c).st = .running → farAhead s c n = true → ∃ u, exec e.1 s = .next u ∧ fapiDone s u p ∧ u.radio = s.radio ∧
      sent s u p c (.errorIndication e.2.1 .invalidSfn n none)) := by
  obtain ⟨-, hreplay⟩ := idle_of_fapiReady h
  simp only [List.mem_cons, List.not_mem_nil, or_false] at he
  rcases he with rfl | rfl | rfl
  · exact ⟨fun hlate => request_late h (f := fun s => dlTti s p c n ds) rfl (dlTti_refused (slotErr_of_late hlate rfl hreplay) ds),
      fun hrun hfar => request_far h (f := fun s => dlTti s p c n ds) rfl (dlTti_refused (slotErr_of_far hrun hfar hreplay) ds)⟩
  · exact ⟨fun hlate => request_late h (f := fun s => ulTti s p c n us) rfl (ulTti_refused (slotErr_of_late hlate rfl hreplay) us),
      fun hrun hfar => request_far h (f := fun s => ulTti s p c n us) rfl (ulTti_refused (slotErr_of_far hrun hfar hreplay) us)⟩
  · exact ⟨fun hlate => request_late h (f := fun s => ulDci s p c n k) rfl (ulDci_refused (slotErr_of_late hlate rfl hreplay) k),
      fun hrun hfar => request_far h (f := fun s => ulDci s p c n k) rfl (ulDci_refused (slotErr_of_far hrun hfar hreplay) k)⟩

end

/-- Settles O31: the lead time alone decides whether a request is taken; what is taken adds to one slot, and what is refused leaves the
radio's state but for the note that it came late. -/
theorem slotRequestsAreTakenWhole : Obligations.SlotRequestsAreTakenWhole := by
  unfold Obligations.SlotRequestsAreTakenWhole
  intro s p c n k ds us t h
  obtain ⟨-, hreplay⟩ := idle_of_fapiReady h
  refine ⟨leadNs_eq s c, fun hslot hbad hnew => ?_, ulTtiIsTakenWhole h, fun hslot hk hnew => ?_,
    fun y => txDataGivesThePayload h, fun e => requestsAreRefusedWhole h ds us k, fun hslot => lateTxDataIsAnswered h hslot t⟩
  · obtain ⟨u, hu, hdone, hradio, -⟩ := fapi_taken h (i := .dlTtiRequest p c n ds) (f := fun s => dlTti s p c n ds) rfl
      (dlTti_taken (slotErr_of_open hslot rfl hreplay) hbad hnew) (fapiWork_of_radio ..)
    exact ⟨u, hu, hdone, hradio⟩
  · obtain ⟨u, hu, hdone, hradio, -⟩ := fapi_taken h (i := .ulDciRequest p c n k) (f := fun s => ulDci s p c n k) rfl
      (ulDci_taken (slotErr_of_open hslot rfl hreplay) hk hnew) (fapiWork_of_radio ..)
    exact ⟨u, hu, hdone, hradio⟩

end Sys2Proof.Proofs
end

section
/-! Boundaries at which no commit waits (16 R511, R512; 25 R712): the slot timer of a partition and the slot boundary of a cell. -/

namespace Sys2Proof.Machine

open Sys2Proof

/-! ### Nothing waits for the boundary -/

theorem commitAt_of_idle {s : State} (h : s.pg.commits = []) (b : Bound) : commitAt s b = s := by
  have hpages : waitingPages s = [] := by unfold waitingPages; rw [h]; rfl
  unfold commitAt
  rw [hpages]
  exact ite_self _

theorem commitTpls_of_idle {s : State} (h : s.disp.tplTodo = []) : commitTpls s = s := by
  unfold commitTpls
  simp only [h, List.filter_nil, List.foldl_nil]
  rw [← h]

/-! ### The slot timer of a partition (R512) -/

theorem clu_raiseIrq (s : State) (c b d : Nat) : clu (raiseIrq s c b) d =
    if d = c ∧ (clu s c).clv.ended = false then
      { clu s c with clv := { (clu s c).clv with irq := (clu s c).clv.irq ||| BitVec.ofNat 4 (2 ^ b) } }
    else clu s d := by
  unfold raiseIrq
  cases hended : (clu s c).clv.ended with
  | true => simp [hended]
  | false => by_cases hd : d = c <;> simp [hd, hended]

theorem onlyClusters_raiseIrq (s : State) (c b : Nat) : OnlyClusters s (raiseIrq s c b) := by
  obtain ⟨v, h⟩ := onlyClu_raiseIrq s c b
  exact h.onlyClusters

/-- SLOT is pending on the core. -/
def slotPending (s : State) (d : Nat) : Prop := (clu s d).clv.irq.getLsbD 2 = true

theorem slotPending_raiseIrq {s : State} {d : Nat} (h : slotPending s d) (c : Nat) : slotPending (raiseIrq s c 2) d := by
  unfold slotPending at *
  rw [clu_raiseIrq]
  split
  · rename_i hd
    rw [← hd.1, BitVec.getLsbD_or, h, Bool.true_or]
  · exact h

theorem slotPending_raised {s : State} {d : Nat} (h : (clu s d).clv.ended = false) : slotPending (raiseIrq s d 2) d := by
  unfold slotPending
  rw [clu_raiseIrq, if_pos ⟨rfl, h⟩, BitVec.getLsbD_or]
  simp

theorem ended_raiseIrq (s : State) (c b d : Nat) : (clu (raiseIrq s c b) d).clv.ended = (clu s d).clv.ended := by
  rw [clu_raiseIrq]
  split
  · rename_i hd
    rw [hd.1]
  · rfl

/-- SLOT is raised on the cores of a job. -/
def slotRaised (s : State) (x : Job) : State := (members s x).foldl (fun s c => raiseIrq s c 2) s

section
variable {s t : State} {p d : Nat} {x : Job}

theorem onlyClusters_slotRaised (s : State) (x : Job) : OnlyClusters s (slotRaised s x) :=
  onlyClusters_foldl (fun t c => onlyClusters_raiseIrq t c 2) ..

theorem ended_slotRaised (s : State) (x : Job) (d : Nat) : (clu (slotRaised s x) d).clv.ended = (clu s d).clv.ended :=
  List.foldlRecOn (motive := fun t => (clu t d).clv.ended = (clu s d).clv.ended) _ _ rfl
    fun t ht c _ => (ended_raiseIrq t c 2 d).trans ht

theorem slotPending_slotRaised (h : slotPending s d) (x : Job) : slotPending (slotRaised s x) d :=
  List.foldlRecOn (motive := fun t => slotPending t d) _ _ h fun _ ht c _ => slotPending_raiseIrq ht c

theorem slotPending_of_member (hmem : d ∈ members s x) (h : (clu s d).clv.ended = false) : slotPending (slotRaised s x) d :=
  foldl_reaches (fun t => (clu t d).clv.ended = false) (fun t => slotPending t d)
    (fun t ht c _ => (ended_raiseIrq t c 2 d).trans ht) (fun _ ht => slotPending_raised ht)
    (fun _ ht c _ => slotPending_raiseIrq ht c) h hmem

theorem clu_slotRaised_of_not_member (hmem : d ∉ members s x) : clu (slotRaised s x) d = clu s d :=
  List.foldlRecOn (motive := fun t => clu t d = clu s d) _ _ rfl fun t ht c hc => by
    rw [clu_raiseIrq, if_neg, ht]
    rintro ⟨rfl, -⟩
    exact hmem hc

theorem members_of_onlyClusters (h : OnlyClusters s t) (x : Job) : members t x = members s x :=
  members_congr (by rw [h]) (by rw [h]) rfl rfl

/-- SLOT is raised on the cores of the jobs and on no other. -/
theorem slotsRaised_spec (s : State) (l : List Job) : OnlyClusters s (l.foldl slotRaised s) ∧
    (∀ x ∈ l, ∀ d ∈ members s x, (clu s d).clv.ended = false → slotPending (l.foldl slotRaised s) d) ∧
    ∀ d, (∀ x ∈ l, d ∉ members s x) → clu (l.foldl slotRaised s) d = clu s d := by
  refine ⟨onlyClusters_foldl onlyClusters_slotRaised .., fun x hx d hd hended => ?_, fun d hd => ?_⟩
  · refine foldl_reaches (fun t => OnlyClusters s t ∧ (clu t d).clv.ended = false) (fun t => slotPending t d)
      (fun t ht y _ => ⟨ht.1.trans (onlyClusters_slotRaised t y), (ended_slotRaised t y d).trans ht.2⟩)
      (fun t ht => slotPending_of_member ?_ ht.2) (fun _ ht y _ => slotPending_slotRaised ht y) ⟨onlyClusters_refl s, hended⟩ hx
    rw [members_of_onlyClusters ht.1]
    exact hd
  · refine (List.foldlRecOn (motive := fun t => OnlyClusters s t ∧ clu t d = clu s d) l _ ⟨onlyClusters_refl s, rfl⟩ ?_).2
    rintro t ⟨ht, hclu⟩ y hy
    refine ⟨ht.trans (onlyClusters_slotRaised t y), (clu_slotRaised_of_not_member ?_).trans hclu⟩
    rw [members_of_onlyClusters ht]
    exact hd y hy

/-- The jobs of partition `p` that are on their clusters. -/
def slotJobs (s : State) (p : Nat) : List Job :=
  s.disp.jobs.filterMap (fun e => match e.2 with
    | some x => if x.part = p ∧ onUnit x = true then some x else none
    | none => none)

theorem mem_slotJobs : x ∈ slotJobs s p ↔ ∃ e ∈ s.disp.jobs, e.2 = some x ∧ x.part = p ∧ onUnit x = true := by
  unfold slotJobs
  rw [List.mem_filterMap]
  refine exists_congr fun e => and_congr_right fun _ => ?_
  cases e.2 with
  | none => simp
  | some y =>
    by_cases hy : y.part = p ∧ onUnit y = true
    · simp only [if_pos hy, Option.some.injEq]
      exact ⟨fun h => ⟨h, h ▸ hy⟩, fun h => h.1⟩
    · simp only [if_neg hy, Option.some.injEq]
      exact ⟨fun h => (nomatch h), fun h => absurd (h.1 ▸ h.2) hy⟩

/-- The state as the timer's new slot has been noted. -/
def timerNoted (s : State) (p : Nat) : State :=
  { s with tmu := { s.tmu with partSlot := tsetD 0 s.tmu.partSlot p (partSlotNow s p) } }

theorem exec_slotTimer (hcommits : s.pg.commits = []) (htpls : s.disp.tplTodo = []) (hnew : partSlotNow s p ≠ tgetD 0 s.tmu.partSlot p)
    (hclass : isRS s p = true) : exec (.slotTimer p) s = .next ((slotJobs s p).foldl slotRaised (timerNoted s p)) := by
  have hpart : (part? s p).isNone = false := by
    cases hpart : part? s p with
    | some y => rfl
    | none => rw [isRS, pclass, hpart] at hclass; cases hclass
  obtain ⟨hsame, -, -⟩ := slotsRaised_spec (timerNoted s p) (slotJobs s p)
  unfold OnlyClusters at hsame
  have hslot : slotTimer s p = commitAt (commitTpls ((slotJobs s p).foldl slotRaised (timerNoted s p))) (.part p) := by
    unfold slotTimer
    simp only [hnew, hclass, hpart, Bool.not_true, Bool.false_eq_true, or_self, if_false]
    rfl
  have hexec : exec (.slotTimer p) s = .next (slotTimer s p) := rfl
  rw [hexec, hslot, commitTpls_of_idle (by rw [hsame]; exact htpls), commitAt_of_idle (by rw [hsame]; exact hcommits)]

end

/-! ### The slot boundary of a cell (R511) -/

theorem unitsAtSlot_of_idle {s : State} (h : s.units.leaving = []) (heng : s.units.engLeaving = []) (hback : s.units.engBack = []) :
    unitsAtSlot s = s := by
  have hidle (u : Units) (h : u.leaving = []) (heng : u.engLeaving = []) (hback : u.engBack = []) :
      unitsAtSlot { s with units := u } = { s with units := u } := by
    cases u
    cases h
    cases heng
    cases hback
    rfl
  exact hidle s.units h heng hback

theorem realign_of_no_link {s : State} (h : ∀ l, l < 16 → linkEn s l = false) (c : Nat) : realign s c = s := by
  unfold realign
  refine List.foldlRecOn (motive := (· = s)) _ _ rfl fun t ht l hl => ?_
  simp [ht, h l (List.mem_range.1 hl)]

theorem releasePast_of_nothing_held {s : State} {c : Nat} (h : heldSlots s c = []) (n : Nat) : releasePast s c n = s := by
  unfold releasePast
  simp only [h, List.filter_nil, List.foldl_nil, List.not_mem_nil, decide_false, Bool.and_false, Bool.not_false, List.filter_true]

section
variable {s : State} {c n p : Nat}

/-- The state as the cell's new slot has been noted. -/
def slotDue (s : State) (c : Nat) : State :=
  { s with tmu := { s.tmu with cellSlot := tsetD 0 s.tmu.cellSlot c (cellSlotNow s c) } }

/-- Past downlink slots are gone besides. -/
def slotNoted (s : State) (c : Nat) : State :=
  { slotDue s c with radio := { s.radio with
    dl := s.radio.dl.filter (fun u => !(decide (u.cell = c) && pastBy (cellSlotNow s c) u.slot 1)) } }

theorem exec_slotBoundary (hcommits : s.pg.commits = []) (htpls : s.disp.tplTodo = [])
    (hnew : cellSlotNow s c ≠ tgetD 0 s.tmu.cellSlot c) (hleaving : s.units.leaving = []) (hengs : s.units.engLeaving = [])
    (hback : s.units.engBack = []) (hheld : heldSlots s c = []) (hlinks : ∀ l, l < 16 → linkEn s l = false) :
    exec (.slotBoundary c) s = .next (slotStarts (slotNoted s c) c (cellSlotNow s c)) := by
  have hexec : exec (.slotBoundary c) s = .next (slotBoundary s c) := rfl
  have hidle : realign (commitAt (unitsAtSlot (commitTpls (slotDue s c))) (.cell c)) c = slotDue s c := by
    rw [commitTpls_of_idle (s := slotDue s c) htpls, unitsAtSlot_of_idle (s := slotDue s c) hleaving hengs hback,
      commitAt_of_idle (s := slotDue s c) hcommits, realign_of_no_link (s := slotDue s c) hlinks]
  have hbody : slotBoundary s c =
      (let t := realign (commitAt (unitsAtSlot (commitTpls (slotDue s c))) (.cell c)) c
       slotStarts (releasePast { t with radio := { t.radio with
         dl := t.radio.dl.filter (fun u => !(decide (u.cell = c) && pastBy (cellSlotNow s c) u.slot 1)) } } c (cellSlotNow s c)) c
         (cellSlotNow s c)) := if_neg hnew
  have hnoted : releasePast (slotNoted s c) c (cellSlotNow s c) = slotNoted s c :=
    releasePast_of_nothing_held (s := slotNoted s c) hheld _
  rw [hexec, hbody, hidle]
  exact congrArg (fun t => Host.Outcome.next (slotStarts t c (cellSlotNow s c))) hnoted

/-- Without a slot of that number there is none once past ones are gone. -/
theorem dlOf_slotNoted_of_none (h : dlOf s c n = none) : dlOf (slotNoted s c) c n = none := by
  unfold dlOf at *
  rw [List.find?_eq_none] at *
  exact fun u hu => h u (List.mem_of_mem_filter hu)

theorem tells_error_if (P : Prop) [Decidable P] (s : State) (p c : Nat) (r : FapiReq) (e : FapiErr) (m : Nat) (pdu : Option Nat) :
    Tells s (if P then fapiError s p c r e m pdu else s) := by
  split
  · exact tells_fapiSend ..
  · exact .refl s

theorem Tells.radio {s t : State} (h : Tells s t) : t.radio = s.radio := by
  obtain ⟨_, _, _, hframe⟩ := h.host
  rw [hframe]

/-- What is held for the slots of a cell once slot `n` has begun: its allocations bind weight bank `b`. -/
def slotBound (x : Radio) (c n b : Nat) : Radio :=
  { x with
    lateSeen := x.lateSeen.filter (fun q => !(decide (q.1 = c) && pastBy n q.2.1 0))
    ul := updFirst (fun u => decide (u.cell = c ∧ u.slot = n))
      (fun u => { u with items := u.items.map (fun x => { x with bank := b }) }) x.ul }

/-- Each payload of the slot that has not come is reported, unless it came late before. -/
def payloadsReported (s : State) (p c n : Nat) : State :=
  match dlOf s c n with
  | some u => (List.range u.items.length).foldl (fun s i => match dlItem s c n i with
      | some x => if x.pdu.kind = DlKind.pdsch ∧ x.payload.isNone ∧ x.told = false then fapiError s p c .txData .late n (some i) else s
      | none => s) s
  | none => s

theorem tells_payloadsReported (s : State) (p c n : Nat) : Tells s (payloadsReported s p c n) := by
  unfold payloadsReported
  split
  · refine List.foldlRecOn (motive := Tells s) _ _ (.refl s) fun t ht i _ => ht.trans ?_
    split
    · exact tells_error_if ..
    · exact .refl t
  · exact .refl s

theorem slotStarts_of_idle (h : (cellOf s c).st ≠ .running ∨ (cellOf s c).part = none) : slotStarts s c n = s := by
  unfold slotStarts
  rcases h with h | h
  · simp only [if_pos h]
    split
    · rfl
    · rfl
  · simp only [h]

/-- The slot's allocations bind weight bank `b`. -/
theorem bank_of_slotBound {t : State} {x : Radio} {b : Nat} {v : UlSlot} (h : ulOf { t with radio := slotBound x c n b } c n = some v) :
    ∀ i ∈ v.items, i.bank = b := by
  have hfind : ulOf { t with radio := slotBound x c n b } c n = (x.ul.find? (fun u => decide (u.cell = c ∧ u.slot = n))).map
      (fun u => { u with items := u.items.map (fun x => { x with bank := b }) }) := by
    refine find_updFirst_self ?_ _
    exact fun _ hu => hu
  rw [hfind] at h
  obtain ⟨w, -, rfl⟩ := Option.map_eq_some_iff.1 h
  intro i hi
  obtain ⟨y, -, rfl⟩ := List.mem_map.1 hi
  rfl

/-- The start of a running cell's slot: it is indicated, and a request that has not come is reported unless that was done before. -/
theorem slotStarts_running (hpart : (cellOf s c).part = some p) (hrun : (cellOf s c).st = .running) :
    ∃ t, slotStarts s c n = { t with radio := slotBound s.radio c n (cellOf s c).bank } ∧ Tells s t ∧
      sent s t p c (.slotIndication ((n + slotIndAdv s c) % 2 ^ 32)) ∧
      (dlOf s c n = none → (c, n, false) ∉ s.radio.lateSeen → sent s t p c (.errorIndication .dlTti .late n none)) ∧
      (ulOf s c n = none → (c, n, true) ∉ s.radio.lateSeen → sent s t p c (.errorIndication .ulTti .late n none)) := by
  set I := fapiSend s p c (.slotIndication ((n + slotIndAdv s c) % 2 ^ 32)) with hI
  set D := if (dlOf I c n).all (fun u => !u.tti) = true ∧ decide ((c, n, false) ∈ I.radio.lateSeen) = false
    then fapiError I p c .dlTti .late n none else I with hD
  set U := if (ulOf D c n).isNone ∧ decide ((c, n, true) ∈ I.radio.lateSeen) = false
    then fapiError D p c .ulTti .late n none else D with hU
  have hbody : slotStarts s c n = { payloadsReported U p c n with
      radio := slotBound (payloadsReported U p c n).radio c n (cellOf s c).bank } := by
    unfold slotStarts
    simp only [hpart, hrun, ne_eq, not_true, if_false]
    rfl
  have htellsI : Tells s I := tells_fapiSend ..
  have htellsD : Tells I D := tells_error_if ..
  have htellsU : Tells D U := tells_error_if ..
  have htells := tells_payloadsReported U p c n
  have hout := htellsU.out.trans htells.out
  have hradio := ((htellsI.trans htellsD).trans htellsU).trans htells |>.radio
  refine ⟨payloadsReported U p c n, by rw [hbody, hradio], ((htellsI.trans htellsD).trans htellsU).trans htells,
    sent_of_suffix (sent_fapiSend ..) (htellsD.out.trans hout), fun hnone htold => ?_, fun hnone htold => ?_⟩
  · have hsend : D = fapiError I p c .dlTti .late n none := by
      rw [hD, if_pos ⟨by rw [dlOf_congr (congrArg Radio.dl htellsI.radio) c n, hnone]; rfl, by rw [htellsI.radio]; exact decide_eq_false htold⟩]
    exact sent_since htellsI.out (sent_of_suffix (hsend ▸ sent_fapiSend ..) hout)
  · have hsend : U = fapiError D p c .ulTti .late n none := by
      rw [hU, if_pos ⟨by rw [ulOf_congr (congrArg Radio.ul (htellsI.trans htellsD).radio) c n, hnone]; rfl,
        by rw [htellsI.radio]; exact decide_eq_false htold⟩]
    exact sent_since (htellsI.out.trans htellsD.out) (sent_of_suffix (hsend ▸ sent_fapiSend ..) htells.out)

end

end Sys2Proof.Machine
end

section
/-! The frame boundary (10 R336, 11 R366, 16 R510) of a device with one cell, with no commit waiting and no recording. -/

namespace Sys2Proof.Machine

open Sys2Proof

/-! ### What a cell's frame may change -/

/-- The radio's state, contexts, the fronthaul, the host interface and its memory, pages and outputs may change. -/
def CellWork (s t : State) : Prop :=
  t = { s with radio := t.radio, cxs := t.cxs, fh := t.fh, host := t.host, pg := t.pg, mem := { s.mem with host := t.mem.host }, out := t.out }

section
variable {s t u : State} {c p f g : Nat} {x k : Cell}

theorem CellWork.trans (h : CellWork s t) (h' : CellWork t u) : CellWork s u := by
  unfold CellWork at h h'
  rw [h] at h'
  exact h'

theorem OnlyCell.refl (h : cellOf s c = x) : OnlyCell s s c x := ⟨rfl, h, fun _ _ => rfl⟩
theorem OnlyCell.cellWork (h : OnlyCell s t c x) : CellWork s t := by
  rw [h.frame]
  rfl

theorem OnlyCell.dl (h : OnlyCell s t c x) : t.radio.dl = s.radio.dl := by rw [h.frame]
theorem OnlyCell.pg (h : OnlyCell s t c x) : t.pg = s.pg := by rw [h.frame]
theorem OnlyCell.out (h : OnlyCell s t c x) : t.out = s.out := by rw [h.frame]

theorem Tells.cellWork (h : Tells s t) : CellWork s t := by
  obtain ⟨_, _, _, hframe⟩ := h.host
  rw [hframe]
  rfl

theorem objOwner_congr (h : t.pg = s.pg) (o : Nat) : objOwner t o = objOwner s o := by
  unfold objOwner
  rw [rg_congr h]

/-! ### The end of a cell's frame (11 R353, R361, R368) -/

theorem onlyCell_cellSaffron (hk : cellOf s c = k) (hsaff : k.saff = none) (hcfg : bit (rg s SYS_SAFF_CFG 0 c) 31 = false)
    (ran swapped : Bool) : OnlyCell s (cellSaffron s c ran swapped) c { k with saffPass := false, saffSeen := false } := by
  have hbody : cellSaffron s c ran swapped = setCell s c { k with saffPass := false, saffSeen := false } := by
    unfold cellSaffron
    simp only [hk, hsaff, hcfg, Option.isSome_none, Bool.false_eq_true, false_and, if_false, Bool.not_false, true_or, if_true]
  rw [hbody]
  exact onlyCell_setCell ..

theorem cellCold_of_not_engaged (h : (cellOf s c).engaged = none) (f : Nat) : cellCold s f c = s := by
  unfold cellCold
  simp only [h, Option.isSome_none, Bool.false_eq_true, false_and, if_false]

/-- A cell's frame is what its start or stop, its vendor TLVs and the swap of its bank leave; the Saffron books start anew. -/
theorem onlyCell_cellFrame (hruns : cellRuns (cellTlvs s c) f c = t) (hswap : (cellSwap t c).1 = u) (hk : cellOf u c = k)
    (hsaff : k.saff = none) (hengaged : k.engaged = none) (hcfg : bit (rg u SYS_SAFF_CFG 0 c) 31 = false) :
    OnlyCell u (cellFrame f s c) c { k with saffPass := false, saffSeen := false } := by
  have hend := onlyCell_cellSaffron hk hsaff hcfg (decide ((cellOf s c).st = .running)) (cellSwap t c).2
  have hbody : cellFrame f s c = cellCold (cellSaffron u c (decide ((cellOf s c).st = .running)) (cellSwap t c).2) f c := by
    rw [← hswap, ← hruns]
    rfl
  rw [hbody, cellCold_of_not_engaged (by rw [hend.self]; exact hengaged)]
  exact hend

/-! ### The weight-set object (11 R366) -/

theorem cellSwap_of_not_served (h : beqEn s c = false ∨ (cellOf s c).part = none ∨
    objOwner s (fld (rg s BEQ_CELL_CFG 0 c) 13 0) ≠ (cellOf s c).part) : cellSwap s c = (s, false) := by
  refine if_pos ?_
  rcases h with h | h | h
  · exact .inl (by rw [h]; rfl)
  · exact .inr (.inl (by rw [h]; rfl))
  · exact .inr (.inr h)

/-- The object's value has been read: its rejections are counted and noted. -/
def swapRead (s : State) (c : Nat) (v : Word) : State :=
  setCell (satRg s BEQ_VAL_REJECT 0 c ((fld v 15 8 + 256 - (cellOf s c).rejSeq) % 256)) c
    { cellOf s c with rejSeq := fld v 15 8, reqSeen := bit v 31 }
/-- The bank that it requests has become active. -/
def bankSwapped (s : State) (c : Nat) (v : Word) : State :=
  raise (satRg (setCell s c { cellOf s c with bank := fld v 0 0, swapJob := s.disp.nextJob }) BEQ_SWAP_COUNT 0 c 1) 30 0 2

theorem cellSwap_served {v : Word} (hserved : beqEn s c = true) (hpart : (cellOf s c).part = some p)
    (hown : objOwner s (fld (rg s BEQ_CELL_CFG 0 c) 13 0) = some p) (hv : objVal s (fld (rg s BEQ_CELL_CFG 0 c) 13 0) = v) :
    (cellSwap s c).1 = if bit v 31 = true ∧ fld v 0 0 ≠ (cellOf s c).bank then bankSwapped (swapRead s c v) c v else swapRead s c v := by
  have hskip : ¬ ((!beqEn s c) = true ∨ (cellOf s c).part.isNone = true ∨
      objOwner s (fld (rg s BEQ_CELL_CFG 0 c) 13 0) ≠ (cellOf s c).part) := by
    simp [hserved, hpart, hown]
  refine (congrArg Prod.fst (if_neg hskip)).trans ?_
  rw [hv]
  exact apply_ite Prod.fst ..

theorem cellOf_swapRead (s : State) (c : Nat) (v : Word) :
    cellOf (swapRead s c v) c = { cellOf s c with rejSeq := fld v 15 8, reqSeen := bit v 31 } := by
  unfold swapRead
  rw [cellOf_setCell, if_pos rfl]

theorem cellWork_swapRead (s : State) (c : Nat) (v : Word) : CellWork s (swapRead s c v) := rfl

theorem rg_swapRead_reject (s : State) (c : Nat) (v : Word) : rg (swapRead s c v) BEQ_VAL_REJECT 0 c =
    satAdd (rg s BEQ_VAL_REJECT 0 c) ((fld v 15 8 + 256 - (cellOf s c).rejSeq) % 256) := rg_setRg_self ..

theorem rg_swapRead_other {r : Nat} (h : r ≠ BEQ_VAL_REJECT) (hc : c < 96) (v : Word) : rg (swapRead s c v) r 0 c = rg s r 0 c :=
  rg_setRg_ne _ _ (rkey_reg_ne h (by omega) (by omega))

theorem cellOf_bankSwapped (s : State) (c : Nat) (v : Word) :
    cellOf (bankSwapped s c v) c = { cellOf s c with bank := fld v 0 0, swapJob := s.disp.nextJob } := by
  have hradio : (bankSwapped s c v).radio = (setCell s c { cellOf s c with bank := fld v 0 0, swapJob := s.disp.nextJob }).radio := by
    unfold bankSwapped
    rw [raise_radio, satRg_radio]
  rw [cellOf_congr hradio, cellOf_setCell, if_pos rfl]

theorem cellWork_bankSwapped (s : State) (c : Nat) (v : Word) : CellWork s (bankSwapped s c v) := by
  obtain ⟨o, a, h⟩ := raise_eq (satRg (setCell s c { cellOf s c with bank := fld v 0 0, swapJob := s.disp.nextJob }) BEQ_SWAP_COUNT 0 c 1) 30 0 2
  unfold bankSwapped
  rw [h]
  rfl

theorem rg_bankSwapped {r : Nat} (hevt : r ≠ 30 * 4096 + HDR_EVT) (hcount : r ≠ 30 * 4096 + HDR_EVT_COUNT) (hc : c < 96) (v : Word) :
    rg (bankSwapped s c v) r 0 c = if r = BEQ_SWAP_COUNT then satAdd (rg s BEQ_SWAP_COUNT 0 c) 1 else rg s r 0 c := by
  unfold bankSwapped
  rw [rg_raise, if_neg (rkey_reg_ne hevt (by omega) (by decide)), if_neg (rkey_reg_ne hcount (by omega) (by decide))]
  split
  · rename_i hr
    rw [hr]
    exact rg_setRg_self ..
  · rename_i hr
    exact rg_setRg_ne _ _ (rkey_reg_ne hr (by omega) (by omega))

theorem evt_bankSwapped (s : State) (c : Nat) (v : Word) : evtBit (bankSwapped s c v) 30 0 2 = true := by
  unfold evtBit bankSwapped
  rw [rg_raise, if_pos rfl]
  exact bit_or_bitW _ (by decide)

/-! ### A cell starts or stops (R336) -/

theorem cellTlvs_of_none (h : (cellOf s c).todo = none) : cellTlvs s c = s := by
  unfold cellTlvs
  rw [h]

theorem cellTlvs_of_some {y : CellConfig} (h : (cellOf s c).todo = some y) : cellTlvs s c = applyCfg s c y := by
  unfold cellTlvs
  rw [h]

theorem cellRuns_of_none (hstart : (cellOf s c).startAt = none) (hstop : (cellOf s c).stopAt = none) : cellRuns s f c = s := by
  unfold cellRuns
  simp only [hstart, hstop]

theorem onlyCell_cellRuns_start (hk : cellOf s c = k) (h : k.startAt = some g) :
    OnlyCell s (cellRuns s f c) c (if (f + 2 ^ 32 - g) % 2 ^ 32 < 2 ^ 31 then { k with st := .running, startAt := none } else k) := by
  have hbody : cellRuns s f c = if frameReached f g then setCell s c { k with st := .running, startAt := none } else s := by
    unfold cellRuns
    simp only [hk, h]
  rw [hbody]
  by_cases hreached : (f + 2 ^ 32 - g) % 2 ^ 32 < 2 ^ 31
  · rw [if_pos (show frameReached f g = true from decide_eq_true hreached), if_pos hreached]
    exact onlyCell_setCell ..
  · rw [if_neg (show ¬ frameReached f g = true from fun h => hreached (of_decide_eq_true h)), if_neg hreached]
    exact .refl hk

theorem cellRuns_stop (hk : cellOf s c = k) (hstart : k.startAt = none) (hstop : k.stopAt = some g) (hrun : k.st = .running) (hfg : f ≠ g) :
    cellRuns s f c = stopDone (dropUnbegun (setCell s c { k with st := .configured }) c) c := by
  unfold cellRuns
  simp only [hk, hstart, hstop, hrun, hfg, ne_eq, not_false_eq_true, and_self, if_true]

/-- What goes with the slots that have not begun: the cells, the pages and the outputs stay. -/
def SlotsGo (s t : State) : Prop :=
  t = { s with cxs := t.cxs, fh := t.fh, radio := { t.radio with cells := s.radio.cells, dl := s.radio.dl } }

theorem SlotsGo.trans (h : SlotsGo s t) (h' : SlotsGo t u) : SlotsGo s u := by
  unfold SlotsGo at h h'
  rw [h] at h'
  exact h'

/-- Slots that have not begun are given up: no downlink slot of the cell is left. -/
theorem dropUnbegun_spec (s : State) (c : Nat) : ∃ t, SlotsGo s t ∧ (s.radio.ul = [] → t = s) ∧
    dropUnbegun s c = { t with radio := { t.radio with dl := t.radio.dl.filter (fun u => !decide (u.cell = c)) } } := by
  refine ⟨_, ?_, fun h => ?_, rfl⟩
  · exact List.foldlRecOn (motive := SlotsGo s) _ _ rfl fun t ht n _ => ht.trans rfl
  · rw [h]
    rfl

theorem dlOf_dropUnbegun (s : State) (c n : Nat) : dlOf (dropUnbegun s c) c n = none := by
  obtain ⟨t, -, -, h⟩ := dropUnbegun_spec s c
  rw [h]
  refine List.find?_eq_none.2 fun v hv => ?_
  have hcell := (List.mem_filter.1 hv).2
  simp only [Bool.not_eq_true', decide_eq_false_iff_not] at hcell
  simp [hcell]

theorem cellOf_dropUnbegun (s : State) (c e : Nat) : cellOf (dropUnbegun s c) e = cellOf s e := by
  obtain ⟨t, hgo, -, h⟩ := dropUnbegun_spec s c
  unfold cellOf
  rw [h, hgo]

theorem pg_dropUnbegun (s : State) (c : Nat) : (dropUnbegun s c).pg = s.pg := by
  obtain ⟨t, hgo, -, h⟩ := dropUnbegun_spec s c
  rw [h, hgo]

theorem out_dropUnbegun (s : State) (c : Nat) : (dropUnbegun s c).out = s.out := by
  obtain ⟨t, hgo, -, h⟩ := dropUnbegun_spec s c
  rw [h, hgo]

theorem cellWork_dropUnbegun (s : State) (c : Nat) : CellWork s (dropUnbegun s c) := by
  obtain ⟨t, hgo, -, h⟩ := dropUnbegun_spec s c
  rw [h, hgo]
  rfl

theorem ul_dropUnbegun (h : s.radio.ul = []) (c : Nat) : (dropUnbegun s c).radio.ul = [] := by
  obtain ⟨t, -, hnone, hbody⟩ := dropUnbegun_spec s c
  rw [hbody, hnone h]
  exact h

/-- STOP.indication goes out, or nothing happens. -/
theorem stopDone_spec (s : State) (c : Nat) : stopDone s c = s ∨ ∃ p, (cellOf s c).part = some p ∧
    stopDone s c = fapiSend (setCell s c { cellOf s c with stopAt := none }) p c .stopIndication := by
  unfold stopDone
  simp only
  split
  · rename_i p _ hpart
    split
    · exact .inr ⟨p, hpart, rfl⟩
    · exact .inl rfl
  · exact .inl rfl

theorem stopDone_sends (hstop : (cellOf s c).stopAt = some g) (hpart : (cellOf s c).part = some p) (hst : (cellOf s c).st ≠ .running)
    (hul : s.radio.ul = []) : stopDone s c = fapiSend (setCell s c { cellOf s c with stopAt := none }) p c .stopIndication := by
  unfold stopDone
  simp [hstop, hpart, hst, hul]

/-- What STOP.indication may change of its cell. -/
theorem stopDone_keeps (s : State) (c : Nat) : CellWork s (stopDone s c) ∧ (stopDone s c).radio.dl = s.radio.dl ∧ (stopDone s c).pg = s.pg ∧
    cellOf (stopDone s c) c = { cellOf s c with stopAt := (cellOf (stopDone s c) c).stopAt } := by
  rcases stopDone_spec s c with h | ⟨p, -, h⟩
  · rw [h]
    exact ⟨rfl, rfl, rfl, rfl⟩
  · have hset := onlyCell_setCell s c { cellOf s c with stopAt := none }
    have htells := tells_fapiSend (setCell s c { cellOf s c with stopAt := none }) p c .stopIndication
    obtain ⟨_, _, _, hframe⟩ := htells.host
    rw [h]
    refine ⟨hset.cellWork.trans htells.cellWork, by rw [fapiSend_radio, hset.dl], by rw [hframe]; rfl, ?_⟩
    rw [cellOf_congr htells.radio, hset.self]

/-! ### The frame (R510) -/

/-- The state as the new frame has been noted. -/
def frameOpened (s : State) : State :=
  { s with tmu := { s.tmu with frame := frameCnt s }, disp := { s.disp with floorShift := 0 }
           radio := { s.radio with rx := s.radio.rx.filter (fun r => !passed s r.ended 10000000) } }

theorem recBegin_of_idle (h : s.trace.run = none) : recBegin s = s := by
  unfold recBegin
  rw [h]

/-- A frame boundary of a device with one cell is due; nothing else waits for it. -/
structure FrameDue (s : State) (c : Nat) : Prop where
  commits : s.pg.commits = []
  idle : s.trace.run = none
  new : frameCnt s ≠ s.tmu.frame
  cells : s.radio.cells = [(c, cellOf s c)]
  saff : (cellOf s c).saff = none
  engaged : (cellOf s c).engaged = none
  watched : bit (rg s SYS_SAFF_CFG 0 c) 31 = false

/-- The frame boundary ends in `u`, the frame noted and floor windows back at the boundary. -/
def FrameDone (s u : State) : Prop :=
  exec .frameBoundary s = .next u ∧ u.tmu = { s.tmu with frame := frameCnt s } ∧ u.disp = { s.disp with floorShift := 0 } ∧
    u.cl = s.cl ∧ u.sync = s.sync ∧ u.mem.ext = s.mem.ext

/-- The boundary leaves what the frame of its one cell leaves. -/
theorem frameDone_of_cellFrame (h : FrameDue s c) (hu : cellFrame (frameCnt s) (frameOpened s) c = u) (hwork : CellWork (frameOpened s) u) :
    FrameDone s u := by
  have hbody : frameBoundary s = recBegin (((commitAt (frameOpened s) .frame).radio.cells.map (fun e => e.1)).foldl
      (cellFrame (frameCnt s)) (commitAt (frameOpened s) .frame)) := if_neg h.new
  have hidle : commitAt (frameOpened s) .frame = frameOpened s := commitAt_of_idle (s := frameOpened s) h.commits _
  have hone : (frameOpened s).radio.cells = [(c, cellOf s c)] := h.cells
  have hrec : recBegin u = u := recBegin_of_idle (by rw [hwork]; exact h.idle)
  have hexec : exec .frameBoundary s = .next (frameBoundary s) := rfl
  refine ⟨?_, ?_⟩
  · rw [hexec, hbody, hidle, hone]
    show Host.Outcome.next (recBegin (cellFrame (frameCnt s) (frameOpened s) c)) = _
    rw [hu, hrec]
  · rw [hwork]
    exact ⟨rfl, rfl, rfl, rfl, rfl⟩

/-- No weight-set object serves the cell. -/
def NotServed (s : State) (c : Nat) : Prop :=
  beqEn s c = false ∨ (cellOf s c).part = none ∨ objOwner s (fld (rg s BEQ_CELL_CFG 0 c) 13 0) ≠ (cellOf s c).part

theorem notServed_congr (hpg : t.pg = s.pg) (hpart : (cellOf t c).part = (cellOf s c).part) : NotServed t c ↔ NotServed s c := by
  unfold NotServed beqEn
  rw [hpart, objOwner_congr hpg, rg_congr hpg]

/-- What the frame of a cell leaves of state `t`, to which its TLVs and its start or stop have led, when no object serves the cell. -/
theorem frameDone_unserved (h : FrameDue s c) (hruns : cellRuns (cellTlvs (frameOpened s) c) (frameCnt s) c = t)
    (hwork : CellWork (frameOpened s) t) (hpg : t.pg = s.pg) (hk : cellOf t c = k) (hpart : k.part = (cellOf s c).part)
    (hsaff : k.saff = (cellOf s c).saff) (hengaged : k.engaged = (cellOf s c).engaged) (hno : NotServed s c) :
    ∃ u, FrameDone s u ∧ OnlyCell t u c { k with saffPass := false, saffSeen := false } := by
  have hswap : cellSwap t c = (t, false) := cellSwap_of_not_served ((notServed_congr hpg (by rw [hk, hpart])).2 hno)
  have hcell := onlyCell_cellFrame hruns (congrArg Prod.fst hswap) hk (hsaff.trans h.saff) (hengaged.trans h.engaged)
    (by rw [rg_congr hpg]; exact h.watched)
  exact ⟨_, frameDone_of_cellFrame h rfl (hwork.trans hcell.cellWork), hcell⟩

/-- A cell that is to start does so once its frame has been reached. -/
theorem frameStarts (h : FrameDue s c) (hno : NotServed s c) (htodo : (cellOf s c).todo = none) (hstart : (cellOf s c).startAt = some g) :
    ∃ u, FrameDone s u ∧ cellOf u c = if (frameCnt s + 2 ^ 32 - g) % 2 ^ 32 < 2 ^ 31
      then { cellOf s c with st := .running, startAt := none, saffPass := false, saffSeen := false }
      else { cellOf s c with saffPass := false, saffSeen := false } := by
  have hruns := onlyCell_cellRuns_start (s := frameOpened s) (f := frameCnt s) (c := c) rfl hstart
  have htlvs : cellTlvs (frameOpened s) c = frameOpened s := cellTlvs_of_none (s := frameOpened s) htodo
  obtain ⟨u, hdone, hcell⟩ := frameDone_unserved h (congrArg (cellRuns · _ c) htlvs) hruns.cellWork hruns.pg hruns.self
    (by split <;> rfl) (by split <;> rfl) (by split <;> rfl) hno
  refine ⟨u, hdone, hcell.self.trans ?_⟩
  split <;> rfl

/-- A cell that is to stop does so at the end of the frame; STOP.indication goes out when no uplink slot is left. -/
theorem frameStops (h : FrameDue s c) (hno : NotServed s c) (htodo : (cellOf s c).todo = none) (hstart : (cellOf s c).startAt = none)
    (hstop : (cellOf s c).stopAt = some g) (hrun : (cellOf s c).st = .running) (hfg : frameCnt s ≠ g) (p : Nat) :
    ∃ u, FrameDone s u ∧ (cellOf u c).st = .configured ∧ (∀ n, dlOf u c n = none) ∧
      (s.radio.ul = [] → (cellOf s c).part = some p → sent s u p c .stopIndication ∧ (cellOf u c).stopAt = none) := by
  set d := dropUnbegun (setCell (frameOpened s) c { cellOf s c with st := .configured }) c with hd
  have hset := onlyCell_setCell (frameOpened s) c { cellOf s c with st := .configured }
  have hdcell : cellOf d c = { cellOf s c with st := .configured } :=
    (cellOf_dropUnbegun ..).trans hset.self
  obtain ⟨hwork, hdl, hpg, hcell⟩ := stopDone_keeps d c
  rw [hdcell] at hcell
  have htlvs : cellTlvs (frameOpened s) c = frameOpened s := cellTlvs_of_none (s := frameOpened s) htodo
  have hruns : cellRuns (cellTlvs (frameOpened s) c) (frameCnt s) c = stopDone d c :=
    (congrArg (cellRuns · _ c) htlvs).trans (cellRuns_stop (s := frameOpened s) rfl hstart hstop hrun hfg)
  obtain ⟨u, hdone, hu⟩ := frameDone_unserved h hruns ((hset.cellWork.trans (cellWork_dropUnbegun _ c)).trans hwork)
    (hpg.trans (pg_dropUnbegun ..)) hcell rfl rfl rfl hno
  refine ⟨u, hdone, by rw [hu.self], fun n => ?_, fun hul hpart => ?_⟩
  · rw [dlOf_congr (hu.dl.trans hdl)]
    exact dlOf_dropUnbegun ..
  · have hsends : stopDone d c = fapiSend (setCell d c { cellOf d c with stopAt := none }) p c .stopIndication :=
      stopDone_sends (by rw [hdcell]; exact hstop) (by rw [hdcell]; exact hpart) (by rw [hdcell]; exact CellSt.noConfusion)
        (ul_dropUnbegun (by exact hul) c)
    have hout : (setCell d c { cellOf d c with stopAt := none }).out = s.out := out_dropUnbegun ..
    refine ⟨sent_since (by rw [hout]) (sent_of_suffix (sent_fapiSend ..) (by rw [hu.out, hsends])), ?_⟩
    rw [hu.self, hsends, cellOf_congr (fapiSend_radio ..), cellOf_setCell, if_pos rfl]

/-- Vendor TLVs that wait take effect. -/
theorem frameConfigures {y : CellConfig} (h : FrameDue s c) (hno : NotServed s c) (htodo : (cellOf s c).todo = some y)
    (hstart : (cellOf s c).startAt = none) (hstop : (cellOf s c).stopAt = none) :
    ∃ u, FrameDone s u ∧ (cellOf u c).cfg = some y ∧ (cellOf u c).todo = none ∧ (cellOf u c).st = (cellOf s c).st := by
  have happly := onlyCell_applyCfg (onlyCell_refl (frameOpened s) c) rfl y
  have htlvs : cellTlvs (frameOpened s) c = applyCfg (frameOpened s) c y := cellTlvs_of_some (s := frameOpened s) htodo
  have hruns : cellRuns (cellTlvs (frameOpened s) c) (frameCnt s) c = applyCfg (frameOpened s) c y := by
    rw [htlvs]
    exact cellRuns_of_none (by rw [happly.self]; exact hstart) (by rw [happly.self]; exact hstop)
  obtain ⟨u, hdone, hu⟩ := frameDone_unserved h hruns happly.cellWork happly.pg happly.self rfl rfl rfl hno
  exact ⟨u, hdone, by rw [hu.self], by rw [hu.self], by rw [hu.self]; rfl⟩

/-- The weight-set object that serves the cell is read, and the bank that it requests becomes active. -/
theorem frameSwaps {v : Word} (h : FrameDue s c) (hc : c < 96) (hserved : beqEn s c = true) (hpart : (cellOf s c).part = some p)
    (hown : objOwner s (fld (rg s BEQ_CELL_CFG 0 c) 13 0) = some p) (hv : objVal s (fld (rg s BEQ_CELL_CFG 0 c) 13 0) = v)
    (htodo : (cellOf s c).todo = none) (hstart : (cellOf s c).startAt = none) (hstop : (cellOf s c).stopAt = none) :
    ∃ u, FrameDone s u ∧
      rg u BEQ_VAL_REJECT 0 c = satAdd (rg s BEQ_VAL_REJECT 0 c) ((fld v 15 8 + 256 - (cellOf s c).rejSeq) % 256) ∧
      (bit v 31 = true → fld v 0 0 ≠ (cellOf s c).bank → (cellOf u c).bank = fld v 0 0 ∧ evtBit u 30 0 2 = true ∧
        rg u BEQ_SWAP_COUNT 0 c = satAdd (rg s BEQ_SWAP_COUNT 0 c) 1) ∧
      (bit v 31 = false → (cellOf u c).bank = (cellOf s c).bank ∧ rg u BEQ_SWAP_COUNT 0 c = rg s BEQ_SWAP_COUNT 0 c) := by
  have hruns : cellRuns (cellTlvs (frameOpened s) c) (frameCnt s) c = frameOpened s := by
    rw [cellTlvs_of_none (s := frameOpened s) htodo]
    exact cellRuns_of_none (s := frameOpened s) hstart hstop
  have hswap := cellSwap_served (s := frameOpened s) hserved hpart hown hv
  have hread := cellOf_swapRead (frameOpened s) c v
  by_cases hasked : bit v 31 = true ∧ fld v 0 0 ≠ (cellOf s c).bank
  · rw [if_pos (show bit v 31 = true ∧ fld v 0 0 ≠ (cellOf (frameOpened s) c).bank from hasked)] at hswap
    have hbank := cellOf_bankSwapped (swapRead (frameOpened s) c v) c v
    rw [hread] at hbank
    have hrg (r : Nat) (hevt : r ≠ 30 * 4096 + HDR_EVT) (hcount : r ≠ 30 * 4096 + HDR_EVT_COUNT) :=
      rg_bankSwapped (s := swapRead (frameOpened s) c v) hevt hcount hc v
    have hcell := onlyCell_cellFrame hruns hswap hbank h.saff h.engaged (by
      rw [hrg _ (by decide) (by decide), if_neg (by decide), rg_swapRead_other (by decide) hc]
      exact h.watched)
    refine ⟨_, frameDone_of_cellFrame h rfl (((cellWork_swapRead ..).trans (cellWork_bankSwapped ..)).trans hcell.cellWork), ?_,
      fun _ _ => ⟨by rw [hcell.self], ?_, ?_⟩, fun hnot => ?_⟩
    · rw [rg_congr hcell.pg, hrg _ (by decide) (by decide), if_neg (by decide)]
      exact rg_swapRead_reject ..
    · unfold evtBit
      rw [rg_congr hcell.pg]
      exact evt_bankSwapped ..
    · rw [rg_congr hcell.pg, hrg _ (by decide) (by decide), if_pos rfl, rg_swapRead_other (by decide) hc]
      rfl
    · rw [hasked.1] at hnot
      cases hnot
  · rw [if_neg (show ¬ (bit v 31 = true ∧ fld v 0 0 ≠ (cellOf (frameOpened s) c).bank) from hasked)] at hswap
    have hcell := onlyCell_cellFrame hruns hswap hread h.saff h.engaged (by rw [rg_swapRead_other (by decide) hc]; exact h.watched)
    refine ⟨_, frameDone_of_cellFrame h rfl ((cellWork_swapRead ..).trans hcell.cellWork), ?_, fun hset hother => ?_, fun _ => ⟨?_, ?_⟩⟩
    · rw [rg_congr hcell.pg]
      exact rg_swapRead_reject ..
    · exact absurd ⟨hset, hother⟩ hasked
    · rw [hcell.self]
      rfl
    · rw [rg_congr hcell.pg, rg_swapRead_other (by decide) hc]
      rfl

end

end Sys2Proof.Machine
end

section
/-! The boundaries of the device (16 R510 to R512), and O32. -/

namespace Sys2Proof.Proofs

open Sys2Proof Sys2Proof.Machine

section
variable {s : State} {c n p : Nat}

/-- The slot boundary of a cell for which nothing is held: the slot is noted, and a running cell's slot starts. -/
theorem slotBoundaryOfTheCell (hcommits : s.pg.commits = []) (htpls : s.disp.tplTodo = []) (hn : n = cellSlotNow s c)
    (hnew : n ≠ tgetD 0 s.tmu.cellSlot c) (hleaving : s.units.leaving = []) (hengs : s.units.engLeaving = [])
    (hback : s.units.engBack = []) (hheld : heldSlots s c = []) (hlinks : ∀ l, l < 16 → linkEn s l = false) (p : Nat) :
    ∃ u, exec (.slotBoundary c) s = .next u ∧ tgetD 0 u.tmu.cellSlot c = n ∧
      u = { s with tmu := { s.tmu with cellSlot := u.tmu.cellSlot }, radio := u.radio, host := u.host, pg := u.pg, mem := u.mem, out := u.out } ∧
      ((cellOf s c).st ≠ .running → u.out = s.out ∧ u.mem = s.mem) ∧
      ((cellOf s c).st = .running → (cellOf s c).part = some p →
        sent s u p c (.slotIndication ((n + slotIndAdv s c) % 2 ^ 32)) ∧
        (dlOf s c n = none → (c, n, false) ∉ s.radio.lateSeen → sent s u p c (.errorIndication .dlTti .late n none)) ∧
        (ulOf s c n = none → (c, n, true) ∉ s.radio.lateSeen → sent s u p c (.errorIndication .ulTti .late n none)) ∧
        ∀ x, ulOf u c n = some x → ∀ i ∈ x.items, i.bank = (cellOf s c).bank) := by
  subst hn
  have hexec := exec_slotBoundary hcommits htpls hnew hleaving hengs hback hheld hlinks
  have hslot : tgetD 0 (slotNoted s c).tmu.cellSlot c = cellSlotNow s c := by simp [slotNoted, slotDue]
  by_cases hrun : (cellOf s c).st = .running
  · cases hpart : (cellOf s c).part with
    | none =>
      rw [slotStarts_of_idle (s := slotNoted s c) (.inr hpart)] at hexec
      exact ⟨_, hexec, hslot, rfl, fun h => absurd hrun h, fun _ h => nomatch h⟩
    | some q =>
      obtain ⟨t, ht, htells, hind, hdl, hul⟩ := slotStarts_running (s := slotNoted s c) (n := cellSlotNow s c) hpart hrun
      obtain ⟨_, _, _, hframe⟩ := htells.host
      rw [ht] at hexec
      refine ⟨_, hexec, ?_, ?_, fun h => absurd hrun h, fun _ hp => ?_⟩
      · rw [hframe]
        exact hslot
      · rw [hframe]
        rfl
      · obtain rfl := Option.some.inj hp
        exact ⟨hind, fun hnone => hdl (dlOf_slotNoted_of_none hnone), hul, fun x hx => bank_of_slotBound hx⟩
  · rw [slotStarts_of_idle (s := slotNoted s c) (.inl hrun)] at hexec
    exact ⟨_, hexec, hslot, rfl, fun _ => ⟨rfl, rfl⟩, fun h => absurd h hrun⟩

/-- The timer of a radio partition: SLOT on the cores of its jobs and on no other. -/
theorem slotTimerOfThePartition (hcommits : s.pg.commits = []) (htpls : s.disp.tplTodo = []) (hn : n = partSlotNow s p)
    (hnew : n ≠ tgetD 0 s.tmu.partSlot p) (hclass : isRS s p = true) :
    let hit (d : Nat) : Prop := ∃ e ∈ s.disp.jobs, ∃ x, e.2 = some x ∧ x.part = p ∧ onUnit x = true ∧ d ∈ members s x
    ∃ u, exec (.slotTimer p) s = .next u ∧ tgetD 0 u.tmu.partSlot p = n ∧
      u = { s with tmu := { s.tmu with partSlot := u.tmu.partSlot }, cl := u.cl } ∧
      (∀ d, hit d → (clu s d).clv.ended = false → (clu u d).clv.irq.getLsbD 2 = true) ∧ ∀ d, ¬ hit d → clu u d = clu s d := by
  intro hit
  subst hn
  obtain ⟨hframe, hraised, hothers⟩ := slotsRaised_spec (timerNoted s p) (slotJobs s p)
  refine ⟨_, exec_slotTimer hcommits htpls hnew hclass, ?_, ?_, ?_, fun d hd => ?_⟩
  · rw [hframe]
    simp [timerNoted]
  · rw [hframe]
    rfl
  · rintro d ⟨e, he, x, hx, hpart, hon, hmem⟩ hended
    exact hraised x (mem_slotJobs.2 ⟨e, he, hx, hpart, hon⟩) d hmem hended
  · refine hothers d fun x hx hmem => hd ?_
    obtain ⟨e, he, hex, hpart, hon⟩ := mem_slotJobs.1 hx
    exact ⟨e, he, x, hex, hpart, hon, hmem⟩

end

/-- Settles O32: nothing is done twice; at a new frame the one cell's frame is carried out, at a new slot the cell's slot, at a new timer
slot that of the partition's jobs. -/
theorem boundariesAreCarriedOut : Obligations.BoundariesAreCarriedOut := by
  unfold Obligations.BoundariesAreCarriedOut
  intro s c p hc hcommits htpls hidle k o f served noSwap framed
  refine ⟨fun h => ?_, fun hnew hcells hsaff hengaged hwatched => ?_, fun h => ?_, fun n hn hnew hleaving hengs hback hheld hlinks => ?_,
    fun h => ?_, fun n hn hnew hclass => ?_, fun h => ?_⟩
  · exact congrArg Host.Outcome.next (if_pos h)
  · have hdue : FrameDue s c := ⟨hcommits, hidle, hnew, hcells, hsaff, hengaged, hwatched⟩
    exact ⟨fun g hno htodo hstart => frameStarts hdue hno htodo hstart,
      fun g hno htodo hstart hstop hrun hfg => frameStops hdue hno htodo hstart hstop hrun hfg p,
      fun x hno htodo hstart hstop => frameConfigures hdue hno htodo hstart hstop,
      fun v hserved hpart hown hv htodo hstart hstop => frameSwaps hdue hc hserved hpart hown hv htodo hstart hstop⟩
  · exact congrArg Host.Outcome.next (if_pos h)
  · exact slotBoundaryOfTheCell hcommits htpls hn hnew hleaving hengs hback hheld hlinks p
  · have hskip : partSlotNow s p = tgetD 0 s.tmu.partSlot p ∨ (!isRS s p) = true ∨ (part? s p).isNone = true := by
      rcases h with h | h
      · exact .inl h
      · exact .inr (.inl (by rw [h]; rfl))
    exact congrArg Host.Outcome.next (if_pos hskip)
  · exact slotTimerOfThePartition hcommits htpls hn hnew hclass
  · exact congrArg Host.Outcome.next (if_pos h)

end Sys2Proof.Proofs
end

section
/-! A HARQ process of a context lets go of its entries (10 R422, 14 R438), and the transport-block check (10 R324). -/

namespace Sys2Proof.Machine

open Sys2Proof

/-! ### The bytes of a word -/

theorem natLe_leNat (bs : List Byte) : natLe bs.length (leNat bs) = bs := by
  induction bs with
  | nil => rfl
  | cons b bs ih =>
    have hb := b.isLt
    have hhead : BitVec.ofNat 8 (b.toNat + 256 * leNat bs) = b := by
      apply BitVec.eq_of_toNat_eq
      rw [BitVec.toNat_ofNat]
      omega
    have htail : (b.toNat + 256 * leNat bs) / 256 = leNat bs := by omega
    rw [leNat, List.length_cons, natLe, hhead, htail, ih]

theorem leNat_lt (bs : List Byte) : leNat bs < 256 ^ bs.length := by
  induction bs with
  | nil => exact Nat.one_pos
  | cons b bs ih =>
    have hb := b.isLt
    rw [leNat, List.length_cons, Nat.pow_succ]
    omega

theorem wordLe_leWord {bs : List Byte} (h : bs.length = 4) : wordLe (leWord bs) = bs := by
  have hlt := leNat_lt bs
  rw [h] at hlt
  have hword : (leWord bs).toNat = leNat bs := Nat.mod_eq_of_lt hlt
  rw [wordLe, hword, ← h, natLe_leNat]

/-- Clearing the low byte of a word leaves the other bytes. -/
theorem getD_wordLe_clearLow (w : Word) {j : Nat} (h : 1 ≤ j) (h4 : j < 4) :
    (wordLe (setFld w 7 0 0)).getD j 0 = (wordLe w).getD j 0 := by
  have hw := w.isLt
  have hclear : (setFld w 7 0 0).toNat / 256 = w.toNat / 256 := by
    unfold setFld fld
    rw [BitVec.toNat_ofNat]
    omega
  obtain ⟨k, rfl⟩ := Nat.exists_eq_add_of_le h
  unfold wordLe
  rw [getD_natLe _ _ _ h4, getD_natLe _ _ _ h4, Nat.pow_add, Nat.pow_one, ← Nat.div_div_eq_div_mul, hclear, Nat.div_div_eq_div_mul]

/-! ### The bytes of a context (R434) -/

section
variable {s t : State} {e : Nat}

theorem ctxAddr_congr (h : t.pg = s.pg) (e o : Nat) : ctxAddr t e o = ctxAddr s e o := by
  unfold ctxAddr ctxBase
  rw [rg_congr h, rg_congr h]

theorem ctxByte_ctxPut (s : State) (e o b : Nat) (bs : List Byte) : ctxByte (ctxPut s e o bs) e b =
    if o ≤ b ∧ b < o + bs.length then bs.getD (b - o) 0 else ctxByte s e b := by
  have hbyte : ctxByte (ctxPut s e o bs) e b = mget 0 (mwrite 0 s.mem.ext (ctxAddr s e o) bs) (ctxAddr s e b) := rfl
  have hin : (ctxAddr s e o ≤ ctxAddr s e b ∧ ctxAddr s e b < ctxAddr s e o + bs.length) ↔ (o ≤ b ∧ b < o + bs.length) := by
    unfold ctxAddr
    omega
  have hoff : ctxAddr s e b - ctxAddr s e o = b - o := by
    unfold ctxAddr
    omega
  rw [hbyte, mget_mwrite, hoff]
  exact if_congr hin rfl rfl

theorem sameOutside_ctxPut (s : State) {e o : Nat} {bs : List Byte} (h : o + bs.length ≤ 65536) : sameOutside s (ctxPut s e o bs) e := by
  intro a ha
  have hbyte : mget 0 (ctxPut s e o bs).mem.ext a = mget 0 (mwrite 0 s.mem.ext (ctxAddr s e o) bs) a := rfl
  rw [hbyte, mget_mwrite, if_neg]
  unfold ctxAddr at ha ⊢
  omega

theorem sameOutside_trans {u : State} (hpg : t.pg = s.pg) (h : sameOutside s t e) (h' : sameOutside t u e) : sameOutside s u e :=
  fun a ha => (h' a (by rw [ctxAddr_congr hpg, ctxAddr_congr hpg]; exact ha)).trans (h a ha)

/-- A word of a context is its four bytes. -/
theorem wordLe_ctxWord (s : State) (e o : Nat) : wordLe (ctxWord s e o) = (List.range 4).map (fun j => ctxByte s e (o + j)) := by
  have hbytes : ctxWord s e o = leWord ((List.range 4).map (fun j => ctxByte s e (o + j))) := rfl
  rw [hbytes]
  exact wordLe_leWord rfl

theorem ctxWord_of_zeros {o : Nat} (h : ∀ j, j < 4 → ctxByte s e (o + j) = 0) : ctxWord s e o = 0 := by
  have hbytes : ctxWord s e o = leWord ((List.range 4).map (fun j => ctxByte s e (o + j))) := rfl
  have hzeros : (List.range 4).map (fun j => ctxByte s e (o + j)) = (List.range 4).map (fun _ => 0) :=
    List.map_congr_left fun j hj => h j (List.mem_range.1 hj)
  rw [hbytes, hzeros]
  rfl

/-! ### Release of a process's entries (R422) -/

theorem ctxByte_ctxPutW_clearLow (s : State) (e o b : Nat) (h : b ≠ o) :
    ctxByte (ctxPutW s e o (setFld (ctxWord s e o) 7 0 0)) e b = ctxByte s e b := by
  unfold ctxPutW
  rw [ctxByte_ctxPut]
  split
  · rename_i hin
    obtain ⟨j, rfl⟩ := Nat.exists_eq_add_of_le hin.1
    have hj : j < 4 := by simpa [wordLe] using hin.2
    rw [Nat.add_sub_cancel_left, getD_wordLe_clearLow _ (by omega) hj, wordLe_ctxWord, getD_map_range _ _ hj]
  · rfl

theorem ctxByte_ctxPut_zeros (s : State) (e o n b : Nat) :
    ctxByte (ctxPut s e o (List.replicate n 0)) e b = if o ≤ b ∧ b < o + n then 0 else ctxByte s e b := by
  rw [ctxByte_ctxPut, List.length_replicate]
  exact ite_congr rfl (fun h => List.getD_replicate _ (by omega)) (fun _ => rfl)

/-- The entries of process `h` that partition `q`'s pool gets back. -/
def procEntries (s : State) (e h : Nat) : List Nat :=
  (List.range 152).filterMap (fun k => if bit (entryAt s e h k) 31 = true then some (fld (entryAt s e h k) 19 0) else none)

theorem mem_procEntries {h a : Nat} : a ∈ procEntries s e h ↔ ∃ k, k < 152 ∧ bit (entryAt s e h k) 31 = true ∧ fld (entryAt s e h k) 19 0 = a := by
  simp [procEntries, List.mem_filterMap]

/-- The pool has got them back, and the process record lists none. -/
def procEmptied (s : State) (q e h : Nat) : State :=
  ctxPut (setHq s q ((hqUsed s q).filter (fun a => !decide (a ∈ procEntries s e h)))) e (procOff h + 0x20) (List.replicate 608 0)

theorem procRelease_eq (s : State) (q e h : Nat) : procRelease s q e h =
    ctxPutW (procEmptied s q e h) e (procOff h) (setFld (ctxWord (procEmptied s q e h) e (procOff h)) 7 0 0) := rfl

theorem ctxPut_frame (s : State) (e o : Nat) (bs : List Byte) : (ctxPut s e o bs).pg = s.pg ∧ (ctxPut s e o bs).radio = s.radio := ⟨rfl, rfl⟩

theorem procEmptied_frame (s : State) (q e h : Nat) : (procEmptied s q e h).pg = s.pg ∧ (procEmptied s q e h).radio.ul = s.radio.ul := by
  obtain ⟨hpg, hradio⟩ := ctxPut_frame (setHq s q ((hqUsed s q).filter (fun a => !decide (a ∈ procEntries s e h)))) e
    (procOff h + 0x20) (List.replicate 608 0)
  rw [procEmptied, hpg, hradio]
  exact ⟨rfl, rfl⟩

/-- A release leaves the pages and the uplink. -/
theorem procRelease_frame (s : State) (q e h : Nat) : (procRelease s q e h).pg = s.pg ∧ (procRelease s q e h).radio.ul = s.radio.ul := by
  obtain ⟨hpg, hradio⟩ := ctxPut_frame (procEmptied s q e h) e (procOff h)
    (wordLe (setFld (ctxWord (procEmptied s q e h) e (procOff h)) 7 0 0))
  rw [procRelease_eq, ctxPutW, hpg, hradio]
  exact procEmptied_frame ..

/-- The bytes of a process record that a release leaves: all but NENT and the entries, which are zero. -/
theorem ctxByte_procRelease (s : State) (q e h b : Nat) (hne : b ≠ procOff h) : ctxByte (procRelease s q e h) e b =
    if procOff h + 0x20 ≤ b ∧ b < procOff h + 0x20 + 608 then 0 else ctxByte s e b := by
  rw [procRelease_eq, ctxByte_ctxPutW_clearLow _ _ _ _ hne, procEmptied, ctxByte_ctxPut_zeros]
  rfl

theorem hqUsed_procRelease (s : State) (q e h r : Nat) : hqUsed (procRelease s q e h) r =
    if r = q then (hqUsed s q).filter (fun a => !decide (a ∈ procEntries s e h)) else hqUsed s r := by
  have hput (s : State) (o : Nat) (bs : List Byte) : hqUsed (ctxPut s e o bs) r = hqUsed s r := rfl
  rw [procRelease_eq, ctxPutW, hput, procEmptied, hput]
  exact tgetD_tsetD ..

theorem sameOutside_procRelease (s : State) (q e : Nat) {h : Nat} (hh : h < 16) : sameOutside s (procRelease s q e h) e := by
  have hoff : procOff h + 640 ≤ 65536 := by unfold procOff; omega
  have hempty : sameOutside s (procEmptied s q e h) e :=
    sameOutside_ctxPut (setHq s q ((hqUsed s q).filter (fun a => !decide (a ∈ procEntries s e h)))) (by rw [List.length_replicate]; omega)
  have hnent : sameOutside (procEmptied s q e h) (procRelease s q e h) e := by
    rw [procRelease_eq]
    exact sameOutside_ctxPut _ (by rw [wordLe, length_natLe]; omega)
  exact sameOutside_trans (procEmptied_frame ..).1 hempty hnent

/-- The process's entries are gone from the context and from the pool's books. -/
theorem entriesGone_procRelease (s : State) (q e : Nat) {h : Nat} (hh : h < 16) :
    entriesGone s (procRelease s q e h) e q 0 (fun g => g = h) := by
  refine ⟨?_, fun a => ?_, fun r hr => ?_, fun b _ _ hb => ?_⟩
  · rintro g k - hk rfl
    refine ctxWord_of_zeros fun j hj => ?_
    rw [ctxByte_procRelease _ _ _ _ _ (by unfold procOff; omega), if_pos (by unfold procOff; omega)]
  · rw [hqUsed_procRelease, if_pos rfl, List.mem_filter, Bool.not_eq_true', decide_eq_false_iff_not, mem_procEntries]
    refine and_congr_right fun _ => ⟨?_, ?_⟩
    · rintro hnone g k - hk rfl hentry
      exact hnone ⟨k, hk, hentry⟩
    · rintro hnone ⟨k, hk, hentry⟩
      exact hnone h k hh hk rfl hentry
  · rw [hqUsed_procRelease, if_neg hr]
  · obtain ⟨hne, hout⟩ := hb h hh rfl
    rw [ctxByte_procRelease _ _ _ _ _ hne, if_neg (by unfold procOff; omega)]

end

/-! ### The transport-block check (R324) -/

section
variable {s : State} {c n i : Nat} {x : UlItem} {v : UlSlot}

/-- The code blocks of an item. -/
def codeBlocksOf (x : UlItem) : List CodeBlock := (List.range x.pdu.codeBlocks).map (fun k => tgetD {} x.cbs k)

/-- An item is set final; the rest of the device stays. -/
theorem finalItem_spec (hx : itemOf s c n i = some x) (st : Nat) :
    radioOnly s (finalItem s c n i st) ∧ (finalItem s c n i st).pg = s.pg ∧ itemSet s (finalItem s c n i st) c n i { x with status := some st } := by
  have hset : finalItem s c n i st = setItem s c n i { x with status := some st } := by
    unfold finalItem
    rw [hx]
  rw [hset]
  exact ⟨rfl, rfl, itemSet_setItem hx _⟩

/-- The check waits until every code block is decoded. -/
theorem crcCheck_waits (hx : itemOf s c n i = some x) (hv : ulOf s c n = some v) (h : ∃ b ∈ codeBlocksOf x, b.stage ≠ 3) :
    crcCheck s c n i = s := by
  unfold crcCheck
  rw [hv, hx]
  refine if_pos (.inr (.inr (.inr ?_)))
  obtain ⟨b, hb, hstage⟩ := h
  exact List.any_eq_true.2 ⟨b, hb, decide_eq_true hstage⟩

/-- The check of an item whose code blocks are all decoded, by the rows of R324. -/
theorem crcCheck_decoded (hx : itemOf s c n i = some x) (hv : ulOf s c n = some v) (hkind : x.pdu.kind = .pusch) (hst : x.status = none)
    (hpath : x.path ≠ none) (h : ∀ b ∈ codeBlocksOf x, b.stage = 3) : crcCheck s c n i =
      if ∃ b ∈ codeBlocksOf x, b.failed = true then finalItem s c n i 1
      else if (∃ b ∈ codeBlocksOf x, b.capped = true) ∨
        (tbBits (cellLte s c) x).drop x.pdu.tbs ≠ tbCrc (cellLte s c) ((tbBits (cellLte s c) x).take x.pdu.tbs) then finalItem s c n i 3
      else setItem (match x.pdu.ctx with | some e => procRelease s v.part e x.pdu.harq | none => s) c n i
        { x with status := some 0, data := bitBytes (ceilDiv x.pdu.tbs 8) ((tbBits (cellLte s c) x).take x.pdu.tbs) } := by
  have hgo : ¬ (x.pdu.kind ≠ .pusch ∨ x.status.isSome = true ∨ x.path.isNone = true ∨
      (codeBlocksOf x).any (fun b => decide (b.stage ≠ 3)) = true) := by
    rintro (hno | hno | hno | hno)
    · exact hno hkind
    · rw [hst] at hno
      cases hno
    · exact hpath (Option.isNone_iff_eq_none.1 hno)
    · obtain ⟨b, hb, hstage⟩ := List.any_eq_true.1 hno
      exact of_decide_eq_true hstage (h b hb)
  unfold crcCheck
  rw [hv, hx]
  refine (if_neg hgo).trans ?_
  refine if_congr List.any_eq_true rfl ?_
  refine if_congr (or_congr List.any_eq_true Iff.rfl) rfl ?_
  rfl

/-- The item fails with status `st`, and nothing else happens. -/
theorem exec_crcCheck_fails {st : Nat} (hx : itemOf s c n i = some x) (h : crcCheck s c n i = finalItem s c n i st) :
    ∃ t, exec (.crcCheck c n i) s = .next t ∧ radioOnly s t ∧ t.pg = s.pg ∧ itemSet s t c n i { x with status := some st } :=
  ⟨_, congrArg Host.Outcome.next h, finalItem_spec hx st⟩

theorem sameOutside_setItem {u : State} {e : Nat} (h : sameOutside s u e) (y : UlItem) : sameOutside s (setItem u c n i y) e := h
theorem entriesGone_setItem {u : State} {e q lo : Nat} {hs : Nat → Prop} (h : entriesGone s u e q lo hs) (y : UlItem) :
    entriesGone s (setItem u c n i y) e q lo hs := h

/-- The item passes: it has its bytes, and the entries of its HARQ process are released. -/
theorem exec_crcCheck_passes {y : UlItem} (hx : itemOf s c n i = some x)
    (h : crcCheck s c n i = setItem (match x.pdu.ctx with | some e => procRelease s v.part e x.pdu.harq | none => s) c n i y) :
    ∃ t, exec (.crcCheck c n i) s = .next t ∧ itemSet s t c n i y ∧ t.pg = s.pg ∧ (x.pdu.ctx = none → radioOnly s t) ∧
      ∀ e, x.pdu.ctx = some e → x.pdu.harq < 16 → sameOutside s t e ∧ entriesGone s t e v.part 0 (fun g => g = x.pdu.harq) := by
  cases hctx : x.pdu.ctx with
  | none =>
    rw [hctx] at h
    exact ⟨_, congrArg Host.Outcome.next h, itemSet_setItem hx y, rfl, fun _ => rfl, fun _ he => nomatch he⟩
  | some e =>
    obtain ⟨u, hu⟩ : ∃ u, u = procRelease s v.part e x.pdu.harq := ⟨_, rfl⟩
    have hcheck : crcCheck s c n i = setItem u c n i y := by rw [h, hctx, hu]
    obtain ⟨hpg, hul⟩ := procRelease_frame s v.part e x.pdu.harq
    rw [← hu] at hpg hul
    have hset := itemSet_setItem ((itemOf_congr hul c n i).trans hx) y
    refine ⟨_, congrArg Host.Outcome.next hcheck, ⟨hset.1, fun c' n' i' hne => ?_⟩, hpg,
      fun hnone => absurd hnone (Option.some_ne_none e), fun e' he hharq => ?_⟩
    · rw [hset.2 c' n' i' hne, itemOf_congr hul]
    · obtain rfl := Option.some.inj he
      have hout := sameOutside_procRelease s v.part e hharq
      have hgone := entriesGone_procRelease s v.part e hharq
      rw [← hu] at hout hgone
      exact ⟨sameOutside_setItem hout y, entriesGone_setItem hgone y⟩

end

end Sys2Proof.Machine
end

section
/-! The delivery of a slot's batch (10 R312, R323, R325) and the downlink chain (10 R331, 13 R425 to R427). -/

namespace Sys2Proof.Machine

open Sys2Proof

/-! ### The messages of a batch -/

section
variable {s t : State} {p c n : Nat} {v : UlSlot}

/-- A message goes out when it has items to speak of. -/
def sendSome (p c : Nat) (s : State) (q : List UlItem × FapiMsg) : State := if q.1 = [] then s else fapiSend s p c q.2

theorem tells_sendSome (p c : Nat) (s : State) (q : List UlItem × FapiMsg) : Tells s (sendSome p c s q) := by
  unfold sendSome
  split
  · exact .refl s
  · exact tells_fapiSend ..

theorem tells_sendAll (p c : Nat) (s : State) (l : List (List UlItem × FapiMsg)) : Tells s (l.foldl (sendSome p c) s) :=
  List.foldlRecOn (motive := Tells s) _ _ (.refl s) fun t ht q _ => ht.trans (tells_sendSome p c t q)

theorem sent_sendAll {l : List (List UlItem × FapiMsg)} {xs : List UlItem} {m : FapiMsg} (h : (xs, m) ∈ l) (hxs : xs ≠ []) :
    sent s (l.foldl (sendSome p c) s) p c m := by
  induction l generalizing s with
  | nil => cases h
  | cons q l ih =>
    rcases List.mem_cons.1 h with rfl | h
    · have hsend : sendSome p c s (xs, m) = fapiSend s p c m := if_neg hxs
      refine sent_of_suffix (sent_fapiSend s p c m) ?_
      rw [List.foldl_cons, hsend]
      exact (tells_sendAll p c (fapiSend s p c m) l).out
    · exact sent_since (tells_sendSome p c s q).out (ih h)

/-- The PDUs of one kind. -/
def pdusOf (v : UlSlot) (k : UlKind) : List UlItem := v.items.filter (fun x => decide (x.pdu.kind = k))

/-- CRC.indication and Rx_Data.indication of a slot. -/
def crcMsg (v : UlSlot) : FapiMsg :=
  .crcIndication v.slot ((pdusOf v .pusch).map (fun x => ⟨decide (x.status.getD 1 = 0), x.status.getD 1, decide (x.cause ≠ 0), x.cause⟩))
def rxMsg (v : UlSlot) : FapiMsg := .rxData v.slot ((pdusOf v .pusch).map (fun x => if x.status.getD 1 = 0 then x.data else []))
/-- UCI.indication. -/
def uciMsg (v : UlSlot) : FapiMsg := .uci v.slot ((v.items.filter hasUci).map (fun x => (uciStatus x, x.uci)))
/-- RACH.indication. -/
def rachMsg (v : UlSlot) : FapiMsg := .rach v.slot ((pdusOf v .prach).map (fun x => { x.prach with status := x.status.getD 1 }))

/-- The PDUs that carry UCI, and each one's status, by the kinds of PDU. -/
theorem filter_uci (v : UlSlot) :
    v.items.filter (fun x => decide (x.pdu.kind = .pucch ∨ x.pdu.kind = .pusch ∧ x.pdu.uci = true)) = v.items.filter hasUci := by
  refine List.filter_congr fun x _ => ?_
  simp [hasUci, Bool.decide_or, Bool.decide_and]

theorem uciMsg_eq (v : UlSlot) : uciMsg v = .uci v.slot ((v.items.filter hasUci).map (fun x =>
    (if x.pdu.kind = .pusch ∧ x.path ≠ none then x.uciSt.getD 1 else x.status.getD 1, x.uci))) := by
  simp only [uciMsg, uciStatus, Option.isSome_iff_ne_none]

/-- The messages of a batch, each with the items that it speaks of. -/
def batchMsgs (v : UlSlot) : List (List UlItem × FapiMsg) :=
  [(pdusOf v .pusch, crcMsg v), (pdusOf v .pusch, rxMsg v), (v.items.filter hasUci, uciMsg v)] ++
    (if v.rach then [] else [(pdusOf v .prach, rachMsg v)]) ++
    [((pdusOf v .srs).filter (fun x => x.pdu.report),
      .srs v.slot (((pdusOf v .srs).filter (fun x => x.pdu.report)).map (fun x => x.status.getD 0)))]

theorem sendBatch_eq (s : State) (v : UlSlot) : sendBatch s v = (batchMsgs v).foldl (sendSome v.part v.cell) s := by
  cases hrach : v.rach with
  | true =>
    unfold sendBatch batchMsgs
    rw [hrach]
    rfl
  | false =>
    unfold sendBatch batchMsgs
    rw [hrach]
    rfl

theorem crcMsg_mem (v : UlSlot) : (pdusOf v .pusch, crcMsg v) ∈ batchMsgs v := by simp [batchMsgs]
theorem rxMsg_mem (v : UlSlot) : (pdusOf v .pusch, rxMsg v) ∈ batchMsgs v := by simp [batchMsgs]
theorem uciMsg_mem (v : UlSlot) : (v.items.filter hasUci, uciMsg v) ∈ batchMsgs v := by simp [batchMsgs]
theorem rachMsg_mem (h : v.rach = false) : (pdusOf v .prach, rachMsg v) ∈ batchMsgs v := by simp [batchMsgs, h]

/-! ### The slot is let go -/

theorem ulOf_dropSlot_self (s : State) (c n : Nat) : ulOf (dropSlot s c n) c n = none := by
  refine List.find?_eq_none.2 fun u hu => ?_
  have hkept := (List.mem_filter.1 hu).2
  simp only [Bool.not_eq_true', decide_eq_false_iff_not] at hkept
  rw [decide_eq_true_eq]
  exact hkept

theorem ulOf_dropSlot_other (s : State) {c n c' n' : Nat} (h : (c', n') ≠ (c, n)) : ulOf (dropSlot s c n) c' n' = ulOf s c' n' := by
  refine find_filter_of_keeps (fun u hu => ?_) _
  rw [otherSlot h.symm hu]
  rfl

theorem gridOf_dropSlot (s : State) (c n m a : Nat) : gridOf (dropSlot s c n) c n m a = none := by
  refine List.find?_eq_none.2 fun g hg => ?_
  have hkept := (List.mem_filter.1 hg).2
  simp only [Bool.not_eq_true', decide_eq_false_iff_not] at hkept
  simp only [decide_eq_true_eq]
  exact fun hmine => hkept ⟨hmine.1, hmine.2.1⟩

theorem pins_dropSlot (s : State) (c n : Nat) : ∀ q ∈ (dropSlot s c n).cxs.pins, (q.1, q.2.1) ≠ (c, n) := by
  intro q hq
  have hkept := (List.mem_filter.1 hq).2
  simp only [Bool.not_eq_true', decide_eq_false_iff_not] at hkept
  exact fun hmine => hkept (Prod.mk.inj hmine)

/-- STOP.indication leaves the uplink, the fronthaul, the pins, and what has gone out. -/
theorem stopDone_frame (s : State) (c : Nat) : (stopDone s c).radio.ul = s.radio.ul ∧ (stopDone s c).fh = s.fh ∧
    (stopDone s c).cxs = s.cxs ∧ s.out <:+ (stopDone s c).out := by
  rcases stopDone_spec s c with h | ⟨p, -, h⟩
  · rw [h]
    exact ⟨rfl, rfl, rfl, List.suffix_rfl⟩
  · have htells := tells_fapiSend (setCell s c { cellOf s c with stopAt := none }) p c .stopIndication
    obtain ⟨_, _, _, hframe⟩ := htells.host
    rw [h]
    refine ⟨by rw [fapiSend_radio]; rfl, by rw [hframe]; rfl, by rw [hframe]; rfl, htells.out⟩

/-! ### Delivery -/

/-- Every item is final: SRS needs no result, and UCI on a PUSCH has one of its own. -/
def batchFinal (v : UlSlot) : Prop :=
  ∀ x ∈ v.items, x.pdu.kind = .srs ∨ x.status ≠ none ∧ (x.pdu.kind = .pusch → x.pdu.uci = true → x.path ≠ none → x.uciSt ≠ none)

theorem uciOpen_iff {x : UlItem} (h : x.status ≠ none) :
    uciOpen x = false ↔ (x.pdu.kind = .pusch → x.pdu.uci = true → x.path ≠ none → x.uciSt ≠ none) := by
  have hst : x.status.isNone = false := by
    cases hs : x.status with
    | none => exact absurd hs h
    | some _ => rfl
  unfold uciOpen
  rw [hst, Bool.false_or]
  by_cases hk : x.pdu.kind = .pusch <;> cases x.pdu.uci <;> cases x.uciSt <;> cases x.path <;> simp [hk]

theorem batchFinal_iff (v : UlSlot) :
    v.items.all (fun x => decide (x.pdu.kind = .srs) || (x.status.isSome && !uciOpen x)) = true ↔ batchFinal v := by
  rw [List.all_eq_true]
  refine forall₂_congr fun x _ => ?_
  rw [Bool.or_eq_true, decide_eq_true_eq, Bool.and_eq_true, Option.isSome_iff_ne_none, Bool.not_eq_true']
  exact or_congr_right (and_congr_right fun h => uciOpen_iff h)

theorem batchDeliver_waits (hv : ulOf s c n = some v) (h : ¬ (batchFinal v ∨ reached s c n (points s c).2.2.2 = true)) :
    batchDeliver s c n = s := by
  rw [not_or, ← batchFinal_iff] at h
  unfold batchDeliver
  rw [hv]
  refine if_pos ?_
  simp only [Bool.not_eq_true] at h
  rw [h.1, h.2]
  rfl

theorem batchDeliver_due (hv : ulOf s c n = some v) (h : batchFinal v ∨ reached s c n (points s c).2.2.2 = true) :
    batchDeliver s c n = stopDone (dropSlot (sendBatch s v) c n) c := by
  rw [← batchFinal_iff] at h
  unfold batchDeliver
  rw [hv]
  refine if_neg ?_
  rcases h with h | h <;> simp [h]

/-- A batch that is due goes out, every message that has items; then the slot is gone. -/
theorem exec_batchDeliver_due (hv : ulOf s c n = some v) (h : batchFinal v ∨ reached s c n (points s c).2.2.2 = true) :
    ∃ t, exec (.batchDeliver c n) s = .next t ∧ ulOf t c n = none ∧ (∀ c' n', (c', n') ≠ (c, n) → ulOf t c' n' = ulOf s c' n') ∧
      (∀ m a, gridOf t c n m a = none) ∧ (∀ q ∈ t.cxs.pins, (q.1, q.2.1) ≠ (c, n)) ∧
      ∀ xs m, (xs, m) ∈ batchMsgs v → xs ≠ [] → sent s t v.part v.cell m := by
  set b := sendBatch s v with hb
  obtain ⟨hul, hfh, hcxs, hout⟩ := stopDone_frame (dropSlot b c n) c
  have hradio : b.radio = s.radio := by
    rw [hb, sendBatch_eq]
    exact (tells_sendAll ..).radio
  refine ⟨_, congrArg Host.Outcome.next (batchDeliver_due hv h), ?_, fun c' n' hne => ?_, fun m a => ?_, ?_, fun xs m hm hxs => ?_⟩
  · rw [ulOf_congr hul, ulOf_dropSlot_self]
  · rw [ulOf_congr hul, ulOf_dropSlot_other _ hne, ulOf_congr (congrArg Radio.ul hradio)]
  · unfold gridOf
    rw [hfh]
    exact gridOf_dropSlot b c n m a
  · rw [hcxs]
    exact pins_dropSlot b c n
  · refine sent_of_suffix (t := b) ?_ hout
    rw [hb, sendBatch_eq]
    exact sent_sendAll hm hxs

end

/-! ### The downlink: one item is replaced (R331) -/

section
variable {s t : State} {c n i : Nat} {x : DlItem}

/-- Item `i` of a slot's downlink is `y`; besides that pages alone may have changed. -/
def DlSet (s t : State) (c n i : Nat) (y : DlItem) : Prop :=
  dlItem t c n i = some y ∧ t = { s with radio := { s.radio with dl := t.radio.dl }, pg := t.pg } ∧
    ∀ c' n' i', (c', n', i') ≠ (c, n, i) → dlItem t c' n' i' = dlItem s c' n' i'

theorem dlSet_setDl (hx : dlItem s c n i = some x) (y : DlItem) : DlSet s (setDl s c n i y) c n i y :=
  ⟨dlItem_setDl_self hx y, rfl, fun _ _ _ h => dlItem_setDl_ne s y h⟩

theorem DlSet.wrapRg {y : DlItem} (h : DlSet s t c n i y) (r j l k : Nat) : DlSet s (wrapRg t r j l k) c n i y := by
  obtain ⟨hself, hframe, hothers⟩ := h
  refine ⟨hself, ?_, hothers⟩
  rw [hframe]
  rfl

/-! ### Code blocks (R425, R426) -/

theorem length_bitsOf (w v : Nat) : (bitsOf w v).length = w := by simp [bitsOf]

theorem length_tbCrc (lte : Bool) (bits : List Bool) :
    (bits ++ tbCrc lte bits).length = tbLen lte bits.length := by
  unfold tbCrc tbLen
  rw [List.length_append]
  split
  · rw [length_bitsOf]
  · rw [length_bitsOf]

/-- A transport block that is not segmented is one code block: its bits, its checksum and the filler. -/
theorem segment_single {p : DlPdu} {bits : List Bool} (hblocks : p.codeBlocks ≤ 1) (htbs : p.tbs = bits.length) :
    (segment p bits).length = p.codeBlocks ∧ ∀ b ∈ segment p bits,
      b = (bits ++ tbCrc false bits).map some ++ List.replicate (kCols p.bg2 * p.zc - (bits ++ tbCrc false bits).length) none := by
  unfold segment
  refine ⟨by rw [List.length_map, List.length_range], fun b hb => ?_⟩
  obtain ⟨i, hi, rfl⟩ := List.mem_map.1 hb
  obtain rfl : i = 0 := by
    have hi := List.mem_range.1 hi
    omega
  have hlen : cbLen false p.tbs p.codeBlocks = (bits ++ tbCrc false bits).length := by
    rw [cbLen, if_pos hblocks, htbs, length_tbCrc]
  simp only [if_pos hblocks, hlen, Nat.zero_mul, List.drop_zero, List.take_length]

/-! ### Symbols (R331) -/

theorem flatten_groups {q : Nat} (hq : 0 < q) (f : Nat) (l : List Bool) (h : l.length < f) : (groups q f l).flatten = l := by
  induction f generalizing l with
  | zero => exact absurd h (Nat.not_lt_zero _)
  | succ f ih =>
    unfold groups
    split
    · rename_i hend
      rcases hend with rfl | rfl
      · rfl
      · exact absurd hq (Nat.lt_irrefl 0)
    · rename_i hgo
      have hpos : 0 < l.length := List.length_pos_iff.2 fun hnil => hgo (.inl hnil)
      rw [List.flatten_cons, ih _ (by rw [List.length_drop]; omega), List.take_append_drop]

theorem length_of_mem_groups {q f : Nat} {l g : List Bool} (h : g ∈ groups q f l) : g.length ≤ q := by
  induction f generalizing l with
  | zero => cases h
  | succ f ih =>
    unfold groups at h
    split at h
    · cases h
    · rcases List.mem_cons.1 h with rfl | h
      · exact List.length_take_le ..
      · exact ih h

end

end Sys2Proof.Machine
end

section
/-! The downlink chain (10 R331, 13 R425 to R427), and O49. -/

namespace Sys2Proof.Machine

open Sys2Proof

section
variable {s : State} {c n i k d : Nat} {x : DlItem}

theorem exec_segmentation {bs : List Byte} (hx : dlItem s c n i = some x) (hpayload : x.payload = some bs) (hnr : cellLte s c = false) :
    ∃ t, exec (.segmentation c n i) s = .next t ∧
      DlSet s t c n i { x with blocks := segment x.pdu ((byteBits bs).take x.pdu.tbs) } ∧ t.pg = s.pg := by
  have hbody : segmentation s c n i = setDl s c n i { x with blocks := segment x.pdu ((byteBits bs).take x.pdu.tbs) } := by
    unfold segmentation
    simp only [hx, hpayload, hnr, Bool.false_eq_true, if_false]
  exact ⟨_, congrArg Host.Outcome.next hbody, dlSet_setDl hx _, rfl⟩

theorem exec_segmentation_waits (hx : dlItem s c n i = some x) (hpayload : x.payload = none) : exec (.segmentation c n i) s = .next s := by
  have hbody : segmentation s c n i = s := by
    unfold segmentation
    simp only [hx, hpayload]
  exact congrArg Host.Outcome.next hbody

/-- An encoder or codec that has not gone is there. -/
theorem engAway_of_in {u : Nat} (hd : d < pageInsts u) (h : (u, d) ∉ s.units.engOut) : engAway s u d = false := by
  unfold engAway
  rw [decide_eq_true hd, decide_eq_false h]
  rfl

/-- An engine replaces an item of the downlink and counts its work. -/
theorem counted_setDl (hx : dlItem s c n i = some x) (y : DlItem) (r d : Nat) :
    DlSet s (wrapRg (setDl s c n i y) r d 0 1) c n i y ∧ rg (wrapRg (setDl s c n i y) r d 0 1) r d 0 = rg s r d 0 + 1 :=
  ⟨(dlSet_setDl hx y).wrapRg r d 0 1, rg_setRg_self ..⟩

theorem exec_ldpcEncode {b : List (Option Bool)} (hx : dlItem s c n i = some x) (hd : d < 2) (hb : x.blocks[k]? = some b)
    (hin : (25, d) ∉ s.units.engOut) : ∃ t, exec (.ldpcEncode d c n i k) s = .next t ∧
      DlSet s t c n i { x with coded := tsetD [] x.coded k (Config.encode (cellLte s c) x.pdu.bg2 x.pdu.zc b) } ∧
      rg t LDE_WORK_COUNT d 0 = rg s LDE_WORK_COUNT d 0 + 1 := by
  have haway : engAway s 25 d = false := engAway_of_in (Nat.lt_of_lt_of_le hd (by decide)) hin
  have hbody : ldpcEncode s d c n i k = wrapRg (setDl s c n i { x with
      coded := tsetD [] x.coded k (Config.encode (cellLte s c) x.pdu.bg2 x.pdu.zc b) }) LDE_WORK_COUNT d 0 1 := by
    unfold ldpcEncode
    simp only [hx, hb, haway, Bool.false_eq_true, if_false]
  exact ⟨_, congrArg Host.Outcome.next hbody, counted_setDl hx _ _ _⟩

theorem exec_polarEncode (hx : dlItem s c n i = some x) (hd : d < 2) (hkind : x.pdu.kind = .pdcch ∨ x.pdu.kind = .ssb)
    (hin : (26, d) ∉ s.units.engOut) : ∃ t, exec (.polarEncode d c n i) s = .next t ∧
      DlSet s t c n i { x with enc := Config.polarBits c n i } ∧ rg t PLC_WORK_COUNT d 0 = rg s PLC_WORK_COUNT d 0 + 1 := by
  have haway : engAway s 26 d = false := engAway_of_in hd hin
  have hgo : ¬ ((x.pdu.kind ≠ .pdcch ∧ x.pdu.kind ≠ .ssb) ∨ engAway s 26 d = true) := by
    rw [haway]
    rintro (⟨hdci, hpbch⟩ | hno)
    · exact hkind.elim hdci hpbch
    · cases hno
  have hbody : polarEncode s d c n i = wrapRg (setDl s c n i { x with enc := Config.polarBits c n i }) PLC_WORK_COUNT d 0 1 := by
    unfold polarEncode
    simp only [hx]
    exact if_neg hgo
  exact ⟨_, congrArg Host.Outcome.next hbody, counted_setDl hx _ _ _⟩

theorem exec_rateMatching (hx : dlItem s c n i = some x) (hcoded : tgetD [] x.coded k ≠ []) (hnr : cellLte s c = false) :
    ∃ t, exec (.rateMatching c n i k) s = .next t ∧ t.pg = s.pg ∧
      DlSet s t c n i { x with matched := tsetD [] x.matched k (matchBits c n i k x.pdu (tgetD [] x.coded k)) } := by
  have hbody : rateMatching s c n i k =
      setDl s c n i { x with matched := tsetD [] x.matched k (matchBits c n i k x.pdu (tgetD [] x.coded k)) } := by
    unfold rateMatching
    simp only [hx, hcoded, hnr, Bool.false_eq_true, if_false]
  exact ⟨_, congrArg Host.Outcome.next hbody, rfl, dlSet_setDl hx _⟩

theorem length_matchBits (c n i k : Nat) (p : DlPdu) (coded : List (Option Bool)) :
    (matchBits c n i k p coded).length = matchedLen p.bits (p.qm * p.layers) p.codeBlocks k := by
  unfold matchBits
  rw [List.length_map, List.length_range]

/-- Symbols of `q` bits each take the coded bits in order. -/
theorem exec_modulationMapping {l : List Bool} {q : Nat} (hx : dlItem s c n i = some x)
    (h : (x.pdu.kind = .pdsch ∧ (∀ k, k < x.pdu.codeBlocks → tgetD [] x.matched k ≠ []) ∧ q = x.pdu.qm ∧
      l = ((List.range x.pdu.codeBlocks).map (fun k => tgetD [] x.matched k)).flatten) ∨ (x.pdu.kind ≠ .pdsch ∧ x.enc ≠ [] ∧ q = 2 ∧ l = x.enc)) :
    exec (.modulationMapping c n i) s = .next (setDl s c n i { x with symbols := groups q (l.length + 1) l }) := by
  have hbody : modulationMapping s c n i = setDl s c n i { x with symbols := groups q (l.length + 1) l } := by
    unfold modulationMapping
    rcases h with ⟨hkind, hmatched, rfl, rfl⟩ | ⟨hkind, henc, rfl, rfl⟩
    · have hall : ((List.range x.pdu.codeBlocks).map (fun k => tgetD [] x.matched k)).any (fun b => decide (b = [])) = false := by
        rw [List.any_eq_false]
        intro b hb
        obtain ⟨k, hk, rfl⟩ := List.mem_map.1 hb
        rw [decide_eq_true_eq]
        exact hmatched k (List.mem_range.1 hk)
      simp only [hx, hkind, if_true, hall, Bool.false_eq_true, if_false]
    · simp only [hx, hkind, henc, if_false]
  exact congrArg Host.Outcome.next hbody

end

end Sys2Proof.Machine

namespace Sys2Proof.Proofs

open Sys2Proof Sys2Proof.Machine

/-- Settles O49: the check by the rows of R324, a batch message by message, and each stage of the downlink on its item alone. -/
theorem transportBlocksGoUpAndDown : Obligations.TransportBlocksGoUpAndDown := by
  unfold Obligations.TransportBlocksGoUpAndDown
  intro s c n i k d hd
  refine ⟨fun x v hx hv hkind hst hpath => ⟨fun hwait => ?_, fun hdone => ?_⟩, fun hnone => ?_, fun v hv => ⟨fun hwait => ?_, fun hdue => ?_⟩,
    fun x hx => ⟨fun p bits hblocks htbs => segment_single hblocks htbs, fun bs hpayload hnr => exec_segmentation hx hpayload hnr,
      exec_segmentation_waits hx, fun b hb hin => exec_ldpcEncode hx hd hb hin, fun hcoded hnr => ?_,
      fun hkind hin => exec_polarEncode hx hd hkind hin, fun l q h => ?_⟩⟩
  · exact congrArg Host.Outcome.next (crcCheck_waits hx hv hwait)
  · have hcheck := crcCheck_decoded hx hv hkind hst hpath hdone
    refine ⟨fun hfailed => exec_crcCheck_fails hx (hcheck.trans (if_pos hfailed)), fun hgood => ?_⟩
    have hcheck := hcheck.trans (if_neg (by
      rintro ⟨b, hb, hfailed⟩
      rw [hgood b hb] at hfailed
      cases hfailed))
    refine ⟨fun hbad => exec_crcCheck_fails hx (hcheck.trans (if_pos hbad)), fun hfull hcrc => ?_⟩
    refine exec_crcCheck_passes hx (hcheck.trans (if_neg ?_))
    rintro (⟨b, hb, hcapped⟩ | hcrc')
    · rw [hfull b hb] at hcapped
      cases hcapped
    · exact hcrc' hcrc
  · have hbody : batchDeliver s c n = s := by
      unfold batchDeliver
      rw [hnone]
    exact congrArg Host.Outcome.next hbody
  · exact congrArg Host.Outcome.next (batchDeliver_waits hv hwait)
  · obtain ⟨t, ht, hgone, hothers, hgrids, hpins, hsent⟩ := exec_batchDeliver_due hv hdue
    have huci := filter_uci v
    refine ⟨t, ht, hgone, hothers, hgrids, hpins, fun hps => ⟨hsent _ _ (crcMsg_mem v) hps, hsent _ _ (rxMsg_mem v) hps⟩, fun hus => ?_,
      fun hrs hrach => hsent _ _ (rachMsg_mem hrach) hrs⟩
    rw [huci] at hus ⊢
    have hmsg := hsent _ _ (uciMsg_mem v) hus
    rw [uciMsg_eq] at hmsg
    exact hmsg
  · obtain ⟨t, ht, hpg, hset⟩ := exec_rateMatching hx hcoded hnr
    refine ⟨t, _, ht, hpg, hset, length_matchBits .., fun j hj => ?_⟩
    exact getD_map_range _ _ hj
  · refine ⟨_, _, exec_modulationMapping hx h, rfl, dlSet_setDl hx _, fun hq => ⟨flatten_groups hq _ _ (Nat.lt_succ_self _), fun g hg => ?_⟩⟩
    exact length_of_mem_groups hg

end Sys2Proof.Proofs
end

section
/-! Words of a UE context, and the work that may be done on one context (14 R434, R438, R441, R449 to R451). -/

namespace Sys2Proof.Machine

open Sys2Proof

/-! ### Words of a context (R434) -/

theorem leWord_wordLe (w : Word) : leWord (wordLe w) = w := by
  have hw := w.isLt
  have hnat : leNat (wordLe w) = w.toNat := by
    simp only [wordLe, natLe, leNat, BitVec.toNat_ofNat]
    omega
  rw [leWord, hnat]
  exact BitVec.ofNat_toNat ..

theorem fld_setFld_state (w : Word) {v : Nat} (hv : v < 4) : fld (setFld w 31 30 v) 31 30 = v := by
  have hw := w.isLt
  unfold fld setFld fld
  rw [BitVec.toNat_ofNat]
  omega

theorem getD_mread (f : Byte) (m : Mem) (d : Byte) {n j : Nat} (a : Nat) (h : j < n) : (mread f m a n).getD j d = mget f m (a + j) := by
  induction n generalizing a j with
  | zero => exact absurd h (Nat.not_lt_zero _)
  | succ n ih =>
    cases j with
    | zero => rfl
    | succ j => rw [mread, List.getD_cons_succ, ih (a + 1) (by omega), Nat.add_right_comm, Nat.add_assoc]

section
variable {s t : State} {i o : Nat}

/-- The bytes of a context are those of external memory at its address. -/
theorem ctxByte_congr (hmem : t.mem.ext = s.mem.ext) (hbase : ctxBase t = ctxBase s) (i b : Nat) : ctxByte t i b = ctxByte s i b := by
  unfold ctxByte ctxAddr
  rw [hmem, hbase]

theorem ctxWord_of_bytes (h : ∀ j, j < 4 → ctxByte t i (o + j) = ctxByte s i (o + j)) : ctxWord t i o = ctxWord s i o := by
  have hbytes (u : State) : ctxWord u i o = leWord ((List.range 4).map (fun j => ctxByte u i (o + j))) := rfl
  rw [hbytes, hbytes, List.map_congr_left fun j hj => h j (List.mem_range.1 hj)]

theorem ctxState_congr (h : ctxWord t i 4 = ctxWord s i 4) : ctxState t i = ctxState s i := congrArg (fld · 31 30) h

@[simp] theorem ctxPutW_cxs (s : State) (i o : Nat) (w : Word) : (ctxPutW s i o w).cxs = s.cxs := rfl
@[simp] theorem ctxPutW_radio (s : State) (i o : Nat) (w : Word) : (ctxPutW s i o w).radio = s.radio := rfl
@[simp] theorem ctxPutW_pg (s : State) (i o : Nat) (w : Word) : (ctxPutW s i o w).pg = s.pg := rfl
@[simp] theorem ctxPutW_eng (s : State) (i o : Nat) (w : Word) : (ctxPutW s i o w).eng = s.eng := rfl
@[simp] theorem ctxPutW_tmu (s : State) (i o : Nat) (w : Word) : (ctxPutW s i o w).tmu = s.tmu := rfl

theorem ctxByte_ctxPutW_ne (s : State) (w : Word) {b : Nat} (h : b < o ∨ o + 4 ≤ b) : ctxByte (ctxPutW s i o w) i b = ctxByte s i b := by
  rw [ctxPutW, ctxByte_ctxPut, if_neg (by rw [wordLe, length_natLe]; omega)]

theorem ctxWord_ctxPutW_self (s : State) (i o : Nat) (w : Word) : ctxWord (ctxPutW s i o w) i o = w := by
  have hread : ctxWord (ctxPutW s i o w) i o = leWord (mread 0 (mwrite 0 s.mem.ext (ctxAddr s i o) (wordLe w)) (ctxAddr s i o) (wordLe w).length) := rfl
  rw [hread, mread_mwrite, leWord_wordLe]

theorem ctxWord_ctxPutW_ne (s : State) (w : Word) {o' : Nat} (h : o' + 4 ≤ o ∨ o + 4 ≤ o') : ctxWord (ctxPutW s i o w) i o' = ctxWord s i o' :=
  ctxWord_of_bytes fun _ _ => ctxByte_ctxPutW_ne _ _ (by omega)

end

/-! ### Work on one context -/

/-- What work on context `i` may change: its bytes, the cache with its counters, and which entries of the pools are in use. -/
structure CtxWork (s t : State) (i : Nat) : Prop where
  frame : t = { s with mem := { s.mem with ext := t.mem.ext }, cxs := t.cxs, pg := t.pg, radio := t.radio }
  harq : t.radio = { s.radio with harq := t.radio.harq }
  outside : sameOutside s t i
  base : ctxBase t = ctxBase s
  age : ageNow t = ageNow s

section
variable {s t u : State} {i : Nat}

theorem CtxWork.refl (s : State) (i : Nat) : CtxWork s s i := ⟨rfl, rfl, fun _ _ => rfl, rfl, rfl⟩

theorem CtxWork.trans (h : CtxWork s t i) (h' : CtxWork t u i) : CtxWork s u i := by
  obtain ⟨hframe, hharq, hout, hbase, hage⟩ := h
  obtain ⟨hframe', hharq', hout', hbase', hage'⟩ := h'
  refine ⟨?_, ?_, fun a ha => (hout' a ?_).trans (hout a ha), hbase'.trans hbase, hage'.trans hage⟩
  · rw [hframe] at hframe'
    exact hframe'
  · rw [hharq] at hharq'
    exact hharq'
  · unfold ctxAddr
    rw [hbase]
    exact ha

/-- Every line of memory stays sound. -/
theorem CtxWork.clean (h : CtxWork s t i) (hs : s.mem.ue = []) : t.mem.ue = [] := by
  rw [h.frame]
  exact hs

theorem ctxWork_ctxPut (s : State) {i o : Nat} {bs : List Byte} (h : o + bs.length ≤ 65536) : CtxWork s (ctxPut s i o bs) i :=
  ⟨rfl, rfl, sameOutside_ctxPut s h, rfl, rfl⟩

theorem ctxWork_ctxPutW (s : State) {i o : Nat} (w : Word) (h : o + 4 ≤ 65536) : CtxWork s (ctxPutW s i o w) i :=
  ctxWork_ctxPut s (by rw [wordLe, length_natLe]; exact h)

theorem ctxWork_setHq (s : State) (q : Nat) (l : List Nat) (i : Nat) : CtxWork s (setHq s q l) i := ⟨rfl, rfl, fun _ _ => rfl, rfl, rfl⟩

theorem ctxWork_procRelease (s : State) (q i : Nat) {h : Nat} (hh : h < 16) : CtxWork s (procRelease s q i h) i := by
  have hempty : CtxWork s (procEmptied s q i h) i :=
    (ctxWork_setHq ..).trans (ctxWork_ctxPut _ (by rw [List.length_replicate]; unfold procOff; omega))
  rw [procRelease_eq]
  exact hempty.trans (ctxWork_ctxPutW _ _ (by unfold procOff; omega))

end

/-! ### The cache (R449 to R451) -/

/-- Touching sectors changes which sectors the cache holds, and two counters. -/
structure CacheTouch (s t : State) : Prop where
  frame : t = { s with cxs := { s.cxs with sects := t.cxs.sects }, pg := { s.pg with regs := t.pg.regs } }
  regs : ∀ r j sel, rkey r j sel ≠ rkey CXS_MISS_COUNT 0 0 → rkey r j sel ≠ rkey CXS_BYPASS_COUNT 0 0 → rg t r j sel = rg s r j sel

section
variable {s t u : State}

theorem CacheTouch.refl (s : State) : CacheTouch s s := ⟨rfl, fun _ _ _ _ _ => rfl⟩

theorem CacheTouch.trans (h : CacheTouch s t) (h' : CacheTouch t u) : CacheTouch s u := by
  obtain ⟨hframe, hregs⟩ := h
  obtain ⟨hframe', hregs'⟩ := h'
  refine ⟨?_, fun r j sel hm hb => (hregs' r j sel hm hb).trans (hregs r j sel hm hb)⟩
  rw [hframe] at hframe'
  exact hframe'

theorem CacheTouch.mem (h : CacheTouch s t) : t.mem = s.mem := by rw [h.frame]

theorem CacheTouch.ctxBase (h : CacheTouch s t) : Machine.ctxBase t = Machine.ctxBase s := by
  unfold Machine.ctxBase
  rw [h.regs _ _ _ (by decide) (by decide), h.regs _ _ _ (by decide) (by decide)]

theorem CacheTouch.ctxByte (h : CacheTouch s t) (i b : Nat) : Sys2Proof.ctxByte t i b = Sys2Proof.ctxByte s i b :=
  ctxByte_congr (by rw [h.mem]) h.ctxBase i b

theorem CacheTouch.ctxWord (h : CacheTouch s t) (i o : Nat) : Machine.ctxWord t i o = Machine.ctxWord s i o :=
  ctxWord_of_bytes fun _ _ => h.ctxByte ..

theorem CacheTouch.ctxWork (h : CacheTouch s t) (i : Nat) : CtxWork s t i := by
  refine ⟨?_, ?_, fun a _ => by rw [h.mem], h.ctxBase, ?_⟩
  · rw [h.frame]
  · rw [h.frame]
  · have hoff : frameOffset t = frameOffset s := by
      unfold frameOffset
      rw [h.regs _ _ _ (by decide) (by decide)]
    have hnow : nowNs t = nowNs s := by rw [h.frame]; rfl
    unfold ageNow frameCnt
    rw [hoff, hnow]

/-- No range of a sound memory is uncorrectable. -/
theorem anyUE_of_clean (h : s.mem.ue = []) (a n : Nat) : anyUE s a n = none := by
  unfold anyUE
  simp [h]

/-- A sector that is not filled, or is filled from sound memory, is touched without an error. -/
theorem cacheTouch_touchSect (p i n : Nat) (dirty zero : Bool) (h : s.mem.ue = [] ∨ zero = true) :
    CacheTouch s (touchSect s p i n dirty zero).1 ∧ (touchSect s p i n dirty zero).2 = false := by
  unfold touchSect
  simp only
  split
  · exact ⟨⟨rfl, fun _ _ _ _ _ => rfl⟩, rfl⟩
  · split
    · exact ⟨⟨rfl, fun _ _ _ _ hb => rg_setRg_ne _ _ hb⟩, rfl⟩
    · rename_i l _
      split
      · exact ⟨⟨rfl, fun _ _ _ _ _ => rfl⟩, rfl⟩
      · rename_i hfill
        have hclean : s.mem.ue = [] := h.resolve_right hfill
        rw [anyUE_of_clean (s := wrapRg (setSects s (⟨i, n, p, dirty⟩ :: l)) CXS_MISS_COUNT 0 0 1) hclean]
        exact ⟨⟨rfl, fun _ _ _ hm _ => rg_setRg_ne _ _ hm⟩, rfl⟩

theorem cacheTouch_touchCtx (h : s.mem.ue = []) (p i off n : Nat) (dirty : Bool) :
    CacheTouch s (touchCtx s p i off n dirty).1 ∧ (touchCtx s p i off n dirty).2 = false := by
  unfold touchCtx
  split
  · exact ⟨.refl s, rfl⟩
  · refine List.foldlRecOn (motive := fun r : State × Bool => CacheTouch s r.1 ∧ r.2 = false) _ _ ⟨.refl s, rfl⟩ fun r hr k _ => ?_
    obtain ⟨htouch, hbad⟩ := cacheTouch_touchSect (s := r.1) p i (off / 1024 + k) dirty false (.inl (by rw [hr.1.mem]; exact h))
    exact ⟨hr.1.trans htouch, by simp only [hr.2, hbad, Bool.or_self]⟩

end

/-! ### A context is used (R441) -/

section
variable {s : State} {i : Nat}

theorem ctxUse_eq (s : State) (i : Nat) : ctxUse s i =
    if ctxState s i = 2 then ctxPutW (ctxPutW s i 0x10 (ageNow s)) i 4 (setFld (ctxWord s i 4) 31 30 1) else ctxPutW s i 0x10 (ageNow s) := by
  have hword : ctxWord (ctxPutW s i 0x10 (ageNow s)) i 4 = ctxWord s i 4 := ctxWord_ctxPutW_ne _ _ (.inl (by decide))
  unfold ctxUse
  simp only [hword, ctxState_congr hword]

theorem ctxWork_ctxUse (s : State) (i : Nat) : CtxWork s (ctxUse s i) i := by
  have hage := ctxWork_ctxPutW s (i := i) (o := 0x10) (ageNow s) (by decide)
  rw [ctxUse_eq]
  split
  · exact hage.trans (ctxWork_ctxPutW _ _ (by decide))
  · exact hage

theorem ctxUse_frame (s : State) (i : Nat) : ctxUse s i = { s with mem := { s.mem with ext := (ctxUse s i).mem.ext } } := by
  unfold ctxUse
  simp only
  split
  · rfl
  · rfl

theorem ctxByte_ctxUse {b : Nat} (hstate : b < 4 ∨ 8 ≤ b) (huse : b < 0x10 ∨ 0x14 ≤ b) : ctxByte (ctxUse s i) i b = ctxByte s i b := by
  rw [ctxUse_eq]
  split
  · rw [ctxByte_ctxPutW_ne _ _ hstate, ctxByte_ctxPutW_ne _ _ huse]
  · exact ctxByte_ctxPutW_ne _ _ huse

theorem lastUse_ctxUse (s : State) (i : Nat) : ctxWord (ctxUse s i) i 0x10 = ageNow s := by
  rw [ctxUse_eq]
  split
  · rw [ctxWord_ctxPutW_ne _ _ (.inr (by decide)), ctxWord_ctxPutW_self]
  · exact ctxWord_ctxPutW_self ..

/-- A context in use is ACTIVE. -/
theorem ctxState_ctxUse (h : ctxState s i = 1 ∨ ctxState s i = 2) : ctxState (ctxUse s i) i = 1 := by
  rw [ctxUse_eq]
  split
  · rw [ctxState, ctxWord_ctxPutW_self, fld_setFld_state _ (by decide)]
  · rename_i hne
    have hword : ctxWord (ctxPutW s i 0x10 (ageNow s)) i 4 = ctxWord s i 4 := ctxWord_ctxPutW_ne _ _ (.inl (by decide))
    exact (ctxState_congr hword).trans (h.resolve_right hne)

end

end Sys2Proof.Machine
end


section
/-! Contexts are created and released (13 R422, 14 R438, R440, R452). -/

namespace Sys2Proof.Machine

open Sys2Proof

/-! ### The entries of several processes are released (R422) -/

section
variable {s t u : State} {i q lo : Nat} {A B : Nat → Prop}

/-- The entries of a process that releases nothing stand. -/
theorem entryAt_of_entriesGone (h : entriesGone s t i q lo A) (hlo : lo ≤ 0x100) {g k : Nat} (hg : g < 16) (hk : k < 152) (hA : ¬ A g) :
    entryAt t i g k = entryAt s i g k := by
  obtain ⟨-, -, -, hbytes⟩ := h
  refine ctxWord_of_bytes fun j hj => hbytes _ (by omega) (by omega) fun g' _ hA' => ?_
  have hne : g' ≠ g := by
    rintro rfl
    exact hA hA'
  omega

/-- Releases one after the other. -/
theorem entriesGone_trans (hlo : lo ≤ 0x100) (h : entriesGone s t i q lo A) (h' : entriesGone t u i q lo B) :
    entriesGone s u i q lo (fun g => A g ∨ B g) := by
  have hstays {g k : Nat} := entryAt_of_entriesGone (g := g) (k := k) h' hlo
  have hstood {g k : Nat} := entryAt_of_entriesGone (g := g) (k := k) h hlo
  obtain ⟨hzero, hused, hother, hbytes⟩ := h
  obtain ⟨hzero', hused', hother', hbytes'⟩ := h'
  refine ⟨fun g k hg hk hAB => ?_, fun e => ?_, fun r hr => (hother' r hr).trans (hother r hr), fun b hb hb' hout => ?_⟩
  · by_cases hB : B g
    · exact hzero' g k hg hk hB
    · rw [hstays hg hk hB, hzero g k hg hk (hAB.resolve_right hB)]
  · rw [hused', hused, and_assoc]
    refine and_congr_right fun _ => ⟨fun ⟨hA, hB⟩ g k hg hk hAB => ?_, fun hAB => ⟨fun g k hg hk hA => hAB g k hg hk (.inl hA), ?_⟩⟩
    · by_cases hA' : A g
      · exact hA g k hg hk hA'
      · rw [← hstood hg hk hA']
        exact hB g k hg hk (hAB.resolve_left hA')
    · intro g k hg hk hB
      by_cases hA' : A g
      · rw [hzero g k hg hk hA']
        rintro ⟨hbit, -⟩
        cases hbit
      · rw [hstood hg hk hA']
        exact hAB g k hg hk (.inr hB)
  · rw [hbytes' b hb hb' fun g hg hB => hout g hg (.inr hB), hbytes b hb hb' fun g hg hA => hout g hg (.inl hA)]

/-- The processes are named by any property that means the same. -/
theorem entriesGone_congr (hAB : ∀ g, g < 16 → (A g ↔ B g)) (h : entriesGone s t i q lo A) : entriesGone s t i q lo B := by
  obtain ⟨hzero, hused, hother, hbytes⟩ := h
  refine ⟨fun g k hg hk hB => hzero g k hg hk ((hAB g hg).2 hB), fun e => (hused e).trans (and_congr_right fun _ => ?_), hother,
    fun b hb hb' hout => hbytes b hb hb' fun g hg hA => hout g hg ((hAB g hg).1 hA)⟩
  exact ⟨fun h g k hg hk hB => h g k hg hk ((hAB g hg).2 hB), fun h g k hg hk hA => h g k hg hk ((hAB g hg).1 hA)⟩

/-- What leaves the pools and all bytes from `lo` on releases no entry. -/
theorem entriesGone_of_same (hbytes : ∀ b, lo ≤ b → b < 65536 → ctxByte t i b = ctxByte s i b) (hused : ∀ r, hqUsed t r = hqUsed s r) :
    entriesGone s t i q lo (fun _ => False) :=
  ⟨fun _ _ _ _ h => h.elim, fun _ => by rw [hused]; exact ⟨fun h => ⟨h, fun _ _ _ _ h => h.elim⟩, And.left⟩, fun r _ => hused r,
    fun b hb hb' _ => hbytes b hb hb'⟩

theorem entriesGone_mono {lo' : Nat} (hlo : lo ≤ lo') (h : entriesGone s t i q lo A) : entriesGone s t i q lo' A := by
  obtain ⟨hzero, hused, hother, hbytes⟩ := h
  exact ⟨hzero, hused, hother, fun b hb => hbytes b (Nat.le_trans hlo hb)⟩

/-- A release stands when only bytes below `lo` change afterwards. -/
theorem entriesGone_then_same (hlo : lo ≤ 0x100) (h : entriesGone s t i q 0 A) (hbytes : ∀ b, lo ≤ b → b < 65536 → ctxByte u i b = ctxByte t i b)
    (hused : ∀ r, hqUsed u r = hqUsed t r) : entriesGone s u i q lo A :=
  entriesGone_congr (fun _ _ => iff_of_eq (or_false _)) (entriesGone_trans hlo (entriesGone_mono (Nat.zero_le lo) h) (entriesGone_of_same hbytes hused))

end

/-- The first `n` processes that `sel` selects are released. -/
def procsReleased (s : State) (q i : Nat) (sel : Nat → Bool) (n : Nat) : State :=
  (List.range n).foldl (fun s h => if sel h then procRelease s q i h else s) s

theorem procsReleased_succ (s : State) (q i : Nat) (sel : Nat → Bool) (n : Nat) : procsReleased s q i sel (n + 1) =
    if sel n then procRelease (procsReleased s q i sel n) q i n else procsReleased s q i sel n := by
  simp only [procsReleased, List.range_succ, List.foldl_append, List.foldl_cons, List.foldl_nil]

theorem procRelease_cxs (s : State) (q i h : Nat) : (procRelease s q i h).cxs = s.cxs := by
  have hput (s : State) (o : Nat) (bs : List Byte) : (ctxPut s i o bs).cxs = s.cxs := rfl
  rw [procRelease_eq, ctxPutW, hput, procEmptied, hput]
  rfl

/-- Processes `A` of context `i` let go of their entries, and nothing but those, the pool and the records of the processes changes. -/
structure ProcsGone (s t : State) (i q : Nat) (A : Nat → Prop) : Prop where
  work : CtxWork s t i
  gone : entriesGone s t i q 0 A
  pg : t.pg = s.pg
  cxs : t.cxs = s.cxs

theorem procsGone_procsReleased (s : State) (q i : Nat) (sel : Nat → Bool) {n : Nat} (hn : n ≤ 16) :
    ProcsGone s (procsReleased s q i sel n) i q (fun g => sel g = true ∧ g < n) := by
  induction n with
  | zero => exact ⟨.refl s i, entriesGone_congr (fun g _ => by simp) (entriesGone_of_same (fun _ _ _ => rfl) fun _ => rfl), rfl, rfl⟩
  | succ n ih =>
    obtain ⟨hwork, hgone, hpg, hcxs⟩ := ih (by omega)
    rw [procsReleased_succ]
    by_cases hsel : sel n = true
    · rw [if_pos hsel]
      refine ⟨hwork.trans (ctxWork_procRelease _ q i hn), ?_, (procRelease_frame ..).1.trans hpg, (procRelease_cxs ..).trans hcxs⟩
      refine entriesGone_congr (fun g _ => ?_) (entriesGone_trans (Nat.zero_le _) hgone (entriesGone_procRelease _ q i hn))
      constructor
      · rintro (⟨hg, hlt⟩ | rfl)
        · exact ⟨hg, by omega⟩
        · exact ⟨hsel, Nat.lt_succ_self _⟩
      · rintro ⟨hg, hlt⟩
        by_cases hgn : g = n
        · exact .inr hgn
        · exact .inl ⟨hg, by omega⟩
    · rw [if_neg hsel]
      refine ⟨hwork, entriesGone_congr (fun g _ => and_congr_right fun hg => ?_) hgone, hpg, hcxs⟩
      have hgn : g ≠ n := by
        rintro rfl
        exact hsel hg
      omega

/-! ### RELEASE (R440) -/

/-- The contexts counted for partition `p` change by `d` (R452). -/
theorem active_countCtx (s : State) (p : Nat) (d : Int) :
    tgetD 0 (countCtx s p d).cxs.active p = (((tgetD 0 s.cxs.active p : Nat) : Int) + d).toNat := by
  unfold countCtx
  simp only [tgetD_tsetD, if_true]

theorem ctxWord_countCtx (s : State) (p : Nat) (d : Int) (i o : Nat) : ctxWord (countCtx s p d) i o = ctxWord s i o := rfl

theorem ctxByte_countCtx (s : State) (p : Nat) (d : Int) (i b : Nat) : ctxByte (countCtx s p d) i b = ctxByte s i b := rfl

theorem ctxWork_countCtx (s : State) (p : Nat) (d : Int) (i : Nat) : CtxWork s (countCtx s p d) i := ⟨rfl, rfl, fun _ _ => rfl, rfl, rfl⟩

/-- The state once the cache has been touched for the header of a context that lost its entries. -/
def entriesFreed (s : State) (i : Nat) : State :=
  (touchCtx (procsReleased s (fld (ctxWord s i 4) 29 25) i (fun _ => true) 16) (fld (ctxWord s i 4) 29 25) i 0 20 true).1

theorem releaseCtx_eq (s : State) (i : Nat) : releaseCtx s i = countCtx (ctxPutW (entriesFreed s i) i 4
    (setFld (ctxWord (procsReleased s (fld (ctxWord s i 4) 29 25) i (fun _ => true) 16) i 4) 31 30 0)) (fld (ctxWord s i 4) 29 25) (-1) := by
  simp only [releaseCtx, entriesFreed, procsReleased, if_true]

/-- A context is FREE, its entries are back in the pool of partition `q`, and its counter is one less. -/
structure CtxReleased (s v : State) (i q : Nat) : Prop where
  work : CtxWork s v i
  free : ctxState v i = 0
  gone : entriesGone s v i q 8 (fun _ => True)
  active : tgetD 0 v.cxs.active q = tgetD 0 s.cxs.active q - 1
  swept : v.cxs.swept = s.cxs.swept

theorem ctxReleased_releaseCtx {s : State} (hclean : s.mem.ue = []) (i : Nat) : CtxReleased s (releaseCtx s i) i (fld (ctxWord s i 4) 29 25) := by
  obtain ⟨hwork, hgone, -, hcxs⟩ := procsGone_procsReleased s (fld (ctxWord s i 4) 29 25) i (fun _ => true) (Nat.le_refl 16)
  have htouch : CacheTouch (procsReleased s (fld (ctxWord s i 4) 29 25) i (fun _ => true) 16) (entriesFreed s i) :=
    (cacheTouch_touchCtx (hwork.clean hclean) (fld (ctxWord s i 4) 29 25) i 0 20 true).1
  have hfreed := hwork.trans (htouch.ctxWork i)
  rw [releaseCtx_eq]
  refine ⟨?_, ?_, ?_, ?_, ?_⟩
  · exact (hfreed.trans (ctxWork_ctxPutW _ _ (by decide))).trans (ctxWork_countCtx ..)
  · rw [ctxState, ctxWord_countCtx, ctxWord_ctxPutW_self, fld_setFld_state _ (by decide)]
  · have hall : entriesGone s (procsReleased s (fld (ctxWord s i 4) 29 25) i (fun _ => true) 16) i (fld (ctxWord s i 4) 29 25) 0 (fun _ => True) :=
      entriesGone_congr (fun g hg => ⟨fun _ => trivial, fun _ => ⟨rfl, hg⟩⟩) hgone
    refine entriesGone_then_same (by decide) hall (fun b hb _ => ?_) fun r => ?_
    · rw [ctxByte_countCtx, ctxByte_ctxPutW_ne _ _ (.inr hb)]
      exact htouch.ctxByte i b
    · have hradio : (entriesFreed s i).radio = (procsReleased s (fld (ctxWord s i 4) 29 25) i (fun _ => true) 16).radio := by
        rw [htouch.frame]
      have hcount (p : Nat) (d : Int) (t : State) (w : Word) : hqUsed (countCtx (ctxPutW t i 4 w) p d) r = hqUsed t r := rfl
      rw [hcount, hqUsed, hradio]
      rfl
  · have hactive : (entriesFreed s i).cxs.active = s.cxs.active := by
      rw [htouch.frame]
      exact congrArg (fun x => x.active) hcxs
    rw [active_countCtx, ctxPutW_cxs, hactive]
    omega
  · have hcount (t : State) (p : Nat) (d : Int) : (countCtx t p d).cxs.swept = t.cxs.swept := rfl
    rw [hcount, ctxPutW_cxs, htouch.frame]
    exact congrArg (fun x => x.swept) hcxs

/-! ### CREATE (R440) -/

/-- Zero sectors for a context; sealed, since it is 64 touches long. -/
@[irreducible] def zeroSectors (s : State) (p i : Nat) : State := (List.range 64).foldl (fun s n => (touchSect s p i n false true).1) s

/-- The 65,536 bytes of external memory from `a` are zero. -/
def spanCleared (s : State) (a : Nat) : State :=
  { s with mem := { s.mem with ext := s.mem.ext.filter (fun e => !decide (a ≤ e.1 ∧ e.1 < a + 65536)) } }

/-- Every byte of a context is zero. -/
def ctxCleared (s : State) (p i : Nat) : State := spanCleared (zeroSectors s p i) (ctxAddr s i 0)

/-- The header of a context: its first words, the time of its last use, and RING_CTRL. -/
def headerPut (s : State) (i : Nat) (ctl gen ue ring : Word) : State :=
  ctxPutW (ctxPutW (ctxPutW (ctxPutW (ctxPutW s i 4 ctl) i 8 gen) i 0x0C ue) i 0x10 (ageNow s)) i 0x5900 ring

theorem createCtx_eq (s : State) (p i cell ue : Nat) (ring : Word) : createCtx s p i cell ue ring =
    countCtx (headerPut (ctxCleared s p i) i (w32 (2 ^ 30 + p * 2 ^ 25 + cell * 2 ^ 18 + i)) (ctxWord s i 8 + 1) (w32 ue) ring) p 1 := by
  have hage (t : State) (o : Nat) (w : Word) : ageNow (ctxPutW t i o w) = ageNow t := rfl
  unfold createCtx headerPut ctxCleared zeroSectors spanCleared
  simp only [hage]

section
variable {s : State} {i : Nat}

theorem cacheTouch_zeroSectors (s : State) (p i : Nat) : CacheTouch s (zeroSectors s p i) := by
  unfold zeroSectors
  exact List.foldlRecOn (motive := CacheTouch s) _ _ (.refl s) fun t ht n _ => ht.trans (cacheTouch_touchSect p i n false true (.inr rfl)).1

theorem mget_spanCleared (s : State) (a x : Nat) :
    mget 0 (spanCleared s a).mem.ext x = if a ≤ x ∧ x < a + 65536 then 0 else mget 0 s.mem.ext x := by
  have hread : mget 0 (spanCleared s a).mem.ext x =
      tget (fun _ => 0) (s.mem.ext.filter (fun e => !decide (a ≤ e.1 ∧ e.1 < a + 65536))) x := rfl
  rw [hread, tget_filter (fun _ => 0) (fun k => !decide (a ≤ k ∧ k < a + 65536))]
  by_cases hin : a ≤ x ∧ x < a + 65536
  · simp only [hin, and_self, decide_true, Bool.not_true, Bool.false_eq_true, if_false, if_true]
  · simp only [hin, decide_false, Bool.not_false, if_true, if_false, mget]

theorem ctxWork_spanCleared (s : State) (i : Nat) : CtxWork s (spanCleared s (ctxAddr s i 0)) i := by
  refine ⟨rfl, rfl, fun a ha => ?_, rfl, rfl⟩
  rw [mget_spanCleared, if_neg]
  unfold ctxAddr at ha ⊢
  omega

theorem ctxByte_spanCleared (s : State) (i : Nat) {b : Nat} (hb : b < 65536) : ctxByte (spanCleared s (ctxAddr s i 0)) i b = 0 := by
  have hbase (a : Nat) : ctxBase (spanCleared s a) = ctxBase s := rfl
  have haddr : ctxAddr (spanCleared s (ctxAddr s i 0)) i b = ctxAddr s i 0 + b := by
    unfold ctxAddr
    rw [hbase, Nat.add_zero]
  rw [ctxByte, haddr, mget_spanCleared, if_pos (by omega)]

theorem ctxCleared_eq (s : State) (p i : Nat) : ctxCleared s p i = spanCleared (zeroSectors s p i) (ctxAddr (zeroSectors s p i) i 0) := by
  unfold ctxCleared ctxAddr
  rw [(cacheTouch_zeroSectors s p i).ctxBase]

theorem ctxWork_ctxCleared (s : State) (p i : Nat) : CtxWork s (ctxCleared s p i) i := by
  rw [ctxCleared_eq]
  exact ((cacheTouch_zeroSectors s p i).ctxWork i).trans (ctxWork_spanCleared ..)

theorem ctxByte_ctxCleared (s : State) (p i : Nat) {b : Nat} (hb : b < 65536) : ctxByte (ctxCleared s p i) i b = 0 := by
  rw [ctxCleared_eq]
  exact ctxByte_spanCleared _ i hb

/-- Clearing leaves the radio and the contexts that are counted. -/
theorem ctxCleared_leaves (s : State) (p i : Nat) : (ctxCleared s p i).radio = s.radio ∧ (ctxCleared s p i).cxs.active = s.cxs.active := by
  have hspan (t : State) (a : Nat) : (spanCleared t a).radio = t.radio ∧ (spanCleared t a).cxs = t.cxs := ⟨rfl, rfl⟩
  unfold ctxCleared
  rw [(hspan _ _).1, (hspan _ _).2, (cacheTouch_zeroSectors s p i).frame]
  exact ⟨rfl, rfl⟩

theorem ctxWork_headerPut (s : State) (i : Nat) (ctl gen ue ring : Word) : CtxWork s (headerPut s i ctl gen ue ring) i := by
  have hput (t : State) (w : Word) {o : Nat} (ho : o + 4 ≤ 65536) := ctxWork_ctxPutW t (i := i) w ho
  unfold headerPut
  exact ((((hput s _ (by decide)).trans (hput _ _ (by decide))).trans (hput _ _ (by decide))).trans (hput _ _ (by decide))).trans (hput _ _ (by decide))

/-- The words of the header are those put there, and every other byte stays. -/
theorem headerPut_reads (s : State) (i : Nat) (ctl gen ue ring : Word) :
    ctxWord (headerPut s i ctl gen ue ring) i 4 = ctl ∧ ctxWord (headerPut s i ctl gen ue ring) i 8 = gen ∧
    ctxWord (headerPut s i ctl gen ue ring) i 0xC = ue ∧ ctxWord (headerPut s i ctl gen ue ring) i 0x10 = ageNow s ∧
    ctxWord (headerPut s i ctl gen ue ring) i 0x5900 = ring ∧
    ∀ b, b < 4 ∨ 0x14 ≤ b → b < 0x5900 ∨ 0x5904 ≤ b → ctxByte (headerPut s i ctl gen ue ring) i b = ctxByte s i b := by
  have hself (t : State) (o : Nat) (w : Word) := ctxWord_ctxPutW_self t i o w
  have hlow (t : State) (w : Word) {o o' : Nat} (h : o' + 4 ≤ o) : ctxWord (ctxPutW t i o w) i o' = ctxWord t i o' :=
    ctxWord_ctxPutW_ne t w (.inl h)
  unfold headerPut
  refine ⟨?_, ?_, ?_, ?_, hself .., fun b hhead hring => ?_⟩
  · rw [hlow _ _ (by decide), hlow _ _ (by decide), hlow _ _ (by decide), hlow _ _ (by decide), hself]
  · rw [hlow _ _ (by decide), hlow _ _ (by decide), hlow _ _ (by decide), hself]
  · rw [hlow _ _ (by decide), hlow _ _ (by decide), hself]
  · rw [hlow _ _ (by decide), hself]
  · rw [ctxByte_ctxPutW_ne _ _ hring, ctxByte_ctxPutW_ne _ _ (by omega), ctxByte_ctxPutW_ne _ _ (by omega), ctxByte_ctxPutW_ne _ _ (by omega),
      ctxByte_ctxPutW_ne _ _ (by omega)]

end

/-- Context `i` is ACTIVE for partition `p` with its header and RING_CTRL; every other byte of it is zero. -/
structure CtxCreated (s v : State) (p i : Nat) (ctl ue ring : Word) : Prop where
  work : CtxWork s v i
  radio : v.radio = s.radio
  ctl : ctxWord v i 4 = ctl
  gen : ctxWord v i 8 = ctxWord s i 8 + 1
  ue : ctxWord v i 0xC = ue
  lastUse : ctxWord v i 0x10 = ageNow s
  ring : ctxWord v i 0x5900 = ring
  zero : ∀ b, b < 65536 → b < 4 ∨ 0x14 ≤ b → b < 0x5900 ∨ 0x5904 ≤ b → ctxByte v i b = 0
  active : tgetD 0 v.cxs.active p = tgetD 0 s.cxs.active p + 1

theorem ctxCreated_createCtx (s : State) (p i cell ue : Nat) (ring : Word) :
    CtxCreated s (createCtx s p i cell ue ring) p i (w32 (2 ^ 30 + p * 2 ^ 25 + cell * 2 ^ 18 + i)) (w32 ue) ring := by
  obtain ⟨hctl, hgen, hue, huse, hring, hbytes⟩ := headerPut_reads (ctxCleared s p i) i (w32 (2 ^ 30 + p * 2 ^ 25 + cell * 2 ^ 18 + i))
    (ctxWord s i 8 + 1) (w32 ue) ring
  have hcleared := ctxWork_ctxCleared s p i
  obtain ⟨hradio, hactive⟩ := ctxCleared_leaves s p i
  have hput (t : State) (a g u r : Word) : (headerPut t i a g u r).cxs = t.cxs ∧ (headerPut t i a g u r).radio = t.radio := by
    simp only [headerPut, ctxPutW_cxs, ctxPutW_radio, and_self]
  have hcount (t : State) (d : Int) : (countCtx t p d).radio = t.radio := rfl
  rw [createCtx_eq]
  refine ⟨?_, ?_, ?_, ?_, ?_, ?_, ?_, fun b hb hhead hring' => ?_, ?_⟩
  · exact (hcleared.trans (ctxWork_headerPut ..)).trans (ctxWork_countCtx ..)
  · rw [hcount, (hput ..).2, hradio]
  · rw [ctxWord_countCtx, hctl]
  · rw [ctxWord_countCtx, hgen]
  · rw [ctxWord_countCtx, hue]
  · rw [ctxWord_countCtx, huse, hcleared.age]
  · rw [ctxWord_countCtx, hring]
  · rw [ctxByte_countCtx, hbytes b hhead hring', ctxByte_ctxCleared s p i hb]
  · rw [active_countCtx, (hput ..).1, hactive]
    omega

end Sys2Proof.Machine
end


section
/-! The host's context commands (13 R422, 14 R435, R440, R443). -/

namespace Sys2Proof.Machine

open Sys2Proof

section
variable {s : State} {p : Nat} {d : List Word}

/-! ### A command is denied, refused or carried out (R435, R440) -/

theorem deny_frame (s : State) (reason p : Nat) (unit : Word) (addr : Nat) (write : Bool) :
    deny s reason p unit addr write = { s with
      pg := (deny s reason p unit addr write).pg, safe := (deny s reason p unit addr write).safe, out := (deny s reason p unit addr write).out } := by
  obtain ⟨sf, htrig⟩ := trigger_frame s p 5
  have hlog (t : State) (r : ErrRec) : logRec t r = { t with pg := (logRec t r).pg, out := (logRec t r).out } := by
    unfold logRec
    split
    · rfl
    · obtain ⟨o, a, h⟩ := raise_eq (satRg { t with pg := { t.pg with dropped := t.pg.dropped + 1 } } SYS_ERR_LOST 0 0 1) 0 0 4
      rw [h]
      rfl
  have hraise (t : State) : raise t 8 0 3 = { t with pg := (raise t 8 0 3).pg, out := (raise t 8 0 3).out } := by
    obtain ⟨o, a, h⟩ := raise_eq t 8 0 3
    rw [h]
  unfold deny logErr
  rw [htrig, hraise, hlog]

theorem evt_deny (s : State) (reason p : Nat) (unit : Word) (addr : Nat) (write : Bool) : evtBit (deny s reason p unit addr write) 8 0 3 = true :=
  (denied_deny s reason p unit addr write).event

/-- The record of a denial names the requester and the address. -/
theorem recorded_deny (s : State) (reason p : Nat) (unit : Word) (addr : Nat) (write : Bool) :
    recorded s (deny s reason p unit addr write) (fun q => q.hdr = recHdr 0x15 reason 0 p ∧ q.w2 = w32 addr) := by
  intro hroom
  obtain ⟨sf, htrig⟩ := trigger_frame s p 5
  obtain ⟨r, hlog, hhdr, -, haddr, -⟩ := logErr_room (s := { s with safe := sf }) (Nat.lt_trans hroom (by decide)) 0x15 reason 0 p unit
    (w32 addr) (w32 (b2n write * 2 ^ 31 + addr / 2 ^ 32 % 256)) 0 0
  refine ⟨r, ?_, hhdr, haddr⟩
  unfold deny
  rw [htrig, raise_pg_ering, hlog]
  exact List.mem_append_right _ (List.mem_singleton_self r)

/-- A context of a block that the requester does not own is denied, and the denial is logged (R435). -/
theorem ctxCmd_denied (hd : tgetD [] s.host.picked p = [d]) {write : Bool} {no : Nat → Bool} {f : Nat → State → State × Nat}
    (h : ctxOwner s (fld (wd d 3) 17 0) ≠ some p) : ∃ v, answered v (dropDesc (ctxCmd s p d write no f) p) p d 3 0 0 ∧
      v = { s with pg := v.pg, safe := v.safe, out := v.out } ∧ evtBit v 8 0 3 = true ∧
      recorded s v (fun q => q.hdr = recHdr 0x15 5 0 p ∧ q.w2 = w32 (fld (wd d 3) 17 0)) := by
  have hcmd : ctxCmd s p d write no f = cmdRec (deny s 5 p (hostHandle s) (fld (wd d 3) 17 0) write) p d 3 0 0 := if_pos h
  refine ⟨deny s 5 p (hostHandle s) (fld (wd d 3) 17 0) write, ?_, deny_frame .., evt_deny .., recorded_deny _ _ _ _ _ _⟩
  rw [hcmd]
  refine answered_cmdRec ?_
  rw [deny_frame]
  exact hd

theorem ctxCmd_refused (hd : tgetD [] s.host.picked p = [d]) {write : Bool} {no : Nat → Bool} {f : Nat → State → State × Nat}
    (h : ctxOwner s (fld (wd d 3) 17 0) = some p) (hno : no (fld (wd d 3) 17 0) = true) :
    answered s (dropDesc (ctxCmd s p d write no f) p) p d 3 0 0 := by
  have hcmd : ctxCmd s p d write no f = cmdRec s p d 3 0 0 := (if_neg (not_not.2 h)).trans (if_pos hno)
  rw [hcmd]
  exact answered_cmdRec hd

theorem ctxCmd_carried (hd : tgetD [] s.host.picked p = [d]) {write : Bool} {no : Nat → Bool} {f : Nat → State → State × Nat} {v : State} {st : Nat}
    (h : ctxOwner s (fld (wd d 3) 17 0) = some p) (hno : no (fld (wd d 3) 17 0) = false) (hf : f (fld (wd d 3) 17 0) s = (v, st))
    (hhost : v.host = s.host) : answered v (dropDesc (ctxCmd s p d write no f) p) p d st 0 0 := by
  have hcmd : ctxCmd s p d write no f = cmdRec v p d st 0 0 := by
    unfold ctxCmd
    simp only [h, hno, hf, ne_eq, not_true, if_false, Bool.false_eq_true]
  rw [hcmd]
  exact answered_cmdRec (by rw [hhost]; exact hd)

/-! ### The rows whose fields are good -/

theorem exec_ctxCreate (h : hasDesc s p 0x20 d) (hindex : indexOk d = true) (hzero : zeroWords d 7 30 = true) (hcell : (wd d 4).toNat < 96)
    (hue : (wd d 5).toNat < 65536) (hring : (wd d 6).toNat < 65536) (hsize : 1 ≤ (wd d 6).toNat / 256) (hcount : 1 ≤ (wd d 6).toNat % 256)
    (hmax : (wd d 6).toNat % 256 ≤ 64) : exec (.ctxCreate p) s = .next (dropDesc (ctxCmd s p d true (fun i => decide (ctxState s i ≠ 0)) (fun i s =>
      (createCtx s p i (wd d 4).toNat (wd d 5).toNat (w32 ((wd d 6).toNat / 256 * 2 ^ 24 + (wd d 6).toNat % 256 * 2 ^ 16)), 0))) p) := by
  have hhigh : fld (wd d 6) 15 8 = (wd d 6).toNat / 256 := by
    unfold fld
    omega
  have hlow : fld (wd d 6) 7 0 = (wd d 6).toNat % 256 := by
    unfold fld
    omega
  have hgood : (wd d 4).toNat < Config.cells ∧ (wd d 5).toNat < 65536 ∧ (wd d 6).toNat < 65536 ∧ 1 ≤ (wd d 6).toNat / 256 ∧
      1 ≤ (wd d 6).toNat % 256 ∧ (wd d 6).toNat % 256 ≤ 64 := ⟨hcell, hue, hring, hsize, hcount, hmax⟩
  have hexec : exec (.ctxCreate p) s = execCtxCreate p s := rfl
  rw [hexec, execCtxCreate, hostCmd_single h]
  simp only [hindex, hzero, hhigh, hlow, decide_eq_true hgood, Bool.not_true, Bool.or_self, Bool.false_eq_true, if_false]

theorem exec_ctxRelease (h : hasDesc s p 0x21 d) (hindex : indexOk d = true) (hzero : zeroWords d 4 30 = true) :
    exec (.ctxRelease p) s = .next (dropDesc (ctxCmd s p d true (fun i => decide (ctxState s i = 0)) (fun i s => (releaseCtx s i, 0))) p) := by
  have hexec : exec (.ctxRelease p) s = execCtxRelease p s := rfl
  rw [hexec, execCtxRelease, hostCmd_single h]
  simp only [hindex, hzero, Bool.not_true, Bool.or_self, Bool.false_eq_true, if_false]

theorem exec_ctxRead (h : hasDesc s p 0x22 d) (hindex : indexOk d = true) (hzero : zeroWords d 7 30 = true) (hhost : mayWriteHost s p = true)
    (hn : fld (wd d 4) 15 0 * 64 ≠ 0) (hend : fld (wd d 4) 31 16 * 64 + fld (wd d 4) 15 0 * 64 ≤ 65536) :
    exec (.ctxRead p) s = .next (dropDesc (ctxCmd s p d false (fun i => decide (ctxState s i = 0)) (fun i s =>
      let r := touchCtx s p i (fld (wd d 4) 31 16 * 64) (fld (wd d 4) 15 0 * 64) false
      if r.2 then (r.1, 1) else (hostWrite r.1 (addr64 (wd d 5) (wd d 6)) (ctxBytes r.1 i (fld (wd d 4) 31 16 * 64) (fld (wd d 4) 15 0 * 64)), 0))) p) := by
  have hrange : ¬ (fld (wd d 4) 15 0 = 0 ∨ 1024 < fld (wd d 4) 31 16 + fld (wd d 4) 15 0) := by omega
  have hexec : exec (.ctxRead p) s = execCtxRead p s := rfl
  rw [hexec, execCtxRead, hostCmd_single h]
  simp only [hindex, hzero, hhost, decide_eq_false hrange, Bool.not_true, Bool.or_self, Bool.false_eq_true, if_false]

theorem exec_harqRel (h : hasDesc s p 0x23 d) (hindex : indexOk d = true) (hzero : zeroWords d 5 30 = true) (hmask : (wd d 4).toNat < 65536) :
    exec (.harqRel p) s = .next (dropDesc (ctxCmd s p d true (fun i => decide (ctxState s i = 0)) (fun i s =>
      (procsReleased s p i (bit (wd d 4)) 16, 0))) p) := by
  have hexec : exec (.harqRel p) s = execHarqRel p s := rfl
  rw [hexec, execHarqRel, hostCmd_single h]
  simp only [hindex, hzero, decide_eq_false (Nat.not_le.2 hmask), Bool.not_true, Bool.or_self, Bool.false_eq_true, if_false]
  rfl

/-! ### What the rows do (R422, R440, R443) -/

/-- READ copies the bytes as they stand; the cache alone has been touched. -/
theorem ctxRead_carried (hd : tgetD [] s.host.picked p = [d]) (hclean : s.mem.ue = []) (howner : ctxOwner s (fld (wd d 3) 17 0) = some p)
    (hlive : ctxState s (fld (wd d 3) 17 0) ≠ 0) (off n a : Nat) :
    ∃ v, v = { s with cxs := v.cxs, pg := v.pg } ∧ answered (hostWrite v a (ctxBytes s (fld (wd d 3) 17 0) off n))
      (dropDesc (ctxCmd s p d false (fun i => decide (ctxState s i = 0)) (fun i s =>
        let r := touchCtx s p i off n false
        if r.2 then (r.1, 1) else (hostWrite r.1 a (ctxBytes r.1 i off n), 0))) p) p d 0 0 0 := by
  obtain ⟨htouch, hbad⟩ := cacheTouch_touchCtx hclean p (fld (wd d 3) 17 0) off n false
  have hbytes : ctxBytes (touchCtx s p (fld (wd d 3) 17 0) off n false).1 (fld (wd d 3) 17 0) off n = ctxBytes s (fld (wd d 3) 17 0) off n := by
    unfold ctxBytes extRead ctxAddr
    rw [htouch.mem, htouch.ctxBase]
  refine ⟨(touchCtx s p (fld (wd d 3) 17 0) off n false).1, ?_, ctxCmd_carried hd howner (decide_eq_false hlive) ?_ ?_⟩
  · rw [htouch.frame]
  · simp only [hbad, hbytes, Bool.false_eq_true, if_false]
  · have hwrite (t : State) (bs : List Byte) : (hostWrite t a bs).host = t.host := rfl
    rw [hwrite, htouch.frame]

end

end Sys2Proof.Machine
end


section
/-! Context updates (14 R445, R446) and the sweep (14 R441). -/

namespace Sys2Proof.Machine

open Sys2Proof

/-! ### Writes to a context -/

/-- Work on context `i` that leaves the pools. -/
structure CtxWrite (s t : State) (i : Nat) : Prop where
  work : CtxWork s t i
  radio : t.radio = s.radio

section
variable {s t u : State} {i p : Nat}

theorem CtxWrite.trans (h : CtxWrite s t i) (h' : CtxWrite t u i) : CtxWrite s u i := ⟨h.work.trans h'.work, h'.radio.trans h.radio⟩

theorem CtxWrite.frame (h : CtxWrite s t i) : t = { s with mem := { s.mem with ext := t.mem.ext }, cxs := t.cxs, pg := t.pg } := by
  have hframe := h.work.frame
  rw [h.radio] at hframe
  exact hframe

theorem CacheTouch.ctxWrite (h : CacheTouch s t) (i : Nat) : CtxWrite s t i := ⟨h.ctxWork i, by rw [h.frame]⟩

theorem ctxWrite_ctxPutW (s : State) {o : Nat} (w : Word) (h : o + 4 ≤ 65536) : CtxWrite s (ctxPutW s i o w) i := ⟨ctxWork_ctxPutW s w h, rfl⟩

theorem ctxWrite_ctxUse (s : State) (i : Nat) : CtxWrite s (ctxUse s i) i := ⟨ctxWork_ctxUse s i, by rw [ctxUse_frame]⟩

/-! ### Segments of an update (R445) -/

variable {d : CopyDesc} {segs : List (Nat × Nat)}

/-- One segment of an update is written. -/
def segPut (s : State) (p i : Nat) (d : CopyDesc) (off o n : Nat) : State :=
  ctxPut (touchCtx s p i o n true).1 i o (mread 0 d.staged off n)

theorem priorWrite_of_idle (h : s.trace.run = none) (j : Nat) (ctx : Bool) (base a n : Nat) : priorWrite s j ctx base a n = s := by
  unfold priorWrite
  rw [h]

theorem ctxWrite_segPut (hclean : s.mem.ue = []) (p : Nat) (d : CopyDesc) {off o n : Nat} (h : o + n ≤ 65536) : CtxWrite s (segPut s p i d off o n) i :=
  ((cacheTouch_touchCtx hclean p i o n true).1.ctxWrite i).trans ⟨ctxWork_ctxPut _ (by rw [mread_length]; exact h), rfl⟩

theorem ctxByte_segPut (hclean : s.mem.ue = []) (p i : Nat) (d : CopyDesc) (off o n b : Nat) : ctxByte (segPut s p i d off o n) i b =
    if o ≤ b ∧ b < o + n then mget 0 d.staged (off + (b - o)) else ctxByte s i b := by
  rw [segPut, ctxByte_ctxPut, mread_length, (cacheTouch_touchCtx hclean p i o n true).1.ctxByte]
  exact ite_congr rfl (fun h => getD_mread _ _ _ _ (by omega)) (fun _ => rfl)

theorem updApply_cons (hclean : s.mem.ue = []) (hidle : s.trace.run = none) (p : Nat) (d : CopyDesc) (off : Nat) {o n : Nat} (h : o + n ≤ 65536)
    (segs : List (Nat × Nat)) : updApply s p i d off ((o, n) :: segs) = updApply (segPut s p i d off o n) p i d (off + n) segs := by
  have htrace : (segPut s p i d off o n).trace.run = none := by
    rw [(ctxWrite_segPut hclean p d h).frame]
    exact hidle
  have hcons : updApply s p i d off ((o, n) :: segs) = updApply (priorWrite (segPut s p i d off o n) d.ins.job true
      (ctxBase (segPut s p i d off o n)) (ctxAddr (segPut s p i d off o n) i o) n) p i d (off + n) segs := rfl
  rw [hcons, priorWrite_of_idle htrace]

/-- Two ranges that do not meet have no place in common. -/
theorem outside_of_overlap_false {a n b m j : Nat} (h : overlap a n b m = false) (hj : j < n) : a + j < b ∨ b + m ≤ a + j := by
  unfold overlap at h
  simp only [Bool.and_eq_false_iff, decide_eq_false_iff_not] at h
  omega

/-- The segments are written with what was staged, one after the other; every other byte of the context stays. -/
structure SegsWritten (s t : State) (i : Nat) (d : CopyDesc) (off : Nat) (segs : List (Nat × Nat)) : Prop where
  write : CtxWrite s t i
  outside : ∀ b, (∀ x ∈ segs, b < x.1 ∨ x.1 + x.2 ≤ b) → ctxByte t i b = ctxByte s i b
  inside : disjoint segs = true → ∀ k x, segs[k]? = some x → ∀ n, n < x.2 →
    ctxByte t i (x.1 + n) = mget 0 d.staged (off + ((segs.take k).map (fun z => z.2)).sum + n)

theorem segsWritten_updApply (p : Nat) (hin : ∀ x ∈ segs, x.1 + x.2 ≤ 65536) (off : Nat) (hclean : s.mem.ue = []) (hidle : s.trace.run = none) :
    SegsWritten s (updApply s p i d off segs) i d off segs := by
  induction segs generalizing s off with
  | nil => exact ⟨⟨.refl s i, rfl⟩, fun _ _ => rfl, fun _ k x hx => by simp at hx⟩
  | cons r segs ih =>
    obtain ⟨o, n⟩ := r
    have hr : o + n ≤ 65536 := hin (o, n) List.mem_cons_self
    have hput := ctxWrite_segPut hclean p d (i := i) (off := off) hr
    have hbyte := ctxByte_segPut hclean p i d off o n
    have hidle' : (segPut s p i d off o n).trace.run = none := by
      rw [hput.frame]
      exact hidle
    obtain ⟨hwrite, hout, hinside⟩ := ih (fun x hx => hin x (List.mem_cons_of_mem _ hx)) (off + n) (hput.work.clean hclean) hidle'
    rw [updApply_cons hclean hidle p d off hr]
    refine ⟨hput.trans hwrite, fun b hb => ?_, fun hdisj k x hx m hm => ?_⟩
    · have hhead := hb (o, n) List.mem_cons_self
      rw [hout b fun x hx => hb x (List.mem_cons_of_mem _ hx), hbyte, if_neg (by omega)]
    · rw [disjoint, Bool.and_eq_true, List.all_eq_true] at hdisj
      obtain ⟨hfirst, hrest⟩ := hdisj
      cases k with
      | zero =>
        obtain rfl : (o, n) = x := Option.some.inj hx
        rw [hout _ fun y hy => outside_of_overlap_false (Bool.not_eq_true' _ ▸ hfirst y hy) hm, hbyte, if_pos (by omega), Nat.add_sub_cancel_left]
        rfl
      | succ k =>
        rw [hinside hrest k x hx m hm, List.take_succ_cons, List.map_cons, List.sum_cons, Nat.add_assoc off]

/-- The segments of a well-formed update lie behind the header and do not meet. -/
theorem updSegs_of_updOk {ws b : List Word} (h : updOk ws b = true) :
    disjoint (updSegs b) = true ∧ ∀ x ∈ updSegs b, 0x14 ≤ x.1 ∧ x.1 + x.2 ≤ 65536 := by
  unfold updOk at h
  simp only [Bool.and_eq_true, List.all_eq_true, decide_eq_true_eq] at h
  obtain ⟨⟨-, hdisj⟩, hsegs⟩ := h
  refine ⟨hdisj, fun x hx => ?_⟩
  obtain ⟨⟨⟨-, -, hend⟩, hstart⟩, -⟩ := hsegs x hx
  exact ⟨hstart, hend⟩

/-- A context that an update finds is ACTIVE or AGED (R446). -/
theorem ctxState_of_updStale_false {b : List Word} (h : updStale s i b = false) : ctxState s i = 1 ∨ ctxState s i = 2 := by
  unfold updStale at h
  simp only [Bool.or_eq_false_iff, decide_eq_false_iff_not, not_or] at h
  obtain ⟨⟨hstate, -⟩, -⟩ := h
  have hlt : ctxState s i < 4 := Nat.mod_lt _ (by decide)
  omega

/-! ### An update is applied, discarded or skipped (R445, R446) -/

variable {e : Nat} {q : CopyDesc}

/-- The update's descriptor has acted. -/
def updActed (s : State) (e : Nat) (q : CopyDesc) : State := modDesc s e q.serial (fun x => { x with acted := true, staged := [] })

theorem engOf_updActed (s : State) (e : Nat) (q : CopyDesc) : engOf (updActed s e q) e =
    { engOf s e with q := stepped (engOf s e).q q (fun x => { x with acted := true, staged := [] }) } :=
  (takenUp_modDesc s e q _).2.2

theorem updActed_frame (s : State) (e : Nat) (q : CopyDesc) : updActed s e q = { s with eng := (updActed s e q).eng } := rfl

theorem exec_contextUpdate (hfind : (engOf s e).q.find? (fun q => !isPod q.ins.words && decide (q.dst.1 = 0xB) && allStarted q && !q.skipped && !q.acted) = some q)
    (hslot : slotFree s q.lastRun = true) (hread : ctxReading s (q.dst.2 / 65536) = false) :
    exec (.contextUpdate e) s = .next (applyUpdate s e q) := by
  have hexec : exec (.contextUpdate e) s = execContextUpdate e s := rfl
  rw [hexec, execContextUpdate, hfind]
  simp only [hslot, hread, Bool.not_true, Bool.or_self, Bool.false_eq_true, if_false]

/-- A discarded update is counted for the cell of its context. -/
theorem applyUpdate_stale (hok : updOk q.ins.words (updBlock q) = true) (hstale : updStale s (q.dst.2 / 65536) (updBlock q) = true) :
    applyUpdate s e q = raise (satRg (updActed s e q) CXS_PRED_STALE 0 (fld (ctxWord s (q.dst.2 / 65536) 4) 24 18) 1) 6 0 1 := by
  have hstale' : updStale (modDesc s e q.serial (fun q => { q with acted := true, staged := [] })) (q.dst.2 / 65536) (updBlock q) = true := hstale
  unfold applyUpdate
  simp only [hok, hstale', Bool.not_true, Bool.false_eq_true, if_false, if_true]
  rfl

/-- The state in which the segments of an update are written: its sequence number has gone up. -/
def updBegun (s : State) (e : Nat) (q : CopyDesc) (i : Nat) : State :=
  let t := (touchCtx (updActed s e q) q.part i 0 20 true).1
  ctxPutW t i 0 (ctxWord t i 0 + 2)

theorem applyUpdate_fresh (hok : updOk q.ins.words (updBlock q) = true) (hfresh : updStale s (q.dst.2 / 65536) (updBlock q) = false) :
    applyUpdate s e q = ctxUse (updApply (updBegun s e q (q.dst.2 / 65536)) q.part (q.dst.2 / 65536) q 128 (updSegs (updBlock q))) (q.dst.2 / 65536) := by
  have hfresh' : updStale (modDesc s e q.serial (fun q => { q with acted := true, staged := [] })) (q.dst.2 / 65536) (updBlock q) = false := hfresh
  unfold applyUpdate
  simp only [hok, hfresh', Bool.not_true, Bool.false_eq_true, if_false]
  rfl

/-- The state once an update has gone in: its header, its segments, and all other bytes of context `i`. -/
structure Updated (s u : State) (i : Nat) (d : CopyDesc) (segs : List (Nat × Nat)) : Prop where
  write : CtxWrite s u i
  seq : ctxWord u i 0 = ctxWord s i 0 + 2
  gen : ctxWord u i 8 = ctxWord s i 8
  active : ctxState u i = 1
  lastUse : ctxWord u i 0x10 = ageNow s
  inside : ∀ k x, segs[k]? = some x → ∀ n, n < x.2 → ctxByte u i (x.1 + n) = mget 0 d.staged (128 + ((segs.take k).map (fun z => z.2)).sum + n)
  outside : ∀ n, 0x14 ≤ n → (∀ x ∈ segs, n < x.1 ∨ x.1 + x.2 ≤ n) → ctxByte u i n = ctxByte s i n

theorem updated_applyUpdate (hclean : s.mem.ue = []) (hidle : s.trace.run = none) (hok : updOk q.ins.words (updBlock q) = true)
    (hfresh : updStale s (q.dst.2 / 65536) (updBlock q) = false) :
    Updated (updActed s e q) (applyUpdate s e q) (q.dst.2 / 65536) q (updSegs (updBlock q)) := by
  obtain ⟨i, hi⟩ : ∃ i, i = q.dst.2 / 65536 := ⟨_, rfl⟩
  obtain ⟨hdisj, hsegs⟩ := updSegs_of_updOk hok
  have hstate : ctxState (updActed s e q) i = 1 ∨ ctxState (updActed s e q) i = 2 := by
    rw [hi]
    exact ctxState_of_updStale_false hfresh
  rw [applyUpdate_fresh hok hfresh, ← hi]
  obtain ⟨m, hm⟩ : ∃ m, m = updActed s e q := ⟨_, rfl⟩
  have hmclean : m.mem.ue = [] := by
    rw [hm]
    exact hclean
  have hmidle : m.trace.run = none := by
    rw [hm]
    exact hidle
  obtain ⟨htouch, -⟩ := cacheTouch_touchCtx hmclean q.part i 0 20 true
  have hbegun : updBegun s e q i = ctxPutW (touchCtx m q.part i 0 20 true).1 i 0 (ctxWord m i 0 + 2) := by
    rw [← htouch.ctxWord, hm]
    rfl
  rw [← hm] at hstate ⊢
  rw [hbegun]
  obtain ⟨t, ht⟩ : ∃ t, t = (touchCtx m q.part i 0 20 true).1 := ⟨_, rfl⟩
  rw [← ht] at htouch ⊢
  have hwrite : CtxWrite m (ctxPutW t i 0 (ctxWord m i 0 + 2)) i := (htouch.ctxWrite i).trans (ctxWrite_ctxPutW _ _ (by decide))
  have hidle' : (ctxPutW t i 0 (ctxWord m i 0 + 2)).trace.run = none := by
    rw [hwrite.frame]
    exact hmidle
  obtain ⟨happly, hout, hinside⟩ := segsWritten_updApply (i := i) (d := q) q.part (fun x hx => (hsegs x hx).2) 128 (hwrite.work.clean hmclean) hidle'
  obtain ⟨w, hw⟩ : ∃ w, w = updApply (ctxPutW t i 0 (ctxWord m i 0 + 2)) q.part i q 128 (updSegs (updBlock q)) := ⟨_, rfl⟩
  rw [← hw] at happly hout hinside ⊢
  have hhead {b : Nat} (hb : b < 0x14) : ctxByte w i b = ctxByte (ctxPutW t i 0 (ctxWord m i 0 + 2)) i b :=
    hout b fun x hx => .inl (Nat.lt_of_lt_of_le hb (hsegs x hx).1)
  have hword {o : Nat} (ho : 4 ≤ o) (ho' : o + 4 ≤ 0x14) : ctxWord w i o = ctxWord m i o :=
    (ctxWord_of_bytes fun j hj => hhead (by omega)).trans ((ctxWord_ctxPutW_ne _ _ (.inr ho)).trans (htouch.ctxWord i o))
  have huse {o : Nat} (h : o + 4 ≤ 4 ∨ 8 ≤ o) (h' : o + 4 ≤ 0x10) : ctxWord (ctxUse w i) i o = ctxWord w i o :=
    ctxWord_of_bytes fun j hj => ctxByte_ctxUse (by omega) (by omega)
  have hactive : ctxState w i = 1 ∨ ctxState w i = 2 := by
    rw [ctxState_congr (hword (by decide) (by decide))]
    exact hstate
  refine ⟨(hwrite.trans happly).trans (ctxWrite_ctxUse w i), ?_, ?_, ctxState_ctxUse hactive, ?_, fun k x hx n hn => ?_, fun n hn hno => ?_⟩
  · rw [huse (.inl (by decide)) (by decide), ctxWord_of_bytes fun j hj => hhead (b := 0 + j) (by omega), ctxWord_ctxPutW_self]
  · rw [huse (.inr (by decide)) (by decide), hword (by decide) (by decide)]
  · rw [lastUse_ctxUse, happly.work.age, hwrite.work.age]
  · have hstart := (hsegs x (List.mem_of_getElem? hx)).1
    rw [ctxByte_ctxUse (by omega) (by omega), hinside hdisj k x hx n hn]
  · rw [ctxByte_ctxUse (by omega) (by omega), hout n hno, ctxByte_ctxPutW_ne _ _ (by omega), htouch.ctxByte]

/-- What a discarded update leaves: the descriptor has acted, the cell's counter has gone up, and the event is raised. -/
theorem staleNoted_spec (s : State) (e : Nat) (q : CopyDesc) {k : Nat} (hk : k < 128) :
    let u := raise (satRg (updActed s e q) CXS_PRED_STALE 0 k 1) 6 0 1
    engOf u e = { engOf s e with q := stepped (engOf s e).q q (fun x => { x with acted := true, staged := [] }) } ∧
      u = { s with eng := u.eng, pg := u.pg, out := u.out } ∧ evtBit u 6 0 1 = true ∧
      rg u CXS_PRED_STALE 0 k = satAdd (rg s CXS_PRED_STALE 0 k) 1 := by
  have hkey {r : Nat} (hr : r ≤ 0x603F) : rkey CXS_PRED_STALE 0 k ≠ rkey r 0 0 := by
    unfold rkey CXS_PRED_STALE
    omega
  obtain ⟨o, a, hraise⟩ := raise_eq (satRg (updActed s e q) CXS_PRED_STALE 0 k 1) 6 0 1
  refine ⟨?_, ?_, ?_, ?_⟩
  · rw [engOf, raise_eng, satRg_eng]
    exact engOf_updActed s e q
  · rw [hraise]
    rfl
  · rw [evtBit, rg_raise, if_pos rfl]
    exact bit_or_bitW _ (by decide)
  · rw [rg_raise, if_neg (hkey (by decide)), if_neg (hkey (by decide)), satRg, rg_setRg_self]
    rfl

/-- What is written to the context leaves the engine's queue as it was acted on. -/
theorem updActed_then_write (h : CtxWrite (updActed s e q) u i) :
    engOf u e = { engOf s e with q := stepped (engOf s e).q q (fun x => { x with acted := true, staged := [] }) } ∧
      u = { s with eng := u.eng, cxs := u.cxs, mem := { s.mem with ext := u.mem.ext }, pg := u.pg } := by
  have hframe := h.frame
  rw [updActed_frame] at hframe
  refine ⟨?_, ?_⟩
  · have heng : u.eng = (updActed s e q).eng := by rw [hframe]
    rw [engOf, heng]
    exact engOf_updActed s e q
  · rw [hframe]

/-! ### A malformed update is skipped (R445) -/

/-- A skip logs one record, and may change jobs and clusters. -/
theorem skipRec_frame (s : State) (j reason source : Nat) (unit : Word) (off tag : Nat) (idxs : List Nat) (c : Option Nat) :
    ∃ k w2 w3 w5 dp cl, skipRec s j reason source unit off tag idxs c =
      { logErr s 0x11 reason source k unit w2 w3 (w32 off) w5 with disp := dp, cl := cl } := by
  cases hjob : job? s j with
  | some y =>
    obtain ⟨w, y', cl, h, -⟩ := skipRec_items_eq hjob reason source unit off tag idxs c
    exact ⟨_, _, _, _, _, _, h⟩
  | none =>
    unfold skipRec
    simp only [hjob]
    unfold markItems
    rw [job_logErr, hjob]
    exact ⟨_, _, _, _, _, _, rfl⟩

/-- A skipped descriptor leaves memory and the context store, and raises the event of its engine. -/
theorem skipDesc_leaves {s : State} {e r : Nat} {d : CopyDesc} (hr : r ≠ 0x1C) : (skipDesc s e d r 3).mem = s.mem ∧
    (skipDesc s e d r 3).cxs = s.cxs ∧ bit (engReg (skipDesc s e d r 3) e HDR_EVT) 0 = true := by
  obtain ⟨k, w2, w3, w5, dp, cl, hskip⟩ := skipRec_frame (engEvt s e 0) d.ins.job r 3 (engUnit (engEvt s e 0) e) d.ins.off (copyTag d.ins.words)
    (copyItems d.ins.words) (if e < 18 then some e else none)
  have hdesc : skipDesc s e d r 3 = modDesc (skipRec (engEvt s e 0) d.ins.job r 3 (engUnit (engEvt s e 0) e) d.ins.off (copyTag d.ins.words)
      (copyItems d.ins.words) (if e < 18 then some e else none)) e d.serial (fun q => { q with started := true, skipped := true }) := by
    unfold skipDesc
    simp only [if_neg hr]
  have hmod (t : State) (f : CopyDesc → CopyDesc) : (modDesc t e d.serial f).mem = t.mem ∧ (modDesc t e d.serial f).cxs = t.cxs ∧
      (modDesc t e d.serial f).pg = t.pg := ⟨rfl, rfl, rfl⟩
  obtain ⟨hmem, hcxs, hpg⟩ := hmod (skipRec (engEvt s e 0) d.ins.job r 3 (engUnit (engEvt s e 0) e) d.ins.off (copyTag d.ins.words)
    (copyItems d.ins.words) (if e < 18 then some e else none)) (fun q => { q with started := true, skipped := true })
  rw [← hdesc, hskip] at hmem hcxs hpg
  refine ⟨hmem.trans ?_, hcxs.trans ?_, ?_⟩
  · exact (logErr_mem ..).trans (raise_mem ..)
  · exact (logErr_cxs ..).trans (raise_cxs ..)
  · have hcode := engPage_code e
    have hreg : engReg (skipDesc s e d r 3) e HDR_EVT =
        engReg (logErr (engEvt s e 0) 0x11 r 3 k (engUnit (engEvt s e 0) e) w2 w3 (w32 d.ins.off) w5) e HDR_EVT := rg_congr hpg ..
    have hlog := rg_logErr (engEvt s e 0) 0x11 r 3 k (engUnit (engEvt s e 0) e) w2 w3 (w32 d.ins.off) w5
      ((engPage e).1 * 4096 + HDR_EVT) (engPage e).2 0 (by omega)
    rw [hreg, engReg, hlog]
    exact evt_engEvt s e

theorem applyUpdate_malformed (hbad : updOk q.ins.words (updBlock q) = false) : applyUpdate s e q = skipDesc s e q 0x1D 3 := by
  unfold applyUpdate
  simp only [hbad, Bool.not_false, if_true]

end

end Sys2Proof.Machine
end


section
/-! The ageing sweep (14 R441). -/

namespace Sys2Proof.Machine

open Sys2Proof

section
variable {s t : State} {c : Nat}

/-- A context that the sweep finds lies in the context store. -/
theorem lt_of_mem_liveCtxs (h : c ∈ liveCtxs s) : c < 2 ^ 31 := by
  unfold liveCtxs at h
  obtain ⟨hmem, -⟩ := List.mem_filter.1 h
  obtain ⟨e, -, he⟩ := List.mem_filterMap.1 (List.mem_eraseDups.1 hmem)
  split at he
  · rename_i hin
    obtain rfl := Option.some.inj he
    omega
  · cases he

/-- The sweep of this frame has begun. -/
def sweepNoted (s : State) : State := { s with cxs := { s.cxs with swept := frameCnt s } }

theorem exec_ageSweep_early (h : (frameCnt s + 2 ^ 32 - s.cxs.swept) % 2 ^ 32 < 256) : exec .ageSweep s = .next s :=
  congrArg Host.Outcome.next (if_pos h)

theorem exec_ageSweep_single (h : 256 ≤ (frameCnt s + 2 ^ 32 - s.cxs.swept) % 2 ^ 32) (hlive : liveCtxs s = [c]) :
    exec .ageSweep s = .next (ageOne (sweepNoted s) c) := by
  have hexec : exec .ageSweep s = .next ((liveCtxs s).foldl ageOne (sweepNoted s)) := congrArg Host.Outcome.next (if_neg (Nat.not_lt.2 h))
  rw [hexec, hlive]
  rfl

/-- An ACTIVE context is over-age when the limit of its partition has passed since its last use. -/
def OverAge (s : State) (c : Nat) : Prop :=
  ctxState s c = 1 ∧ fld (rg s CXS_PART_CTX 0 (fld (ctxWord s c 4) 29 25)) 23 0 ≠ 0 ∧
    fld (rg s CXS_PART_CTX 0 (fld (ctxWord s c 4) 29 25)) 23 0 < (ageNow s - ctxWord s c 0x10).toNat

theorem ageOne_young (h : ¬ OverAge s c) : ageOne s c = s := by
  refine if_pos ?_
  by_contra hold
  simp only [not_or, not_not, Nat.not_le] at hold
  exact h hold

/-- What becomes of an over-age context: it is released, or AGED. -/
def agedOut (s : State) (c : Nat) : State :=
  if bit (rg s CXS_PART_CTX 0 (fld (ctxWord s c 4) 29 25)) 31 then releaseCtx s c else ctxPutW s c 4 (setFld (ctxWord s c 4) 31 30 2)

/-- The index of the context is shown, and the event of the context store raised. -/
def agedNoted (s : State) (c : Nat) : State := raise (setRg s CXS_AGED_IDX 0 0 (w32 (2 ^ 31 + c))) 6 0 2

theorem ageOne_old (h : OverAge s c) : ageOne s c = agedNoted (agedOut s c) c := by
  obtain ⟨hstate, hlim, hage⟩ := h
  refine if_neg ?_
  rintro (hno | hno | hno)
  · exact hno hstate
  · exact hlim hno
  · exact Nat.not_le.2 hage hno

theorem rg_agedNoted {r : Nat} (hevt : r ≠ 6 * 4096 + HDR_EVT) (hcount : r ≠ 6 * 4096 + HDR_EVT_COUNT) (hidx : r ≠ CXS_AGED_IDX) (s : State) (c : Nat) :
    rg (agedNoted s c) r 0 0 = rg s r 0 0 := by
  have hne {r' : Nat} (h : r ≠ r') : rkey r 0 0 ≠ rkey r' 0 0 := by
    unfold rkey
    omega
  rw [agedNoted, rg_raise, if_neg (hne hevt), if_neg (hne hcount), rg_setRg_ne _ _ (hne hidx)]

theorem ctxBase_agedNoted (s : State) (c : Nat) : ctxBase (agedNoted s c) = ctxBase s := by
  unfold ctxBase
  rw [rg_agedNoted (by decide) (by decide) (by decide), rg_agedNoted (by decide) (by decide) (by decide)]

theorem ctxByte_agedNoted (s : State) (c i b : Nat) : ctxByte (agedNoted s c) i b = ctxByte s i b :=
  ctxByte_congr (by rw [agedNoted, raise_mem, setRg_mem]) (ctxBase_agedNoted s c) i b

theorem ctxWord_agedNoted (s : State) (c i o : Nat) : ctxWord (agedNoted s c) i o = ctxWord s i o := ctxWord_of_bytes fun _ _ => ctxByte_agedNoted ..

theorem hqUsed_agedNoted (s : State) (c r : Nat) : hqUsed (agedNoted s c) r = hqUsed s r := by
  rw [hqUsed, hqUsed, agedNoted, raise_radio, setRg_radio]

theorem evt_agedNoted (s : State) (c : Nat) : evtBit (agedNoted s c) 6 0 2 = true := by
  rw [evtBit, agedNoted, rg_raise, if_pos rfl]
  exact bit_or_bitW _ (by decide)

theorem agedIdx_agedNoted (s : State) (h : c < 2 ^ 31) : (rg (agedNoted s c) CXS_AGED_IDX 0 0).toNat = 2 ^ 31 + c % 2 ^ 31 := by
  rw [agedNoted, rg_raise, if_neg (by decide), if_neg (by decide), rg_setRg_self, w32, BitVec.toNat_ofNat]
  omega

/-- An over-age context is FREE with its entries released, or AGED; its generation and last use stand. -/
structure AgedOut (s t : State) (c : Nat) : Prop where
  work : CtxWork s t c
  swept : t.cxs.swept = s.cxs.swept
  state : ctxState t c = if bit (rg s CXS_PART_CTX 0 (fld (ctxWord s c 4) 29 25)) 31 then 0 else 2
  header : ∀ b, 8 ≤ b → b < 0x100 → ctxByte t c b = ctxByte s c b
  gone : bit (rg s CXS_PART_CTX 0 (fld (ctxWord s c 4) 29 25)) 31 = true → entriesGone s t c (fld (ctxWord s c 4) 29 25) 8 (fun _ => True)

theorem agedOut_spec (hclean : s.mem.ue = []) (c : Nat) : AgedOut s (agedOut s c) c := by
  unfold agedOut
  split
  · rename_i hrel
    obtain ⟨hwork, hfree, hgone, -, hswept⟩ := ctxReleased_releaseCtx hclean c
    refine ⟨hwork, hswept, hfree.trans (if_pos hrel).symm, fun b hb hb' => ?_, fun _ => hgone⟩
    obtain ⟨-, -, -, hbytes⟩ := hgone
    exact hbytes b hb (by omega) fun g _ _ => by omega
  · rename_i hrel
    refine ⟨ctxWork_ctxPutW _ _ (by decide), ?_, ?_, fun b hb _ => ctxByte_ctxPutW_ne _ _ (.inr hb), fun h => absurd h hrel⟩
    · rw [ctxPutW_cxs]
    · rw [ctxState, ctxWord_ctxPutW_self, fld_setFld_state _ (by decide), if_neg hrel]

/-- The sweep acts on an over-age context. -/
theorem agedOut_noted (hclean : s.mem.ue = []) (hc : c < 2 ^ 31) :
    let t := agedNoted (agedOut s c) c
    t.cxs.swept = s.cxs.swept ∧ sameOutside s t c ∧ ctxState t c = (if bit (rg s CXS_PART_CTX 0 (fld (ctxWord s c 4) 29 25)) 31 then 0 else 2) ∧
      (rg t CXS_AGED_IDX 0 0).toNat = 2 ^ 31 + c % 2 ^ 31 ∧ evtBit t 6 0 2 = true ∧ ctxWord t c 8 = ctxWord s c 8 ∧
      ctxWord t c 0x10 = ctxWord s c 0x10 ∧ (bit (rg s CXS_PART_CTX 0 (fld (ctxWord s c 4) 29 25)) 31 = true →
        entriesGone s t c (fld (ctxWord s c 4) 29 25) 8 (fun _ => True)) := by
  obtain ⟨hwork, hswept, hstate, hheader, hgone⟩ := agedOut_spec hclean c
  obtain ⟨u, hu⟩ : ∃ u, u = agedOut s c := ⟨_, rfl⟩
  rw [← hu] at hwork hswept hstate hheader hgone ⊢
  refine ⟨?_, fun a ha => ?_, ?_, agedIdx_agedNoted u hc, evt_agedNoted u c, ?_, ?_, fun hrel => ?_⟩
  · rw [agedNoted, raise_cxs, setRg_cxs, hswept]
  · rw [agedNoted, raise_mem, setRg_mem]
    exact hwork.outside a ha
  · rw [ctxState_congr (ctxWord_agedNoted u c c 4), hstate]
  · rw [ctxWord_agedNoted]
    exact ctxWord_of_bytes fun j hj => hheader _ (by omega) (by omega)
  · rw [ctxWord_agedNoted]
    exact ctxWord_of_bytes fun j hj => hheader _ (by omega) (by omega)
  · exact entriesGone_congr (fun _ _ => iff_of_eq (or_false _)) (entriesGone_trans (by decide) (hgone hrel)
      (entriesGone_of_same (fun b _ _ => ctxByte_agedNoted u c c b) fun r => hqUsed_agedNoted u c r))

end

end Sys2Proof.Machine
end

section

namespace Sys2Proof.Proofs

open Sys2Proof Sys2Proof.Machine

section
variable {s : State} {p : Nat} {d : List Word}

theorem createIsCarriedOut (hd : tgetD [] s.host.picked p = [d]) (howner : ctxOwner s (fld (wd d 3) 17 0) = some p)
    (hfree : ctxState s (fld (wd d 3) 17 0) = 0) (cell ue : Nat) (ring : Word) :
    ∃ v, answered v (dropDesc (ctxCmd s p d true (fun i => decide (ctxState s i ≠ 0)) (fun i s => (createCtx s p i cell ue ring, 0))) p) p d 0 0 0 ∧
      CtxCreated s v p (fld (wd d 3) 17 0) (w32 (2 ^ 30 + p * 2 ^ 25 + cell * 2 ^ 18 + fld (wd d 3) 17 0)) (w32 ue) ring := by
  have hcreated := ctxCreated_createCtx s p (fld (wd d 3) 17 0) cell ue ring
  refine ⟨_, ctxCmd_carried hd howner (decide_eq_false (not_not.2 hfree)) rfl ?_, hcreated⟩
  rw [hcreated.work.frame]

theorem releaseIsCarriedOut (hd : tgetD [] s.host.picked p = [d]) (hclean : s.mem.ue = []) (howner : ctxOwner s (fld (wd d 3) 17 0) = some p)
    (hlive : ctxState s (fld (wd d 3) 17 0) ≠ 0) :
    ∃ v, answered v (dropDesc (ctxCmd s p d true (fun i => decide (ctxState s i = 0)) (fun i s => (releaseCtx s i, 0))) p) p d 0 0 0 ∧
      CtxReleased s v (fld (wd d 3) 17 0) (fld (ctxWord s (fld (wd d 3) 17 0) 4) 29 25) := by
  have hreleased := ctxReleased_releaseCtx hclean (fld (wd d 3) 17 0)
  refine ⟨_, ctxCmd_carried hd howner (decide_eq_false hlive) rfl ?_, hreleased⟩
  rw [hreleased.work.frame]

theorem harqRelIsCarriedOut (hd : tgetD [] s.host.picked p = [d]) (howner : ctxOwner s (fld (wd d 3) 17 0) = some p)
    (hlive : ctxState s (fld (wd d 3) 17 0) ≠ 0) (sel : Nat → Bool) :
    ∃ v, answered v (dropDesc (ctxCmd s p d true (fun i => decide (ctxState s i = 0)) (fun i s => (procsReleased s p i sel 16, 0))) p) p d 0 0 0 ∧
      CtxWork s v (fld (wd d 3) 17 0) ∧ entriesGone s v (fld (wd d 3) 17 0) p 0 (fun h => sel h = true) := by
  obtain ⟨hwork, hgone, -, -⟩ := procsGone_procsReleased s p (fld (wd d 3) 17 0) sel (Nat.le_refl 16)
  refine ⟨_, ctxCmd_carried hd howner (decide_eq_false hlive) rfl ?_, hwork, entriesGone_congr (fun g hg => and_iff_left hg) hgone⟩
  rw [hwork.frame]

theorem sweepActsOnOverAge {c : Nat} (hclean : s.mem.ue = []) (hdue : 256 ≤ (frameCnt s + 2 ^ 32 - s.cxs.swept) % 2 ^ 32) (hlive : liveCtxs s = [c]) :
    ∃ u, exec .ageSweep s = .next u ∧ u.cxs.swept = frameCnt s ∧ sameOutside s u c ∧
      (¬ OverAge s c → u = { s with cxs := u.cxs } ∧ u.cxs = { s.cxs with swept := frameCnt s }) ∧
      (OverAge s c → ctxState u c = (if bit (rg s CXS_PART_CTX 0 (fld (ctxWord s c 4) 29 25)) 31 then 0 else 2) ∧
        (rg u CXS_AGED_IDX 0 0).toNat = 2 ^ 31 + c % 2 ^ 31 ∧ evtBit u 6 0 2 = true ∧ ctxWord u c 8 = ctxWord s c 8 ∧
        ctxWord u c 0x10 = ctxWord s c 0x10 ∧ (bit (rg s CXS_PART_CTX 0 (fld (ctxWord s c 4) 29 25)) 31 = true →
          entriesGone s u c (fld (ctxWord s c 4) 29 25) 8 (fun _ => True))) := by
  have hexec := exec_ageSweep_single hdue hlive
  have hsame : OverAge (sweepNoted s) c ↔ OverAge s c := Iff.rfl
  by_cases hold : OverAge s c
  · obtain ⟨hswept, hout, hstate⟩ := agedOut_noted (s := sweepNoted s) hclean (lt_of_mem_liveCtxs (hlive ▸ List.mem_singleton_self c))
    rw [ageOne_old (hsame.2 hold)] at hexec
    exact ⟨_, hexec, hswept, hout, fun hno => absurd hold hno, fun _ => hstate⟩
  · rw [ageOne_young (mt hsame.1 hold)] at hexec
    exact ⟨_, hexec, rfl, fun _ _ => rfl, fun _ => ⟨rfl, rfl⟩, fun h => absurd h hold⟩

end

/-- Settles O42: a command is denied, refused or carried out on its one context; an update and the sweep change the bytes they name. -/
theorem contextsFollowTheirCommands : Obligations.ContextsFollowTheirCommands := by
  unfold Obligations.ContextsFollowTheirCommands
  intro s p d _ hclean i good mine stored refused denied
  have hstored {v : State} (h : CtxWork s v i) : stored v := ⟨h.frame, h.harq, h.outside⟩
  have hdenied {c : Instr} {write : Bool} {no : Nat → Bool} {f : Nat → State → State × Nat} (hd : tgetD [] s.host.picked p = [d])
      (hexec : exec c s = .next (dropDesc (ctxCmd s p d write no f) p)) (hmine : ¬ mine) : denied c := by
    obtain ⟨v, hanswer, hframe, hevt, hrec⟩ := ctxCmd_denied hd (write := write) (no := no) (f := f) hmine
    exact ⟨v, _, hexec, hanswer, hframe, hevt, hrec⟩
  have hrefused {c : Instr} {write : Bool} {no : Nat → Bool} {f : Nat → State → State × Nat} (hd : tgetD [] s.host.picked p = [d])
      (hexec : exec c s = .next (dropDesc (ctxCmd s p d write no f) p)) (hmine : mine) (hno : no i = true) : refused c :=
    ⟨_, hexec, ctxCmd_refused hd hmine hno⟩
  refine ⟨fun cell ue m ⟨hdesc, hindex, hzero⟩ hcell hue hm hcell' hue' hm' hsize hcount hmax => ?_, fun q ⟨hdesc, hindex, hzero⟩ hq => ?_,
    fun off n ⟨hdesc, hindex, hzero⟩ hhost hoff hn hn' hend => ?_, fun ⟨hdesc, hindex, hzero⟩ hmask => ?_,
    fun e q c hidle hfind hslot hc hread => ⟨fun hbad => ?_, fun hok hstale => ?_, fun hok hfresh => ?_⟩,
    fun hearly => exec_ageSweep_early hearly, fun c w hdue hlive hw => ?_⟩
  · subst hcell hue hm
    have hexec := exec_ctxCreate hdesc hindex hzero hcell' hue' hm' hsize hcount hmax
    refine ⟨hdenied hdesc.1 hexec, fun hmine hlive => hrefused hdesc.1 hexec hmine (decide_eq_true hlive), fun hmine hfree => ?_⟩
    obtain ⟨v, hanswer, hv⟩ := createIsCarriedOut hdesc.1 hmine hfree (wd d 4).toNat (wd d 5).toNat
      (w32 ((wd d 6).toNat / 256 * 2 ^ 24 + (wd d 6).toNat % 256 * 2 ^ 16))
    exact ⟨v, _, hexec, hanswer, hstored hv.work, hv.radio, hv.ctl, hv.gen, hv.ue, hv.lastUse, hv.ring, hv.zero, hv.active⟩
  · subst hq
    have hexec := exec_ctxRelease hdesc hindex hzero
    refine ⟨hdenied hdesc.1 hexec, fun hmine hfree => hrefused hdesc.1 hexec hmine (decide_eq_true hfree), fun hmine hlive => ?_⟩
    obtain ⟨v, hanswer, hv⟩ := releaseIsCarriedOut hdesc.1 hclean hmine hlive
    exact ⟨v, _, hexec, hanswer, hstored hv.work, hv.free, hv.gone, hv.active⟩
  · subst hoff hn
    have hexec := exec_ctxRead hdesc hindex hzero hhost hn' hend
    refine ⟨hdenied hdesc.1 hexec, fun hmine hfree => hrefused hdesc.1 hexec hmine (decide_eq_true hfree), fun hmine hlive => ?_⟩
    obtain ⟨v, hframe, hanswer⟩ := ctxRead_carried hdesc.1 hclean hmine hlive (fld (wd d 4) 31 16 * 64) (fld (wd d 4) 15 0 * 64)
      (addr64 (wd d 5) (wd d 6))
    exact ⟨v, _, hexec, hframe, hanswer⟩
  · have hexec := exec_harqRel hdesc hindex hzero hmask
    refine ⟨hdenied hdesc.1 hexec, fun hmine hfree => hrefused hdesc.1 hexec hmine (decide_eq_true hfree), fun hmine hlive => ?_⟩
    obtain ⟨v, hanswer, hwork, hgone⟩ := harqRelIsCarriedOut hdesc.1 hmine hlive (bit (wd d 4))
    exact ⟨v, _, hexec, hanswer, hstored hwork, hgone⟩
  · subst hc
    obtain ⟨hmem, hcxs, hevt⟩ := skipDesc_leaves (s := s) (e := e) (d := q) (r := 0x1D) (by decide)
    have hexec := exec_contextUpdate hfind hslot hread
    rw [applyUpdate_malformed hbad] at hexec
    refine ⟨_, hexec, hmem, hcxs, hevt, fun y hy => ?_⟩
    obtain ⟨-, -, -, -, hlogged, -⟩ := skipDesc_spec (e := e) hy (r := 0x1D) (by decide)
    exact hlogged
  · subst hc
    have hexec := exec_contextUpdate hfind hslot hread
    rw [applyUpdate_stale hok hstale] at hexec
    obtain ⟨hacted, hframe, hevt, hcount⟩ := staleNoted_spec s e q (Nat.mod_lt _ (by decide))
    exact ⟨_, hexec, hacted, hframe, hevt, hcount⟩
  · subst hc
    have hexec := exec_contextUpdate hfind hslot hread
    have hu := updated_applyUpdate (e := e) hclean hidle hok hfresh
    obtain ⟨hacted, hframe⟩ := updActed_then_write hu.write
    exact ⟨_, hexec, hacted, hframe, hu.write.work.outside, hu.seq, hu.gen, hu.active, hu.lastUse, hu.inside, fun n hn _ => hu.outside n hn⟩
  · subst hw
    exact sweepActsOnOverAge hclean hdue hlive

end Sys2Proof.Proofs
end


section
/-! Rate recovery (10 R311, 13 R404, R418) and the items of a slot that the coding engines set. -/

namespace Sys2Proof.Machine

open Sys2Proof

/-! ### An item is set in a state that has the same slots -/

section
variable {s t u : State} {c n i k : Nat} {x y : UlItem}

theorem itemSet_congr (hul : u.radio.ul = t.radio.ul) (h : itemSet s t c n i y) : itemSet s u c n i y := by
  obtain ⟨hself, hother⟩ := h
  exact ⟨(itemOf_congr hul c n i).trans hself, fun c' n' i' hne => (itemOf_congr hul c' n' i').trans (hother c' n' i' hne)⟩

theorem itemSet_setItem_of_ul (hul : t.radio.ul = s.radio.ul) (hx : itemOf s c n i = some x) (y : UlItem) :
    itemSet s (setItem t c n i y) c n i y := by
  obtain ⟨hself, hother⟩ := itemSet_setItem ((itemOf_congr hul c n i).trans hx) y
  exact ⟨hself, fun c' n' i' hne => (hother c' n' i' hne).trans (itemOf_congr hul c' n' i')⟩

/-- A code block of an item is replaced. -/
theorem itemSet_setCb (hul : t.radio.ul = s.radio.ul) (hx : itemOf s c n i = some x) (b : CodeBlock) :
    itemSet s (setCb t c n i k x b) c n i { x with cbs := tsetD {} x.cbs k b } := itemSet_setItem_of_ul hul hx _

theorem radioOnly_setItem (s : State) (c n i : Nat) (y : UlItem) : radioOnly s (setItem s c n i y) := rfl

end

/-! ### LLRs in ±127 (R404) -/

theorem llrSat_ne (v : Int) : llrSat v ≠ 0x80 := by
  obtain ⟨w, hw, hlow, hhigh⟩ : ∃ w : Int, llrSat v = BitVec.ofInt 8 w ∧ -127 ≤ w ∧ w ≤ 127 := by
    refine ⟨if v > 127 then 127 else if v < -127 then -127 else v, rfl, ?_, ?_⟩
    · split
      · decide
      · split
        · decide
        · omega
    · split
      · decide
      · split
        · decide
        · omega
  have hint : (BitVec.ofInt 8 w).toInt = w := BitVec.toInt_ofInt_eq_self (by decide) (by simpa using by omega) (by simpa using by omega)
  intro h
  rw [hw] at h
  rw [h] at hint
  have hmin : (0x80 : Byte).toInt = -128 := by decide
  omega

theorem addAt_ne {buf : List Byte} (l : List (Nat × Byte)) (h : ∀ y ∈ buf, y ≠ 0x80) : ∀ y ∈ addAt buf l, y ≠ 0x80 := by
  induction l generalizing buf with
  | nil => exact h
  | cons q l ih =>
    refine ih fun y hy => ?_
    rcases mem_lset hy with rfl | hy
    · exact llrSat_ne _
    · exact h y hy

/-- The recovered buffer: its length, its range, and its filler. -/
theorem recover_spec (c n i k : Nat) (p : UlPdu) (l : List Byte) :
    (recover c n i k p l).length = bufLen p.bg2 p.zc ∧ (∀ y ∈ recover c n i k p l, y ≠ 0x80) ∧
      ∀ j, j < (recover c n i k p l).length → isFiller p.bg2 p.zc (cbLen false p.tbs p.codeBlocks) j = true → (recover c n i k p l).getD j 0 = 127 := by
  obtain ⟨q, hq⟩ : ∃ q, recover c n i k p l = (List.range (bufLen p.bg2 p.zc)).map (fun j =>
      if isFiller p.bg2 p.zc (cbLen false p.tbs p.codeBlocks) j then 127 else (addAt (List.replicate (bufLen p.bg2 p.zc) 0) q).getD j 0) := ⟨_, rfl⟩
  have hlen : (recover c n i k p l).length = bufLen p.bg2 p.zc := by rw [hq, List.length_map, List.length_range]
  have hbuf : ∀ y ∈ addAt (List.replicate (bufLen p.bg2 p.zc) 0) q, y ≠ 0x80 := addAt_ne q fun y hy => by
    rw [List.eq_of_mem_replicate hy]
    decide
  refine ⟨hlen, fun y hy => ?_, fun j hj hfill => ?_⟩
  · rw [hq] at hy
    obtain ⟨j, -, rfl⟩ := List.mem_map.1 hy
    split
    · decide
    · rw [List.getD_eq_getElem?_getD]
      cases hj : (addAt (List.replicate (bufLen p.bg2 p.zc) 0) q)[j]? with
      | none => simp
      | some a => exact hbuf a (List.mem_of_getElem? hj)
  · rw [hlen] at hj
    rw [hq, getD_map_range _ _ hj, if_pos hfill]

/-! ### RATE_RECOVERY (R418) -/

section
variable {s : State} {c n i k : Nat} {x : UlItem}

theorem rateRecovery_waits (hx : itemOf s c n i = some x)
    (h : x.path = none ∨ x.status ≠ none ∨ (tgetD {} x.cbs k).stage ≠ 0 ∨ x.pdu.codeBlocks ≤ k) : exec (.rateRecovery c n i k) s = .next s := by
  have hbody : rateRecovery s c n i k = s := by
    unfold rateRecovery
    rw [hx]
    refine if_pos ?_
    rwa [Option.isNone_iff_eq_none, Option.isSome_iff_ne_none]
  exact congrArg Host.Outcome.next hbody

/-- The block that rate recovery leaves: failed without LLRs, and otherwise with its recovered buffer. -/
def recovered (s : State) (c n i k : Nat) (x : UlItem) : CodeBlock :=
  if x.llrs.getD k [] = [] then { tgetD {} x.cbs k with stage := 3, failed := true }
  else { tgetD {} x.cbs k with
    stage := 1
    llr := if cellLte s c then (Config.lteRecover x.pdu.rv (x.llrs.getD k [])).map llrNorm else recover c n i k x.pdu (x.llrs.getD k []) }

theorem exec_rateRecovery (hx : itemOf s c n i = some x) (hpath : x.path ≠ none) (hstatus : x.status = none)
    (hstage : (tgetD {} x.cbs k).stage = 0) (hk : k < x.pdu.codeBlocks) :
    exec (.rateRecovery c n i k) s = .next (setCb s c n i k x (recovered s c n i k x)) := by
  have hgo : ¬ (x.path.isNone = true ∨ x.status.isSome = true ∨ (tgetD {} x.cbs k).stage ≠ 0 ∨ x.pdu.codeBlocks ≤ k) := by
    rw [Option.isNone_iff_eq_none, Option.isSome_iff_ne_none]
    rintro (hno | hno | hno | hno)
    · exact hpath hno
    · exact hno hstatus
    · exact hno hstage
    · exact Nat.not_le.2 hk hno
  have hbody : rateRecovery s c n i k = setCb s c n i k x (recovered s c n i k x) := by
    unfold rateRecovery
    rw [hx]
    exact (if_neg hgo).trans (apply_ite (setCb s c n i k x) _ _ _).symm
  exact congrArg Host.Outcome.next hbody

end

end Sys2Proof.Machine
end


section
/-! The HARQ process of a PDU and its entries (13 R419, R422, R423, 14 R438, R439). -/

namespace Sys2Proof.Machine

open Sys2Proof

/-! ### The process record at the first code block (R439) -/

section
variable {s t : State} {e c n : Nat} {p : UlPdu}

/-- The first three words of the process record at offset `o`. -/
def procPut (s : State) (e o : Nat) (ctl tbs slot : Word) : State :=
  ctxPutW (ctxPutW (ctxPutW s e o ctl) e (o + 4) tbs) e (o + 8) slot

theorem procPut_reads (s : State) (e o : Nat) (ctl tbs slot : Word) : ctxWord (procPut s e o ctl tbs slot) e o = ctl ∧
    ctxWord (procPut s e o ctl tbs slot) e (o + 4) = tbs ∧ ctxWord (procPut s e o ctl tbs slot) e (o + 8) = slot ∧
    ∀ b, b < o ∨ o + 12 ≤ b → ctxByte (procPut s e o ctl tbs slot) e b = ctxByte s e b := by
  unfold procPut
  refine ⟨?_, ?_, ctxWord_ctxPutW_self .., fun b hb => ?_⟩
  · rw [ctxWord_ctxPutW_ne _ _ (.inl (by omega)), ctxWord_ctxPutW_ne _ _ (.inl (by omega)), ctxWord_ctxPutW_self]
  · rw [ctxWord_ctxPutW_ne _ _ (.inl (by omega)), ctxWord_ctxPutW_self]
  · rw [ctxByte_ctxPutW_ne _ _ (by omega), ctxByte_ctxPutW_ne _ _ (by omega), ctxByte_ctxPutW_ne _ _ (by omega)]

theorem ctxWrite_procPut (s : State) {e o : Nat} (ctl tbs slot : Word) (h : o + 12 ≤ 65536) : CtxWrite s (procPut s e o ctl tbs slot) e := by
  unfold procPut
  exact ((ctxWrite_ctxPutW _ _ (by omega)).trans (ctxWrite_ctxPutW _ _ (by omega))).trans (ctxWrite_ctxPutW _ _ (by omega))

/-- PROC_CTRL is VALID, whatever else it says. -/
theorem valid_procCtrl {ndi ent : Nat} (hndi : ndi < 2) (hent : ent < 256) (p : UlPdu) (lte : Bool) : bit (procCtrl ndi p lte ent) 31 = true := by
  have hbool (b : Bool) : b2n b ≤ 1 := by cases b <;> decide
  have hbg2 := hbool p.bg2
  have hlte := hbool lte
  have hone : b2n true = 1 := rfl
  refine bit_eq_of_div_mod ?_
  rw [procCtrl, w32, BitVec.toNat_ofNat, hone]
  omega

/-- The record that new data or another transport block find: their process has let go of its entries. -/
def procBegun (s : State) (part c e : Nat) (p : UlPdu) : State :=
  if p.newData ∨ !procMatches s e (procOff p.harq) p (cellLte s c) then procRelease s part e p.harq else s

/-- The NDI bit toggles with new data. -/
def ndiNext (w : Word) (p : UlPdu) : Nat := (fld w 30 30 + b2n p.newData) % 2

theorem openProc_eq (s : State) (part c n e : Nat) (p : UlPdu) : openProc s part c n e p =
    procPut (procBegun s part c e p) e (procOff p.harq) (procCtrl (ndiNext (ctxWord (procBegun s part c e p) e (procOff p.harq)) p) p
      (cellLte s c) (fld (ctxWord (procBegun s part c e p) e (procOff p.harq)) 7 0)) (w32 p.tbs) (w32 n) := by
  unfold openProc procPut procBegun ndiNext
  simp only

/-- The process record names the PDU's transport block; besides its first words, the state is that of `t`. -/
structure ProcOpened (t u : State) (e n : Nat) (p : UlPdu) : Prop where
  write : CtxWrite t u e
  pg : u.pg = t.pg
  valid : bit (ctxWord u e (procOff p.harq)) 31 = true
  tbs : (ctxWord u e (procOff p.harq + 4)).toNat = p.tbs % 2 ^ 32
  slot : (ctxWord u e (procOff p.harq + 8)).toNat = n % 2 ^ 32
  entry : ∀ k, k < 152 → entryAt u e p.harq k = entryAt t e p.harq k

theorem procOpened_procPut (t : State) (e n : Nat) (p : UlPdu) {ctl : Word} (hh : p.harq < 16) (hctl : bit ctl 31 = true) :
    ProcOpened t (procPut t e (procOff p.harq) ctl (w32 p.tbs) (w32 n)) e n p := by
  obtain ⟨hword, htbs, hslot, hbytes⟩ := procPut_reads t e (procOff p.harq) ctl (w32 p.tbs) (w32 n)
  refine ⟨ctxWrite_procPut _ _ _ _ (by unfold procOff; omega), ?_, ?_, ?_, ?_, fun k _ => ?_⟩
  · simp only [procPut, ctxPutW_pg]
  · rw [hword, hctl]
  · rw [htbs, w32, BitVec.toNat_ofNat]
  · rw [hslot, w32, BitVec.toNat_ofNat]
  · unfold entryAt
    exact ctxWord_of_bytes fun j _ => hbytes _ (.inr (by unfold procOff; omega))

theorem procOpened_openProc (s : State) (part c n e : Nat) (hh : p.harq < 16) :
    ProcOpened (procBegun s part c e p) (openProc s part c n e p) e n p := by
  have hfld (w : Word) : fld w 7 0 < 256 := by
    unfold fld
    omega
  rw [openProc_eq]
  exact procOpened_procPut _ _ _ _ hh (valid_procCtrl (Nat.mod_lt _ (by decide)) (hfld _) p _)

/-- A retransmission of the transport block that the record describes keeps the entries. -/
theorem procBegun_kept (part : Nat) (hnew : p.newData = false) (hmatch : procMatches s e (procOff p.harq) p (cellLte s c) = true) :
    procBegun s part c e p = s := by
  unfold procBegun
  rw [hnew, hmatch]
  rfl

theorem procBegun_new (part : Nat) (hnew : p.newData = true) : procBegun s part c e p = procRelease s part e p.harq := if_pos (.inl hnew)

/-- New data of a process that holds no entry changes no pool. -/
theorem hqUsed_procRelease_none (q e : Nat) {h : Nat} (hnone : ∀ j, j < 152 → bit (entryAt s e h j) 31 = false) (r : Nat) :
    hqUsed (procRelease s q e h) r = hqUsed s r := by
  have hentries : procEntries s e h = [] := List.eq_nil_iff_forall_not_mem.2 fun a ha => by
    obtain ⟨j, hj, hbit, -⟩ := mem_procEntries.1 ha
    rw [hnone j hj] at hbit
    cases hbit
  rw [hqUsed_procRelease, hentries]
  split
  · rename_i hr
    rw [hr]
    exact List.filter_eq_self.2 fun _ _ => rfl
  · rfl

end

/-! ### Entries of the pool (R422, R423) -/

section
variable {s t : State} {p e : Nat}

theorem hqAddr_congr (h : t.pg = s.pg) (p e : Nat) : hqAddr t p e = hqAddr s p e := by
  have hregion (k : Nat) : region? t k = region? s k := by
    unfold region?
    simp only [rg_congr h]
  unfold hqAddr partRegion regions
  rw [funext hregion, rg_congr h, rg_congr h]

theorem hqEntries_congr (h : t.pg = s.pg) (p : Nat) : hqEntries t p = hqEntries s p := by
  unfold hqEntries
  rw [rg_congr h]

theorem mread_congr {f : Byte} {m m' : Mem} {n a : Nat} (h : ∀ x, a ≤ x → x < a + n → mget f m' x = mget f m x) : mread f m' a n = mread f m a n := by
  induction n generalizing a with
  | zero => rfl
  | succ n ih => rw [mread, mread, h a (Nat.le_refl a) (by omega), ih fun x hx hx' => h x (by omega) (by omega)]

/-- An entry that lies outside the context. -/
def EntryApart (s : State) (e a n : Nat) : Prop := ∀ o, o < 65536 → ctxAddr s e o < a ∨ a + n ≤ ctxAddr s e o

theorem EntryApart.outside {a n : Nat} (h : EntryApart s e a n) {x : Nat} (hx : a ≤ x) (hx' : x < a + n) :
    x < ctxAddr s e 0 ∨ ctxAddr s e 65536 ≤ x := by
  have hplace := h (x - ctxAddr s e 0)
  unfold ctxAddr at hplace ⊢
  omega

/-- Work on the context leaves the bytes of the entry. -/
theorem extRead_of_outside {a n : Nat} (hout : sameOutside s t e) (h : EntryApart s e a n) : extRead t a n = extRead s a n :=
  mread_congr fun x hx hx' => hout x (h.outside hx hx')

theorem extRead_hqWrite (s : State) (p e : Nat) (l : List Byte) : extRead (hqWrite s p e l) (hqAddr s p e) l.length = l := mread_mwrite ..

/-- What is written to the entry leaves the context. -/
theorem ctxByte_hqWrite {i j b : Nat} {l : List Byte} (h : EntryApart s i (hqAddr s p j) l.length) (hb : b < 65536) :
    ctxByte (hqWrite s p j l) i b = ctxByte s i b := by
  have hread : ctxByte (hqWrite s p j l) i b = mget 0 (mwrite 0 s.mem.ext (hqAddr s p j) l) (ctxAddr s i b) := rfl
  have hplace := h b hb
  rw [hread, mget_mwrite, if_neg (by omega)]
  rfl

theorem ctxWord_hqWrite {i j o : Nat} {l : List Byte} (h : EntryApart s i (hqAddr s p j) l.length) (ho : o + 4 ≤ 65536) :
    ctxWord (hqWrite s p j l) i o = ctxWord s i o := ctxWord_of_bytes fun _ _ => ctxByte_hqWrite h (by omega)

theorem hqUsed_setHq (s : State) (p : Nat) (l : List Nat) : hqUsed (setHq s p l) p = l := (tgetD_tsetD ..).trans (if_pos rfl)

/-- The free entry of lowest index is allocated. -/
theorem hqAlloc_lowest (he : e < hqEntries s p) (hfree : e ∉ hqUsed s p) (hlow : ∀ f, f < e → f ∈ hqUsed s p) :
    hqAlloc s p = (some e, setHq s p (hqUsed s p ++ [e])) := by
  have hfind : (List.range (hqEntries s p)).find? (fun i => !decide (i ∈ hqUsed s p)) = some e := by
    refine List.find?_range_eq_some.2 ⟨?_, List.mem_range.2 he, fun f hf => ?_⟩
    · rw [decide_eq_false hfree]
      rfl
    · rw [decide_eq_true (hlow f hf)]
      rfl
  unfold hqAlloc
  rw [hfind]

/-- Without a free entry the lack is counted. -/
theorem hqAlloc_exhausted (h : ∀ e, e < hqEntries s p → e ∈ hqUsed s p) : hqAlloc s p = (none, satRg s LDD_POOL_EXHAUST 0 p 1) := by
  have hfind : (List.range (hqEntries s p)).find? (fun i => !decide (i ∈ hqUsed s p)) = none := by
    refine List.find?_eq_none.2 fun e he => ?_
    rw [decide_eq_true (h e (List.mem_range.1 he))]
    decide
  unfold hqAlloc
  rw [hfind]

end

/-! ### A code block is combined (R419, R423) -/

section
variable {s : State} {part c n i k e : Nat} {x : UlItem} {b : CodeBlock}

/-- The LLRs of a block added to those of its entry. -/
def llrSum (l old : List Byte) : List Byte := (l.zip old).map (fun q => llrSat (llrVal q.1 + llrVal q.2))

theorem length_llrSum {l old : List Byte} (h : old.length = l.length) : (llrSum l old).length = l.length := by
  rw [llrSum, List.length_map, List.length_zip, h, Nat.min_self]

/-- A block is added to its entry, which keeps the sum. -/
theorem combine_entry (hentry : bit (entryAt s e x.pdu.harq k) 31 = true) (hclean : s.mem.ue = []) :
    let a := fld (entryAt s e x.pdu.harq k) 19 0
    let sum := llrSum b.llr (extRead s (hqAddr s part a) b.llr.length)
    combine s part c n i k e x b = setCb (hqWrite s part a sum) c n i k x { b with stage := 2, comb := sum } := by
  unfold combine
  refine (if_pos hentry).trans ?_
  simp only [anyUE_of_clean hclean]
  rfl

/-- Entry `a` holds the LLRs of block `k` of process `h`, whose record lists it. -/
def entryListed (s : State) (part e h k a : Nat) (l : List Byte) : State :=
  let t := ctxPutW (hqWrite (setHq s part (hqUsed s part ++ [a])) part a l) e (procOff h + 0x20 + 4 * k) (w32 (2 ^ 31 + a))
  ctxPutW t e (procOff h) (setFld (ctxWord t e (procOff h)) 7 0 (fld (ctxWord t e (procOff h)) 7 0 + 1))

theorem combine_fresh {a : Nat} (hentry : bit (entryAt s e x.pdu.harq k) 31 = false) (hlt : a < hqEntries s part) (hfree : a ∉ hqUsed s part)
    (hlow : ∀ f, f < a → f ∈ hqUsed s part) : combine s part c n i k e x b =
      setCb (entryListed s part e x.pdu.harq k a b.llr) c n i k x { b with stage := 2, comb := b.llr } := by
  have hno : ¬ bit (ctxWord s e (procOff x.pdu.harq + 0x20 + 4 * k)) 31 = true := by
    rw [Bool.not_eq_true]
    exact hentry
  unfold combine
  refine (if_neg hno).trans ?_
  rw [hqAlloc_lowest hlt hfree hlow]
  rfl

theorem combine_exhausted (hentry : bit (entryAt s e x.pdu.harq k) 31 = false) (hfull : ∀ a, a < hqEntries s part → a ∈ hqUsed s part) :
    combine s part c n i k e x b = setCb (satRg s LDD_POOL_EXHAUST 0 part 1) c n i k x { b with stage := 2, comb := b.llr } := by
  have hno : ¬ bit (ctxWord s e (procOff x.pdu.harq + 0x20 + 4 * k)) 31 = true := by
    rw [Bool.not_eq_true]
    exact hentry
  unfold combine
  refine (if_neg hno).trans ?_
  rw [hqAlloc_exhausted hfull]

end

end Sys2Proof.Machine
end


section
/-! HARQ_COMBINE: the block is stored, its context is in use, and passes are formed (13 R406, R414, R419, 14 R441). -/

namespace Sys2Proof.Machine

open Sys2Proof

/-! ### Passes are formed (R406, R414) -/

section
variable {s : State} {c n : Nat}

/-- Forming passes changes the queue of the pool alone. -/
theorem formPasses_frame (s : State) (c n : Nat) (bg2 : Bool) (zc : Nat) : ∃ ps, formPasses s c n bg2 zc =
    { s with radio := { s.radio with passes := ps } } := by
  unfold formPasses
  split
  · exact ⟨s.radio.passes, rfl⟩
  · refine List.foldlRecOn (motive := fun u : State => ∃ ps, u = { s with radio := { s.radio with passes := ps } }) _ _ ⟨s.radio.passes, rfl⟩ ?_
    rintro u ⟨ps, rfl⟩ q -
    exact ⟨_, rfl⟩

/-- The one block of a slot is open, and its rows are known once it is combined. -/
theorem openBlocks_single {v : UlSlot} {y : UlItem} (hitems : v.items = [y]) (hkind : y.pdu.kind = .pusch) (hstatus : y.status = none)
    (hblocks : y.pdu.codeBlocks = 1) (hstage : (tgetD {} y.cbs 0).stage = 2) (hempty : s.radio.passes = []) :
    openBlocks s v y.pdu.bg2 y.pdu.zc = [(0, 0, some (rowsOf y.pdu.bg2 y.pdu.zc (tgetD {} y.cbs 0).comb))] := by
  unfold openBlocks
  simp [hitems, hkind, hstatus, hblocks, hstage, hempty]

/-- A single block fills a pass, whose size is never nothing (R406). -/
theorem packs_single {m : Nat} (hm : 1 ≤ m) (q : Nat × Nat × List Nat) : packs m true 2 [q] = [(q.2.2, [(q.1, q.2.1)])] := by
  obtain ⟨m, rfl⟩ := Nat.exists_eq_add_of_le' hm
  simp [packs]

theorem formPasses_single {v : UlSlot} {y : UlItem} (hv : ulOf s c n = some v) (hitems : v.items = [y]) (hkind : y.pdu.kind = .pusch)
    (hstatus : y.status = none) (hblocks : y.pdu.codeBlocks = 1) (hstage : (tgetD {} y.cbs 0).stage = 2) (hempty : s.radio.passes = [])
    (hzc : 1 ≤ y.pdu.zc) (hzc' : y.pdu.zc ≤ 384) : (formPasses s c n y.pdu.bg2 y.pdu.zc).radio.passes =
      [⟨v.part, c, n, y.pdu.bg2, y.pdu.zc, rowsOf y.pdu.bg2 y.pdu.zc (tgetD {} y.cbs 0).comb, [(0, 0)], s.tmu.ticks⟩] := by
  have hmax : Nat.max y.pdu.zc 1 = y.pdu.zc := Nat.max_eq_left hzc
  have hdiv : 1 ≤ 384 / y.pdu.zc := (Nat.one_le_div_iff hzc).2 hzc'
  have hm : 1 ≤ Nat.min 8 (384 / Nat.max y.pdu.zc 1) := by
    rw [hmax]
    exact Nat.le_min.2 ⟨by decide, hdiv⟩
  unfold formPasses
  rw [hv]
  simp only [openBlocks_single hitems hkind hstatus hblocks hstage hempty, combinedHead, List.length_singleton, decide_true,
    packs_single hm, List.foldl_cons, List.foldl_nil, hempty, queuePass]

end

/-! ### After the block is stored -/

/-- What stands after a code block `y` is stored in `z`: the context is used and passes are formed. -/
def combineEnd (z : State) (c n i k e : Nat) (x : UlItem) (y : CodeBlock) : State :=
  if cellLte (ctxUse (setCb z c n i k x y) e) c then ctxUse (setCb z c n i k x y) e
  else formPasses (ctxUse (setCb z c n i k x y) e) c n x.pdu.bg2 x.pdu.zc

section
variable {s z : State} {c n i k e : Nat} {x : UlItem} {y : CodeBlock} {v : UlSlot}

/-- The first code block of a PDU opens its process; then it is combined and stored. -/
theorem exec_harqCombine (hx : itemOf s c n i = some x) (hv : ulOf s c n = some v) (hctx : x.pdu.ctx = some e) (hstatus : x.status = none)
    (hstage : (tgetD {} x.cbs k).stage = 1) (hfirst : ∀ q ∈ x.cbs, q.2.stage < 2 ∨ q.2.failed = true)
    (hz : combine (openProc s v.part c n e x.pdu) v.part c n i k e x (tgetD {} x.cbs k) = setCb z c n i k x y) :
    exec (.harqCombine c n i k) s = .next (combineEnd z c n i k e x y) := by
  have hnone : x.cbs.any (fun q => decide (2 ≤ q.2.stage) && !q.2.failed) = false := List.any_eq_false.2 fun q hq => by
    rcases hfirst q hq with hlow | hfail
    · simp [Nat.not_le.2 hlow]
    · simp [hfail]
  have hgo : ¬ (x.status.isSome = true ∨ (tgetD {} x.cbs k).stage ≠ 1) := by simp [hstatus, hstage]
  have hbody : harqCombine s c n i k = combineEnd z c n i k e x y := by
    unfold harqCombine combineEnd
    rw [hv, hx]
    simp only [hctx]
    rw [if_neg hgo]
    simp only [hnone, Bool.not_false, if_true, hz]
  exact congrArg Host.Outcome.next hbody

theorem combineEnd_frame (z : State) (c n i k e : Nat) (x : UlItem) (y : CodeBlock) : ∃ ps, combineEnd z c n i k e x y =
    { ctxUse (setCb z c n i k x y) e with radio := { (setCb z c n i k x y).radio with passes := ps } } := by
  have hradio : (ctxUse (setCb z c n i k x y) e).radio = (setCb z c n i k x y).radio := by rw [ctxUse_frame]
  unfold combineEnd
  split
  · exact ⟨(setCb z c n i k x y).radio.passes, by rw [← hradio]⟩
  · rw [← hradio]
    exact formPasses_frame ..

theorem itemSet_combineEnd (hul : z.radio.ul = s.radio.ul) (hx : itemOf s c n i = some x) (y : CodeBlock) :
    itemSet s (combineEnd z c n i k e x y) c n i { x with cbs := tsetD {} x.cbs k y } := by
  obtain ⟨ps, hend⟩ := combineEnd_frame z c n i k e x y
  exact itemSet_congr (by rw [hend]) (itemSet_setCb hul hx y)

/-- `t` is `z` but for the use of context `e`, the queue of the pool and the slots. -/
structure UsedAfter (z t : State) (e : Nat) : Prop where
  pg : t.pg = z.pg
  harq : t.radio.harq = z.radio.harq
  outside : sameOutside z t e
  lastUse : ctxWord t e 0x10 = ageNow z
  bytes : ∀ b, 0x14 ≤ b → ctxByte t e b = ctxByte z e b

theorem usedAfter_combineEnd (z : State) (c n i k e : Nat) (x : UlItem) (y : CodeBlock) : UsedAfter z (combineEnd z c n i k e x y) e := by
  obtain ⟨ps, hend⟩ := combineEnd_frame z c n i k e x y
  have hmem : (combineEnd z c n i k e x y).mem.ext = (ctxUse (setCb z c n i k x y) e).mem.ext := by rw [hend]
  have hpg : (combineEnd z c n i k e x y).pg = z.pg := by
    rw [hend, ctxUse_frame]
    rfl
  have hpguse : (ctxUse (setCb z c n i k x y) e).pg = z.pg := by
    rw [ctxUse_frame]
    rfl
  have hbyte (b : Nat) : ctxByte (combineEnd z c n i k e x y) e b = ctxByte (ctxUse (setCb z c n i k x y) e) e b :=
    ctxByte_congr hmem (by unfold ctxBase; simp only [rg_congr hpg, rg_congr hpguse]) e b
  refine ⟨hpg, ?_, fun a ha => ?_, ?_, fun b hb => ?_⟩
  · rw [hend]
    rfl
  · rw [hmem]
    exact (ctxWork_ctxUse (setCb z c n i k x y) e).outside a ha
  · rw [ctxWord_of_bytes fun j _ => hbyte (0x10 + j)]
    exact lastUse_ctxUse ..
  · rw [hbyte, ctxByte_ctxUse (.inr (by omega)) (.inr hb)]
    rfl

theorem UsedAfter.word {t : State} (h : UsedAfter z t e) {o : Nat} (ho : 0x14 ≤ o) : ctxWord t e o = ctxWord z e o :=
  ctxWord_of_bytes fun _ _ => h.bytes _ (by omega)

/-- The only block of a slot in a cell of NR goes into a pass of its own. -/
theorem passes_combineEnd (hul : z.radio.ul = s.radio.ul) (hcells : z.radio.cells = s.radio.cells) (hpasses : z.radio.passes = s.radio.passes)
    (htmu : z.tmu = s.tmu) (hx : itemOf s c n i = some x) (hv : ulOf s c n = some v) (hlte : cellLte s c = false) (hitems : v.items = [x])
    (hkind : x.pdu.kind = .pusch) (hstatus : x.status = none) (hblocks : x.pdu.codeBlocks = 1) (hempty : s.radio.passes = [])
    (hzc : 1 ≤ x.pdu.zc) (hzc' : x.pdu.zc ≤ 384) (hstage : y.stage = 2) : (combineEnd z c n i 0 e x y).radio.passes =
      [⟨v.part, c, n, x.pdu.bg2, x.pdu.zc, rowsOf x.pdu.bg2 x.pdu.zc y.comb, [(i, 0)], s.tmu.ticks⟩] := by
  obtain ⟨u, hu⟩ : ∃ u, u = ctxUse (setCb z c n i 0 x y) e := ⟨_, rfl⟩
  have hframe := ctxUse_frame (setCb z c n i 0 x y) e
  rw [← hu] at hframe
  have hi : i = 0 := by
    obtain ⟨w, hw, hget⟩ := ulOf_of_itemOf hx
    obtain rfl : w = v := Option.some.inj (hw.symm.trans hv)
    rw [hitems] at hget
    cases i with
    | zero => rfl
    | succ i => cases hget
  subst hi
  have hslot : ulOf u c n = some { v with items := [{ x with cbs := tsetD {} x.cbs 0 y }] } := by
    have hset := ulOf_setItem_self z c n 0 { x with cbs := tsetD {} x.cbs 0 y }
    rw [ulOf_congr hul, hv, Option.map_some, hitems] at hset
    rw [hframe]
    exact hset
  have hcell : cellLte u c = false := by
    rw [← hlte]
    unfold cellLte cellOf
    rw [hframe]
    exact congrArg (fun l => match (tgetD {} l c : Cell).cfg with | some x => x.lte | none => false) hcells
  have hqueue : u.radio.passes = [] := by
    rw [hframe]
    exact hpasses.trans hempty
  have hblock : tgetD {} (tsetD {} x.cbs 0 y) 0 = y := (tgetD_tsetD ..).trans (if_pos rfl)
  have hticks : u.tmu.ticks = s.tmu.ticks := by
    rw [hframe, ← htmu]
    rfl
  unfold combineEnd
  rw [← hu, if_neg (by rw [hcell]; decide)]
  have hform := formPasses_single hslot rfl hkind hstatus hblocks (by rw [hblock]; exact hstage) hqueue hzc hzc'
  rw [hblock, hticks] at hform
  exact hform

end

end Sys2Proof.Machine
end

section
/-! HARQ combining: the entry of a block, a fresh entry, and an exhausted pool (13 R419, R422, R423). -/

namespace Sys2Proof.Machine

open Sys2Proof

/-! ### What stands before the context is used -/

/-- Opening a process and writing entries change the pools, memory, registers and the cache, and neither the slots, the queue nor the time. -/
structure BeforeUse (s z : State) : Prop where
  radio : z.radio = { s.radio with harq := z.radio.harq }
  tmu : z.tmu = s.tmu
  age : ageNow z = ageNow s

section
variable {s t z : State} {c n i k e : Nat} {x : UlItem} {y : CodeBlock} {v : UlSlot} {p : UlPdu}

theorem CtxWork.beforeUse (h : CtxWork s t e) : BeforeUse s t := ⟨h.harq, by rw [h.frame], h.age⟩

theorem BeforeUse.hqWrite (h : BeforeUse s z) (p a : Nat) (l : List Byte) : BeforeUse s (hqWrite z p a l) := ⟨h.radio, h.tmu, h.age⟩

theorem BeforeUse.setHq (h : BeforeUse s z) (p : Nat) (l : List Nat) : BeforeUse s (setHq z p l) := by
  obtain ⟨hradio, htmu, hage⟩ := h
  refine ⟨?_, htmu, hage⟩
  unfold Machine.setHq
  rw [hradio]

theorem BeforeUse.ctxPutW (h : BeforeUse s z) (e o : Nat) (w : Word) : BeforeUse s (ctxPutW z e o w) := ⟨h.radio, h.tmu, h.age⟩

theorem BeforeUse.satExhaust (h : BeforeUse s z) {q : Nat} (m : Nat) (hq : q < 32) : BeforeUse s (satRg z LDD_POOL_EXHAUST 0 q m) := by
  refine ⟨h.radio, h.tmu, Eq.trans ?_ h.age⟩
  have hkey : rkey TMU_FRAME_OFFSET 0 0 ≠ rkey LDD_POOL_EXHAUST 0 q := rkey_reg_ne (by decide) (by decide) (by omega)
  have hoff : frameOffset (satRg z LDD_POOL_EXHAUST 0 q m) = frameOffset z := congrArg BitVec.toNat (rg_setRg_ne _ _ hkey)
  have hnow : nowNs (satRg z LDD_POOL_EXHAUST 0 q m) = nowNs z := rfl
  unfold ageNow frameCnt
  rw [hoff, hnow]

/-! ### What the context and the queue hold afterwards -/

/-- Context `e` was used for the transport block of `p` in slot `n`. -/
def ProcUsed (s t : State) (e n : Nat) (p : UlPdu) : Prop :=
  ctxWord t e 0x10 = ageNow s ∧ (ctxWord t e (procOff p.harq + 4)).toNat = p.tbs % 2 ^ 32 ∧
    (ctxWord t e (procOff p.harq + 8)).toNat = n % 2 ^ 32 ∧ bit (ctxWord t e (procOff p.harq)) 31 = true

theorem ProcOpened.used {b u : State} (h : ProcOpened b u e n p) (hafter : UsedAfter z t e) (hage : ageNow z = ageNow s)
    (hvalid : bit (ctxWord z e (procOff p.harq)) 31 = bit (ctxWord u e (procOff p.harq)) 31)
    (htbs : ctxWord z e (procOff p.harq + 4) = ctxWord u e (procOff p.harq + 4))
    (hslot : ctxWord z e (procOff p.harq + 8) = ctxWord u e (procOff p.harq + 8)) : ProcUsed s t e n p := by
  have hoff : 0x100 ≤ procOff p.harq := by unfold procOff; omega
  refine ⟨hafter.lastUse.trans hage, ?_, ?_, ?_⟩
  · rw [hafter.word (by omega), htbs, h.tbs]
  · rw [hafter.word (by omega), hslot, h.slot]
  · rw [hafter.word (by omega), hvalid, h.valid]

/-- Block `k` of item `x` is all that its slot holds, and no pass is queued. -/
def LoneBlock (s : State) (c k : Nat) (v : UlSlot) (x : UlItem) : Prop :=
  cellLte s c = false ∧ v.items = [x] ∧ x.pdu.kind = .pusch ∧ x.pdu.codeBlocks = 1 ∧ k = 0 ∧ s.radio.passes = [] ∧ 1 ≤ x.pdu.zc ∧ x.pdu.zc ≤ 384

/-- A lone block forms a pass. -/
def PassQueued (s t : State) (c n i k : Nat) (v : UlSlot) (x : UlItem) (comb : List Byte) : Prop :=
  LoneBlock s c k v x → t.radio.passes = [⟨v.part, c, n, x.pdu.bg2, x.pdu.zc, rowsOf x.pdu.bg2 x.pdu.zc comb, [(i, 0)], s.tmu.ticks⟩]

theorem BeforeUse.queued (h : BeforeUse s z) (hx : itemOf s c n i = some x) (hv : ulOf s c n = some v) (hstatus : x.status = none)
    (hstage : y.stage = 2) : PassQueued s (combineEnd z c n i k e x y) c n i k v x y.comb := by
  rintro ⟨hlte, hitems, hkind, hblocks, rfl, hempty, hzc, hzc'⟩
  exact passes_combineEnd (by rw [h.radio]) (by rw [h.radio]) (by rw [h.radio]) h.tmu hx hv hlte hitems hkind hstatus hblocks hempty hzc hzc' hstage

/-- What is common to every block that is combined into `z`: its item and the queue. -/
theorem BeforeUse.ends (h : BeforeUse s z) (hx : itemOf s c n i = some x) (y : CodeBlock) :
    itemSet s (combineEnd z c n i k e x y) c n i { x with cbs := tsetD {} x.cbs k y } := itemSet_combineEnd (by rw [h.radio]) hx y

end

/-! ### The record of a block that opens its process -/

section
variable {s t : State} {part c n k e : Nat} {p : UlPdu}

theorem ctxWork_procBegun (s : State) (part c e : Nat) (hh : p.harq < 16) : CtxWork s (procBegun s part c e p) e := by
  unfold procBegun
  split
  · exact ctxWork_procRelease s part e hh
  · exact .refl s e

theorem ctxWork_openProc (s : State) (part c n e : Nat) (hh : p.harq < 16) : CtxWork s (openProc s part c n e p) e :=
  (ctxWork_procBegun s part c e hh).trans (procOpened_openProc s part c n e hh).write.work

theorem pg_openProc (s : State) (part c n e : Nat) (hh : p.harq < 16) : (openProc s part c n e p).pg = s.pg := by
  rw [(procOpened_openProc s part c n e hh).pg]
  unfold procBegun
  split
  · exact (procRelease_frame ..).1
  · rfl

theorem EntryApart.congr {a m : Nat} (h : EntryApart s e a m) (hbase : ctxBase t = ctxBase s) : EntryApart t e a m := by
  intro o ho
  have hplace := h o ho
  unfold ctxAddr at hplace ⊢
  rwa [hbase]

/-- A retransmission finds its entry, and nothing else changes in the pool. -/
theorem openProc_kept (hnew : p.newData = false) (hmatch : procMatches s e (procOff p.harq) p (cellLte s c) = true) (hh : p.harq < 16) (hk : k < 152) :
    entryAt (openProc s part c n e p) e p.harq k = entryAt s e p.harq k ∧ ∀ r, hqUsed (openProc s part c n e p) r = hqUsed s r := by
  have hopen := procOpened_openProc s part c n e hh
  rw [procBegun_kept part hnew hmatch] at hopen
  exact ⟨hopen.entry k hk, fun r => congrArg (fun l => tgetD [] l r) (congrArg Radio.harq hopen.write.radio)⟩

/-- New data of a process without entries finds none, and nothing changes in the pool. -/
theorem openProc_new (hnew : p.newData = true) (hnone : ∀ j, j < 152 → bit (entryAt s e p.harq j) 31 = false) (hh : p.harq < 16) (hk : k < 152) :
    entryAt (openProc s part c n e p) e p.harq k = 0 ∧ ∀ r, hqUsed (openProc s part c n e p) r = hqUsed s r := by
  have hopen := procOpened_openProc s part c n e hh
  rw [procBegun_new part hnew] at hopen
  obtain ⟨hgone, -, -, -⟩ := entriesGone_procRelease s part e hh
  exact ⟨(hopen.entry k hk).trans (hgone _ k hh hk rfl), fun r =>
    (congrArg (fun l => tgetD [] l r) (congrArg Radio.harq hopen.write.radio)).trans (hqUsed_procRelease_none part e hnone r)⟩

/-- NENT leaves VALID. -/
theorem bit31_setFld_nent (w : Word) (m : Nat) : bit (setFld w 7 0 m) 31 = bit w 31 := by
  have hw := w.isLt
  have htop : (setFld w 7 0 m).toNat / 2 ^ 31 = w.toNat / 2 ^ 31 := by
    unfold setFld fld
    rw [BitVec.toNat_ofNat]
    omega
  refine bit_eq_of_div_mod ?_
  rw [htop]
  rw [bit, ← BitVec.testBit_toNat, Nat.testBit_eq_decide_div_mod_eq]
  rcases Nat.mod_two_eq_zero_or_one (w.toNat / 2 ^ 31) with hzero | hone
  · rw [hzero]
    rfl
  · rw [hone]
    rfl

end

end Sys2Proof.Machine
end

section
/-! A code block is combined with its entry, gets the free entry of lowest index, or none (13 R419, R422, R423). -/

namespace Sys2Proof.Machine

open Sys2Proof

section
variable {s : State} {c n i k e : Nat} {x : UlItem} {v : UlSlot}

/-- Block `k` of item `x`, whose LLRs are recovered, is the first of its PDU to be combined, in context `e`; memory is sound. -/
structure FirstCombined (s : State) (c n i k e : Nat) (x : UlItem) (v : UlSlot) : Prop where
  item : itemOf s c n i = some x
  slot : ulOf s c n = some v
  ctx : x.pdu.ctx = some e
  status : x.status = none
  stage : (tgetD {} x.cbs k).stage = 1
  first : ∀ q ∈ x.cbs, q.2.stage < 2 ∨ q.2.failed = true
  block : k < 152
  proc : x.pdu.harq < 16
  clean : s.mem.ue = []

/-- The block once its LLRs are combined. -/
def combined (x : UlItem) (k : Nat) (comb : List Byte) : CodeBlock := { tgetD {} x.cbs k with stage := 2, comb := comb }

/-- What combining a block to `comb` does in every case. -/
structure CombineEnds (s t : State) (c n i k e : Nat) (x : UlItem) (v : UlSlot) (comb : List Byte) : Prop where
  exec : exec (.harqCombine c n i k) s = .next t
  item : itemSet s t c n i { x with cbs := tsetD {} x.cbs k (combined x k comb) }
  used : ProcUsed s t e n x.pdu
  queued : PassQueued s t c n i k v x comb

/-- The state `u` in which the process of the PDU is open: its record describes the transport block, and block `k`'s entry is `w`. -/
structure ProcReady (s u : State) (e n k : Nat) (p : UlPdu) (w : Word) : Prop where
  work : CtxWork s u e
  pg : u.pg = s.pg
  pool : ∀ r, hqUsed u r = hqUsed s r
  entry : entryAt u e p.harq k = w
  opened : ∃ b, ProcOpened b u e n p

/-- A retransmission finds its entry. -/
theorem FirstCombined.ready_kept (h : FirstCombined s c n i k e x v) (hnew : x.pdu.newData = false)
    (hmatch : procMatches s e (procOff x.pdu.harq) x.pdu (cellLte s c) = true) :
    ∃ u, u = openProc s v.part c n e x.pdu ∧ ProcReady s u e n k x.pdu (entryAt s e x.pdu.harq k) := by
  obtain ⟨hfound, hpool⟩ := openProc_kept (part := v.part) (n := n) hnew hmatch h.proc h.block
  exact ⟨_, rfl, ctxWork_openProc s v.part c n e h.proc, pg_openProc s v.part c n e h.proc, hpool, hfound, _, procOpened_openProc s v.part c n e h.proc⟩

/-- New data of a process without entries finds none. -/
theorem FirstCombined.ready_new (h : FirstCombined s c n i k e x v) (hnew : x.pdu.newData = true)
    (hnone : ∀ j, j < 152 → bit (entryAt s e x.pdu.harq j) 31 = false) : ∃ u, u = openProc s v.part c n e x.pdu ∧ ProcReady s u e n k x.pdu 0 := by
  obtain ⟨hfound, hpool⟩ := openProc_new (c := c) (part := v.part) (n := n) hnew hnone h.proc h.block
  exact ⟨_, rfl, ctxWork_openProc s v.part c n e h.proc, pg_openProc s v.part c n e h.proc, hpool, hfound, _, procOpened_openProc s v.part c n e h.proc⟩

/-- The end of a combination that stores the block in `z`, whose process record is that of the opened process. -/
theorem FirstCombined.ends (h : FirstCombined s c n i k e x v) {u z : State} {w : Word} {comb : List Byte} (hu : u = openProc s v.part c n e x.pdu)
    (hready : ProcReady s u e n k x.pdu w) (hz : combine u v.part c n i k e x (tgetD {} x.cbs k) = setCb z c n i k x (combined x k comb))
    (hbefore : BeforeUse s z) (hvalid : bit (ctxWord z e (procOff x.pdu.harq)) 31 = bit (ctxWord u e (procOff x.pdu.harq)) 31)
    (hwords : ∀ o, o = 4 ∨ o = 8 → ctxWord z e (procOff x.pdu.harq + o) = ctxWord u e (procOff x.pdu.harq + o)) :
    CombineEnds s (combineEnd z c n i k e x (combined x k comb)) c n i k e x v comb := by
  obtain ⟨b, hopen⟩ := hready.opened
  rw [hu] at hz
  exact ⟨exec_harqCombine h.item h.slot h.ctx h.status h.stage h.first hz, hbefore.ends h.item _,
    hopen.used (usedAfter_combineEnd ..) hbefore.age hvalid (hwords 4 (.inl rfl)) (hwords 8 (.inr rfl)), hbefore.queued h.item h.slot h.status rfl⟩

theorem ProcReady.apart {u : State} {p : UlPdu} {w : Word} (h : ProcReady s u e n k p w) {q j m : Nat} (hplace : EntryApart s e (hqAddr s q j) m) :
    EntryApart u e (hqAddr u q j) m := by
  rw [hqAddr_congr h.pg]
  exact hplace.congr h.work.base

/-- An entry keeps what was written to it while its context is used. -/
theorem UsedAfter.stored {u t : State} {q j : Nat} {l : List Byte} (hplace : EntryApart u e (hqAddr u q j) l.length)
    (h : UsedAfter (hqWrite u q j l) t e) : extRead t (hqAddr u q j) l.length = l := by
  have hapart : EntryApart (hqWrite u q j l) e (hqAddr u q j) l.length := hplace
  rw [extRead_of_outside h.outside hapart, extRead_hqWrite]

theorem procOff_le {p : UlPdu} (hh : p.harq < 16) : procOff p.harq + 640 ≤ 65536 := by
  unfold procOff
  omega

/-- A retransmission is added to the block's entry, which keeps the sum. -/
theorem FirstCombined.retransmitted (h : FirstCombined s c n i k e x v) (hnew : x.pdu.newData = false)
    (hmatch : procMatches s e (procOff x.pdu.harq) x.pdu (cellLte s c) = true) (hentry : bit (entryAt s e x.pdu.harq k) 31 = true)
    {a j : Nat} {l sum : List Byte} (hj : j = fld (entryAt s e x.pdu.harq k) 19 0) (ha : a = hqAddr s v.part j) (hl : l = (tgetD {} x.cbs k).llr)
    (hsum : sum = llrSum l (extRead s a l.length)) (hplace : EntryApart s e a l.length) :
    ∃ t, CombineEnds s t c n i k e x v sum ∧ extRead t a l.length = sum ∧ hqUsed t v.part = hqUsed s v.part := by
  obtain ⟨u, hu, hready⟩ := h.ready_kept hnew hmatch
  have hoff := procOff_le h.proc
  have haddr : hqAddr u v.part j = a := by rw [ha, hqAddr_congr hready.pg]
  have hlen : sum.length = l.length := by
    rw [hsum]
    exact length_llrSum (mread_length ..)
  have hapart : EntryApart u e (hqAddr u v.part j) sum.length := hready.apart (by rw [hlen, ← ha]; exact hplace)
  have hz : combine u v.part c n i k e x (tgetD {} x.cbs k) = setCb (hqWrite u v.part j sum) c n i k x (combined x k sum) := by
    rw [combine_entry (by rw [hready.entry]; exact hentry) (hready.work.clean h.clean), hready.entry, ← hj, haddr, ← hl,
      extRead_of_outside hready.work.outside hplace, ← hsum, hl]
    rfl
  have hafter := usedAfter_combineEnd (hqWrite u v.part j sum) c n i k e x (combined x k sum)
  refine ⟨_, h.ends hu hready hz (hready.work.beforeUse.hqWrite ..) ?_ fun o ho => ctxWord_hqWrite hapart (by omega), ?_, ?_⟩
  · rw [ctxWord_hqWrite hapart (by omega)]
  · rw [← haddr, ← hlen]
    exact hafter.stored hapart
  · exact (congrArg (tgetD [] · v.part) hafter.harq).trans (hready.pool v.part)

/-- The new entry stands in the process record, which stays VALID, and in the pool. -/
theorem entryListed_spec {u : State} {part h a : Nat} {l : List Byte} (hh : procOff h + 640 ≤ 65536) (hk : k < 152)
    (hplace : EntryApart u e (hqAddr u part a) l.length) :
    bit (ctxWord (entryListed u part e h k a l) e (procOff h)) 31 = bit (ctxWord u e (procOff h)) 31 ∧
    (∀ o, o = 4 ∨ o = 8 → ctxWord (entryListed u part e h k a l) e (procOff h + o) = ctxWord u e (procOff h + o)) ∧
    entryAt (entryListed u part e h k a l) e h k = w32 (2 ^ 31 + a) ∧ hqUsed (entryListed u part e h k a l) part = hqUsed u part ++ [a] := by
  obtain ⟨z, hz⟩ : ∃ z, z = hqWrite (setHq u part (hqUsed u part ++ [a])) part a l := ⟨_, rfl⟩
  have hlisted : entryListed u part e h k a l = ctxPutW (ctxPutW z e (procOff h + 0x20 + 4 * k) (w32 (2 ^ 31 + a))) e (procOff h)
      (setFld (ctxWord (ctxPutW z e (procOff h + 0x20 + 4 * k) (w32 (2 ^ 31 + a))) e (procOff h)) 7 0
        (fld (ctxWord (ctxPutW z e (procOff h + 0x20 + 4 * k) (w32 (2 ^ 31 + a))) e (procOff h)) 7 0 + 1)) := by
    rw [hz]
    unfold entryListed
    rfl
  have hword {o : Nat} (ho : o + 4 ≤ 65536) : ctxWord z e o = ctxWord u e o := by
    have hapart : EntryApart (setHq u part (hqUsed u part ++ [a])) e (hqAddr (setHq u part (hqUsed u part ++ [a])) part a) l.length := hplace
    rw [hz, ctxWord_hqWrite hapart ho]
    rfl
  have hentry : entryAt (entryListed u part e h k a l) e h k = ctxWord (entryListed u part e h k a l) e (procOff h + 0x20 + 4 * k) := rfl
  rw [hentry, hlisted]
  refine ⟨?_, fun o ho => ?_, ?_, ?_⟩
  · rw [ctxWord_ctxPutW_self, bit31_setFld_nent, ctxWord_ctxPutW_ne _ _ (.inl (by omega)), hword (by omega)]
  · rw [ctxWord_ctxPutW_ne _ _ (.inr (by omega)), ctxWord_ctxPutW_ne _ _ (.inl (by omega)), hword (by omega)]
  · rw [ctxWord_ctxPutW_ne _ _ (.inr (by omega)), ctxWord_ctxPutW_self]
  · unfold hqUsed
    rw [ctxPutW_radio, ctxPutW_radio, hz]
    exact hqUsed_setHq ..

/-- A block of new data gets the free entry of lowest index. -/
theorem FirstCombined.allocated (h : FirstCombined s c n i k e x v) (hnew : x.pdu.newData = true)
    (hnone : ∀ j, j < 152 → bit (entryAt s e x.pdu.harq j) 31 = false) {a : Nat} (hlt : a < hqEntries s v.part) (hfree : a ∉ hqUsed s v.part)
    (hlow : ∀ f, f < a → f ∈ hqUsed s v.part) (hplace : EntryApart s e (hqAddr s v.part a) (tgetD {} x.cbs k).llr.length) :
    ∃ t, CombineEnds s t c n i k e x v (tgetD {} x.cbs k).llr ∧ entryAt t e x.pdu.harq k = w32 (2 ^ 31 + a) ∧
      hqUsed t v.part = hqUsed s v.part ++ [a] := by
  obtain ⟨u, hu, hready⟩ := h.ready_new hnew hnone
  have hoff := procOff_le h.proc
  obtain ⟨hvalid, hwords, hlisted, hused⟩ := entryListed_spec hoff h.block (hready.apart hplace)
  have hno : bit (entryAt u e x.pdu.harq k) 31 = false := by
    rw [hready.entry]
    decide
  have hz := combine_fresh (c := c) (n := n) (i := i) (b := tgetD {} x.cbs k) hno (by rwa [hqEntries_congr hready.pg])
    (by rwa [hready.pool]) (by rwa [hready.pool])
  have hbefore : BeforeUse s (entryListed u v.part e x.pdu.harq k a (tgetD {} x.cbs k).llr) :=
    (((hready.work.beforeUse.setHq ..).hqWrite ..).ctxPutW ..).ctxPutW ..
  have hafter := usedAfter_combineEnd (entryListed u v.part e x.pdu.harq k a (tgetD {} x.cbs k).llr) c n i k e x (combined x k (tgetD {} x.cbs k).llr)
  refine ⟨_, h.ends hu hready hz hbefore hvalid hwords, (hafter.word (by omega)).trans hlisted, ?_⟩
  rw [← hready.pool, ← hused]
  exact congrArg (tgetD [] · v.part) hafter.harq

/-- A block of new data that finds the pool exhausted gets none. -/
theorem FirstCombined.exhausted (h : FirstCombined s c n i k e x v) (hpart : v.part < 32) (hnew : x.pdu.newData = true)
    (hnone : ∀ j, j < 152 → bit (entryAt s e x.pdu.harq j) 31 = false) (hfull : ∀ a, a < hqEntries s v.part → a ∈ hqUsed s v.part) :
    ∃ t, CombineEnds s t c n i k e x v (tgetD {} x.cbs k).llr ∧ entryAt t e x.pdu.harq k = 0 ∧ hqUsed t v.part = hqUsed s v.part ∧
      counted s t LDD_POOL_EXHAUST v.part 1 := by
  obtain ⟨u, hu, hready⟩ := h.ready_new hnew hnone
  have hno : bit (entryAt u e x.pdu.harq k) 31 = false := by
    rw [hready.entry]
    decide
  have hz := combine_exhausted (c := c) (n := n) (i := i) (b := tgetD {} x.cbs k) hno (by rwa [hready.pool, hqEntries_congr hready.pg])
  obtain ⟨z, hzdef⟩ : ∃ z, z = satRg u LDD_POOL_EXHAUST 0 v.part 1 := ⟨_, rfl⟩
  have hrg : rg z LDD_POOL_EXHAUST 0 v.part = satAdd (rg s LDD_POOL_EXHAUST 0 v.part) 1 := by
    rw [hzdef, ← rg_congr hready.pg]
    exact rg_setRg_self ..
  have hbase : ctxBase z = ctxBase u := by
    have hkey {r : Nat} (hr : r ≠ LDD_POOL_EXHAUST) : rg z r 0 0 = rg u r 0 0 := by
      rw [hzdef]
      exact rg_setRg_ne _ _ (rkey_reg_ne hr (by decide) (by omega))
    unfold ctxBase
    rw [hkey (by decide), hkey (by decide)]
  have hword (o : Nat) : ctxWord z e o = ctxWord u e o := ctxWord_of_bytes fun _ _ => ctxByte_congr (by rw [hzdef]; rfl) hbase _ _
  have hbefore : BeforeUse s z := by
    rw [hzdef]
    exact hready.work.beforeUse.satExhaust 1 hpart
  rw [← hzdef] at hz
  have hafter := usedAfter_combineEnd z c n i k e x (combined x k (tgetD {} x.cbs k).llr)
  refine ⟨_, h.ends hu hready hz hbefore (by rw [hword]) fun o _ => hword _, ?_, ?_, ?_⟩
  · exact (hafter.word (by omega)).trans ((hword _).trans hready.entry)
  · rw [← hready.pool]
    refine (congrArg (tgetD [] · v.part) hafter.harq).trans ?_
    rw [hzdef]
    rfl
  · exact (rg_congr hafter.pg ..).trans hrg

end

end Sys2Proof.Machine
end

section
/-! Passes of the LDPC pool (13 R408 to R412, R416). -/

namespace Sys2Proof.Machine

open Sys2Proof

/-! ### One block (R408 to R411) -/

/-- A block runs some of its iterations, and stops early only with a zero syndrome and a good checksum. -/
theorem runBlock_spec (z : LdpcCtx) (ok : List Bool → Bool) (f it : Nat) (st : LdpcSt) :
    it ≤ (runBlock z ok f it st).2.1 ∧ (runBlock z ok f it st).2.1 ≤ it + f ∧
      ((runBlock z ok f it st).2.2 = true → syndromeOk z (runBlock z ok f it st).1 = true ∧ ok (runBlock z ok f it st).1 = true) := by
  induction f generalizing it st with
  | zero => exact ⟨Nat.le_refl it, Nat.le_refl it, fun h => absurd h (by simp [runBlock])⟩
  | succ f ih =>
    unfold runBlock
    simp only
    split
    · rename_i hstop
      exact ⟨Nat.le_succ it, Nat.add_le_add_left (Nat.le_add_left 1 f) it, fun _ => Bool.and_eq_true_iff.1 hstop⟩
    · obtain ⟨hlow, hhigh, hgood⟩ := ih (it + 1) (iterStep z (it + 1) st)
      exact ⟨by omega, by omega, hgood⟩

/-! ### The queue and the decoders' runs do not bear on a result -/

/-- The state with the queue `ps` and the runs `rs` of the decoders. -/
def poolSet (s : State) (ps : List LdpcPass) (rs : Tab (Option (LdpcPass × Nat))) : State :=
  { s with radio := { s.radio with passes := ps, runs := rs } }

section
variable {s t : State} {ps : List LdpcPass} {rs : Tab (Option (LdpcPass × Nat))} {d i k : Nat} {x : UlItem} {a : LdpcPass}

theorem decodePoint_poolSet (s : State) (ps : List LdpcPass) (rs : Tab (Option (LdpcPass × Nat))) (c n : Nat) :
    decodePoint (poolSet s ps rs) c n = decodePoint s c n := rfl

theorem weights_poolSet (s : State) (ps : List LdpcPass) (rs : Tab (Option (LdpcPass × Nat))) (a : LdpcPass) (x : UlItem) :
    weights (poolSet s ps rs) a x = weights s a x := rfl

theorem decodeBlock_poolSet (s : State) (ps : List LdpcPass) (rs : Tab (Option (LdpcPass × Nat))) (a : LdpcPass) (cap : Nat) (x : UlItem) (k : Nat) :
    decodeBlock (poolSet s ps rs) a cap x k = decodeBlock s a cap x k := by
  unfold decodeBlock
  rw [weights_poolSet]

/-- The one block of a pass with its result. -/
theorem decodePass_single (hblocks : a.blocks = [(i, k)]) (hx : itemOf s a.cell a.slot i = some x) (ps : List LdpcPass)
    (rs : Tab (Option (LdpcPass × Nat))) (cap : Nat) : decodePass (poolSet s ps rs) a cap = [((i, k), decodeBlock s a cap x k)] := by
  have hitem : itemOf (poolSet s ps rs) a.cell a.slot i = some x := hx
  unfold decodePass
  simp only [hblocks, List.filterMap_cons, List.filterMap_nil, hitem, Option.map_some, decodeBlock_poolSet]

/-! ### Results are stored (R411, R412) -/

theorem satAdd_zero (w : Word) : satAdd w 0 = w := BitVec.eq_of_toNat_eq (by
  have hw := w.isLt
  rw [toNat_satAdd]
  exact Nat.min_eq_right (by omega))

theorem rkey_inst_ne {r r' i i' : Nat} (hr : r ≠ r') (hi : i < 256) (hi' : i' < 256) : rkey r i 0 ≠ rkey r' i' 0 := fun hkey =>
  hr (rkey_inj hi hi' (by decide) (by decide) hkey).1

/-- A block after its pass. -/
def decoded (x : UlItem) (k : Nat) (r : List Bool × Nat × Bool) : CodeBlock := { tgetD {} x.cbs k with stage := 3, hard := r.1, capped := !r.2.2 }

/-- The counter of the blocks that the decode point stopped, or of those that the cap did. -/
def stopCounter (late : Bool) : Nat := if late then LDD_DEC_STOP else LDD_CAP_COUNT

/-- Storing the result of a pass of one block changes its item and counters. -/
structure PassStored (s t : State) (d : Nat) (late : Bool) (a : LdpcPass) (i k : Nat) (x : UlItem) (r : List Bool × Nat × Bool) : Prop where
  frame : t = { s with radio := t.radio, pg := t.pg }
  radio : t.radio = { s.radio with ul := t.radio.ul }
  item : itemSet s t a.cell a.slot i { x with cbs := tsetD {} x.cbs k (decoded x k r) }
  passes : rg t LDD_PASS_COUNT d 0 = rg s LDD_PASS_COUNT d 0 + 1
  stops : counted s t (stopCounter late) 0 (b2n (!r.2.2))

/-- The block in its item, and counted if it was stopped. -/
def blockStored (s : State) (late : Bool) (a : LdpcPass) (i k : Nat) (x : UlItem) (r : List Bool × Nat × Bool) : State :=
  if r.2.2 then setCb s a.cell a.slot i k x (decoded x k r) else satRg (setCb s a.cell a.slot i k x (decoded x k r)) (stopCounter late) 0 0 1

theorem storePass_single (hx : itemOf s a.cell a.slot i = some x) (d : Nat) (late : Bool) (r : List Bool × Nat × Bool) :
    storePass s d a late [((i, k), r)] = wrapRg (wrapRg (blockStored s late a i k x r) LDD_PASS_COUNT d 0 1) LDD_ITER_COUNT d 0 r.2.1 := by
  have hits : Nat.max 0 r.2.1 = r.2.1 := Nat.zero_max _
  unfold storePass blockStored stopCounter decoded
  simp only [List.foldl_cons, List.foldl_nil, List.map_cons, List.map_nil, hx, hits]
  cases late with
  | false => rfl
  | true => rfl

theorem blockStored_frame (s : State) (late : Bool) (a : LdpcPass) (i k : Nat) (x : UlItem) (r : List Bool × Nat × Bool) :
    ∃ pg, blockStored s late a i k x r = { setCb s a.cell a.slot i k x (decoded x k r) with pg := pg } := by
  unfold blockStored
  split
  · exact ⟨s.pg, rfl⟩
  · exact ⟨_, rfl⟩

theorem rg_blockStored (s : State) (late : Bool) (a : LdpcPass) (k : Nat) (x : UlItem) (r : List Bool × Nat × Bool) {q j : Nat} (hj : j < 256) :
    rg (blockStored s late a i k x r) q j 0 =
      if q = stopCounter late ∧ j = 0 then satAdd (rg s q j 0) (b2n (!r.2.2)) else rg s q j 0 := by
  have hcb (u j : Nat) : rg (setCb s a.cell a.slot i k x (decoded x k r)) u j 0 = rg s u j 0 := rfl
  unfold blockStored
  cases hstop : r.2.2 with
  | true =>
    have hnone (w : Word) : satAdd w (b2n (!true)) = w := satAdd_zero w
    rw [if_pos rfl, hcb, hnone, ite_self]
  | false =>
    have hone : b2n (!false) = 1 := rfl
    rw [if_neg Bool.false_ne_true, satRg, rg_setRg, hcb, hcb, hone]
    by_cases hq : q = stopCounter late ∧ j = 0
    · rw [if_pos hq, hq.1, hq.2, if_pos rfl]
    · rw [if_neg hq, if_neg fun hkey => ?_]
      obtain ⟨hr, hinst, -⟩ := rkey_inj hj (by decide) (by decide) (by decide) hkey
      exact hq ⟨hr, hinst⟩

theorem stopCounter_ne (late : Bool) : stopCounter late ≠ LDD_PASS_COUNT ∧ stopCounter late ≠ LDD_ITER_COUNT := by
  unfold stopCounter
  cases late with
  | false => decide
  | true => decide

theorem passStored_storePass (hx : itemOf s a.cell a.slot i = some x) (hd : d < 16) (late : Bool) (r : List Bool × Nat × Bool) :
    PassStored s (storePass s d a late [((i, k), r)]) d late a i k x r := by
  obtain ⟨hpass, hiter⟩ := stopCounter_ne late
  obtain ⟨pg, hstored⟩ := blockStored_frame s late a i k x r
  rw [storePass_single hx]
  refine ⟨?_, ?_, ?_, ?_, ?_⟩
  · rw [hstored]
    rfl
  · rw [hstored]
    rfl
  · refine itemSet_congr ?_ (itemSet_setCb (t := s) rfl hx (decoded x k r))
    rw [hstored]
    rfl
  · unfold wrapRg
    rw [rg_setRg_ne _ _ (rkey_inst_ne (by decide) (by omega) (by omega)), rg_setRg_self, rg_blockStored _ _ _ _ _ _ (by omega),
      if_neg fun h => hpass h.1.symm]
    rfl
  · unfold counted wrapRg
    rw [rg_setRg_ne _ _ (rkey_inst_ne hiter (by omega) (by omega)), rg_setRg_ne _ _ (rkey_inst_ne hpass (by omega) (by omega)),
      rg_blockStored _ _ _ _ _ _ (by decide), if_pos ⟨rfl, rfl⟩]

/-! ### LDPC_PASS (R411, R412, R416) -/

theorem exec_ldpcPass_none (h : nextPass s d = none) (f : Bool) : exec (.ldpcPass d f) s = .next s := by
  have hbody : ldpcPass s d f = s := by
    unfold ldpcPass
    rw [h]
  exact congrArg Host.Outcome.next hbody

/-- The queue without the pass that a decoder takes. -/
def passesLeft (s : State) (a : LdpcPass) : List LdpcPass := delFirst (fun q => decide (q = a)) s.radio.passes

/-- A pass of one block ends before its decode point. -/
def EndsInTime (s : State) (a : LdpcPass) (x : UlItem) (k : Nat) : Prop :=
  (nowNs s : Int) + (lddNs (passCycles a (decodeBlock s a (iterCap s a.cell) x k).2.1) : Int) ≤ decodePoint s a.cell a.slot

theorem ldpcPass_eq (hnext : nextPass s d = some a) (hblocks : a.blocks = [(i, k)]) (hx : itemOf s a.cell a.slot i = some x) :
    ldpcPass s d false =
      if (nowNs s : Int) + (lddNs (passCycles a (decodeBlock s a (iterCap s a.cell) x k).2.1) : Int) ≤ decodePoint s a.cell a.slot then
        storePass (poolSet s (passesLeft s a) s.radio.runs) d a false [((i, k), decodeBlock s a (iterCap s a.cell) x k)]
      else poolSet s (passesLeft s a) (tsetD none s.radio.runs d (some (a, s.tmu.ticks))) := by
  have htaken : unqueue s a = poolSet s (passesLeft s a) s.radio.runs := rfl
  have hcap : iterCap (poolSet s (passesLeft s a) s.radio.runs) a.cell = iterCap s a.cell := rfl
  have hnow : nowNs (poolSet s (passesLeft s a) s.radio.runs) = nowNs s := rfl
  have hits (m : Nat) : Nat.max 0 m = m := Nat.zero_max m
  unfold ldpcPass
  rw [hnext]
  simp only [htaken, Bool.false_eq_true, if_false, hcap, decodePass_single hblocks hx, List.map_cons, List.map_nil, List.foldl_cons, List.foldl_nil,
    hits, hnow, decodePoint_poolSet]
  rfl

/-- A pass that ends before its decode point is stored. -/
theorem exec_ldpcPass_ends (hnext : nextPass s d = some a) (hblocks : a.blocks = [(i, k)]) (hx : itemOf s a.cell a.slot i = some x)
    (h : EndsInTime s a x k) : exec (.ldpcPass d false) s =
      .next (storePass (poolSet s (passesLeft s a) s.radio.runs) d a false [((i, k), decodeBlock s a (iterCap s a.cell) x k)]) :=
  congrArg Host.Outcome.next ((ldpcPass_eq hnext hblocks hx).trans (if_pos h))

/-- Any other stays on its decoder. -/
theorem exec_ldpcPass_stays (hnext : nextPass s d = some a) (hblocks : a.blocks = [(i, k)]) (hx : itemOf s a.cell a.slot i = some x)
    (h : ¬ EndsInTime s a x k) : exec (.ldpcPass d false) s =
      .next (poolSet s (passesLeft s a) (tsetD none s.radio.runs d (some (a, s.tmu.ticks)))) :=
  congrArg Host.Outcome.next ((ldpcPass_eq hnext hblocks hx).trans (if_neg h))

/-- An engine told to leave is out or leaves. -/
theorem leaves_leaveEngine (s : State) (code inst cause : Nat) : (code, inst) ∈ (leaveEngine s code inst cause).units.engOut ∨
    ∃ q ∈ (leaveEngine s code inst cause).units.engLeaving, q.1 = code ∧ q.2.1 = inst := by
  unfold leaveEngine
  split
  · rename_i hgone
    refine hgone.imp id fun hany => ?_
    obtain ⟨q, hq, hmatch⟩ := List.any_eq_true.1 hany
    exact ⟨q, hq, of_decide_eq_true hmatch⟩
  · exact .inr ⟨_, List.mem_append_right _ List.mem_cons_self, rfl, rfl⟩

theorem leaveEngine_frame (s : State) (code inst cause : Nat) : ∃ units, leaveEngine s code inst cause = { s with units := units } := by
  unfold leaveEngine
  split
  · exact ⟨s.units, rfl⟩
  · exact ⟨_, rfl⟩

theorem evtBit_raise (s : State) (c i : Nat) {b : Nat} (hb : b < 32) : evtBit (raise s c i b) c i b = true := by
  rw [evtBit, rg_raise, if_pos rfl]
  exact bit_or_bitW _ hb

/-- A failed check puts the pass back, counts a restart and takes the decoder out. -/
theorem decFault_spec (s : State) (hd : d < 16) (a : LdpcPass) :
    (decFault s d a).radio.passes = a :: s.radio.passes ∧ (decFault s d a).radio.ul = s.radio.ul ∧
    rg (decFault s d a) LDD_RESTARTS d 0 = satAdd (rg s LDD_RESTARTS d 0) 1 ∧ evtBit (decFault s d a) 24 d 0 = true ∧
    ((24, d) ∈ (decFault s d a).units.engOut ∨ ∃ q ∈ (decFault s d a).units.engLeaving, q.1 = 24 ∧ q.2.1 = d) := by
  obtain ⟨u, hu⟩ : ∃ u, u = raise (satRg (poolSet s (a :: s.radio.passes) (tsetD none s.radio.runs d none)) LDD_RESTARTS d 0 1) 24 d 0 := ⟨_, rfl⟩
  obtain ⟨units, hleave⟩ := leaveEngine_frame u 24 d 3
  obtain ⟨sf, hsafe⟩ := trigger_frame (leaveEngine u 24 d 3) a.part 4
  have hfault : decFault s d a = { leaveEngine u 24 d 3 with safe := sf } := by
    rw [← hsafe, hu]
    rfl
  have hradio : (decFault s d a).radio = u.radio := by rw [hfault, hleave]
  have hunits : (decFault s d a).units = (leaveEngine u 24 d 3).units := by rw [hfault]
  have hpg : (decFault s d a).pg = u.pg := by rw [hfault, hleave]
  have hraised : u.radio = { s.radio with passes := a :: s.radio.passes, runs := tsetD none s.radio.runs d none } := by
    obtain ⟨out, alert, hraise⟩ := raise_eq (satRg (poolSet s (a :: s.radio.passes) (tsetD none s.radio.runs d none)) LDD_RESTARTS d 0 1) 24 d 0
    rw [hu, hraise]
    rfl
  refine ⟨by rw [hradio, hraised], by rw [hradio, hraised], ?_, ?_, ?_⟩
  · rw [rg_congr hpg, hu, rg_raise, if_neg (rkey_inst_ne (by decide) (by omega) (by omega)), if_neg (rkey_inst_ne (by decide) (by omega) (by omega))]
    exact rg_setRg_self ..
  · rw [evtBit, rg_congr hpg, hu]
    exact evtBit_raise _ 24 d (by decide)
  · rw [hunits]
    exact leaves_leaveEngine u 24 d 3

theorem exec_ldpcPass_fault (hnext : nextPass s d = some a) :
    exec (.ldpcPass d true) s = .next (decFault (poolSet s (passesLeft s a) s.radio.runs) d a) := by
  have hbody : ldpcPass s d true = decFault (poolSet s (passesLeft s a) s.radio.runs) d a := by
    unfold ldpcPass
    rw [hnext]
    exact if_pos rfl
  exact congrArg Host.Outcome.next hbody

/-! ### DEC_LATE (R412) -/

theorem exec_decLate_idle (h : tgetD none s.radio.runs d = none) : exec (.decLate d) s = .next s := by
  have hbody : decLate s d = s := by
    unfold decLate
    rw [h]
  exact congrArg Host.Outcome.next hbody

theorem exec_decLate_early {t0 : Nat} (hrun : tgetD none s.radio.runs d = some (a, t0)) (h : (nowNs s : Int) < decodePoint s a.cell a.slot) :
    exec (.decLate d) s = .next s := by
  have hbody : decLate s d = s := by
    unfold decLate
    rw [hrun]
    exact if_pos h
  exact congrArg Host.Outcome.next hbody

/-- At the decode point a pass ends with what it has. -/
theorem exec_decLate_ends {t0 : Nat} (hrun : tgetD none s.radio.runs d = some (a, t0)) (hblocks : a.blocks = [(i, k)])
    (hx : itemOf s a.cell a.slot i = some x) (h : decodePoint s a.cell a.slot ≤ (nowNs s : Int)) : exec (.decLate d) s =
      .next (raise (storePass (poolSet s s.radio.passes (tsetD none s.radio.runs d none)) d a true
        [((i, k), decodeBlock s a (min (iterCap s a.cell) (lateIters s a t0)) x k)]) 24 0 1) := by
  have hbody : decLate s d = raise (storePass (poolSet s s.radio.passes (tsetD none s.radio.runs d none)) d a true
      (decodePass (poolSet s s.radio.passes (tsetD none s.radio.runs d none)) a (min (iterCap s a.cell) (lateIters s a t0)))) 24 0 1 := by
    unfold decLate
    rw [hrun]
    exact if_neg (not_lt.2 h)
  rw [decodePass_single hblocks hx] at hbody
  exact congrArg Host.Outcome.next hbody

end

end Sys2Proof.Machine
end

section
/-! Turbo and polar decoding (10 R316, 13 R427, R428, R430). -/

namespace Sys2Proof.Machine

open Sys2Proof

section
variable {s : State} {c n i k d : Nat} {x : UlItem}

/-! ### TURBO_DECODE (R430) -/

/-- The decision of a turbo decoder on block `k`, which counts unless the decode point has passed. -/
def turboResult (s : State) (c n k : Nat) (x : UlItem) : List Bool × Nat × Bool :=
  let r := Config.turbo (fld (rg s LDD_CELL_DEC 0 c) 6 4 + 1) (cbLen true x.pdu.tbs x.pdu.codeBlocks) (tgetD {} x.cbs k).comb
  (r.1, 0, r.2 && !reached s c n (points s c).2.2.1)

/-- The block is stored, the work counted, and the block too when it was stopped. -/
def turboStored (s : State) (d c n i k : Nat) (x : UlItem) : State :=
  let t := wrapRg (setCb s c n i k x (decoded x k (turboResult s c n k x))) TBO_WORK_COUNT d 0 1
  if (turboResult s c n k x).2.2 then t else satRg t (stopCounter (reached s c n (points s c).2.2.1)) 0 0 1

theorem exec_turboDecode (hx : itemOf s c n i = some x) (hlte : cellLte s c = true) (hstatus : x.status = none)
    (hstage : (tgetD {} x.cbs k).stage = 2) (hd : d < 2) (hin : (27, d) ∉ s.units.engOut) :
    exec (.turboDecode d c n i k) s = .next (turboStored s d c n i k x) := by
  have haway : engAway s 27 d = false := engAway_of_in hd hin
  have hgo : ¬ ((!cellLte s c) = true ∨ x.status.isSome = true ∨ (tgetD {} x.cbs k).stage ≠ 2 ∨ engAway s 27 d = true) := by
    simp [hlte, hstatus, hstage, haway]
  have hbody : turboDecode s d c n i k = turboStored s d c n i k x := by
    unfold turboDecode
    simp only [hx]
    rw [if_neg hgo]
    unfold turboStored turboResult decoded stopCounter
    cases reached s c n (points s c).2.2.1 with
    | false => rfl
    | true => rfl
  exact congrArg Host.Outcome.next hbody

theorem turboStored_spec (hx : itemOf s c n i = some x) (hd : d < 2) : radioOnly s (turboStored s d c n i k x) ∧
    itemSet s (turboStored s d c n i k x) c n i { x with cbs := tsetD {} x.cbs k (decoded x k (turboResult s c n k x)) } ∧
    rg (turboStored s d c n i k x) TBO_WORK_COUNT d 0 = rg s TBO_WORK_COUNT d 0 + 1 := by
  obtain ⟨t, ht⟩ : ∃ t, t = wrapRg (setCb s c n i k x (decoded x k (turboResult s c n k x))) TBO_WORK_COUNT d 0 1 := ⟨_, rfl⟩
  have honly : radioOnly s t := by
    rw [ht]
    rfl
  have hitem : itemSet s t c n i { x with cbs := tsetD {} x.cbs k (decoded x k (turboResult s c n k x)) } := by
    rw [ht]
    exact itemSet_setCb (t := s) rfl hx _
  have hwork : rg t TBO_WORK_COUNT d 0 = rg s TBO_WORK_COUNT d 0 + 1 := by
    rw [ht]
    exact rg_setRg_self ..
  have hcounter (late : Bool) : TBO_WORK_COUNT ≠ stopCounter late := by
    unfold stopCounter
    cases late with
    | false => decide
    | true => decide
  unfold turboStored
  rw [← ht]
  split
  · exact ⟨honly, hitem, hwork⟩
  · refine ⟨?_, hitem, ?_⟩
    · unfold radioOnly at honly ⊢
      rw [honly]
      rfl
    · rw [← hwork]
      exact rg_setRg_ne _ _ (rkey_inst_ne (hcounter _) (by omega) (by decide))

/-! ### POLAR_DECODE (R427, R428) -/

/-- What a polar codec decides on a UCI block. -/
def polarResult (s : State) (c n i : Nat) : List Bool × Bool :=
  Config.polar (cellLte s c) (2 ^ fld (rg s LDD_CELL_DEC 0 c) 10 9) (Config.uciLlr c n i)

/-- The status of a UCI block: OK, or CRC_FAIL when every path fails. -/
def polarStatus (r : List Bool × Bool) : Option Nat := some (if r.2 then 0 else 3)

/-- The item becomes `y` and the codec counts its work. -/
def polarStored (s : State) (d c n i : Nat) (y : UlItem) : State := wrapRg (setItem s c n i y) PLC_WORK_COUNT d 0 1

theorem polarStored_spec (hx : itemOf s c n i = some x) (y : UlItem) : radioOnly s (polarStored s d c n i y) ∧
    rg (polarStored s d c n i y) PLC_WORK_COUNT d 0 = rg s PLC_WORK_COUNT d 0 + 1 ∧ itemSet s (polarStored s d c n i y) c n i y :=
  ⟨rfl, rg_setRg_self .., itemSet_setItem hx y⟩

/-- A PUCCH PDU of format 2 to 4 takes its status from the codec. -/
theorem exec_polarDecode_pucch (hx : itemOf s c n i = some x) (hkind : x.pdu.kind = .pucch) (hfmt : 2 ≤ x.pdu.fmt) (hstatus : x.status = none)
    (hd : d < 2) (hin : (26, d) ∉ s.units.engOut) : exec (.polarDecode d c n i) s = .next (polarStored s d c n i
      { x with status := polarStatus (polarResult s c n i), uci := if (polarResult s c n i).2 then (polarResult s c n i).1 else [] }) := by
  have haway : engAway s 26 d = false := engAway_of_in hd hin
  have hpucch : (decide (x.pdu.kind = .pucch ∧ 2 ≤ x.pdu.fmt) && x.status.isNone) = true := by simp [hkind, hfmt, hstatus]
  have hbody : polarDecode s d c n i = polarStored s d c n i
      { x with status := polarStatus (polarResult s c n i), uci := if (polarResult s c n i).2 then (polarResult s c n i).1 else [] } := by
    unfold polarDecode
    simp only [hx, hpucch, Bool.true_or, Bool.not_true, haway, Bool.false_eq_true, or_self, if_false, if_true]
    rfl
  exact congrArg Host.Outcome.next hbody

/-- UCI on PUSCH takes a status of its own. -/
theorem exec_polarDecode_pusch (hx : itemOf s c n i = some x) (hkind : x.pdu.kind = .pusch) (huci : x.pdu.uci = true) (hpath : x.path ≠ none)
    (hopen : x.uciSt = none) (hd : d < 2) (hin : (26, d) ∉ s.units.engOut) : exec (.polarDecode d c n i) s = .next (polarStored s d c n i
      { x with uciSt := polarStatus (polarResult s c n i), uci := if (polarResult s c n i).2 then (polarResult s c n i).1 else [] }) := by
  have haway : engAway s 26 d = false := engAway_of_in hd hin
  have hpucch : (decide (x.pdu.kind = .pucch ∧ 2 ≤ x.pdu.fmt) && x.status.isNone) = false := by simp [hkind]
  have hcodes : (uciOpen x && x.path.isSome) = true := by simp [uciOpen, hkind, huci, hopen, Option.isSome_iff_ne_none, hpath]
  have hbody : polarDecode s d c n i = polarStored s d c n i
      { x with uciSt := polarStatus (polarResult s c n i), uci := if (polarResult s c n i).2 then (polarResult s c n i).1 else [] } := by
    unfold polarDecode
    simp only [hx, hpucch, hcodes, Bool.false_or, Bool.not_true, haway, Bool.false_eq_true, or_self, if_false]
    rfl
  exact congrArg Host.Outcome.next hbody

end

end Sys2Proof.Machine
end

section
/-! The coding engines' obligation (13 R404, R408 to R412, R416, R418, R419, R422, R423). -/

namespace Sys2Proof.Proofs

open Sys2Proof Sys2Proof.Machine

section
variable {s : State} {c n i k d e : Nat} {x : UlItem} {v : UlSlot} {a : LdpcPass}

/-- A block is recovered, or fails without LLRs. -/
theorem blockIsRecovered (hx : itemOf s c n i = some x) (hpath : x.path ≠ none) (hstatus : x.status = none) (hstage : (tgetD {} x.cbs k).stage = 0)
    (hk : k < x.pdu.codeBlocks) : ∃ t, exec (.rateRecovery c n i k) s = .next t ∧ radioOnly s t ∧ t.pg = s.pg ∧
      (x.llrs.getD k [] = [] → itemSet s t c n i { x with cbs := tsetD {} x.cbs k { tgetD {} x.cbs k with stage := 3, failed := true } }) ∧
      (x.llrs.getD k [] ≠ [] → cellLte s c = false → itemSet s t c n i
        { x with cbs := tsetD {} x.cbs k { tgetD {} x.cbs k with stage := 1, llr := recover c n i k x.pdu (x.llrs.getD k []) } }) := by
  have hset (y : CodeBlock) (hy : recovered s c n i k x = y) :
      itemSet s (setCb s c n i k x (recovered s c n i k x)) c n i { x with cbs := tsetD {} x.cbs k y } := by
    rw [hy]
    exact itemSet_setCb rfl hx y
  refine ⟨_, exec_rateRecovery hx hpath hstatus hstage hk, radioOnly_setItem .., rfl, fun hnone => hset _ (if_pos hnone), fun hsome hlte => hset _ ?_⟩
  rw [recovered, if_neg hsome, hlte]
  rfl

/-- A pass ends in time, stays on its decoder, or fails its check. -/
theorem passIsRun (hx : itemOf s a.cell a.slot i = some x) (hnext : nextPass s d = some a) (hblocks : a.blocks = [(i, k)]) (hd : d < 16) :
    let r := decodeBlock s a (iterCap s a.cell) x k
    (EndsInTime s a x k → ∃ t, exec (.ldpcPass d false) s = .next t ∧ t.radio.passes = passesLeft s a ∧ t.radio.runs = s.radio.runs ∧
      itemSet s t a.cell a.slot i { x with cbs := tsetD {} x.cbs k (decoded x k r) } ∧ rg t LDD_PASS_COUNT d 0 = rg s LDD_PASS_COUNT d 0 + 1 ∧
      counted s t LDD_CAP_COUNT 0 (b2n (!r.2.2)) ∧ t = { s with radio := t.radio, pg := t.pg }) ∧
    (¬ EndsInTime s a x k → exec (.ldpcPass d false) s = .next (poolSet s (passesLeft s a) (tsetD none s.radio.runs d (some (a, s.tmu.ticks))))) ∧
    ∃ t, exec (.ldpcPass d true) s = .next t ∧ t.radio.passes = a :: passesLeft s a ∧ t.radio.ul = s.radio.ul ∧
      rg t LDD_RESTARTS d 0 = satAdd (rg s LDD_RESTARTS d 0) 1 ∧ evtBit t 24 d 0 = true ∧
      ((24, d) ∈ t.units.engOut ∨ ∃ q ∈ t.units.engLeaving, q.1 = 24 ∧ q.2.1 = d) := by
  intro r
  refine ⟨fun hends => ?_, exec_ldpcPass_stays hnext hblocks hx, _, exec_ldpcPass_fault hnext, decFault_spec (poolSet s (passesLeft s a) s.radio.runs) hd a⟩
  obtain ⟨hframe, hradio, hitem, hpasses, hstops⟩ := passStored_storePass (s := poolSet s (passesLeft s a) s.radio.runs) hx hd false r
  exact ⟨_, exec_ldpcPass_ends hnext hblocks hx hends, by rw [hradio]; rfl, by rw [hradio]; rfl, hitem, hpasses, hstops, hframe⟩

/-- A pass that its decode point stops gives what it has. -/
theorem latePassIsEnded {t0 : Nat} (hx : itemOf s a.cell a.slot i = some x) (hrun : tgetD none s.radio.runs d = some (a, t0))
    (hblocks : a.blocks = [(i, k)]) (hd : d < 16) (hlate : decodePoint s a.cell a.slot ≤ (nowNs s : Int)) :
    let r := decodeBlock s a (min (iterCap s a.cell) (lateIters s a t0)) x k
    ∃ t, exec (.decLate d) s = .next t ∧ tgetD none t.radio.runs d = none ∧ evtBit t 24 0 1 = true ∧
      itemSet s t a.cell a.slot i { x with cbs := tsetD {} x.cbs k (decoded x k r) } ∧ counted s t LDD_DEC_STOP 0 (b2n (!r.2.2)) := by
  intro r
  obtain ⟨-, hradio, hitem, -, hstops⟩ := passStored_storePass (s := poolSet s s.radio.passes (tsetD none s.radio.runs d none)) hx hd true r
  obtain ⟨u, hu⟩ : ∃ u, u = storePass (poolSet s s.radio.passes (tsetD none s.radio.runs d none)) d a true [((i, k), r)] := ⟨_, rfl⟩
  rw [← hu] at hradio hitem hstops
  obtain ⟨out, alert, hraise⟩ := raise_eq u 24 0 1
  refine ⟨raise u 24 0 1, ?_, ?_, evtBit_raise u 24 0 (by decide), itemSet_congr (by rw [hraise]) hitem, ?_⟩
  · rw [hu]
    exact exec_decLate_ends hrun hblocks hx hlate
  · have hidle : tgetD none (tsetD none s.radio.runs d none) d = none := (tgetD_tsetD ..).trans (if_pos rfl)
    rw [hraise, hradio]
    exact hidle
  · unfold counted
    rw [rg_raise, if_neg (rkey_inst_ne (by decide) (by decide) (by decide)), if_neg (rkey_inst_ne (by decide) (by decide) (by decide))]
    exact hstops

end

/-- Settles O48: each code block is followed through rate recovery, the combination with its HARQ entry, its pass and its decoder. -/
theorem codeBlocksAreCombinedAndDecoded : Obligations.CodeBlocksAreCombinedAndDecoded := by
  intro s c n i k d x v hx hv _ hpart b h kept
  refine ⟨recover_spec c n i k, blockIsRecovered hx, rateRecovery_waits hx, fun ctx hctx hstatus hstage hfirst hk hh hclean => ?_,
    runBlock_spec, exec_ldpcPass_none, ?_, exec_decLate_idle, ?_, fun hlte hstatus hstage hd hin => ?_, fun hkind hfmt hstatus hd hin => ?_,
    fun hkind huci hpath hopen hd hin => ?_⟩
  · have hcomb : FirstCombined s c n i k ctx x v := ⟨hx, hv, hctx, hstatus, hstage, hfirst, hk, hh, hclean⟩
    refine ⟨fun hnew hmatch hentry hplace => ?_, fun hnew hnone => ⟨fun a hlt hfree hlow hplace => ?_, fun hfull => ?_⟩⟩
    · obtain ⟨t, ⟨hexec, hitem, hused, hqueued⟩, hsum, hpool⟩ := hcomb.retransmitted hnew hmatch hentry rfl rfl rfl rfl hplace
      exact ⟨t, _, hexec, rfl, hitem, hused, hsum, hpool, hqueued⟩
    · obtain ⟨t, ⟨hexec, hitem, hused, hqueued⟩, hentry, hpool⟩ := hcomb.allocated hnew hnone hlt hfree hlow hplace
      exact ⟨t, hexec, hitem, hused, hentry, hpool, hqueued⟩
    · obtain ⟨t, ⟨hexec, hitem, hused, hqueued⟩, hentry, hpool, hcount⟩ := hcomb.exhausted hpart hnew hnone hfull
      exact ⟨t, hexec, hitem, hused, hentry, hpool, hcount, hqueued⟩
  · rintro a hnext rfl rfl hblocks hd
    exact passIsRun hx hnext hblocks hd
  · rintro a t0 hrun rfl rfl hblocks hd
    exact ⟨exec_decLate_early hrun, latePassIsEnded hx hrun hblocks hd⟩
  · obtain ⟨honly, hitem, hwork⟩ := turboStored_spec (k := k) hx hd
    exact ⟨_, exec_turboDecode hx hlte hstatus hstage hd hin, honly, hitem, hwork⟩
  · exact ⟨_, exec_polarDecode_pucch hx hkind hfmt hstatus hd hin, polarStored_spec hx _⟩
  · exact ⟨_, exec_polarDecode_pusch hx hkind huci hpath hopen hd hin, polarStored_spec hx _⟩

end Sys2Proof.Proofs
end
